-- ==== Sys2Proof/Word.lean ====
section
/-!
DEFINITION. The plainest data of the model: bytes, 32-bit register words (R6), and the sparse keyed map
in which registers, wide values and memory are held.
-/
namespace Sys2Proof

/-- One byte. -/
abbrev Byte := BitVec 8

/-- One 32-bit register word (R6). -/
abbrev Word := BitVec 32

/-- A sparse map from a key to a value: keys strictly rising, and no entry equal to what an unlisted key
reads as. The operations are in `Sys2Proof/Machine/Store.lean`. -/
abbrev KMap (α : Type) := List (Nat × α)

end Sys2Proof
end

