-- ==== Sys2Proof/Syntax.lean ====
section
/-!
DEFINITION. The commands the block takes from outside (spec/opcode_table.json), one constructor a row, with
their operands: the access, the event on a pin, the word or the data that arrives, the moment an engine reports.
-/
namespace Sys2Proof

/-- A host port (R113). -/
inductive Port where
  | a | b
  deriving DecidableEq, Repr

/-- The host windows through which registers are reached (R76): the manager control window, the manager's
doorbell window, the window of the subordinate physical function, and an instance's window. -/
inductive Win where
  | mgr | mgrDb | sub | vf (i : Fin 64)
  deriving DecidableEq, Repr

/-- The normal view and its three aliases (R78, R87). -/
inductive AliasOp where
  | normal | set | clear | toggle
  deriving DecidableEq, Repr

/-- Frames with buffered fields (R98). -/
inductive FrameRef where
  | ring (q : Fin 256) | car | blw | head (h : Fin 8) | layer (k : Fin 64) | cal | hap (a : Fin 8)
  deriving DecidableEq, Repr

/-- The wide-value mailboxes (R104, R580). -/
inductive MbxRef where
  | mgr | sub | vf (i : Fin 64) | barker
  deriving DecidableEq, Repr

/-- A function of a port: its physical function, or the virtual function of an instance (R116). -/
inductive FnRef where
  | pf (p : Port) | vf (i : Fin 64)
  deriving DecidableEq, Repr

/-- A configuration request (R134): a read, or a write of one of the settings the spec gives an effect. -/
inductive CfgReq where
  | read (off : BitVec 12)
  | busMaster (on : Bool)
  | powerState (d3hot : Bool)
  | msixControl (enable maskAll : Bool)
  | numVFs (n : Fin 65)
  | vfEnable (on : Bool)
  | aspmL1 (on : Bool)
  | ptmEnable (on : Bool)
  | apertureSize (log2 : Fin 64)
  | other (off : BitVec 12) (v : Word)
  deriving DecidableEq, Repr

/-- How a read of host memory ended (R127). -/
inductive ReadStatus where
  | ok | error | poisoned
  deriving DecidableEq, Repr

/-- How an engine's work ended: normally, with a refused or poisoned access at an address, or with a status of
its own (R162). -/
inductive WorkEnd where
  | ok
  | fault (addr : BitVec 64)
  | status (s : Byte) (detail : Word)
  deriving DecidableEq, Repr

/-- A core group of the graphics engine or a copy engine (R182, R183). -/
inductive EngineRef where
  | group (g : Fin 4) | copy (n : Fin 2)
  deriving DecidableEq, Repr

/-- A function that holds vectors and a call block: the manager, the subordinate physical function or an
instance (R124, R408). -/
inductive FnId where
  | mgr | sub | vf (i : Fin 64)
  deriving DecidableEq, Repr

/-- What the Bellows measures in step 1 of a round (R535), and what the retention of the round found. -/
structure Measure where
  temps : List (BitVec 8) := []            -- 32 sensors, °C, two's complement
  peaks : List (BitVec 8) := []
  otherMw : Nat := 0                       -- P_other
  fullMw : List Nat := []                  -- P_full(n, T) for the five points
  measured10mw : Nat := 0                  -- VDD_CORE and VDD_GFX from PMBus
  energyMj : Nat := 0
  boostMw : Nat := 0                       -- estimate at the next point up (R538)
  lowSlack : List Nat := []                -- domains with a replica below its threshold: 0 GFX, 1 CORE (R545)
  outside : Bool := false                  -- a sensor or monitor outside the recommended limits (R587)
  deriving DecidableEq, Repr

/-- What a sink reports when it is plugged (R285, R288, R293). -/
structure SinkCaps where
  maxLanes : Fin 5
  maxRate : Fin 11
  dsc : Bool
  dscCounts : Fin 16                       -- slice counts 1, 2, 4, 8 as bits 0 to 3
  psr : Fin 3                              -- 0 none, 1 PSR, 2 PSR2
  deriving DecidableEq, Repr

/-- A sink's answer to an AUX, I2C-over-AUX or DCS request (R289). -/
inductive AuxReply where
  | ack | nack | deferred
  deriving DecidableEq, Repr

/-- A request at a DRAM channel (R357, R359). -/
structure DramReq where
  port : Fin 24                            -- R391
  urg : Fin 4                              -- for CAP and POT: the urgency the port gives it (R360)
  cls : Fin 4                              -- 0 class B, 1 S, 2 P, 3 G (R46)
  inst : BitVec 8                          -- instance charged, 0xFF none
  secure : Bool
  addr : BitVec 36
  write : Bool
  data : List Byte                         -- of a write, within one block
  scrub : Bool                             -- of BG: a page scrub (R387)
  deriving DecidableEq, Repr

/-- What the ECC check of a block read finds (R384). -/
inductive EccRead where
  | clean | oneBit (syndrome : BitVec 16) | twoBits (syndrome : BitVec 16) | addrCheck (syndrome : BitVec 16)
  deriving DecidableEq, Repr

/-- How training ends (R377, R378): the fit found, or the channels that failed. -/
inductive TrainResult where
  | ok (gib ranks : Nat) (rate : BitVec 16) (eyes : List (BitVec 7 × BitVec 7))
  | fail (channels : BitVec 16)
  deriving DecidableEq, Repr

/-- How a cold-start step ends (R550, R555, R556). -/
inductive BootResult where
  | ok                                     -- the step ended; steps 6 and 8 then make their own checks
  | pllUnlocked | fuseCheck                -- step 4
  | testFailed (test : Byte)               -- step 7
  | coreFailed (core : Fin 16)             -- step 7: a test slice failed
  deriving DecidableEq, Repr

/-- The commands (spec/opcode_table.json). -/
inductive Instr where
  /-- REGISTER_WRITE (R90): A host write to a register field that has no row of its own, with byte-enable, width and bound checks. -/
  | registerWrite (w : Win) (off : Nat) (data : List Byte) (be : List Bool) (hw : Bool)
  /-- ALIAS_SET_WRITE (R87): A write through the set alias sets the 1 bits of RW fields and RWB shadows in one indivisible update. -/
  | aliasSetWrite (w : Win) (off : Nat) (data : List Byte) (be : List Bool) (hw : Bool)
  /-- ALIAS_CLEAR_WRITE (R87): A write through the clear alias clears the 1 bits of RW fields and RWB shadows in one indivisible update. -/
  | aliasClearWrite (w : Win) (off : Nat) (data : List Byte) (be : List Bool) (hw : Bool)
  /-- ALIAS_TOGGLE_WRITE (R87): A write through the toggle alias toggles the 1 bits of RW fields and RWB shadows in one indivisible update. -/
  | aliasToggleWrite (w : Win) (off : Nat) (data : List Byte) (be : List Bool) (hw : Bool)
  /-- BROADCAST_WRITE (R109): A broadcast write reaches every selected member of a group as a separate write. -/
  | broadcastWrite (op : AliasOp) (sel : Fin 16) (typ : Fin 8) (off : Nat) (data : List Byte) (be : List Bool)
  /-- BROADCAST_READ (R109): A broadcast read returns the lowest selected member's value and notes disagreeing members. -/
  | broadcastRead (sel : Fin 16) (typ : Fin 8) (off : Nat)
  /-- ARM (R97): Setting CTRL[ARM] requests that a frame's shadows be applied at its next boundary. -/
  | arm (f : FrameRef)
  /-- REVERT (R97): CTRL[REVERT] copies the active values into every shadow of the frame and clears ARM. -/
  | revert (f : FrameRef)
  /-- IDLE_APPLY (R102): An armed apply of an idle frame is made within 1 µs of ARM with the checks of R99. -/
  | idleApply (f : FrameRef)
  /-- MBX_READ (R105): A write of MBX_REQ with OP READ starts a wide-value read and clears VALID. -/
  | mbxRead (m : MbxRef) (code : BitVec 24)
  /-- MBX_LOAD (R105): A write of MBX_REQ with OP LOAD loads the data words into a CNT value. -/
  | mbxLoad (m : MbxRef) (code : BitVec 24)
  /-- MBX_CAPTURE (R105): Hardware captures every word of the requested wide value in one cycle and sets VALID. -/
  | mbxCapture (m : MbxRef)
  /-- MBX_DATA_READ (R104): A read of a mailbox data word returns it, and a read of the last word clears VALID. -/
  | mbxDataRead (m : MbxRef) (k : Fin 4)
  /-- DB (R155): A 32-bit doorbell write sets HOST_IDX of a ring under the fill rule of R153. -/
  | db (w : Win) (slot : Fin 16) (v : Word)
  /-- DB64 (R155): An atomic 64-bit doorbell write sets HOST_IDX and optionally re-arms a one-shot ring's interrupt. -/
  | db64 (w : Win) (slot : Fin 16) (lo hi : Word)
  /-- CONFIG_REQUEST (R134): A PCI Express configuration request to a function, answered with RRS until the function is ready. -/
  | configRequest (f : FnRef) (req : CfgReq)
  /-- APERTURE_READ (R123): A host read through the aperture window is checked against page ownership as owner 3. -/
  | apertureRead (addr : BitVec 36) (len : Fin 65)
  /-- APERTURE_WRITE (R123): A host write through the aperture window is checked against page ownership as owner 3. -/
  | apertureWrite (addr : BitVec 36) (data : List Byte)
  /-- MSIX_UNMASK (R125): Unmasking a vector with its pending bit set sends one message for the events while masked. -/
  | msixUnmask (f : FnId) (vec : Fin 32)
  /-- PERST_ASSERT (R132): PCIE_PERST_x_N falls, resetting the port's link and functions and making its instances lost. -/
  | perstAssert (p : Port)
  /-- PERST_RELEASE (R133): PCIE_PERST_x_N rises and the port proceeds to Detect, or wakes a port in L2. -/
  | perstRelease (p : Port)
  /-- HOT_RESET (R132): A hot reset or link disable from the host acts as PERST of that port. -/
  | hotReset (p : Port)
  /-- LINK_DOWN (R135): A port's data link goes down and the loss sequence of detect, cut-off, quiesce and host-lost runs. -/
  | linkDown (p : Port)
  /-- LINK_UP (R145): A port reaches L0 and sets LINK_UP. -/
  | linkUp (p : Port) (gen : Fin 8) (lanes : Fin 16)
  /-- VF_FLR (R132): Function-level reset of a VF resets its instance as a reset without quiesce. -/
  | vfFlr (i : Fin 64)
  /-- PF_FLR (R132): Function-level reset of a physical function resets its configuration, rings, vectors and SR-IOV capability. -/
  | pfFlr (p : Port)
  /-- VF_ENABLE_CLEAR (R119): Clearing VF Enable or lowering NumVFs makes the affected instances lost. -/
  | vfEnableClear (p : Port) (numVFs : Fin 65)
  /-- PME_TURN_OFF (R139): PME_Turn_Off and its acknowledge take a port into L2 without losing its instances. -/
  | pmeTurnOff (p : Port)
  /-- PTM_DIALOGUE (R128): Every PERIOD_MS the device starts a PTM dialogue with the source port's host. -/
  | ptmDialogue
  /-- PTM_RESPONSE (R128): A PTM dialogue ends and the timebase rate is adjusted toward host time. -/
  | ptmResponse (host : Option (BitVec 64))
  /-- HOST_READ_COMPLETION (R127): A read completion from the host arrives, and error or poisoned data is treated as poisoned. -/
  | hostReadCompletion (q : Fin 256) (data : List Byte) (st : ReadStatus)
  /-- HOST_READ_TIMEOUT (R127): A read to the host exceeds its completion timeout and its data is treated as poisoned. -/
  | hostReadTimeout (q : Fin 256)
  /-- RING_START (R156): CTRL[START] moves a DISABLED ring to RUNNING with both indices 0, or sets START_REFUSED. -/
  | ringStart (q : Fin 256)
  /-- RING_STOP (R156): CTRL[STOP] moves a RUNNING ring to STOPPING and stops further fetch. -/
  | ringStop (q : Fin 256)
  /-- RING_RESUME (R156): CTRL[RESUME] returns a STOPPED or HALTED ring to RUNNING from its present indices. -/
  | ringResume (q : Fin 256)
  /-- RING_DISABLE (R156): CTRL[DISABLE] disables a STOPPED or HALTED ring once its fetched descriptors have completed. -/
  | ringDisable (q : Fin 256)
  /-- DESCRIPTOR_FETCH (R154): A running submission ring with non-zero fill issues the fetch of entry DEV_IDX. -/
  | descriptorFetch (q : Fin 256)
  /-- DESCRIPTOR_ARRIVE (R158): A fetched descriptor arrives and its header is checked before it is started. -/
  | descriptorArrive (q : Fin 256) (d : BitVec 512) (st : ReadStatus)
  /-- FENCE_WAIT_SATISFIED (R164): A waiting descriptor starts once its fence slot reaches WAIT_VALUE. -/
  | fenceWaitSatisfied (q : Fin 256)
  /-- DESCRIPTOR_COMPLETE (R160): A descriptor's work ends and, in ring order, its writes, record, fence mirror and message become visible. -/
  | descriptorComplete (q : Fin 256) (e : WorkEnd)
  /-- MOD_TIMER_EXPIRE (R171): TIME_US after the oldest pending item the ring raises its vector. -/
  | modTimerExpire (q : Fin 256)
  /-- INSTANCE_STOP (R173): The manager sets INST_i_STOP and the quiesce timeline starts. -/
  | instanceStop (i : Fin 64)
  /-- INSTANCE_STOP_CLEAR (R172): The manager clears STOP and a quiesced instance returns to READY. -/
  | instanceStopClear (i : Fin 64)
  /-- QUIESCED (R173): Issued writes have drained, rings are STOPPED and the instance enters QUIESCED. -/
  | quiesced (i : Fin 64)
  /-- INSTANCE_RESET (R174): INST_i_CTRL[RESET] from the manager starts an instance reset. -/
  | instanceReset (i : Fin 64)
  /-- CLEAR_UNCLEAN (R176): The instance writes CLEAR_UNCLEAN while READY to clear RESET_UNCLEAN. -/
  | clearUnclean (i : Fin 64)
  /-- RESET_DONE (R174): The reset timeline ends and the instance is READY or QUIESCED with RESET_DONE set. -/
  | resetDone (i : Fin 64)
  /-- SCRUB_DONE (R174): Every page of the reset is released and scrubbed, SCRUBBING clears and SCRUB_DONE is set. -/
  | scrubDone (i : Fin 64)
  /-- ROUND_START (R30): Each whole millisecond a round starts: budgets, clocks, entitlements and reservations take effect. -/
  | roundStart (m : Measure)
  /-- VOLTAGE_CONFIRMED (R539): A regulator confirms a new voltage target over AVSBus and PMBus. -/
  | voltageConfirmed
  /-- QUANTUM_EXPIRY (R192): A context's 250 µs quantum expires and a higher-ranked waiting candidate preempts it. -/
  | quantumExpiry (e : EngineRef) (t : BitVec 64)
  /-- URGENT_POINT (R197): A deadline descriptor reaches its urgent point and claims core groups of lower class. -/
  | urgentPoint (q : Fin 256) (t : BitVec 64)
  /-- PREEMPT_POINT_REACHED (R203): The outgoing work reaches a tile or instruction boundary and its save begins. -/
  | preemptPointReached (e : EngineRef) (t : BitVec 64)
  /-- TILE_BOUNDARY_TIMEOUT (R204): Graphics work without a tile boundary 30 µs after the request is preempted at an instruction boundary. -/
  | tileBoundaryTimeout (g : Fin 4) (t : BitVec 64)
  /-- CONTEXT_SAVE_DONE (R203): The outgoing context is saved and the incoming context issues its first work. -/
  | contextSaveDone (e : EngineRef) (t : BitVec 64) (restoreOk : Bool)
  /-- TEST_SLICE_END (R208): An 80 µs test slice ends and the core group returns to selection. -/
  | testSliceEnd (g : Fin 4) (t : BitVec 64) (failed : Option (Fin 4))
  /-- JOB_TIMEOUT (R337): A job's charged time exceeds JOB_LIMIT_MS and it stops at its next preemption point with TIMEOUT. -/
  | jobTimeout (q : Fin 256)
  /-- SHADER_FAULT (R336): A shader reaches an undecodable instruction or too deep a call and the job completes SHADER_FAULT. -/
  | shaderFault (q : Fin 256) (off : Word)
  /-- LATCH (R250): At the start of the latch line, armed layer and head shadows apply for the next frame. -/
  | latch (h : Fin 8) (t : BitVec 64)
  /-- NOP (R157): Opcode 0x00 performs only its wait and signal on any submission ring. -/
  | nop (q : Fin 256)
  /-- STATE (R241): A STATE commit reads a 128-byte state block and commits the layer's whole state. -/
  | state (q : Fin 256)
  /-- FLIP (R242): A FLIP commit writes new plane addresses and arms the layer. -/
  | flip (q : Fin 256)
  /-- COEFF (R242): A COEFF commit reads a coefficient table into the pending bank and arms the layer. -/
  | coeff (q : Fin 256)
  /-- HEAD (R242): A HEAD commit writes the head's background colour and arms the head. -/
  | head (q : Fin 256)
  /-- MOVE (R219): A MOVE commit moves or unassigns the owner's layer between heads of its HEAD_MASK. -/
  | move (q : Fin 256)
  /-- EXPECT (R243): An EXPECT commit supplies a guarded region's expected check value for one frame. -/
  | expect (q : Fin 256)
  /-- GAMMA (R242): A GAMMA commit reads a gamma table into the shadows, writes GAMMA_EN and arms the head. -/
  | gamma (q : Fin 256)
  /-- BIND (R246): A BIND commit binds or releases the head's commit ring once earlier descriptors have completed. -/
  | bind (q : Fin 256)
  /-- COMMIT_READ_DONE (R241): The read of a state block, coefficient or gamma table returns, and the shadow is written or the commit faults. -/
  | commitReadDone (q : Fin 256) (data : List Byte) (st : ReadStatus)
  /-- LAYER_ASSIGN (R219): A manager write of LAYER_k_ASSIGN starts a move or unassignment of the layer. -/
  | layerAssign (k : Fin 64) (v : Word)
  /-- CRING_WRITE (R246): A manager write of HEAD_h_CRING binds the head's commit ring if permitted. -/
  | cringWrite (h : Fin 8) (v : Word)
  /-- COMPOSE_LINE_START (R248): L lines before it is due, the compositor starts composing a line from latched or speculated state. -/
  | composeLineStart (h : Fin 8) (line : BitVec 16) (t : BitVec 64)
  /-- LINE_DUE (R268): A line's first active pixel must leave the output port. -/
  | lineDue (h : Fin 8) (line : BitVec 16) (t : BitVec 64)
  /-- FRAME_START (R264): Line 0 of a frame starts, the frame sequence number increments and the latched frame reaches the glass. -/
  | frameStart (h : Fin 8) (t : BitVec 64)
  /-- HEAD_PLL_LOCK (R263): A head leaving OFF locks its pixel PLL, starts its timing and enters TRAINING or NO_SINK. -/
  | headPllLock (h : Fin 8)
  /-- TRAIN_ATTEMPT_DONE (R285): A link-training attempt ends, and the search trains, tries the next pair or ends in NO_SINK. -/
  | trainAttemptDone (h : Fin 8) (ok : Bool)
  /-- TRAIN_RETRY (R286): 2 s after a failed search, a port with HPD high searches again. -/
  | trainRetry (h : Fin 8)
  /-- HPD_IRQ (R288): An HPD low pulse of 0.25 to 2 ms makes the port read the sink's link status. -/
  | hpdIrq (h : Fin 8) (lost : Bool) (cpIrq : Bool)
  /-- HPD_UNPLUG (R287): HPD low for 2 ms puts the head in NO_SINK with cause HPD low. -/
  | hpdUnplug (h : Fin 8)
  /-- HPD_PLUG (R287): HPD high for 100 ms after an unplug starts a training search. -/
  | hpdPlug (h : Fin 8) (sink : SinkCaps)
  /-- RETRAIN (R311): OUT_h_CMD[RETRAIN] starts a new search or DSI start. -/
  | retrain (h : Fin 8)
  /-- AUX_GO (R289): OUT_h_CMD[AUX_GO] starts an AUX, I2C-over-AUX or DCS request. -/
  | auxGo (h : Fin 8)
  /-- AUX_REPLY (R289): A sink reply ends an AUX request, or a DEFER is retried. -/
  | auxReply (h : Fin 8) (r : AuxReply) (data : List Byte)
  /-- AUX_TIMEOUT (R289): A request without a reply ends after 3.2 ms with RESULT 2. -/
  | auxTimeout (h : Fin 8)
  /-- DSI_SLEEP_EXIT_WAIT_END (R296): 120 ms after exit_sleep_mode the port starts the video stream. -/
  | dsiSleepExitWaitEnd (h : Fin 8)
  /-- HDCP_AUTH_DONE (R298): The secure core's HDCP authentication of a port succeeds or fails. -/
  | hdcpAuthDone (h : Fin 8) (ok : Bool) (typ1 : Bool)
  /-- HDCP_REAUTH (R298): 2 s after a failure, the secure core re-authenticates while the request stands. -/
  | hdcpReauth (h : Fin 8)
  /-- VSYNC_IN_EDGE (R270): An active edge of VSYNC_IN is a reference event for following heads. -/
  | vsyncInEdge (t : BitVec 64)
  /-- GENLOCK_REF_MISSING (R272): No reference event for two expected periods loses lock and the head free-runs. -/
  | genlockRefMissing (h : Fin 8)
  /-- HOLD_TIMER_EXPIRE (R278): The host-lost hold time expires and the head acts at its next latch. -/
  | holdTimerExpire (h : Fin 8)
  /-- CSI_FRAME_START (R303): A CSI-2 frame-start packet begins a capture frame. -/
  | csiFrameStart (s : Fin 4) (frame : BitVec 16)
  /-- CSI_LINE_PACKET (R303): A CSI-2 line packet is checked and written to the frame buffer. -/
  | csiLinePacket (s : Fin 4) (dt : BitVec 6) (vc : Fin 16) (data : List Byte) (bad : Bool)
  /-- CSI_FRAME_END (R303): A frame-end packet completes the frame, which becomes the newest or is discarded. -/
  | csiFrameEnd (s : Fin 4) (t : BitVec 64)
  /-- OVERFLOW (R303): The capture write FIFO overflows and the frame is discarded. -/
  | overflow (s : Fin 4)
  /-- STALL (R304): No complete frame for CAP_s_STALL ms puts the port in STALLED and reports a fault. -/
  | stall (s : Fin 4)
  /-- RENDER (R321): A RENDER descriptor runs a render pass through binning and tile phases. -/
  | render (q : Fin 256)
  /-- DISPATCH (R333): A DISPATCH descriptor runs a compute dispatch of workgroups. -/
  | dispatch (q : Fin 256)
  /-- CONTEXT (R342): A CONTEXT descriptor sets the ring's context-save area once earlier descriptors have completed. -/
  | context (q : Fin 256)
  /-- GFX_TIMESTAMP (R319): A GFX TIMESTAMP writes the device timebase once earlier descriptors have completed. -/
  | gfxTimestamp (q : Fin 256)
  /-- BINNING_DONE (R321): Binning of a render pass ends and the tile phase starts or the pass is dropped. -/
  | binningDone (q : Fin 256) (entries : List Nat) (verts : Word)
  /-- COPY (R346): A COPY descriptor copies LEN bytes. -/
  | copy (q : Fin 256)
  /-- FILL (R346): A FILL descriptor writes a repeated 8-byte value. -/
  | fill (q : Fin 256)
  /-- COPY_2D (R346): A COPY_2D descriptor copies rows of bytes with pitches. -/
  | copy2d (q : Fin 256)
  /-- CONVERT (R347): A CONVERT descriptor converts an image between layer formats. -/
  | convert (q : Fin 256)
  /-- CPY_TIMESTAMP (R346): A CPY TIMESTAMP writes the device timebase once earlier descriptors have completed. -/
  | cpyTimestamp (q : Fin 256)
  /-- DRAM_REQUEST_ARRIVE (R359): A request reaches its DRAM channel with urgency, class and instance, and is queued or held back. -/
  | dramRequestArrive (r : DramReq)
  /-- REFRESH_TICK (R367): A refresh interval elapses and the rank's owed count grows by one. -/
  | refreshTick (c : Fin 16) (rank : Fin 2)
  /-- REQUEST_AGE_PROMOTE (R364): An urgency-0 request that has waited AGE_US is promoted to urgency 1. -/
  | requestAgePromote (c : Fin 16)
  /-- MR4_POLL (R369): Every POLL_US the controller reads MR4 of each rank. -/
  | mr4Poll (c : Fin 16)
  /-- MR4_RESULT (R370): An MR4 result sets the rate factor and may scale the owed count and force refreshes. -/
  | mr4Result (c : Fin 16) (rank : Fin 2) (band : Fin 3)
  /-- LIMIT_WRITE (R371): A write of DMC_REFRESH[LIMIT] below the owed count forces refreshes at once. -/
  | limitWrite (v : Word)
  /-- DISTURB_WINDOW_END (R373): At the end of each refresh window every disturbance count is halved. -/
  | disturbWindowEnd (c : Fin 16)
  /-- RANK_POWER_DOWN (R381): A rank idle for PD_US enters power-down. -/
  | rankPowerDown (c : Fin 16) (rank : Fin 2)
  /-- CHANNEL_SELF_REFRESH (R382): A channel idle for SR_IDLE_US with no head or capture running enters self-refresh. -/
  | channelSelfRefresh (c : Fin 16)
  /-- DRAM_READ_RETURN (R384): A block read returns and is checked, corrected or poisoned under ECC. -/
  | dramReadReturn (port : Fin 24) (inst : BitVec 8) (addr : BitVec 36) (r : EccRead)
  /-- PATROL_READ (R386): The patrol scrub reads the next block under the class B budget. -/
  | patrolRead (r : EccRead)
  /-- RECENTRE_DUE (R379): PERIOD_S elapses or the temperature moves STEP_C and a re-centring pass is due. -/
  | recentreDue
  /-- RECENTRE_NOW (R392): DMC_RECENTRE[NOW] starts a re-centring pass at once. -/
  | recentreNow
  /-- RECENTRE_PROBE (R379): When its conditions hold, a probe measures one eye edge and moves the centre at most 2 taps. -/
  | recentreProbe (c : Fin 16) (rank : Fin 2) (lane : Fin 2) (wr : Bool) (centre width : Fin 128)
  /-- TRAINING_DONE (R377): DRAM training ends, passing or failing with FAULT_N asserted. -/
  | trainingDone (r : TrainResult)
  /-- DRAM_INIT_DONE (R378): Every usable block has been written with zero data and ports are admitted. -/
  | dramInitDone
  /-- PAGE_ASSIGN (R409): The PAGE_ASSIGN service gives free pages to a target owner. -/
  | pageAssign (c : FnId)
  /-- PAGE_RELEASE (R409): The PAGE_RELEASE service releases pages under R402. -/
  | pageRelease (c : FnId)
  /-- PAGE_FLAGS (R409): The PAGE_FLAGS service sets the flags of pages. -/
  | pageFlags (c : FnId)
  /-- PAGE_QUERY (R409): The PAGE_QUERY service returns a page's entry if the caller may see it. -/
  | pageQuery (c : FnId)
  /-- DEBUG_UNLOCK (R417): The DEBUG_UNLOCK service checks a debug certificate and puts it in force if it passes. -/
  | debugUnlock (c : FnId)
  /-- DEBUG_REVOKE (R419): The DEBUG_REVOKE service burns the debug counter one higher and ends the certificate in force. -/
  | debugRevoke (c : FnId)
  /-- POT_BATCH_COMMIT (R401): A batch of page ownership entries commits as one update and the call's DONE is set. -/
  | potBatchCommit (c : FnId)
  /-- PIN_RELEASE (R402): A head or engine reference ends and a waiting release of the pinned page proceeds. -/
  | pinRelease (page : BitVec 24)
  /-- PAGE_SCRUB_DONE (R402): A released page's scrub ends and the page becomes free. -/
  | pageScrubDone (page : BitVec 24)
  /-- SECURE_HEARTBEAT (R413): The secure core writes its heartbeat to Piccolo. -/
  | secureHeartbeat
  /-- SECURE_WATCHDOG_EXPIRE (R413): No heartbeat for WD_MS declares the secure world hung. -/
  | secureWatchdogExpire
  /-- SECURE_CALL_TIMEOUT (R413): A call BUSY for 50 ms declares the secure world hung. -/
  | secureCallTimeout (c : FnId)
  /-- SEC_LOCKSTEP_FAIL (R396): A lockstep mismatch of the secure core is reported and the secure world declared hung. -/
  | secLockstepFail
  /-- SECURE_RELEASE_DONE (R414): Every window is voided and every owner 1 page scrubbed and freed; STATE is RELEASED. -/
  | secureReleaseDone
  /-- SECURE_REBOOT (R415): SEC_CTRL[REBOOT] in RELEASED reboots the secure core from ROM. -/
  | secureReboot
  /-- SECURE_BOOT_DONE (R415): The rebooted secure core passes its checks and STATE becomes RUNNING. -/
  | secureBootDone (tableOk : Bool)
  /-- DEBUG_LOCK (R418): SEC_CTRL[DEBUG_LOCK] ends the certificate in force. -/
  | debugLock
  /-- HELD_REQUEST_RELEASE (R412): A deferred clock or power request is carried out once its block is no longer held. -/
  | heldRequestRelease
  /-- SAMPLE_TICK (R423): At each sample tick the DSP cores run the per-sample program. -/
  | sampleTick (ins : List (Nat × List Word)) (readBack : List Word) (overC : Bool)
  /-- PERIOD_BOUNDARY (R422): At an audio period boundary Calliope shadows apply, programs swap and streams start. -/
  | periodBoundary (t : BitVec 64)
  /-- NODE_WORD_WRITE (R436): A shadow write to a route field makes the Ringmaster compile a new program. -/
  | nodeWordWrite (n : Fin 512) (word : Fin 3) (v : Word)
  /-- COMPILED (R436): Program compilation ends and COMPILED reads 1. -/
  | compiled (fits : Bool) (t : BitVec 64)
  /-- SWAPPED (R437): A crossfade ends and SWAPPED is set. -/
  | swapped
  /-- PLAY (R439): A PLAY descriptor queues a playback buffer for a stream. -/
  | play (q : Fin 256)
  /-- RECORD (R439): A RECORD descriptor queues a capture buffer for a stream. -/
  | record (q : Fin 256)
  /-- CONTROL (R439): A CONTROL descriptor writes a node's shadow word and arms Calliope. -/
  | control (q : Fin 256)
  /-- AUDIO_COEFF (R439): An audio COEFF descriptor reads biquad sections into the pending bank and arms. -/
  | audioCoeff (q : Fin 256)
  /-- CHIME (R443): A CHIME descriptor starts, queues or stops a chime clip. -/
  | chime (q : Fin 256)
  /-- CHIME_CLIP_END (R443): A playing clip ends, its descriptor completes and a waiting clip starts. -/
  | chimeClipEnd (i : Fin 64)
  /-- PORT_CLOCK (R426): A slave port whose bit clock stops for two periods enters NO_CLOCK. -/
  | portClock (p : Fin 6)
  /-- PORT_CLOCK_RETURN (R426): A NO_CLOCK port whose clock has run one period returns to RUNNING. -/
  | portClockReturn (p : Fin 6)
  /-- HEADSET_INSERT (R448): HS_DET stable for 100 ms counts as an insertion and classification starts. -/
  | headsetInsert (j : Fin 2)
  /-- HEADSET_CLASSIFIED (R448): The codec classifies the accessory type. -/
  | headsetClassified (j : Fin 2) (typ : Fin 4) (line : Bool)
  /-- HEADSET_REMOVE (R448): HS_DET stable for 10 ms counts as removal and the outputs mute. -/
  | headsetRemove (j : Fin 2)
  /-- BUTTON_PRESS (R449): A microphone-line voltage stable for 20 ms below a threshold is a button press. -/
  | buttonPress (j : Fin 2) (mv : BitVec 16)
  /-- BUTTON_RELEASE (R449): A voltage above D for 20 ms is a button release. -/
  | buttonRelease (j : Fin 2)
  /-- TOUCH_ATTENTION (R456): Attention from a touch controller starts a command and report read. -/
  | touchAttention (t : Fin 8)
  /-- TOUCH_REPORT (R461): A whole report is received, checked, tracked, hit-tested and routed. -/
  | touchReport (t : Fin 8) (data : List Byte) (nack : Bool)
  /-- CLOCK_STRETCH_TIMEOUT (R455): Clock stretching beyond 1 ms ends the transfer as a bus error. -/
  | clockStretchTimeout (t : Fin 8)
  /-- TOUCH_STALE (R464): Contacts down with no good report for STALE_MS receive CANCEL. -/
  | touchStale (t : Fin 8)
  /-- HAP_TRIG (R482): An instance writes HAP_TRIG to trigger an effect slot on a channel. -/
  | hapTrig (i : Fin 64) (v : Word)
  /-- HAP_TRIGGER (R482): The manager writes HAP_a_TRIGGER to trigger an effect slot. -/
  | hapTrigger (a : Fin 8) (v : Word)
  /-- HAP_CALIBRATE (R478): HAP_a_CMD[CALIBRATE] starts calibration of the channel. -/
  | hapCalibrate (a : Fin 8)
  /-- HAP_TEST (R479): HAP_a_CMD[TEST] plays 20 closed-loop test cycles. -/
  | hapTest (a : Fin 8)
  /-- HAP_RECOVER (R481): HAP_a_CMD[RECOVER] starts recovery from FAULT and clears RETRIES. -/
  | hapRecover (a : Fin 8)
  /-- HAP_STOP (R485): HAP_a_CMD[STOP] ends the running effect with its brake and discards a waiting trigger. -/
  | hapStop (a : Fin 8)
  /-- BEMF_ZERO_CROSSING (R475): A zero crossing of the back-EMF flips the drive and advances overdrive, sustain or brake. -/
  | bemfZeroCrossing (a : Fin 8) (amplitudeMv : BitVec 16)
  /-- CALIBRATION_DONE (R478): A channel's calibration ends with F_RES and R_DC or with CAL_FAIL. -/
  | calibrationDone (a : Fin 8) (fRes rDc : BitVec 16) (atEnd : Bool)
  /-- TEST_DONE (R479): TEST ends, passing or with the fault WEAK. -/
  | testDone (a : Fin 8) (settled : Bool)
  /-- HAP_IDLE_PROBE (R480): Every second an idle channel probes its actuator with a 2 ms DC drive. -/
  | hapIdleProbe (a : Fin 8) (rMohm : BitVec 16)
  /-- HAP_OVERCURRENT (R480): Current above I_MAX_MA cuts the drive within 50 µs as a SHORT fault. -/
  | hapOvercurrent (a : Fin 8)
  /-- HAP_RECOVERY_TIMER (R481): One second after a fault the channel calibrates and tests to recover. -/
  | hapRecoveryTimer (a : Fin 8)
  /-- CVU_INTERVAL_END (R496): At the end of an interval a check-value unit compares its value with the expected value or REF. -/
  | cvuIntervalEnd (u : Fin 64) (tagHead : BitVec 8) (tagSeq : BitVec 64) (agree : Bool)
  /-- CVU_MISSING_TIMEOUT (R498): An ACTIVE unit with no comparison for a frame period plus 1 ms reports CV_MISSING. -/
  | cvuMissingTimeout (u : Fin 64) (t : BitVec 64)
  /-- CLOCK_MONITOR_TRIP (R489): A clock more than 5 % from its set frequency reports CLOCK. -/
  | clockMonitorTrip (domain : Byte)
  /-- VOLTAGE_MONITOR_TRIP (R489): A rail more than 5 % from its target reports VOLTAGE. -/
  | voltageMonitorTrip (rail : Byte)
  /-- FAULT_PIN_MISMATCH (R489): FAULT_N read back differing for 10 µs reports FAULT_PIN. -/
  | faultPinMismatch
  /-- AON_WATCHDOG_EXPIRE (R489): Piccolo's watchdog without service for 10 ms reports AON_WATCHDOG. -/
  | aonWatchdogExpire
  /-- RM_LOCKSTEP_FAIL (R37): A Ringmaster lockstep failure is reported and amendments stop until restart. -/
  | rmLockstepFail
  /-- RINGMASTER_RESTART (R37): The Ringmaster has restarted and accepts amendments again. -/
  | ringmasterRestart
  /-- CONFIG_COMPARE_PASS (R502): Every CFG_COMPARE_MS × 500 µs the compare engine checks the two configuration copies. -/
  | configComparePass (diff : Option (Fin 7))
  /-- SN_STOP (R505): SN_CTRL[STOP] stops outputs and every head enters its fault mode. -/
  | snStop
  /-- SN_RELEASE (R507): SN_CTRL[RELEASE] ends the stop if no source persists. -/
  | snRelease
  /-- SN_REQ_STOP (R506): A class S instance writes 1 to SN_REQ to stop outputs. -/
  | snReqStop (i : Fin 64)
  /-- SN_REQ_RELEASE (R506): A class S instance writes 2 to SN_REQ to release the stop. -/
  | snReqRelease (i : Fin 64)
  /-- SN_INJECT (R508): SN_INJECT[GO] injects a fault into its real detection path. -/
  | snInject (v : Word)
  /-- FAULT_FLAGS_CLEAR (R503): The manager clears SN_FAULT_FLAGS bits, releasing FAULT_N when none qualifies. -/
  | faultFlagsClear (v : Word)
  /-- REQ_DOZE (R517): PIC_CTRL[REQ_DOZE] takes the device from ON to DOZE. -/
  | reqDoze
  /-- REQ_STANDBY (R519): PIC_CTRL[REQ_STANDBY] starts the sleep negotiation to STANDBY. -/
  | reqStandby
  /-- REQ_DEEP (R519): PIC_CTRL[REQ_DEEP] starts the sleep negotiation to DEEP STANDBY. -/
  | reqDeep
  /-- CANCEL (R527): PIC_CTRL[CANCEL] withdraws a pending sleep entry. -/
  | cancel
  /-- WAKE (R523): PIC_CTRL[WAKE] takes the device out of DOZE. -/
  | wake
  /-- DEV_RESET (R550): PIC_CTRL[DEV_RESET] resets the device and starts a cold start. -/
  | devReset
  /-- DOZE_IDLE_TIMEOUT (R517): DOZE_MS without an active head or capture port enters DOZE. -/
  | dozeIdleTimeout
  /-- AUTO_STANDBY_TIMEOUT (R519): Every port in L2 or lost for 100 ms with AUTO_STANDBY starts entry to STANDBY. -/
  | autoStandbyTimeout
  /-- DEEP_S_TIMEOUT (R519): DEEP_S seconds in STANDBY starts entry to DEEP STANDBY. -/
  | deepSTimeout
  /-- WAKE_IN_ASSERT (R523): WAKE_IN_n low for 1 ms is a wake source. -/
  | wakeInAssert (n : Fin 4)
  /-- PCIE_WAKE_IN_ASSERT (R523): PCIE_WAKE_N low for 1 ms as an input is a wake source. -/
  | pcieWakeInAssert
  /-- PIC_ALARM_EXPIRE (R525): PIC_ALARM counts down to 0 and wakes the device. -/
  | picAlarmExpire
  /-- SLEEP_BLOCK_ANSWER (R526): A block answers the sleep negotiation, parking or refusing. -/
  | sleepBlockAnswer (declines : Bool)
  /-- SLEEP_ANSWER_TIMEOUT (R526): A block that gives no answer within 1 ms counts as refusing with TIMEOUT. -/
  | sleepAnswerTimeout
  /-- SLEEP_RETRY (R527): After the back-off the sleep entry is retried. -/
  | sleepRetry
  /-- SLEEP_ENTRY_DONE (R528): The second phase lowers clocks and rails and the device rests in STANDBY or DEEP STANDBY. -/
  | sleepEntryDone
  /-- OSCILLATOR_STABLE (R524): The 38.4 MHz oscillator becomes stable and rails are raised. -/
  | oscillatorStable
  /-- OSCILLATOR_TIMEOUT (R530): An oscillator not stable in 5 ms is restarted once, then the device enters LIMP. -/
  | oscillatorTimeout
  /-- PGOOD_RISE (R515): A rail's PGOOD rises and the next enable is raised. -/
  | pgoodRise (n : Fin 6)
  /-- PGOOD_TIMEOUT (R532): A PGOOD not arriving within 10 ms of its enable lowers the rails for a retry. -/
  | pgoodTimeout (n : Fin 6)
  /-- RAIL_RETRY (R532): 10 ms after lowering the rails the rail sequence runs again. -/
  | railRetry
  /-- PGOOD_FALL (R533): A PGOOD falling while its rail should be on reports VOLTAGE and enters DEEP STANDBY. -/
  | pgoodFall (n : Fin 6)
  /-- REFCLK_TIMEOUT (R531): No PCIE_REFCLK within 5 ms of the second oscillator failure lowers the rails and asserts FAULT_N. -/
  | refclkTimeout
  /-- WAKE_CORE_READY (R524): PLLs lock, VDD_CORE leaves retention and the Ringmaster runs during a wake. -/
  | wakeCoreReady (digestOk restoreOk : Bool)
  /-- SENSOR_TRIP (R32): A temperature sensor crossing its trip lowers the shader and compositor clocks within 10 µs. -/
  | sensorTrip (n : Fin 32)
  /-- PWR_WARN_ASSERT (R542): PWR_WARN_N falls, activating the write inhibit and the clock bypass. -/
  | pwrWarnAssert
  /-- PWR_WARN_RELEASE (R542): PWR_WARN_N rises and the inhibit end timer starts. -/
  | pwrWarnRelease
  /-- WRITE_INHIBIT_END (R542): 10 ms after both conditions clear the write inhibit ends. -/
  | writeInhibitEnd
  /-- CAP_OVERSHOOT (R32): A package power estimate above the cap by more than 10 % lowers clocks within 10 µs. -/
  | capOvershoot
  /-- XTAL32K_STOP (R36): The 32 kHz crystal stops and the always-on domain switches to the RC oscillator. -/
  | xtal32kStop
  /-- REPLAN_DUE (R544): After 24 h of powered time an ageing re-plan starts. -/
  | replanDue
  /-- REPLAN (R544): BLW_CTRL[REPLAN] starts an ageing re-plan. -/
  | replan
  /-- REPLAN_DONE (R544): A re-plan ends and each domain's guardband and retired points are set. -/
  | replanDone (dGfx dCore : BitVec 10)
  /-- VDD_AON_RISE (R550): VDD_AON rises through its reset threshold and a cold start begins. -/
  | vddAonRise
  /-- VDD_AON_RESET_FALL (R588): VDD_AON falls below its reset threshold and the device is OFF. -/
  | vddAonResetFall
  /-- VDD_AON_INHIBIT_FALL (R588): VDD_AON falls below its write-inhibit threshold and the write inhibit activates. -/
  | vddAonInhibitFall
  /-- BOOT_STEP_DONE (R550): A cold-start step ends and the next step begins, or the boot fails. -/
  | bootStepDone (r : BootResult)
  /-- FW_RUN (R554): DEV_FW_PUSH_CMD RUN verifies and starts a pushed bundle. -/
  | fwRun
  /-- FW_RUN_AND_STORE (R554): RUN_AND_STORE runs a pushed bundle and stores both copies. -/
  | fwRunAndStore
  /-- FW_STORE (R554): STORE verifies and stores a bundle in both copies. -/
  | fwStore
  /-- FW_RAISE_FLOOR (R554): RAISE_FLOOR sets the fused firmware floor to the running VERSION. -/
  | fwRaiseFloor
  /-- VALIDATE (R70): RPL_PUSH_CMD VALIDATE copies and validates a pushed Ringplan. -/
  | validate
  /-- APPLY (R70): RPL_PUSH_CMD APPLY validates and applies a pushed Ringplan. -/
  | apply
  /-- STORE (R63): RPL_PUSH_CMD STORE validates a pushed Ringplan and writes both slots. -/
  | store
  /-- APPLY_AND_STORE (R70): RPL_PUSH_CMD APPLY_AND_STORE applies and stores a pushed Ringplan. -/
  | applyAndStore
  /-- RAISE_FLOOR (R65): RPL_PUSH_CMD RAISE_FLOOR sets the rollback floor to the applied IMAGE_VERSION. -/
  | raiseFloor
  /-- RPL_DMA_DONE (R70): The DMA copy of a pushed image ends, or fails with DMA_ERR. -/
  | rplDmaDone (data : List Byte) (st : ReadStatus)
  /-- RPL_OPERATION_DONE (R70): A Ringplan operation finishes, sets DONE and raises the interrupt. -/
  | rplOperationDone
  /-- STORE_STEP_DONE (R63): A flash erase, program or read-back step of a store ends and the next begins. -/
  | storeStepDone (ok : Bool)
  /-- TAB_CAPTURE (R565): TAB_CTRL[CAPTURE] copies every counter into its shadow on one fabric cycle. -/
  | tabCapture
  /-- TAB_AT_ARM (R566): TAB_CTRL[AT_ARM] sets the pending capture time. -/
  | tabAtArm
  /-- TAB_AT_CANCEL (R583): TAB_CTRL[AT_CANCEL] clears AT_PENDING. -/
  | tabAtCancel
  /-- TAB_AT_REACHED (R566): The timebase reaches the pending time and a timed capture runs. -/
  | tabAtReached
  /-- TELEM_SWEEP (R570): A telemetry sweep writes selected visible shadows to a TELEM ring. -/
  | telemSweep (q : Fin 256) (n : Fin 512)
  /-- LOG_PROGRAM_DONE (R572): A flash program of a record phase ends and the next phase or record follows. -/
  | logProgramDone (verified : Bool)
  /-- LOG_ERASE_DONE (R575): Erasing the oldest sector ends and LOG_TAIL advances. -/
  | logEraseDone (ok : Bool)
  /-- LOG_SCAN_DONE (R575): The start-up scan finds the newest record and READY is set. -/
  | logScanDone
  /-- LOG_READ (R576): LOG_RD_CMD[GO] starts reading the record LOG_RD_SEQ. -/
  | logRead
  /-- LOG_READ_DONE (R576): The record read ends with VALID or GONE. -/
  | logReadDone
  /-- BRK_HELP (R578): The Barker command help lists commands. -/
  | brkHelp
  /-- BRK_ID (R578): The Barker command id reports identity and firmware version. -/
  | brkId
  /-- BRK_STATE (R578): The Barker command state reports boot, power, Ringplan and Safety Net state. -/
  | brkState
  /-- BRK_FAULTS (R578): The Barker command faults reports fault flags and the last fault. -/
  | brkFaults
  /-- BRK_UNLOCK (R578): The Barker command unlock presents a debug certificate. -/
  | brkUnlock (cert : List Byte)
  /-- BRK_LOCK (R578): The Barker command lock ends the certificate in force. -/
  | brkLock
  /-- BRK_LOG (R578): The Barker command log prints event-log records. -/
  | brkLog (seq : Word) (n : Fin 65)
  /-- BRK_RD (R578): The Barker command rd reads words of the normal view. -/
  | brkRd (addr : BitVec 23) (n : Fin 65)
  /-- BRK_WIDE (R580): The Barker command wide reads a wide value through Barker's own mailbox. -/
  | brkWide (addr : BitVec 23)
  /-- BRK_CAP (R565): The Barker command cap makes a Tableau capture. -/
  | brkCap
  /-- BRK_SHADOW (R578): The Barker command shadow prints counter shadows. -/
  | brkShadow (n : BitVec 12) (count : Fin 65)
  /-- BRK_WR (R580): The Barker command wr writes the normal view as a Ringmaster write. -/
  | brkWr (addr : BitVec 26) (v : Word)
  /-- BRK_INJECT (R578): The Barker command inject performs a fault injection. -/
  | brkInject (v : Word)
  /-- BRK_RESET (R578): The Barker command reset performs a device reset. -/
  | brkReset
  /-- BRK_SRD (R578): The Barker command srd reads secure frames and owner-1 pages. -/
  | brkSrd (addr : BitVec 36) (n : Fin 65) (frame : Bool)
  /-- BRK_SWR (R578): The Barker command swr writes secure frames and owner-1 pages. -/
  | brkSwr (addr : BitVec 36) (v : Word) (frame : Bool)
  /-- BRK_UNKNOWN_COMMAND (R579): A Barker line with an unknown command ends with err 01. -/
  | brkUnknownCommand
  /-- BRK_RX_OVERRUN (R581): A receive FIFO overflow discards the line with code 05 and sets OVERRUN. -/
  | brkRxOverrun
  /-- COMMAND_SLOT (R363): At each command slot a DRAM channel chooses among forced or owed refreshes, mitigations, queued requests by urgency and re-centring probes, and issues one. -/
  | commandSlot (c : Fin 16)
  /-- SENSE_SAMPLE (R472): Each 48 kS/s sense sample of a haptic channel updates the back-EMF estimate and tests the OPEN, STALL and SHORT conditions. -/
  | senseSample (a : Fin 8) (mv ma : BitVec 16)
  /-- SRAM_SCRUB (R33): The background SRAM scrub reads the next on-chip array, correcting single-bit errors and reporting SRAM_UE on a double-bit error. -/
  | sramScrub (group : Byte) (errs : Fin 3)
  /-- PERSIST_CONDITION_END (R489): The condition of a persistent Safety Net source, such as a clock, rail, temperature or configuration difference, ends and its SN_PERSIST bit clears. -/
  | persistConditionEnd (source : Fin 32) (index : BitVec 16)
  /-- VDD_AON_INHIBIT_RISE (R588): VDD_AON rises through its write-inhibit threshold, starting the 10 ms delay before the write inhibit ends. -/
  | vddAonInhibitRise
  /-- FW_DMA_DONE (R554): The DMA copy of a pushed firmware bundle ends, or fails with DMA_ERR. -/
  | fwDmaDone (data : List Byte) (st : ReadStatus)
  /-- FW_PUSH_DONE (R554): A firmware push operation finishes, sets DEV_FW_PUSH_STATUS[DONE] with its REASON and raises the manager's vector 0. -/
  | fwPushDone
  /-- ASPM_L1_ENTRY (R139): With ASPM enabled, a port's link enters L1 or an L1 substate, and PCI_PORT_x_STATUS[STATE] reads 3. -/
  | aspmL1Entry (p : Port)
  deriving DecidableEq, Repr

end Sys2Proof
end

