-- ==== Sys2Proof/Decode.lean ====
section
/-!
DEFINITION. Words and commands. Every row of spec/opcode_table.json has an empty list of bit fields: the table
spells no command as a word, so no word names one and the decoder refuses every word.
-/
namespace Sys2Proof

/-- The command a word of the table spells: the table gives no row any bits, so none.
Rests on log entry 123 (DESIGN CHOICE). -/
def decodeTableWord (_nbits _w : Nat) : Option Instr := none

end Sys2Proof
end

