-- ==== Sys2Proof/Config.lean ====
section
/-!
DEFINITION. Free values and fixed sizes. An `opaque` constant here has no body: nothing can evaluate it or
prove a value of it, so a statement that mentions it holds whatever the hardware produces (log entries 10
to 19 say which value of the spec each one stands for).
-/
namespace Sys2Proof.Config

/-- The free value a step takes where the spec states no result: applied to the counter `State.freeCtr`,
which the step reads and advances, so that each use is a value of its own (log entry 10).
Rests on log entry 10 (DESIGN CHOICE). -/
opaque freeValue : Nat → Nat

/-- Whether a signature over these bytes verifies under a key: ECDSA P-384 over SHA-384 (R43, R552, R416). The
arithmetic of neither is in the spec (log entry 11). Arguments: key index, signed bytes, signature bytes.
Rests on log entry 11 (DESIGN CHOICE). -/
opaque signatureOk : Nat → List Byte → List Byte → Bool

/-- A function of colour transfer the spec bounds but does not give bit for bit (R224 to R226, R234): the
arguments name the stage, the head's and the layer's coding, and the input (log entry 12).
Rests on log entry 12 (DESIGN CHOICE). -/
opaque colourStage : Nat → Nat → Nat → Nat → Nat

/-- The work result of a shader program (R331, R336): its instruction set is not in the manual. Arguments: the
ring and index of the descriptor, and the position of a byte it writes (log entry 14).
Rests on log entry 14 (DESIGN CHOICE). -/
opaque shaderByte : Nat → Nat → Nat → Byte

/-- The bytes of a saved graphics context (R341), the ring and the position (log entry 14).
Rests on log entry 14 (DESIGN CHOICE). -/
opaque contextByte : Nat → Nat → Byte

/-- The contents of a configuration register the spec leaves to PCI Express (R121): function, offset and what the host last
wrote there (log entry 15). Rests on log entry 15 (DESIGN CHOICE). -/
opaque pciConfigWord : Nat → Nat → Nat → Nat

/-- Device-firmware memory that decoded fallback images may take, in bytes (R58 check 0x0C): the spec gives no size
(log entry 17). Rests on log entry 17 (DESIGN CHOICE). -/
opaque firmwareBytes : Nat

/-- The fields of a grant window (R403): the window, the field, and the words of the POT_ frame, whose layout the spec does not give
(log entry 18). Rests on log entry 18 (DESIGN CHOICE). -/
opaque grantField : List (Nat × Option Nat) → Nat → Nat → Nat

end Sys2Proof.Config
end

