-- ==== Sys2Proof/Machine/RegMap.lean ====
section
/-!
DEFINITION. The register map (R78 to R81 and every register table of the spec): each field's place,
type (R3), reset value (R4) and listed encodings (R5), and each wide slot (R104). Read from the tables of
spec/02 to spec/17; a field's name is its register's name without the index letter, then the field's name.
-/
namespace Sys2Proof.Machine

/-- A register field: the offset of its register in the frame, its lowest bit and its width. -/
structure Fld where
  off : Nat
  lo  : Nat
  w   : Nat
  deriving DecidableEq, Repr

/-- Field types (R3). -/
inductive FTy where
  | rw | ro | wo | w1c | w1s | rwb | cnt | mbx
  deriving DecidableEq, Repr

/-- One row of a register table: the field, its type, its reset value, the encodings the table lists
(empty: every value), and for an array of registers the stride and the number of members. -/
structure FRow where
  fld    : Fld
  ty     : FTy
  reset  : Nat
  legal  : List (Nat × Nat)
  stride : Nat
  count  : Nat
  deriving DecidableEq, Repr

/-- One wide slot (R104): its offset, the stride and number of an array, how many words it holds, and
whether it is a 48-bit CNT (which a mailbox can load). -/
structure WRow where
  off    : Nat
  stride : Nat
  count  : Nat
  words  : Nat
  cnt    : Bool
  deriving DecidableEq, Repr

/-- The kinds of frame of R78; `win` is the part of a window in the instance layout above 0x3000 (R80). -/
inductive FrameKind where
  | dev | rpl | pci | inst | ring | car | blw | pic | head | layer | cvu | sn | cap | out | gfx | gfxCore | cpy | dmcCh | dmc | cal | hap | hapCh | tch | tchPort | pot | tab | log | brk | sec | win
  deriving DecidableEq, Repr

/-- Where the frames of a kind lie: base, stride and number (R78). Windows in the instance layout have no
address in the normal view; they are given keys from 0x1000_0000 on, 0x1_0000 each: instance i at i, the
subordinate physical function at 64, Barker's own mailbox (R580) at 66. -/
def FrameKind.base : FrameKind → Nat
  | .dev => 0x0
  | .rpl => 0x10000
  | .pci => 0x20000
  | .inst => 0x24000
  | .ring => 0x30000
  | .car => 0x40000
  | .blw => 0x50000
  | .pic => 0x60000
  | .head => 0x80000
  | .layer => 0x100000
  | .cvu => 0x140000
  | .sn => 0x150000
  | .cap => 0x180000
  | .out => 0x190000
  | .gfx => 0x200000
  | .gfxCore => 0x210000
  | .cpy => 0x2E0000
  | .dmcCh => 0x300000
  | .dmc => 0x340000
  | .cal => 0x400000
  | .hap => 0x480000
  | .hapCh => 0x490000
  | .tch => 0x4C0000
  | .tchPort => 0x4D0000
  | .pot => 0x500000
  | .tab => 0x580000
  | .log => 0x5C0000
  | .brk => 0x5E0000
  | .sec => 0x600000
  | .win => 0x10000000

def FrameKind.stride : FrameKind → Nat
  | .dev => 0x10000
  | .rpl => 0x10000
  | .pci => 0x4000
  | .inst => 0x100
  | .ring => 0x100
  | .car => 0x10000
  | .blw => 0x10000
  | .pic => 0x10000
  | .head => 0x10000
  | .layer => 0x1000
  | .cvu => 0x100
  | .sn => 0x10000
  | .cap => 0x4000
  | .out => 0x8000
  | .gfx => 0x10000
  | .gfxCore => 0x4000
  | .cpy => 0x4000
  | .dmcCh => 0x4000
  | .dmc => 0x10000
  | .cal => 0x80000
  | .hap => 0x10000
  | .hapCh => 0x1000
  | .tch => 0x10000
  | .tchPort => 0x1000
  | .pot => 0x80000
  | .tab => 0x40000
  | .log => 0x20000
  | .brk => 0x10000
  | .sec => 0x10000
  | .win => 0x10000

def FrameKind.count : FrameKind → Nat
  | .dev => 1
  | .rpl => 1
  | .pci => 1
  | .inst => 64
  | .ring => 256
  | .car => 1
  | .blw => 1
  | .pic => 1
  | .head => 8
  | .layer => 64
  | .cvu => 64
  | .sn => 1
  | .cap => 4
  | .out => 8
  | .gfx => 1
  | .gfxCore => 16
  | .cpy => 2
  | .dmcCh => 16
  | .dmc => 1
  | .cal => 1
  | .hap => 1
  | .hapCh => 8
  | .tch => 1
  | .tchPort => 8
  | .pot => 1
  | .tab => 1
  | .log => 1
  | .brk => 1
  | .sec => 1
  | .win => 67

/-- Every kind, in address order. -/
def FrameKind.all : List FrameKind :=
  [.dev, .rpl, .pci, .inst, .ring, .car, .blw, .pic, .head, .layer, .cvu, .sn, .cap, .out, .gfx, .gfxCore, .cpy, .dmcCh, .dmc, .cal, .hap, .hapCh, .tch, .tchPort, .pot, .tab, .log, .brk, .sec, .win]

namespace Reg

/-! Common registers (R81 to R84, R97, R100). -/
def ERR_ACCESS_ERR : Fld := ⟨0x3C, 0, 1⟩
def ERR_WRITE_LOST : Fld := ⟨0x3C, 1, 1⟩
def ERR_APPLY_REFUSED : Fld := ⟨0x3C, 2, 1⟩
def ERR_LATE : Fld := ⟨0x3C, 3, 1⟩
def ERR_ACCESS_KIND : Fld := ⟨0x3C, 4, 8⟩
def ERR_ACCESS_OFFSET : Fld := ⟨0x3C, 12, 20⟩
def ERR_IE_IE : Fld := ⟨0x2C, 0, 4⟩
def CTRL_ARM : Fld := ⟨0x34, 0, 1⟩
def CTRL_REVERT : Fld := ⟨0x34, 1, 1⟩
def APPLY_REASON : Fld := ⟨0x38, 0, 8⟩
def APPLY_REFUSED_OFFSET : Fld := ⟨0x38, 8, 14⟩
def APPLY_APPLIED : Fld := ⟨0x38, 24, 8⟩

/-! Fields of the dev frame. -/
def DEV_BCAST_STATUS_BCAST_DIFFER : Fld := ⟨0x44, 0, 1⟩
def DEV_BCAST_STATUS_TYPE : Fld := ⟨0x44, 1, 3⟩
def DEV_BCAST_STATUS_SEL : Fld := ⟨0x44, 4, 4⟩
def DEV_BCAST_STATUS_OFFSET : Fld := ⟨0x44, 8, 22⟩
def DEV_BCAST_DIFF_LO_MEMBERS : Fld := ⟨0x48, 0, 32⟩
def DEV_BCAST_DIFF_HI_MEMBERS : Fld := ⟨0x4C, 0, 32⟩
def DEV_ID_DEVICE : Fld := ⟨0x0, 0, 16⟩
def DEV_ID_STEPPING : Fld := ⟨0x0, 16, 8⟩
def DEV_ID_GRADE : Fld := ⟨0x0, 24, 2⟩
def DEV_BOOT_STATUS_STEP : Fld := ⟨0x10, 0, 4⟩
def DEV_BOOT_STATUS_STATE : Fld := ⟨0x10, 4, 3⟩
def DEV_BOOT_STATUS_FW_SOURCE : Fld := ⟨0x10, 7, 2⟩
def DEV_BOOT_STATUS_RELEASE : Fld := ⟨0x10, 9, 1⟩
def DEV_BOOT_FAIL_STEP : Fld := ⟨0x14, 0, 4⟩
def DEV_BOOT_FAIL_REASON : Fld := ⟨0x14, 8, 8⟩
def DEV_BOOT_FAIL_DETAIL : Fld := ⟨0x14, 16, 8⟩
def DEV_BOOT_FAIL_DETAIL2 : Fld := ⟨0x14, 24, 8⟩
def DEV_FW_VERSION_VERSION : Fld := ⟨0x18, 0, 32⟩
def DEV_FW_FLOOR_FLOOR : Fld := ⟨0x1C, 0, 32⟩
def DEV_FW_PUSH_ADDR_LO_ADDR : Fld := ⟨0x20, 4, 28⟩
def DEV_FW_PUSH_ADDR_HI_ADDR : Fld := ⟨0x24, 0, 32⟩
def DEV_FW_PUSH_LEN_LEN : Fld := ⟨0x28, 0, 32⟩
def DEV_FW_PUSH_CMD_OP : Fld := ⟨0x50, 0, 3⟩
def DEV_FW_PUSH_CMD_GO : Fld := ⟨0x50, 31, 1⟩
def DEV_FW_PUSH_STATUS_BUSY : Fld := ⟨0x54, 0, 1⟩
def DEV_FW_PUSH_STATUS_DONE : Fld := ⟨0x54, 1, 1⟩
def DEV_FW_PUSH_STATUS_REASON : Fld := ⟨0x54, 8, 8⟩
def DEV_BGRP_LO_MEMBERS : Fld := ⟨0x400, 0, 32⟩
def DEV_BGRP_HI_MEMBERS : Fld := ⟨0x404, 0, 32⟩
def DEV_COLD_STARTS : Nat := 0x60
def DEV_READY_TIME : Nat := 0x70

/-! Fields of the rpl frame. -/
def RPL_STATE_STATE : Fld := ⟨0x0, 0, 4⟩
def RPL_STATE_SOURCE : Fld := ⟨0x0, 4, 4⟩
def RPL_PUSH_CMD_OP : Fld := ⟨0x1C, 0, 3⟩
def RPL_PUSH_CMD_GO : Fld := ⟨0x1C, 31, 1⟩
def RPL_PUSH_STATUS_BUSY : Fld := ⟨0x20, 0, 1⟩
def RPL_PUSH_STATUS_DONE : Fld := ⟨0x20, 1, 1⟩
def RPL_RESULT_REASON : Fld := ⟨0x24, 0, 8⟩
def RPL_RESULT_SECTION : Fld := ⟨0x24, 8, 16⟩
def RPL_RESULT_SUBCODE : Fld := ⟨0x24, 24, 8⟩
def RPL_ACTIVE_VERSION_VERSION : Fld := ⟨0x4, 0, 32⟩
def RPL_FLOOR_FLOOR : Fld := ⟨0x8, 0, 32⟩
def RPL_PUSH_ADDR_LO_ADDR : Fld := ⟨0x10, 4, 28⟩
def RPL_PUSH_ADDR_HI_ADDR : Fld := ⟨0x14, 0, 32⟩
def RPL_PUSH_LEN_LEN : Fld := ⟨0x18, 0, 24⟩
def RPL_RESULT_LOC_RECORD : Fld := ⟨0x28, 0, 16⟩
def RPL_SLOT_STATUS_A_REASON : Fld := ⟨0x30, 0, 8⟩
def RPL_SLOT_STATUS_A_SUBCODE : Fld := ⟨0x30, 8, 8⟩
def RPL_SLOT_STATUS_B_REASON : Fld := ⟨0x30, 16, 8⟩
def RPL_SLOT_STATUS_B_SUBCODE : Fld := ⟨0x30, 24, 8⟩

/-! Fields of the pci frame. -/
def PCI_PORT_CFG_LANE_MODE : Fld := ⟨0x0, 0, 1⟩
def PCI_PORT_CFG_MANAGER_PORT : Fld := ⟨0x0, 1, 1⟩
def PCI_PORT_CFG_VFS_A : Fld := ⟨0x0, 8, 7⟩
def PCI_PORT_CFG_VFS_B : Fld := ⟨0x0, 16, 7⟩
def PCI_PORT_A_STATUS_STATE : Fld := ⟨0x10, 0, 3⟩
def PCI_PORT_B_STATUS_STATE : Fld := ⟨0x14, 0, 3⟩
def PCI_PORT_A_STATUS_WIDTH : Fld := ⟨0x10, 3, 4⟩
def PCI_PORT_B_STATUS_WIDTH : Fld := ⟨0x14, 3, 4⟩
def PCI_PORT_A_STATUS_SPEED : Fld := ⟨0x10, 7, 3⟩
def PCI_PORT_B_STATUS_SPEED : Fld := ⟨0x14, 7, 3⟩
def PCI_PORT_A_STATUS_LOST : Fld := ⟨0x10, 10, 1⟩
def PCI_PORT_B_STATUS_LOST : Fld := ⟨0x14, 10, 1⟩
def PCI_PORT_A_STATUS_MANAGER : Fld := ⟨0x10, 11, 1⟩
def PCI_PORT_B_STATUS_MANAGER : Fld := ⟨0x14, 11, 1⟩
def PCI_EVENT_LINK_DOWN_A : Fld := ⟨0x18, 0, 1⟩
def PCI_EVENT_LINK_DOWN_B : Fld := ⟨0x18, 1, 1⟩
def PCI_EVENT_LINK_UP_A : Fld := ⟨0x18, 2, 1⟩
def PCI_EVENT_LINK_UP_B : Fld := ⟨0x18, 3, 1⟩
def PCI_EVENT_PTM_LOST : Fld := ⟨0x18, 4, 1⟩
def PCI_EVENT_TB_STEP : Fld := ⟨0x18, 5, 1⟩
def PCI_EVENT_IE_IE : Fld := ⟨0x1C, 0, 6⟩
def PCI_PTM_CTRL_PERIOD_MS : Fld := ⟨0x20, 0, 8⟩
def PCI_PTM_CTRL_SOURCE : Fld := ⟨0x20, 8, 2⟩
def PCI_APERTURE_LO_BASE_LO : Fld := ⟨0x24, 28, 4⟩
def PCI_APERTURE_HI_BASE_HI : Fld := ⟨0x28, 0, 4⟩
def PCI_TIMEBASE : Nat := 0x40
def PCI_PTM_OFFSET_A : Nat := 0x50
def PCI_PTM_OFFSET_B : Nat := 0x60
def PCI_LINKDOWN_A : Nat := 0x70
def PCI_LINKDOWN_B : Nat := 0x80

/-! Fields of the inst frame. -/
def INST_ID_INSTANCE : Fld := ⟨0x0, 0, 6⟩
def INST_ID_CLASS : Fld := ⟨0x0, 8, 2⟩
def INST_ID_PORT : Fld := ⟨0x0, 10, 1⟩
def INST_ID_CHIME : Fld := ⟨0x0, 11, 1⟩
def INST_ID_RINGS : Fld := ⟨0x0, 16, 5⟩
def INST_ID_VECTORS : Fld := ⟨0x0, 24, 6⟩
def INST_ID_PF : Fld := ⟨0x0, 31, 1⟩
def INST_STATUS_STATE : Fld := ⟨0x4, 0, 3⟩
def INST_STATUS_RESET_UNCLEAN : Fld := ⟨0x4, 3, 1⟩
def INST_STATUS_HOST_LOST : Fld := ⟨0x4, 4, 1⟩
def INST_STATUS_SCRUBBING : Fld := ⟨0x4, 5, 1⟩
def INST_STATUS_ACTIVE_RINGS : Fld := ⟨0x4, 16, 16⟩
def INST_CTRL_CLEAR_UNCLEAN : Fld := ⟨0x8, 0, 1⟩
def INST_CTRL_RESET : Fld := ⟨0x8, 1, 1⟩
def INST_EVENT_QUIESCED : Fld := ⟨0xC, 0, 1⟩
def INST_EVENT_RESET_DONE : Fld := ⟨0xC, 1, 1⟩
def INST_EVENT_SCRUB_DONE : Fld := ⟨0xC, 2, 1⟩
def INST_EVENT_DL_MISS : Fld := ⟨0xC, 3, 1⟩
def INST_EVENT_RING_HALT : Fld := ⟨0xC, 4, 1⟩
def INST_EVENT_IE_IE : Fld := ⟨0x10, 0, 5⟩
def INST_VEC_EVENT_VEC : Fld := ⟨0x14, 0, 5⟩
def INST_VEC_ERR_VEC : Fld := ⟨0x14, 8, 5⟩
def INST_FENCE_LO_LOC : Fld := ⟨0x18, 0, 1⟩
def INST_FENCE_LO_ADDR_LO : Fld := ⟨0x18, 12, 20⟩
def INST_FENCE_HI_ADDR_HI : Fld := ⟨0x1C, 0, 32⟩
def INST_STOP_STOP : Fld := ⟨0x20, 0, 1⟩
def INST_MGR_IE_IE : Fld := ⟨0x24, 0, 5⟩
def INST_DL_MISS : Nat := 0x40
def INST_ABORTED : Nat := 0x50
def INST_REFUSED : Nat := 0x60

/-! Fields of the ring frame. -/
def RING_CFG_TYPE : Fld := ⟨0x0, 0, 4⟩
def RING_CFG_LOG2_ENTRIES : Fld := ⟨0x0, 4, 4⟩
def RING_CFG_VECTOR : Fld := ⟨0x0, 8, 5⟩
def RING_CFG_CPL_EN : Fld := ⟨0x0, 16, 1⟩
def RING_BASE_LO_LOC : Fld := ⟨0x4, 0, 1⟩
def RING_BASE_LO_ADDR_LO : Fld := ⟨0x4, 6, 26⟩
def RING_BASE_HI_ADDR_HI : Fld := ⟨0x8, 0, 32⟩
def RING_CPL_LO_LOC : Fld := ⟨0xC, 0, 1⟩
def RING_CPL_LO_ADDR_LO : Fld := ⟨0xC, 4, 28⟩
def RING_CPL_HI_ADDR_HI : Fld := ⟨0x10, 0, 32⟩
def RING_MOD_COUNT : Fld := ⟨0x14, 0, 8⟩
def RING_MOD_TIME_US : Fld := ⟨0x14, 8, 16⟩
def RING_MOD_ONESHOT : Fld := ⟨0x14, 24, 1⟩
def RING_HOST_IDX_INDEX : Fld := ⟨0x18, 0, 32⟩
def RING_DEV_IDX_INDEX : Fld := ⟨0x1C, 0, 32⟩
def RING_STATE_STATE : Fld := ⟨0x20, 0, 3⟩
def RING_STATE_WAITING : Fld := ⟨0x20, 3, 1⟩
def RING_STATE_CAUSE : Fld := ⟨0x20, 4, 4⟩
def RING_STATE_FREE : Fld := ⟨0x20, 16, 13⟩
def RING_EVENT_OVERRUN : Fld := ⟨0x24, 0, 1⟩
def RING_EVENT_FETCH_ERR : Fld := ⟨0x24, 1, 1⟩
def RING_EVENT_DESC_ERR : Fld := ⟨0x24, 2, 1⟩
def RING_EVENT_DROP : Fld := ⟨0x24, 3, 1⟩
def RING_EVENT_START_REFUSED : Fld := ⟨0x24, 4, 1⟩
def RING_EVENT_STOPPED : Fld := ⟨0x24, 5, 1⟩
def RING_EVENT_IE_IE : Fld := ⟨0x28, 0, 6⟩
def RING_CTRL_START : Fld := ⟨0x34, 16, 1⟩
def RING_CTRL_STOP : Fld := ⟨0x34, 17, 1⟩
def RING_CTRL_RESUME : Fld := ⟨0x34, 18, 1⟩
def RING_CTRL_DISABLE : Fld := ⟨0x34, 19, 1⟩
def RING_TELEM_PERIOD : Fld := ⟨0x80, 0, 8⟩
def RING_TELEM_ON_CAPTURE : Fld := ⟨0x80, 8, 1⟩
def RING_TELEM_GROUPS : Fld := ⟨0x80, 16, 12⟩
def RING_DONE : Nat := 0x40
def RING_DROPS : Nat := 0x50
def RING_ABORTS : Nat := 0x60

/-! Fields of the car frame. -/
def CAR_STATUS_ROUND : Fld := ⟨0x0, 0, 16⟩
def CAR_STATUS_CUT : Fld := ⟨0x0, 16, 2⟩
def CAR_STATUS_TEST_GROUP : Fld := ⟨0x0, 18, 2⟩
def CAR_STATUS_TESTING : Fld := ⟨0x0, 20, 1⟩
def CAR_STATUS_GROUPS_BUSY : Fld := ⟨0x0, 24, 4⟩
def CAR_BUDGET_GFX_PM : Fld := ⟨0x4, 0, 10⟩
def CAR_BUDGET_CPY_PM : Fld := ⟨0x4, 16, 10⟩
def CAR_FACTOR_G_FACTOR : Fld := ⟨0x8, 0, 10⟩
def CAR_FACTOR_P_FACTOR : Fld := ⟨0x8, 16, 10⟩
def CAR_EVENT_CUT_G : Fld := ⟨0xC, 0, 1⟩
def CAR_EVENT_CUT_P : Fld := ⟨0xC, 1, 1⟩
def CAR_EVENT_TEST_FORCED : Fld := ⟨0xC, 2, 1⟩
def CAR_EVENT_DEBT_LIMIT : Fld := ⟨0xC, 3, 1⟩
def CAR_EVENT_DL_MISS : Fld := ⟨0xC, 4, 1⟩
def CAR_EVENT_PREEMPT_SLOW : Fld := ⟨0xC, 5, 1⟩
def CAR_EVENT_IE_IE : Fld := ⟨0x10, 0, 6⟩
def CAR_CONST_PREEMPT_US : Fld := ⟨0x14, 0, 8⟩
def CAR_CONST_TEST_SLICE_US : Fld := ⟨0x14, 8, 8⟩
def CAR_CONST_QUANTUM_US : Fld := ⟨0x14, 16, 12⟩
def CAR_CONST_GROUPS : Fld := ⟨0x14, 28, 4⟩
def CAR_PREEMPT_WORST_WORST : Fld := ⟨0x18, 0, 16⟩
def CAR_INST_SHARE_GFX : Fld := ⟨0x1000, 0, 10⟩
def CAR_INST_SHARE_CPY : Fld := ⟨0x1000, 16, 10⟩
def CAR_INST_DRAM_RES_MBS : Fld := ⟨0x1004, 0, 24⟩
def CAR_INST_USED_GFX : Fld := ⟨0x1008, 0, 14⟩
def CAR_INST_USED_CPY : Fld := ⟨0x1008, 16, 12⟩
def CAR_INST_DEBT_GFX : Fld := ⟨0x100C, 0, 14⟩
def CAR_INST_DEBT_LIMIT : Fld := ⟨0x100C, 14, 1⟩
def CAR_INST_DEBT_CPY : Fld := ⟨0x100C, 16, 12⟩
def CAR_RING_EST_EST : Fld := ⟨0x2000, 0, 24⟩
def CAR_PREEMPT_DL : Nat := 0x40
def CAR_PREEMPT_QUANTUM : Nat := 0x50
def CAR_TEST_SLICES : Nat := 0x60
def CAR_PREEMPT_SLOW : Nat := 0x70
def CAR_HEAD_MISS : Nat := 0x100
def CAR_INST_GFX_TIME : Nat := 0x1010
def CAR_INST_PREEMPTED : Nat := 0x1020

/-! Fields of the blw frame. -/
def BLW_STATUS_POINT : Fld := ⟨0x0, 0, 3⟩
def BLW_STATUS_BOOST : Fld := ⟨0x0, 3, 1⟩
def BLW_STATUS_THROTTLE : Fld := ⟨0x0, 4, 1⟩
def BLW_STATUS_SAFE : Fld := ⟨0x0, 5, 1⟩
def BLW_STATUS_HELD_SECURE : Fld := ⟨0x0, 6, 1⟩
def BLW_EVENT_BUDGET_CUT : Fld := ⟨0x4, 0, 1⟩
def BLW_EVENT_THROTTLE : Fld := ⟨0x4, 1, 1⟩
def BLW_EVENT_BYPASS : Fld := ⟨0x4, 2, 1⟩
def BLW_EVENT_VOLT_LATE : Fld := ⟨0x4, 3, 1⟩
def BLW_EVENT_POINT_RETIRED : Fld := ⟨0x4, 4, 1⟩
def BLW_EVENT_AGEING_LIMIT : Fld := ⟨0x4, 5, 1⟩
def BLW_EVENT_REPLAN_DONE : Fld := ⟨0x4, 6, 1⟩
def BLW_EVENT_IE_IE : Fld := ⟨0x8, 0, 7⟩
def BLW_CAP_MW : Fld := ⟨0xC, 0, 16⟩
def BLW_CEILING_POINT : Fld := ⟨0x10, 0, 3⟩
def BLW_THERMAL_T_THROTTLE : Fld := ⟨0x14, 0, 8⟩
def BLW_THERMAL_T_TRIP : Fld := ⟨0x14, 8, 8⟩
def BLW_TEMP_TEMP : Fld := ⟨0x18, 0, 8⟩
def BLW_TEMP_SENSOR : Fld := ⟨0x18, 8, 5⟩
def BLW_POWER_ESTIMATE : Fld := ⟨0x1C, 0, 16⟩
def BLW_POWER_MEASURED : Fld := ⟨0x1C, 16, 16⟩
def BLW_VOLT_CORE : Fld := ⟨0x20, 0, 8⟩
def BLW_VOLT_GFX : Fld := ⟨0x20, 8, 8⟩
def BLW_VOLT_G_CORE : Fld := ⟨0x20, 16, 8⟩
def BLW_VOLT_G_GFX : Fld := ⟨0x20, 24, 8⟩
def BLW_AGE_D_GFX : Fld := ⟨0x24, 0, 10⟩
def BLW_AGE_D_CORE : Fld := ⟨0x24, 10, 10⟩
def BLW_AGE_RETIRED : Fld := ⟨0x24, 20, 5⟩
def BLW_SENSOR_TEMP : Fld := ⟨0x100, 0, 8⟩
def BLW_SENSOR_PEAK : Fld := ⟨0x100, 8, 8⟩
def BLW_POINT_MHZ : Fld := ⟨0x200, 0, 12⟩
def BLW_POINT_MV : Fld := ⟨0x200, 12, 12⟩
def BLW_POINT_RETIRED : Fld := ⟨0x200, 24, 1⟩
def BLW_CTRL_REPLAN : Fld := ⟨0x34, 16, 1⟩
def BLW_ENERGY : Nat := 0x40
def BLW_THROTTLE_ROUNDS : Nat := 0x50
def BLW_BYPASSES : Nat := 0x60
def BLW_BOOSTS : Nat := 0x70

/-! Fields of the pic frame. -/
def PIC_STATE_STATE : Fld := ⟨0x0, 0, 3⟩
def PIC_STATE_ENTRY : Fld := ⟨0x0, 3, 2⟩
def PIC_STATE_INHIBIT : Fld := ⟨0x0, 5, 1⟩
def PIC_STATE_RC_32K : Fld := ⟨0x0, 6, 1⟩
def PIC_STATE_WAKE_CAUSE : Fld := ⟨0x0, 8, 4⟩
def PIC_EVENT_WAKE : Fld := ⟨0x4, 0, 1⟩
def PIC_EVENT_SLEEP_REFUSED : Fld := ⟨0x4, 1, 1⟩
def PIC_EVENT_SLEEP_ABORTED : Fld := ⟨0x4, 2, 1⟩
def PIC_EVENT_INHIBIT : Fld := ⟨0x4, 3, 1⟩
def PIC_EVENT_WAKE_RETRY : Fld := ⟨0x4, 4, 1⟩
def PIC_EVENT_DOZE : Fld := ⟨0x4, 5, 1⟩
def PIC_EVENT_IE_IE : Fld := ⟨0x8, 0, 6⟩
def PIC_CTRL_REQ_DOZE : Fld := ⟨0xC, 0, 1⟩
def PIC_CTRL_REQ_STANDBY : Fld := ⟨0xC, 1, 1⟩
def PIC_CTRL_REQ_DEEP : Fld := ⟨0xC, 2, 1⟩
def PIC_CTRL_CANCEL : Fld := ⟨0xC, 3, 1⟩
def PIC_CTRL_WAKE : Fld := ⟨0xC, 4, 1⟩
def PIC_CTRL_DEV_RESET : Fld := ⟨0xC, 5, 1⟩
def PIC_CFG_AUTO_STANDBY : Fld := ⟨0x10, 0, 1⟩
def PIC_CFG_DEEP_S : Fld := ⟨0x10, 16, 16⟩
def PIC_REFUSAL_BLOCK : Fld := ⟨0x14, 0, 4⟩
def PIC_REFUSAL_REASON : Fld := ⟨0x14, 8, 8⟩
def PIC_REFUSAL_IN_A_ROW : Fld := ⟨0x14, 16, 16⟩
def PIC_FAIL_STEP : Fld := ⟨0x18, 0, 3⟩
def PIC_FAIL_RAIL : Fld := ⟨0x18, 3, 3⟩
def PIC_FAIL_ATTEMPTS : Fld := ⟨0x18, 6, 2⟩
def PIC_ALARM_MS : Fld := ⟨0x1C, 0, 32⟩
def PIC_TIME : Nat := 0x40
def PIC_WAKES : Nat := 0x90
def PIC_REFUSALS : Nat := 0xA0

/-! Fields of the head frame. -/
def HEAD_BG_RGB : Fld := ⟨0x100, 0, 24⟩
def HEAD_COMP_STATUS_LEAD : Fld := ⟨0x104, 0, 7⟩
def HEAD_COMP_STATUS_SPEC_LINES : Fld := ⟨0x104, 8, 7⟩
def HEAD_COMP_STATUS_LAYERS : Fld := ⟨0x104, 16, 5⟩
def HEAD_COMP_EVENT_LATE_COMMIT : Fld := ⟨0x108, 0, 1⟩
def HEAD_COMP_EVENT_MISSED_WINDOW : Fld := ⟨0x108, 1, 1⟩
def HEAD_COMP_EVENT_RECOMPOSED : Fld := ⟨0x108, 2, 1⟩
def HEAD_COMP_EVENT_DISCREPANCY : Fld := ⟨0x108, 3, 1⟩
def HEAD_COMP_EVENT_GUARD_EXCL : Fld := ⟨0x108, 4, 1⟩
def HEAD_COMP_EVENT_IE_IE : Fld := ⟨0x10C, 0, 5⟩
def HEAD_STATE_LINK : Fld := ⟨0x0, 0, 4⟩
def HEAD_STATE_CAUSE : Fld := ⟨0x0, 4, 4⟩
def HEAD_STATE_CONTENT : Fld := ⟨0x0, 8, 4⟩
def HEAD_STATE_LOCKED : Fld := ⟨0x0, 12, 1⟩
def HEAD_EVENT_UNDERRUN : Fld := ⟨0x4, 0, 1⟩
def HEAD_EVENT_LINK_CHANGE : Fld := ⟨0x4, 1, 1⟩
def HEAD_EVENT_CONTENT_CHANGE : Fld := ⟨0x4, 2, 1⟩
def HEAD_EVENT_LOCKED : Fld := ⟨0x4, 3, 1⟩
def HEAD_EVENT_LOCK_LOST : Fld := ⟨0x4, 4, 1⟩
def HEAD_EVENT_HOLD_EXPIRED : Fld := ⟨0x4, 5, 1⟩
def HEAD_EVENT_IE_IE : Fld := ⟨0x8, 0, 6⟩
def HEAD_POS_LINE : Fld := ⟨0xC, 0, 16⟩
def HEAD_POS_FRAME_LO : Fld := ⟨0xC, 16, 16⟩
def HEAD_SYNC_SOURCE : Fld := ⟨0x10, 0, 2⟩
def HEAD_SYNC_REF_HEAD : Fld := ⟨0x10, 2, 3⟩
def HEAD_SYNC_RATIO : Fld := ⟨0x10, 5, 2⟩
def HEAD_SYNC_DRIVE_OUT : Fld := ⟨0x10, 7, 1⟩
def HEAD_SYNC_IN_POL : Fld := ⟨0x10, 8, 1⟩
def HEAD_SYNC_OFFSET : Fld := ⟨0x10, 16, 13⟩
def HEAD_LOST_HOLD_MS : Fld := ⟨0x14, 0, 16⟩
def HEAD_OUTSTAGE_GAMMA_EN : Fld := ⟨0x18, 0, 1⟩
def HEAD_OUTSTAGE_DITHER : Fld := ⟨0x18, 1, 2⟩
def HEAD_CRING_RING : Fld := ⟨0x1C, 0, 8⟩
def HEAD_H_H_ACTIVE : Fld := ⟨0x40, 0, 16⟩
def HEAD_H_H_TOTAL : Fld := ⟨0x40, 16, 16⟩
def HEAD_V_V_ACTIVE : Fld := ⟨0x44, 0, 16⟩
def HEAD_V_V_TOTAL : Fld := ⟨0x44, 16, 16⟩
def HEAD_HSYNC_HS_START : Fld := ⟨0x48, 0, 16⟩
def HEAD_HSYNC_HS_END : Fld := ⟨0x48, 16, 16⟩
def HEAD_VSYNC_VS_START : Fld := ⟨0x4C, 0, 16⟩
def HEAD_VSYNC_VS_END : Fld := ⟨0x4C, 16, 16⟩
def HEAD_PIXEL_PIXEL_KHZ : Fld := ⟨0x50, 0, 22⟩
def HEAD_LATCH_LINE : Fld := ⟨0x54, 0, 16⟩
def HEAD_PERIOD_NS : Fld := ⟨0x58, 0, 32⟩
def HEAD_GAMMA_R_ENTRY_EVEN : Fld := ⟨0x1000, 0, 12⟩
def HEAD_GAMMA_G_ENTRY_EVEN : Fld := ⟨0x1800, 0, 12⟩
def HEAD_GAMMA_B_ENTRY_EVEN : Fld := ⟨0x2000, 0, 12⟩
def HEAD_GAMMA_R_ENTRY_ODD : Fld := ⟨0x1000, 16, 12⟩
def HEAD_GAMMA_G_ENTRY_ODD : Fld := ⟨0x1800, 16, 12⟩
def HEAD_GAMMA_B_ENTRY_ODD : Fld := ⟨0x2000, 16, 12⟩
def HEAD_LAYER_MASK : Nat := 0x140
def HEAD_SPEC_DISCARD : Nat := 0x150
def HEAD_RECOMPOSE : Nat := 0x160
def HEAD_LATE_COMMIT : Nat := 0x170
def HEAD_MISSED_WINDOW : Nat := 0x180
def HEAD_GUARD_EXCL : Nat := 0x190
def HEAD_FRAME : Nat := 0x60
def HEAD_UNDERRUN : Nat := 0x70
def HEAD_LOCK_LOSS : Nat := 0x80
def HEAD_LATCH_TIME : Nat := 0x90

/-! Fields of the layer frame. -/
def LAYER_ID_OWNER : Fld := ⟨0x0, 0, 8⟩
def LAYER_ID_HEAD : Fld := ⟨0x0, 8, 4⟩
def LAYER_ID_VIDEO : Fld := ⟨0x0, 12, 1⟩
def LAYER_ID_CAPTURE_FED : Fld := ⟨0x0, 13, 1⟩
def LAYER_ID_CAPTURE : Fld := ⟨0x0, 14, 2⟩
def LAYER_STATUS_ON_GLASS : Fld := ⟨0x4, 0, 1⟩
def LAYER_STATUS_MOVE_PENDING : Fld := ⟨0x4, 1, 1⟩
def LAYER_STATUS_HELD : Fld := ⟨0x4, 2, 1⟩
def LAYER_STATUS_COVERED : Fld := ⟨0x4, 3, 1⟩
def LAYER_ASSIGN_TARGET : Fld := ⟨0x8, 0, 4⟩
def LAYER_EVENT_APPLIED : Fld := ⟨0xC, 0, 1⟩
def LAYER_EVENT_LATE_COMMIT : Fld := ⟨0xC, 1, 1⟩
def LAYER_EVENT_MISSED_WINDOW : Fld := ⟨0xC, 2, 1⟩
def LAYER_EVENT_SUPERSEDED : Fld := ⟨0xC, 3, 1⟩
def LAYER_EVENT_FETCH_REFUSED : Fld := ⟨0xC, 4, 1⟩
def LAYER_EVENT_MOVE_DONE : Fld := ⟨0xC, 5, 1⟩
def LAYER_EVENT_IE_IE : Fld := ⟨0x10, 0, 6⟩
def LAYER_CFG_ENABLE : Fld := ⟨0x40, 0, 1⟩
def LAYER_CFG_INPUT : Fld := ⟨0x40, 1, 1⟩
def LAYER_CFG_HFLIP : Fld := ⟨0x40, 2, 1⟩
def LAYER_CFG_VFLIP : Fld := ⟨0x40, 3, 1⟩
def LAYER_CFG_Z : Fld := ⟨0x40, 4, 4⟩
def LAYER_CFG_FORMAT : Fld := ⟨0x40, 8, 6⟩
def LAYER_CFG_BLEND : Fld := ⟨0x40, 14, 2⟩
def LAYER_CFG_PLANE_ALPHA : Fld := ⟨0x40, 16, 8⟩
def LAYER_COLOUR_PRIMARIES : Fld := ⟨0x44, 0, 2⟩
def LAYER_COLOUR_TRANSFER : Fld := ⟨0x44, 2, 2⟩
def LAYER_COLOUR_MATRIX : Fld := ⟨0x44, 4, 1⟩
def LAYER_COLOUR_RANGE : Fld := ⟨0x44, 5, 1⟩
def LAYER_COLOUR_CSITE_X : Fld := ⟨0x44, 6, 1⟩
def LAYER_COLOUR_CSITE_Y : Fld := ⟨0x44, 7, 1⟩
def LAYER_SRC_POS_X : Fld := ⟨0x48, 0, 14⟩
def LAYER_SRC_POS_Y : Fld := ⟨0x48, 16, 14⟩
def LAYER_SRC_SIZE_W : Fld := ⟨0x4C, 0, 14⟩
def LAYER_SRC_SIZE_H : Fld := ⟨0x4C, 16, 14⟩
def LAYER_DST_POS_X : Fld := ⟨0x50, 0, 16⟩
def LAYER_DST_POS_Y : Fld := ⟨0x50, 16, 16⟩
def LAYER_DST_SIZE_W : Fld := ⟨0x54, 0, 14⟩
def LAYER_DST_SIZE_H : Fld := ⟨0x54, 16, 14⟩
def LAYER_PLANE_LO_ADDR : Fld := ⟨0x58, 8, 24⟩
def LAYER_PLANE_HI_ADDR : Fld := ⟨0x5C, 0, 4⟩
def LAYER_PITCH01_PITCH0 : Fld := ⟨0x70, 0, 12⟩
def LAYER_PITCH01_PITCH1 : Fld := ⟨0x70, 16, 12⟩
def LAYER_PITCH2_PITCH2 : Fld := ⟨0x74, 0, 12⟩
def LAYER_CONST_COLOUR : Fld := ⟨0x78, 0, 32⟩
def LAYER_HSTEP_STEP : Fld := ⟨0x7C, 0, 24⟩
def LAYER_VSTEP_STEP : Fld := ⟨0x80, 0, 24⟩
def LAYER_HINIT_INIT : Fld := ⟨0x84, 0, 28⟩
def LAYER_VINIT_INIT : Fld := ⟨0x88, 0, 28⟩
def LAYER_HCOEFF_TAP_EVEN : Fld := ⟨0x800, 0, 12⟩
def LAYER_VCOEFF_TAP_EVEN : Fld := ⟨0xC00, 0, 12⟩
def LAYER_HCOEFF_TAP_ODD : Fld := ⟨0x800, 16, 12⟩
def LAYER_VCOEFF_TAP_ODD : Fld := ⟨0xC00, 16, 12⟩
def LAYER_FETCH_ERR : Nat := 0xC0
def LAYER_COMMITS : Nat := 0xD0
def LAYER_SKIP_BYTES : Nat := 0xE0

/-! Fields of the cvu frame. -/
def CVU_ID_OWNER : Fld := ⟨0x0, 0, 8⟩
def CVU_ID_ARG : Fld := ⟨0x0, 8, 8⟩
def CVU_ID_SNOOP : Fld := ⟨0x0, 16, 4⟩
def CVU_CFG_WIDTH : Fld := ⟨0x4, 0, 7⟩
def CVU_CFG_REFIN : Fld := ⟨0x4, 7, 1⟩
def CVU_CFG_REFOUT : Fld := ⟨0x4, 8, 1⟩
def CVU_CFG_FOLD_HEAD : Fld := ⟨0x4, 9, 1⟩
def CVU_CFG_FOLD_UNIT : Fld := ⟨0x4, 10, 1⟩
def CVU_CFG_FOLD_ADDR : Fld := ⟨0x4, 11, 1⟩
def CVU_CFG_FOLD_SEQ : Fld := ⟨0x4, 12, 1⟩
def CVU_CFG_COMPARE : Fld := ⟨0x4, 13, 1⟩
def CVU_CFG_REF_MODE : Fld := ⟨0x4, 14, 1⟩
def CVU_STATUS_STATE : Fld := ⟨0x8, 0, 2⟩
def CVU_STATUS_LAST_MATCH : Fld := ⟨0x8, 2, 1⟩
def CVU_STATUS_QUEUED : Fld := ⟨0x8, 3, 3⟩
def CVU_STATUS_RUN : Fld := ⟨0x8, 6, 4⟩
def CVU_EVENT_DONE : Fld := ⟨0xC, 0, 1⟩
def CVU_EVENT_MISMATCH : Fld := ⟨0xC, 1, 1⟩
def CVU_EVENT_NO_EXPECT : Fld := ⟨0xC, 2, 1⟩
def CVU_EVENT_MISSING : Fld := ⟨0xC, 3, 1⟩
def CVU_EVENT_SEQUENCE : Fld := ⟨0xC, 4, 1⟩
def CVU_EVENT_COMPARATOR : Fld := ⟨0xC, 5, 1⟩
def CVU_EVENT_IE_IE : Fld := ⟨0x10, 0, 6⟩
def CVU_POLY : Nat := 0x40
def CVU_INIT : Nat := 0x50
def CVU_XOROUT : Nat := 0x60
def CVU_REF : Nat := 0x70
def CVU_LAST : Nat := 0x80
def CVU_LAST_P : Nat := 0x90
def CVU_COMPARES : Nat := 0xA0
def CVU_MISMATCHES : Nat := 0xB0

/-! Fields of the sn frame. -/
def SN_STATUS_GUARANTEE : Fld := ⟨0x0, 0, 1⟩
def SN_STATUS_STOPPED : Fld := ⟨0x0, 1, 1⟩
def SN_STATUS_FAULT_N : Fld := ⟨0x0, 2, 1⟩
def SN_STATUS_PERSIST : Fld := ⟨0x0, 3, 1⟩
def SN_STATUS_COND : Fld := ⟨0x0, 4, 6⟩
def SN_EVENT_FAULT : Fld := ⟨0x4, 0, 1⟩
def SN_EVENT_STOPPED : Fld := ⟨0x4, 1, 1⟩
def SN_EVENT_RELEASED : Fld := ⟨0x4, 2, 1⟩
def SN_EVENT_RELEASE_REFUSED : Fld := ⟨0x4, 3, 1⟩
def SN_EVENT_GUARANTEE_CHANGE : Fld := ⟨0x4, 4, 1⟩
def SN_EVENT_IE_IE : Fld := ⟨0x8, 0, 5⟩
def SN_CTRL_STOP : Fld := ⟨0xC, 0, 1⟩
def SN_CTRL_RELEASE : Fld := ⟨0xC, 1, 1⟩
def SN_CFG_MISMATCH_STOP : Fld := ⟨0x10, 0, 4⟩
def SN_STOP_MASK_MASK : Fld := ⟨0x14, 0, 32⟩
def SN_FAULT_FLAGS_FLAGS : Fld := ⟨0x18, 0, 32⟩
def SN_PERSIST_PERSIST : Fld := ⟨0x1C, 0, 32⟩
def SN_INJECT_SOURCE : Fld := ⟨0x20, 0, 5⟩
def SN_INJECT_INDEX : Fld := ⟨0x20, 8, 8⟩
def SN_INJECT_SINGLE : Fld := ⟨0x20, 16, 1⟩
def SN_INJECT_SUPPRESS_STOP : Fld := ⟨0x20, 17, 1⟩
def SN_INJECT_GO : Fld := ⟨0x20, 31, 1⟩
def SN_INJECT_ADDR_LO_ADDR : Fld := ⟨0x24, 6, 26⟩
def SN_INJECT_ADDR_HI_ADDR : Fld := ⟨0x28, 0, 4⟩
def SN_FAULTS : Nat := 0x40
def SN_INJECTIONS : Nat := 0x50
def SN_LAST : Nat := 0x60
def SN_STOPS : Nat := 0x70
def SN_SOURCE_COUNT : Nat := 0x100

/-! Fields of the cap frame. -/
def CAP_STATUS_STATE : Fld := ⟨0x0, 0, 2⟩
def CAP_STATUS_NEWEST : Fld := ⟨0x0, 2, 2⟩
def CAP_STATUS_LANES : Fld := ⟨0x0, 4, 3⟩
def CAP_EVENT_FRAME_BAD : Fld := ⟨0x4, 0, 1⟩
def CAP_EVENT_STALL : Fld := ⟨0x4, 1, 1⟩
def CAP_EVENT_RESUMED : Fld := ⟨0x4, 2, 1⟩
def CAP_EVENT_PKT_ERR : Fld := ⟨0x4, 3, 1⟩
def CAP_EVENT_OVERFLOW : Fld := ⟨0x4, 4, 1⟩
def CAP_EVENT_IE_IE : Fld := ⟨0x8, 0, 5⟩
def CAP_STALL_MS : Fld := ⟨0xC, 0, 10⟩
def CAP_FRAMES : Nat := 0x40
def CAP_BAD_FRAMES : Nat := 0x50
def CAP_UNSHOWN : Nat := 0x60
def CAP_PKT_ERR : Nat := 0x70
def CAP_LAST_FRAME : Nat := 0x80

/-! Fields of the out frame. -/
def OUT_CFG_BPC : Fld := ⟨0x0, 0, 2⟩
def OUT_CFG_DSC_MODE : Fld := ⟨0x0, 2, 2⟩
def OUT_CFG_DSC_BPP : Fld := ⟨0x0, 4, 10⟩
def OUT_CFG_HSYNC_NEG : Fld := ⟨0x0, 14, 1⟩
def OUT_CFG_VSYNC_NEG : Fld := ⟨0x0, 15, 1⟩
def OUT_CFG_DSI_VIDEO : Fld := ⟨0x0, 16, 2⟩
def OUT_CFG_DSI_CONT_CLK : Fld := ⟨0x0, 18, 1⟩
def OUT_CFG_DSI_READY_PIN : Fld := ⟨0x0, 19, 1⟩
def OUT_CFG_PSR_EN : Fld := ⟨0x0, 20, 1⟩
def OUT_CFG_PSR_FRAMES : Fld := ⟨0x0, 21, 8⟩
def OUT_CFG_DSI_PANEL_DSC : Fld := ⟨0x0, 29, 1⟩
def OUT_STATUS_RATE : Fld := ⟨0x4, 0, 4⟩
def OUT_STATUS_LANES : Fld := ⟨0x4, 4, 3⟩
def OUT_STATUS_DSC : Fld := ⟨0x4, 7, 1⟩
def OUT_STATUS_HPD : Fld := ⟨0x4, 8, 1⟩
def OUT_STATUS_SINK_DSC : Fld := ⟨0x4, 9, 1⟩
def OUT_STATUS_HDCP : Fld := ⟨0x4, 10, 3⟩
def OUT_STATUS_PSR : Fld := ⟨0x4, 13, 2⟩
def OUT_STATUS_AUDIO : Fld := ⟨0x4, 15, 1⟩
def OUT_EVENT_PLUG : Fld := ⟨0x8, 0, 1⟩
def OUT_EVENT_UNPLUG : Fld := ⟨0x8, 1, 1⟩
def OUT_EVENT_IRQ_HPD : Fld := ⟨0x8, 2, 1⟩
def OUT_EVENT_TRAINED : Fld := ⟨0x8, 3, 1⟩
def OUT_EVENT_TRAIN_FAIL : Fld := ⟨0x8, 4, 1⟩
def OUT_EVENT_LINK_LOST : Fld := ⟨0x8, 5, 1⟩
def OUT_EVENT_HDCP_CHANGE : Fld := ⟨0x8, 6, 1⟩
def OUT_EVENT_PSR_EXIT : Fld := ⟨0x8, 7, 1⟩
def OUT_EVENT_AUX_DONE : Fld := ⟨0x8, 8, 1⟩
def OUT_EVENT_IE_IE : Fld := ⟨0xC, 0, 9⟩
def OUT_CMD_RETRAIN : Fld := ⟨0x10, 0, 1⟩
def OUT_CMD_AUX_GO : Fld := ⟨0x10, 1, 1⟩
def OUT_HDCP_REQUEST : Fld := ⟨0x14, 0, 2⟩
def OUT_AUX_REQ_ADDR : Fld := ⟨0x40, 0, 20⟩
def OUT_AUX_REQ_LEN : Fld := ⟨0x40, 20, 4⟩
def OUT_AUX_REQ_OP : Fld := ⟨0x40, 24, 3⟩
def OUT_AUX_STATUS_BUSY : Fld := ⟨0x44, 0, 1⟩
def OUT_AUX_STATUS_RESULT : Fld := ⟨0x44, 2, 2⟩
def OUT_AUX_STATUS_COUNT : Fld := ⟨0x44, 4, 5⟩
def OUT_AUX_DATA_DATA : Fld := ⟨0x48, 0, 32⟩
def OUT_TRAIN_FAILS : Nat := 0x60
def OUT_LINK_LOSS : Nat := 0x70

/-! Fields of the gfx frame. -/
def GFX_STATUS_GROUPS_OK : Fld := ⟨0x0, 0, 4⟩
def GFX_STATUS_GROUPS_SECURE : Fld := ⟨0x0, 4, 4⟩
def GFX_STATUS_GROUPS_BUSY : Fld := ⟨0x0, 8, 4⟩
def GFX_EVENT_DROPPED : Fld := ⟨0x4, 0, 1⟩
def GFX_EVENT_TIMEOUT : Fld := ⟨0x4, 1, 1⟩
def GFX_EVENT_TEST_FAIL : Fld := ⟨0x4, 2, 1⟩
def GFX_EVENT_RESTORE_ERR : Fld := ⟨0x4, 3, 1⟩
def GFX_EVENT_IE_IE : Fld := ⟨0x8, 0, 4⟩
def GFX_CFG_JOB_LIMIT_MS : Fld := ⟨0xC, 0, 16⟩
def GFX_CONST_SAVE_KIB : Fld := ⟨0x10, 0, 16⟩
def GFX_CONST_CORES : Fld := ⟨0x10, 16, 5⟩
def GFX_CONST_L2_MIB : Fld := ⟨0x10, 24, 8⟩
def GFX_CLOCK_MHZ : Fld := ⟨0x14, 0, 12⟩
def GFX_L2_POLICY : Fld := ⟨0x18, 0, 1⟩
def GFX_L2_SECURE_WAYS : Fld := ⟨0x18, 1, 4⟩
def GFX_DROPPED : Nat := 0x40
def GFX_TIMEOUTS : Nat := 0x50
def GFX_PRIMS : Nat := 0x60
def GFX_PIXELS : Nat := 0x70
def GFX_L2_HITS : Nat := 0x80
def GFX_L2_MISSES : Nat := 0x90
def GFX_TEX_PROBES : Nat := 0xA0

/-! Fields of the gfxCore frame. -/
def GFX_CORE_STATUS_STATE : Fld := ⟨0x0, 0, 2⟩
def GFX_CORE_STATUS_IN_SERVICE : Fld := ⟨0x0, 2, 1⟩
def GFX_CORE_STATUS_TEST_SEG : Fld := ⟨0x0, 3, 3⟩
def GFX_CORE_STATUS_TEST_FAILED : Fld := ⟨0x0, 6, 1⟩
def GFX_CORE_EVENT_TEST_FAIL : Fld := ⟨0x4, 0, 1⟩
def GFX_CORE_EVENT_IE_IE : Fld := ⟨0x8, 0, 1⟩
def GFX_CORE_BUSY : Nat := 0x40
def GFX_CORE_WAVE_INSTR : Nat := 0x50
def GFX_CORE_TEST_RUNS : Nat := 0x60
def GFX_CORE_LAST_TEST : Nat := 0x70

/-! Fields of the cpy frame. -/
def CPY_STATUS_BUSY : Fld := ⟨0x0, 0, 1⟩
def CPY_STATUS_SECURE : Fld := ⟨0x0, 1, 1⟩
def CPY_STATUS_CLASS_B : Fld := ⟨0x0, 2, 1⟩
def CPY_STATUS_INSTANCE : Fld := ⟨0x0, 8, 6⟩
def CPY_EVENT_FAULT : Fld := ⟨0x4, 0, 1⟩
def CPY_EVENT_BAD_PARAMS : Fld := ⟨0x4, 1, 1⟩
def CPY_EVENT_IE_IE : Fld := ⟨0x8, 0, 2⟩
def CPY_BYTES : Nat := 0x40
def CPY_JOBS : Nat := 0x50

/-! Fields of the dmcCh frame. -/
def DMCCH_STATUS_RANK0 : Fld := ⟨0x0, 0, 2⟩
def DMCCH_STATUS_RANK1 : Fld := ⟨0x0, 2, 2⟩
def DMCCH_STATUS_RATE_X : Fld := ⟨0x0, 4, 2⟩
def DMCCH_STATUS_OWED_0 : Fld := ⟨0x0, 8, 6⟩
def DMCCH_STATUS_URGENCY : Fld := ⟨0x0, 14, 2⟩
def DMCCH_STATUS_OWED_1 : Fld := ⟨0x0, 16, 6⟩
def DMCCH_STATUS_QUEUED : Fld := ⟨0x0, 23, 7⟩
def DMCCH_EVENT_CE : Fld := ⟨0x4, 0, 1⟩
def DMCCH_EVENT_UE : Fld := ⟨0x4, 1, 1⟩
def DMCCH_EVENT_ADDR_CHECK : Fld := ⟨0x4, 2, 1⟩
def DMCCH_EVENT_RATE_CHANGE : Fld := ⟨0x4, 3, 1⟩
def DMCCH_EVENT_FORCED : Fld := ⟨0x4, 4, 1⟩
def DMCCH_EVENT_MITIGATION : Fld := ⟨0x4, 5, 1⟩
def DMCCH_EVENT_EYE_LOW : Fld := ⟨0x4, 6, 1⟩
def DMCCH_EVENT_TRAIN_FAIL : Fld := ⟨0x4, 7, 1⟩
def DMCCH_EVENT_IE_IE : Fld := ⟨0x8, 0, 8⟩
def DMCCH_EYE_RD_CENTRE_B0 : Fld := ⟨0x10, 0, 7⟩
def DMCCH_EYE_WR_CENTRE_B0 : Fld := ⟨0x14, 0, 7⟩
def DMCCH_EYE_RD_WIDTH_B0 : Fld := ⟨0x10, 8, 7⟩
def DMCCH_EYE_WR_WIDTH_B0 : Fld := ⟨0x14, 8, 7⟩
def DMCCH_EYE_RD_CENTRE_B1 : Fld := ⟨0x10, 16, 7⟩
def DMCCH_EYE_WR_CENTRE_B1 : Fld := ⟨0x14, 16, 7⟩
def DMCCH_EYE_RD_WIDTH_B1 : Fld := ⟨0x10, 24, 7⟩
def DMCCH_EYE_WR_WIDTH_B1 : Fld := ⟨0x14, 24, 7⟩
def DMCCH_CE : Nat := 0x40
def DMCCH_UE : Nat := 0x50
def DMCCH_REFRESHES : Nat := 0x60
def DMCCH_POSTPONED : Nat := 0x70
def DMCCH_FORCED : Nat := 0x80
def DMCCH_MITIGATIONS : Nat := 0x90
def DMCCH_ACTIVATES : Nat := 0xA0
def DMCCH_G_DEFERRED : Nat := 0xB0

/-! Fields of the dmc frame. -/
def DMC_STATUS_STATE : Fld := ⟨0x0, 0, 3⟩
def DMC_STATUS_ECC_ON : Fld := ⟨0x0, 3, 1⟩
def DMC_STATUS_TWO_RANKS : Fld := ⟨0x0, 4, 1⟩
def DMC_STATUS_INSTALLED_GIB : Fld := ⟨0x0, 8, 8⟩
def DMC_STATUS_RATE_MTS : Fld := ⟨0x0, 16, 16⟩
def DMC_USABLE_MIB : Fld := ⟨0x4, 0, 20⟩
def DMC_EVENT_CE : Fld := ⟨0x8, 0, 1⟩
def DMC_EVENT_UE : Fld := ⟨0x8, 1, 1⟩
def DMC_EVENT_TEMP_HIGH : Fld := ⟨0x8, 2, 1⟩
def DMC_EVENT_PATROL_PASS : Fld := ⟨0x8, 3, 1⟩
def DMC_EVENT_RECENTRE_STARVED : Fld := ⟨0x8, 4, 1⟩
def DMC_EVENT_EYE_LOW : Fld := ⟨0x8, 5, 1⟩
def DMC_EVENT_TRAIN_FAIL : Fld := ⟨0x8, 6, 1⟩
def DMC_EVENT_IE_IE : Fld := ⟨0xC, 0, 7⟩
def DMC_REFRESH_LIMIT : Fld := ⟨0x10, 0, 4⟩
def DMC_REFRESH_ALL_BANK : Fld := ⟨0x10, 4, 1⟩
def DMC_REFRESH_POLL_US : Fld := ⟨0x10, 16, 14⟩
def DMC_DISTURB_THRESHOLD : Fld := ⟨0x14, 0, 14⟩
def DMC_DISTURB_ENABLE : Fld := ⟨0x14, 16, 1⟩
def DMC_DISTURB_MODE : Fld := ⟨0x14, 17, 1⟩
def DMC_POLICY_AGE_US : Fld := ⟨0x18, 0, 8⟩
def DMC_POLICY_HIT_LIMIT : Fld := ⟨0x18, 8, 5⟩
def DMC_LP_PD_US : Fld := ⟨0x1C, 0, 10⟩
def DMC_LP_SR_IDLE_US : Fld := ⟨0x1C, 16, 16⟩
def DMC_PATROL_HOURS : Fld := ⟨0x20, 0, 5⟩
def DMC_PATROL_ENABLE : Fld := ⟨0x20, 5, 1⟩
def DMC_RECENTRE_PERIOD_S : Fld := ⟨0x24, 0, 16⟩
def DMC_RECENTRE_STEP_C : Fld := ⟨0x24, 16, 4⟩
def DMC_RECENTRE_NOW : Fld := ⟨0x24, 31, 1⟩
def DMC_CE_TOTAL : Nat := 0x40
def DMC_UE_TOTAL : Nat := 0x50
def DMC_PATROL_POS : Nat := 0x60
def DMC_PATROL_PASSES : Nat := 0x70
def DMC_LAST_CE : Nat := 0x80
def DMC_LAST_UE : Nat := 0x90

/-! Fields of the cal frame. -/
def CAL_STATUS_STATE : Fld := ⟨0x0, 0, 2⟩
def CAL_STATUS_MODE : Fld := ⟨0x0, 2, 1⟩
def CAL_STATUS_RATE96 : Fld := ⟨0x0, 3, 1⟩
def CAL_STATUS_COMPILING : Fld := ⟨0x0, 4, 1⟩
def CAL_STATUS_COMPILED : Fld := ⟨0x0, 5, 1⟩
def CAL_STATUS_LOCK_A : Fld := ⟨0x0, 6, 1⟩
def CAL_STATUS_LOCK_B : Fld := ⟨0x0, 7, 1⟩
def CAL_STATUS_PERIOD : Fld := ⟨0x0, 8, 5⟩
def CAL_EVENT_SWAPPED : Fld := ⟨0x4, 0, 1⟩
def CAL_EVENT_XRUN : Fld := ⟨0x4, 1, 1⟩
def CAL_EVENT_OVERLOAD : Fld := ⟨0x4, 2, 1⟩
def CAL_EVENT_PORT_CLOCK : Fld := ⟨0x4, 3, 1⟩
def CAL_EVENT_HS_0 : Fld := ⟨0x4, 4, 1⟩
def CAL_EVENT_HS_1 : Fld := ⟨0x4, 5, 1⟩
def CAL_EVENT_CHIME_FAULT : Fld := ⟨0x4, 6, 1⟩
def CAL_EVENT_IE_IE : Fld := ⟨0x8, 0, 7⟩
def CAL_XFADE_T : Fld := ⟨0xC, 0, 13⟩
def CAL_LOAD_CORE_n : Fld := ⟨0x10, 0, 32⟩
def CAL_HS_STATUS_PRESENT : Fld := ⟨0x100, 0, 1⟩
def CAL_HS_STATUS_TYPE : Fld := ⟨0x100, 1, 2⟩
def CAL_HS_STATUS_LINE : Fld := ⟨0x100, 3, 1⟩
def CAL_HS_STATUS_BUTTON : Fld := ⟨0x100, 4, 3⟩
def CAL_HS_CFG_BIAS_EN : Fld := ⟨0x104, 0, 1⟩
def CAL_HS_CFG_LINE_KOHM : Fld := ⟨0x104, 1, 7⟩
def CAL_HS_BTN_A : Fld := ⟨0x108, 0, 8⟩
def CAL_HS_BTN_B : Fld := ⟨0x108, 8, 8⟩
def CAL_HS_BTN_C : Fld := ⟨0x108, 16, 8⟩
def CAL_HS_BTN_D : Fld := ⟨0x108, 24, 8⟩
def CAL_LEGACY_MUX_SOURCE : Fld := ⟨0x200, 0, 5⟩
def CAL_PORT_STATUS_STATE : Fld := ⟨0x300, 0, 2⟩
def CAL_STREAM_STATUS_STATE : Fld := ⟨0x4000, 0, 2⟩
def CAL_STREAM_STATUS_QUEUED : Fld := ⟨0x4000, 2, 8⟩
def CAL_NODE_CTRL_WORD : Fld := ⟨0x1000, 0, 32⟩
def CAL_NODE_PARAM_WORD : Fld := ⟨0x1004, 0, 32⟩
def CAL_NODE_AUX_WORD : Fld := ⟨0x1008, 0, 32⟩
def CAL_NODE_STATUS_WORD : Fld := ⟨0x100C, 0, 32⟩
def CAL_COEFF_WORD : Fld := ⟨0x10000, 0, 32⟩
def CAL_PERIODS : Nat := 0x40
def CAL_SWAPS : Nat := 0x50
def CAL_OVERLOADS : Nat := 0x60
def CAL_STREAM_XRUN : Nat := 0x5000

/-! Fields of the hap frame. -/
def HAP_STATUS_READY : Fld := ⟨0x0, 0, 8⟩
def HAP_STATUS_FAULT : Fld := ⟨0x0, 8, 8⟩
def HAP_EVENT_FAULT : Fld := ⟨0x4, 0, 1⟩
def HAP_EVENT_IE_IE : Fld := ⟨0x8, 0, 1⟩

/-! Fields of the hapCh frame. -/
def HAPCH_STATUS_STATE : Fld := ⟨0x0, 0, 3⟩
def HAPCH_STATUS_CAUSE : Fld := ⟨0x0, 3, 3⟩
def HAPCH_STATUS_WAITING : Fld := ⟨0x0, 6, 1⟩
def HAPCH_STATUS_SLOT : Fld := ⟨0x0, 8, 8⟩
def HAPCH_STATUS_PRIORITY : Fld := ⟨0x0, 16, 3⟩
def HAPCH_STATUS_RETRIES : Fld := ⟨0x0, 19, 2⟩
def HAPCH_EVENT_FAULT : Fld := ⟨0x4, 0, 1⟩
def HAPCH_EVENT_CAL_DONE : Fld := ⟨0x4, 1, 1⟩
def HAPCH_EVENT_TEST_DONE : Fld := ⟨0x4, 2, 1⟩
def HAPCH_EVENT_RECOVERED : Fld := ⟨0x4, 3, 1⟩
def HAPCH_EVENT_RETRIGGER : Fld := ⟨0x4, 4, 1⟩
def HAPCH_EVENT_IE_IE : Fld := ⟨0x8, 0, 5⟩
def HAPCH_CMD_CALIBRATE : Fld := ⟨0xC, 0, 1⟩
def HAPCH_CMD_TEST : Fld := ⟨0xC, 1, 1⟩
def HAPCH_CMD_RECOVER : Fld := ⟨0xC, 2, 1⟩
def HAPCH_CMD_STOP : Fld := ⟨0xC, 3, 1⟩
def HAPCH_LEVEL_STRENGTH : Fld := ⟨0x10, 0, 7⟩
def HAPCH_LEVEL_MUTE : Fld := ⟨0x10, 7, 1⟩
def HAPCH_CAL_F_RES : Fld := ⟨0x14, 0, 16⟩
def HAPCH_CAL_R_DC : Fld := ⟨0x14, 16, 16⟩
def HAPCH_TRIG_RESULT_RESULT : Fld := ⟨0x1C, 0, 3⟩
def HAPCH_TRIG_RESULT_CHANNEL : Fld := ⟨0x1C, 8, 3⟩
def HAPCH_EFFECTS : Nat := 0x40
def HAPCH_RETRIGGERS : Nat := 0x50
def HAPCH_FAULTS : Nat := 0x60
def HAPCH_DROPPED : Nat := 0x70

/-! Fields of the tch frame. -/
def TCH_STATUS_POWERED : Fld := ⟨0x0, 0, 8⟩
def TCH_EVENT_SEQ_FAULT : Fld := ⟨0x4, 0, 1⟩
def TCH_EVENT_IE_IE : Fld := ⟨0x8, 0, 1⟩

/-! Fields of the tchPort frame. -/
def TCHP_STATUS_STATE : Fld := ⟨0x0, 0, 2⟩
def TCHP_STATUS_DOWN : Fld := ⟨0x0, 2, 4⟩
def TCHP_STATUS_SAFETY : Fld := ⟨0x0, 6, 1⟩
def TCHP_STATUS_HEAD : Fld := ⟨0x0, 8, 3⟩
def TCHP_EVENT_BAD_REPORT : Fld := ⟨0x4, 0, 1⟩
def TCHP_EVENT_SEQ_FAULT : Fld := ⟨0x4, 1, 1⟩
def TCHP_EVENT_STALE : Fld := ⟨0x4, 2, 1⟩
def TCHP_EVENT_BUS_ERR : Fld := ⟨0x4, 3, 1⟩
def TCHP_EVENT_DISCARD : Fld := ⟨0x4, 4, 1⟩
def TCHP_EVENT_IE_IE : Fld := ⟨0x8, 0, 5⟩
def TCHP_MATRIX_COEF : Fld := ⟨0x100, 0, 32⟩
def TCHP_REPORTS : Nat := 0x40
def TCHP_BAD_REPORTS : Nat := 0x50
def TCHP_DISCARDS : Nat := 0x60
def TCHP_CANCELS : Nat := 0x70
def TCHP_LAST : Nat := 0x80

/-! Fields of the tab frame. -/
def TAB_GEN_GEN : Fld := ⟨0x0, 0, 32⟩
def TAB_EVENT_CAPTURED : Fld := ⟨0x4, 0, 1⟩
def TAB_EVENT_AT_LATE : Fld := ⟨0x4, 1, 1⟩
def TAB_EVENT_TELEM_SKIPPED : Fld := ⟨0x4, 2, 1⟩
def TAB_EVENT_IE_IE : Fld := ⟨0x8, 0, 3⟩
def TAB_CTRL_CAPTURE : Fld := ⟨0xC, 0, 1⟩
def TAB_CTRL_AT_ARM : Fld := ⟨0xC, 1, 1⟩
def TAB_CTRL_AT_CANCEL : Fld := ⟨0xC, 2, 1⟩
def TAB_CTRL_AT_PENDING : Fld := ⟨0xC, 3, 1⟩
def TAB_AT_LO_TIME : Fld := ⟨0x10, 0, 32⟩
def TAB_AT_HI_TIME : Fld := ⟨0x14, 0, 32⟩
def TAB_LAST : Nat := 0x40
def TAB_CAPTURES : Nat := 0x50
def TAB_SHADOW : Nat := 0x1000

/-! Fields of the log frame. -/
def LOG_STATUS_READY : Fld := ⟨0x0, 0, 1⟩
def LOG_STATUS_INHIBITED : Fld := ⟨0x0, 1, 1⟩
def LOG_STATUS_BUSY : Fld := ⟨0x0, 2, 1⟩
def LOG_STATUS_STAGED : Fld := ⟨0x0, 3, 8⟩
def LOG_STATUS_RETIRED : Fld := ⟨0x0, 16, 10⟩
def LOG_EVENT_LOST : Fld := ⟨0x4, 0, 1⟩
def LOG_EVENT_SECTOR_RETIRED : Fld := ⟨0x4, 1, 1⟩
def LOG_EVENT_IE_IE : Fld := ⟨0x8, 0, 2⟩
def LOG_HEAD_SEQ : Fld := ⟨0xC, 0, 32⟩
def LOG_TAIL_SEQ : Fld := ⟨0x10, 0, 32⟩
def LOG_RD_SEQ_SEQ : Fld := ⟨0x14, 0, 32⟩
def LOG_RD_CMD_GO : Fld := ⟨0x18, 0, 1⟩
def LOG_RD_STATUS_BUSY : Fld := ⟨0x1C, 0, 1⟩
def LOG_RD_STATUS_VALID : Fld := ⟨0x1C, 1, 1⟩
def LOG_RD_STATUS_GONE : Fld := ⟨0x1C, 2, 1⟩
def LOG_RD_DATA_DATA : Fld := ⟨0x100, 0, 32⟩
def LOG_RECORDS : Nat := 0x40
def LOG_ERASES : Nat := 0x50
def LOG_DROPPED : Nat := 0x60

/-! Fields of the brk frame. -/
def BRK_STATUS_LEVEL : Fld := ⟨0x0, 0, 2⟩
def BRK_EVENT_UNLOCKED : Fld := ⟨0x4, 0, 1⟩
def BRK_EVENT_REFUSED : Fld := ⟨0x4, 1, 1⟩
def BRK_EVENT_OVERRUN : Fld := ⟨0x4, 2, 1⟩
def BRK_EVENT_IE_IE : Fld := ⟨0x8, 0, 3⟩
def BRK_CFG_ENABLE : Fld := ⟨0xC, 0, 1⟩
def BRK_CFG_BAUD : Fld := ⟨0xC, 1, 3⟩
def BRK_COMMANDS : Nat := 0x40
def BRK_REFUSED : Nat := 0x50

/-! Fields of the sec frame. -/
def SEC_STATE_STATE : Fld := ⟨0x0, 0, 3⟩
def SEC_STATE_DEBUG_NORMAL : Fld := ⟨0x0, 3, 1⟩
def SEC_STATE_DEBUG_SECURE : Fld := ⟨0x0, 4, 1⟩
def SEC_STATE_DEBUG_COUNTER : Fld := ⟨0x0, 8, 6⟩
def SEC_EVENT_HUNG : Fld := ⟨0x4, 0, 1⟩
def SEC_EVENT_RELEASED : Fld := ⟨0x4, 1, 1⟩
def SEC_EVENT_RUNNING : Fld := ⟨0x4, 2, 1⟩
def SEC_EVENT_HELD : Fld := ⟨0x4, 3, 1⟩
def SEC_EVENT_DEBUG_CHANGE : Fld := ⟨0x4, 4, 1⟩
def SEC_EVENT_IE_IE : Fld := ⟨0x8, 0, 5⟩
def SEC_CTRL_REBOOT : Fld := ⟨0xC, 0, 1⟩
def SEC_CTRL_AUTO_REBOOT : Fld := ⟨0xC, 1, 1⟩
def SEC_CTRL_DEBUG_LOCK : Fld := ⟨0xC, 2, 1⟩
def SEC_HANG_CAUSE_CAUSE : Fld := ⟨0x10, 0, 2⟩
def SEC_HANGS : Nat := 0x40
def SEC_HELD : Nat := 0x50

/-! Fields of the win frame. -/
def MBX_REQ_OFFSET : Fld := ⟨0x0, 2, 22⟩
def MBX_REQ_OP : Fld := ⟨0x0, 24, 2⟩
def MBX_STATUS_VALID : Fld := ⟨0x4, 0, 1⟩
def MBX_STATUS_ERR : Fld := ⟨0x4, 1, 1⟩
def MBX_STATUS_WORDS : Fld := ⟨0x4, 4, 4⟩
def MBX_DATA_DATA : Fld := ⟨0x8, 0, 32⟩
def CALL_CMD_SERVICE : Fld := ⟨0x0, 0, 8⟩
def CALL_CMD_VECTOR : Fld := ⟨0x0, 8, 5⟩
def CALL_CMD_IRQ : Fld := ⟨0x0, 13, 1⟩
def CALL_CMD_GO : Fld := ⟨0x0, 31, 1⟩
def CALL_STATUS_BUSY : Fld := ⟨0x4, 0, 1⟩
def CALL_STATUS_DONE : Fld := ⟨0x4, 1, 1⟩
def CALL_STATUS_RESULT : Fld := ⟨0x4, 8, 8⟩
def CALL_ARG_ARG : Fld := ⟨0x8, 0, 32⟩
def CALL_RET_RET : Fld := ⟨0x18, 0, 32⟩
def HAP_TRIG_RESULT_RESULT : Fld := ⟨0x3204, 0, 3⟩
def HAP_TRIG_RESULT_CHANNEL : Fld := ⟨0x3204, 8, 3⟩
def SN_REQ_RESULT_RESULT : Fld := ⟨0x3304, 0, 2⟩
def MSIX_TABLE_WORD : Fld := ⟨0x0, 0, 32⟩
def MSIX_PBA_WORD : Fld := ⟨0x0, 0, 32⟩

end Reg

open Reg in
/-- The common rows of every frame (R81, R82, R84). -/
def commonRows : List FRow :=
  [⟨ERR_ACCESS_ERR, .w1c, 0, [], 0, 1⟩,
   ⟨ERR_WRITE_LOST, .w1c, 0, [], 0, 1⟩,
   ⟨ERR_APPLY_REFUSED, .w1c, 0, [], 0, 1⟩,
   ⟨ERR_LATE, .w1c, 0, [], 0, 1⟩,
   ⟨ERR_ACCESS_KIND, .ro, 0, [], 0, 1⟩,
   ⟨ERR_ACCESS_OFFSET, .ro, 0, [], 0, 1⟩,
   ⟨ERR_IE_IE, .rw, 0, [], 0, 1⟩]

open Reg in
/-- The common rows of frames with buffered fields (R97, R100). -/
def bufferedRows : List FRow :=
  [⟨CTRL_ARM, .w1s, 0, [], 0, 1⟩,
   ⟨CTRL_REVERT, .w1s, 0, [], 0, 1⟩,
   ⟨APPLY_REASON, .ro, 0, [], 0, 1⟩,
   ⟨APPLY_REFUSED_OFFSET, .ro, 0, [], 0, 1⟩,
   ⟨APPLY_APPLIED, .cnt, 0, [], 0, 1⟩]

open Reg in
/-- Field rows of the dev frame. -/
def devRows : List FRow :=
  [⟨DEV_BCAST_STATUS_BCAST_DIFFER, .w1c, 0x0, [], 0, 1⟩,
   ⟨DEV_BCAST_STATUS_TYPE, .ro, 0x0, [], 0, 1⟩,
   ⟨DEV_BCAST_STATUS_SEL, .ro, 0x0, [], 0, 1⟩,
   ⟨DEV_BCAST_STATUS_OFFSET, .ro, 0x0, [], 0, 1⟩,
   ⟨DEV_BCAST_DIFF_LO_MEMBERS, .ro, 0x0, [], 0, 1⟩,
   ⟨DEV_BCAST_DIFF_HI_MEMBERS, .ro, 0x0, [], 0, 1⟩,
   ⟨DEV_ID_DEVICE, .ro, 0x8840, [], 0, 1⟩,
   ⟨DEV_ID_STEPPING, .ro, 0x12, [], 0, 1⟩,
   ⟨DEV_ID_GRADE, .ro, 0x0, [], 0, 1⟩,
   ⟨DEV_BOOT_STATUS_STEP, .ro, 0x1, [], 0, 1⟩,
   ⟨DEV_BOOT_STATUS_STATE, .ro, 0x0, [], 0, 1⟩,
   ⟨DEV_BOOT_STATUS_FW_SOURCE, .ro, 0x0, [], 0, 1⟩,
   ⟨DEV_BOOT_STATUS_RELEASE, .ro, 0x0, [], 0, 1⟩,
   ⟨DEV_BOOT_FAIL_STEP, .ro, 0x0, [], 0, 1⟩,
   ⟨DEV_BOOT_FAIL_REASON, .ro, 0x0, [], 0, 1⟩,
   ⟨DEV_BOOT_FAIL_DETAIL, .ro, 0x0, [], 0, 1⟩,
   ⟨DEV_BOOT_FAIL_DETAIL2, .ro, 0x0, [], 0, 1⟩,
   ⟨DEV_FW_VERSION_VERSION, .ro, 0x0, [], 0, 1⟩,
   ⟨DEV_FW_FLOOR_FLOOR, .ro, 0x0, [], 0, 1⟩,
   ⟨DEV_FW_PUSH_ADDR_LO_ADDR, .rw, 0x0, [], 0, 1⟩,
   ⟨DEV_FW_PUSH_ADDR_HI_ADDR, .rw, 0x0, [], 0, 1⟩,
   ⟨DEV_FW_PUSH_LEN_LEN, .rw, 0x0, [], 0, 1⟩,
   ⟨DEV_FW_PUSH_CMD_OP, .rw, 0x0, [(0x1, 0x4)], 0, 1⟩,
   ⟨DEV_FW_PUSH_CMD_GO, .w1s, 0x0, [], 0, 1⟩,
   ⟨DEV_FW_PUSH_STATUS_BUSY, .ro, 0x0, [], 0, 1⟩,
   ⟨DEV_FW_PUSH_STATUS_DONE, .w1c, 0x0, [], 0, 1⟩,
   ⟨DEV_FW_PUSH_STATUS_REASON, .ro, 0x0, [], 0, 1⟩,
   ⟨DEV_BGRP_LO_MEMBERS, .rw, 0x0, [], 8, 56⟩,
   ⟨DEV_BGRP_HI_MEMBERS, .rw, 0x0, [], 8, 56⟩]

open Reg in
/-- Field rows of the rpl frame. -/
def rplRows : List FRow :=
  [⟨RPL_STATE_STATE, .ro, 0x0, [], 0, 1⟩,
   ⟨RPL_STATE_SOURCE, .ro, 0x0, [], 0, 1⟩,
   ⟨RPL_PUSH_CMD_OP, .rw, 0x0, [(0x1, 0x5)], 0, 1⟩,
   ⟨RPL_PUSH_CMD_GO, .w1s, 0x0, [], 0, 1⟩,
   ⟨RPL_PUSH_STATUS_BUSY, .ro, 0x0, [], 0, 1⟩,
   ⟨RPL_PUSH_STATUS_DONE, .w1c, 0x0, [], 0, 1⟩,
   ⟨RPL_RESULT_REASON, .ro, 0x0, [], 0, 1⟩,
   ⟨RPL_RESULT_SECTION, .ro, 0x0, [], 0, 1⟩,
   ⟨RPL_RESULT_SUBCODE, .ro, 0x0, [], 0, 1⟩,
   ⟨RPL_ACTIVE_VERSION_VERSION, .ro, 0x0, [], 0, 1⟩,
   ⟨RPL_FLOOR_FLOOR, .ro, 0x0, [], 0, 1⟩,
   ⟨RPL_PUSH_ADDR_LO_ADDR, .rw, 0x0, [], 0, 1⟩,
   ⟨RPL_PUSH_ADDR_HI_ADDR, .rw, 0x0, [], 0, 1⟩,
   ⟨RPL_PUSH_LEN_LEN, .rw, 0x0, [], 0, 1⟩,
   ⟨RPL_RESULT_LOC_RECORD, .ro, 0xFFFF, [], 0, 1⟩,
   ⟨RPL_SLOT_STATUS_A_REASON, .ro, 0xFF, [], 0, 1⟩,
   ⟨RPL_SLOT_STATUS_A_SUBCODE, .ro, 0x0, [], 0, 1⟩,
   ⟨RPL_SLOT_STATUS_B_REASON, .ro, 0xFF, [], 0, 1⟩,
   ⟨RPL_SLOT_STATUS_B_SUBCODE, .ro, 0x0, [], 0, 1⟩]

open Reg in
/-- Field rows of the pci frame. -/
def pciRows : List FRow :=
  [⟨PCI_PORT_CFG_LANE_MODE, .ro, 0x0, [], 0, 1⟩,
   ⟨PCI_PORT_CFG_MANAGER_PORT, .ro, 0x0, [], 0, 1⟩,
   ⟨PCI_PORT_CFG_VFS_A, .ro, 0x0, [], 0, 1⟩,
   ⟨PCI_PORT_CFG_VFS_B, .ro, 0x0, [], 0, 1⟩,
   ⟨PCI_PORT_A_STATUS_STATE, .ro, 0x0, [], 0, 1⟩,
   ⟨PCI_PORT_B_STATUS_STATE, .ro, 0x0, [], 0, 1⟩,
   ⟨PCI_PORT_A_STATUS_WIDTH, .ro, 0x0, [], 0, 1⟩,
   ⟨PCI_PORT_B_STATUS_WIDTH, .ro, 0x0, [], 0, 1⟩,
   ⟨PCI_PORT_A_STATUS_SPEED, .ro, 0x0, [], 0, 1⟩,
   ⟨PCI_PORT_B_STATUS_SPEED, .ro, 0x0, [], 0, 1⟩,
   ⟨PCI_PORT_A_STATUS_LOST, .ro, 0x0, [], 0, 1⟩,
   ⟨PCI_PORT_B_STATUS_LOST, .ro, 0x0, [], 0, 1⟩,
   ⟨PCI_PORT_A_STATUS_MANAGER, .ro, 0x0, [], 0, 1⟩,
   ⟨PCI_PORT_B_STATUS_MANAGER, .ro, 0x0, [], 0, 1⟩,
   ⟨PCI_EVENT_LINK_DOWN_A, .w1c, 0x0, [], 0, 1⟩,
   ⟨PCI_EVENT_LINK_DOWN_B, .w1c, 0x0, [], 0, 1⟩,
   ⟨PCI_EVENT_LINK_UP_A, .w1c, 0x0, [], 0, 1⟩,
   ⟨PCI_EVENT_LINK_UP_B, .w1c, 0x0, [], 0, 1⟩,
   ⟨PCI_EVENT_PTM_LOST, .w1c, 0x0, [], 0, 1⟩,
   ⟨PCI_EVENT_TB_STEP, .w1c, 0x0, [], 0, 1⟩,
   ⟨PCI_EVENT_IE_IE, .rw, 0x0, [], 0, 1⟩,
   ⟨PCI_PTM_CTRL_PERIOD_MS, .rw, 0xA, [(0x1, 0xFF)], 0, 1⟩,
   ⟨PCI_PTM_CTRL_SOURCE, .rw, 0x0, [], 0, 1⟩,
   ⟨PCI_APERTURE_LO_BASE_LO, .rw, 0x0, [], 0, 1⟩,
   ⟨PCI_APERTURE_HI_BASE_HI, .rw, 0x0, [], 0, 1⟩]

open Reg in
/-- Field rows of the inst frame. -/
def instRows : List FRow :=
  [⟨INST_ID_INSTANCE, .ro, 0x0, [], 0, 1⟩,
   ⟨INST_ID_CLASS, .ro, 0x0, [], 0, 1⟩,
   ⟨INST_ID_PORT, .ro, 0x0, [], 0, 1⟩,
   ⟨INST_ID_CHIME, .ro, 0x0, [], 0, 1⟩,
   ⟨INST_ID_RINGS, .ro, 0x0, [], 0, 1⟩,
   ⟨INST_ID_VECTORS, .ro, 0x0, [], 0, 1⟩,
   ⟨INST_ID_PF, .ro, 0x0, [], 0, 1⟩,
   ⟨INST_STATUS_STATE, .ro, 0x0, [], 0, 1⟩,
   ⟨INST_STATUS_RESET_UNCLEAN, .ro, 0x0, [], 0, 1⟩,
   ⟨INST_STATUS_HOST_LOST, .ro, 0x0, [], 0, 1⟩,
   ⟨INST_STATUS_SCRUBBING, .ro, 0x0, [], 0, 1⟩,
   ⟨INST_STATUS_ACTIVE_RINGS, .ro, 0x0, [], 0, 1⟩,
   ⟨INST_CTRL_CLEAR_UNCLEAN, .w1s, 0x0, [], 0, 1⟩,
   ⟨INST_CTRL_RESET, .w1s, 0x0, [], 0, 1⟩,
   ⟨INST_EVENT_QUIESCED, .w1c, 0x0, [], 0, 1⟩,
   ⟨INST_EVENT_RESET_DONE, .w1c, 0x0, [], 0, 1⟩,
   ⟨INST_EVENT_SCRUB_DONE, .w1c, 0x0, [], 0, 1⟩,
   ⟨INST_EVENT_DL_MISS, .w1c, 0x0, [], 0, 1⟩,
   ⟨INST_EVENT_RING_HALT, .w1c, 0x0, [], 0, 1⟩,
   ⟨INST_EVENT_IE_IE, .rw, 0x0, [], 0, 1⟩,
   ⟨INST_VEC_EVENT_VEC, .rw, 0x0, [], 0, 1⟩,
   ⟨INST_VEC_ERR_VEC, .rw, 0x0, [], 0, 1⟩,
   ⟨INST_FENCE_LO_LOC, .rw, 0x0, [], 0, 1⟩,
   ⟨INST_FENCE_LO_ADDR_LO, .rw, 0x0, [], 0, 1⟩,
   ⟨INST_FENCE_HI_ADDR_HI, .rw, 0x0, [], 0, 1⟩,
   ⟨INST_STOP_STOP, .rw, 0x0, [], 0, 1⟩,
   ⟨INST_MGR_IE_IE, .rw, 0x0, [], 0, 1⟩]

open Reg in
/-- Field rows of the ring frame. -/
def ringRows : List FRow :=
  [⟨RING_CFG_TYPE, .rwb, 0x0, [], 0, 1⟩,
   ⟨RING_CFG_LOG2_ENTRIES, .rwb, 0x0, [(0x4, 0xC)], 0, 1⟩,
   ⟨RING_CFG_VECTOR, .rwb, 0x0, [], 0, 1⟩,
   ⟨RING_CFG_CPL_EN, .rwb, 0x0, [], 0, 1⟩,
   ⟨RING_BASE_LO_LOC, .rwb, 0x0, [], 0, 1⟩,
   ⟨RING_BASE_LO_ADDR_LO, .rwb, 0x0, [], 0, 1⟩,
   ⟨RING_BASE_HI_ADDR_HI, .rwb, 0x0, [], 0, 1⟩,
   ⟨RING_CPL_LO_LOC, .rwb, 0x0, [], 0, 1⟩,
   ⟨RING_CPL_LO_ADDR_LO, .rwb, 0x0, [], 0, 1⟩,
   ⟨RING_CPL_HI_ADDR_HI, .rwb, 0x0, [], 0, 1⟩,
   ⟨RING_MOD_COUNT, .rwb, 0x1, [], 0, 1⟩,
   ⟨RING_MOD_TIME_US, .rwb, 0x0, [], 0, 1⟩,
   ⟨RING_MOD_ONESHOT, .rwb, 0x0, [], 0, 1⟩,
   ⟨RING_HOST_IDX_INDEX, .rw, 0x0, [], 0, 1⟩,
   ⟨RING_DEV_IDX_INDEX, .ro, 0x0, [], 0, 1⟩,
   ⟨RING_STATE_STATE, .ro, 0x0, [], 0, 1⟩,
   ⟨RING_STATE_WAITING, .ro, 0x0, [], 0, 1⟩,
   ⟨RING_STATE_CAUSE, .ro, 0x0, [], 0, 1⟩,
   ⟨RING_STATE_FREE, .ro, 0x0, [], 0, 1⟩,
   ⟨RING_EVENT_OVERRUN, .w1c, 0x0, [], 0, 1⟩,
   ⟨RING_EVENT_FETCH_ERR, .w1c, 0x0, [], 0, 1⟩,
   ⟨RING_EVENT_DESC_ERR, .w1c, 0x0, [], 0, 1⟩,
   ⟨RING_EVENT_DROP, .w1c, 0x0, [], 0, 1⟩,
   ⟨RING_EVENT_START_REFUSED, .w1c, 0x0, [], 0, 1⟩,
   ⟨RING_EVENT_STOPPED, .w1c, 0x0, [], 0, 1⟩,
   ⟨RING_EVENT_IE_IE, .rw, 0x0, [], 0, 1⟩,
   ⟨RING_CTRL_START, .w1s, 0x0, [], 0, 1⟩,
   ⟨RING_CTRL_STOP, .w1s, 0x0, [], 0, 1⟩,
   ⟨RING_CTRL_RESUME, .w1s, 0x0, [], 0, 1⟩,
   ⟨RING_CTRL_DISABLE, .w1s, 0x0, [], 0, 1⟩] ++
  [⟨RING_TELEM_PERIOD, .rw, 0x0, [], 0, 1⟩,
   ⟨RING_TELEM_ON_CAPTURE, .rw, 0x0, [], 0, 1⟩,
   ⟨RING_TELEM_GROUPS, .rw, 0x0, [], 0, 1⟩]

open Reg in
/-- Field rows of the car frame. -/
def carRows : List FRow :=
  [⟨CAR_STATUS_ROUND, .ro, 0x0, [], 0, 1⟩,
   ⟨CAR_STATUS_CUT, .ro, 0x0, [], 0, 1⟩,
   ⟨CAR_STATUS_TEST_GROUP, .ro, 0x0, [], 0, 1⟩,
   ⟨CAR_STATUS_TESTING, .ro, 0x0, [], 0, 1⟩,
   ⟨CAR_STATUS_GROUPS_BUSY, .ro, 0x0, [], 0, 1⟩,
   ⟨CAR_BUDGET_GFX_PM, .ro, 0x3E8, [], 0, 1⟩,
   ⟨CAR_BUDGET_CPY_PM, .ro, 0x3E8, [], 0, 1⟩,
   ⟨CAR_FACTOR_G_FACTOR, .ro, 0x3E8, [], 0, 1⟩,
   ⟨CAR_FACTOR_P_FACTOR, .ro, 0x3E8, [], 0, 1⟩,
   ⟨CAR_EVENT_CUT_G, .w1c, 0x0, [], 0, 1⟩,
   ⟨CAR_EVENT_CUT_P, .w1c, 0x0, [], 0, 1⟩,
   ⟨CAR_EVENT_TEST_FORCED, .w1c, 0x0, [], 0, 1⟩,
   ⟨CAR_EVENT_DEBT_LIMIT, .w1c, 0x0, [], 0, 1⟩,
   ⟨CAR_EVENT_DL_MISS, .w1c, 0x0, [], 0, 1⟩,
   ⟨CAR_EVENT_PREEMPT_SLOW, .w1c, 0x0, [], 0, 1⟩,
   ⟨CAR_EVENT_IE_IE, .rw, 0x0, [], 0, 1⟩,
   ⟨CAR_CONST_PREEMPT_US, .ro, 0x32, [], 0, 1⟩,
   ⟨CAR_CONST_TEST_SLICE_US, .ro, 0x50, [], 0, 1⟩,
   ⟨CAR_CONST_QUANTUM_US, .ro, 0xFA, [], 0, 1⟩,
   ⟨CAR_CONST_GROUPS, .ro, 0x4, [], 0, 1⟩,
   ⟨CAR_PREEMPT_WORST_WORST, .rw, 0x0, [], 0, 1⟩,
   ⟨CAR_INST_SHARE_GFX, .rwb, 0x0, [], 64, 64⟩,
   ⟨CAR_INST_SHARE_CPY, .rwb, 0x0, [], 64, 64⟩,
   ⟨CAR_INST_DRAM_RES_MBS, .rwb, 0x0, [], 64, 64⟩,
   ⟨CAR_INST_USED_GFX, .ro, 0x0, [], 64, 64⟩,
   ⟨CAR_INST_USED_CPY, .ro, 0x0, [], 64, 64⟩,
   ⟨CAR_INST_DEBT_GFX, .ro, 0x0, [], 64, 64⟩,
   ⟨CAR_INST_DEBT_LIMIT, .ro, 0x0, [], 64, 64⟩,
   ⟨CAR_INST_DEBT_CPY, .ro, 0x0, [], 64, 64⟩,
   ⟨CAR_RING_EST_EST, .ro, 0x0, [], 4, 256⟩]

open Reg in
/-- Field rows of the blw frame. -/
def blwRows : List FRow :=
  [⟨BLW_STATUS_POINT, .ro, 0x0, [], 0, 1⟩,
   ⟨BLW_STATUS_BOOST, .ro, 0x0, [], 0, 1⟩,
   ⟨BLW_STATUS_THROTTLE, .ro, 0x0, [], 0, 1⟩,
   ⟨BLW_STATUS_SAFE, .ro, 0x0, [], 0, 1⟩,
   ⟨BLW_STATUS_HELD_SECURE, .ro, 0x0, [], 0, 1⟩,
   ⟨BLW_EVENT_BUDGET_CUT, .w1c, 0x0, [], 0, 1⟩,
   ⟨BLW_EVENT_THROTTLE, .w1c, 0x0, [], 0, 1⟩,
   ⟨BLW_EVENT_BYPASS, .w1c, 0x0, [], 0, 1⟩,
   ⟨BLW_EVENT_VOLT_LATE, .w1c, 0x0, [], 0, 1⟩,
   ⟨BLW_EVENT_POINT_RETIRED, .w1c, 0x0, [], 0, 1⟩,
   ⟨BLW_EVENT_AGEING_LIMIT, .w1c, 0x0, [], 0, 1⟩,
   ⟨BLW_EVENT_REPLAN_DONE, .w1c, 0x0, [], 0, 1⟩,
   ⟨BLW_EVENT_IE_IE, .rw, 0x0, [], 0, 1⟩,
   ⟨BLW_CAP_MW, .rwb, 0x0, [], 0, 1⟩,
   ⟨BLW_CEILING_POINT, .rwb, 0x4, [(0x0, 0x4)], 0, 1⟩,
   ⟨BLW_THERMAL_T_THROTTLE, .rwb, 0x6E, [], 0, 1⟩,
   ⟨BLW_THERMAL_T_TRIP, .ro, 0x78, [], 0, 1⟩,
   ⟨BLW_TEMP_TEMP, .ro, 0x0, [], 0, 1⟩,
   ⟨BLW_TEMP_SENSOR, .ro, 0x0, [], 0, 1⟩,
   ⟨BLW_POWER_ESTIMATE, .ro, 0x0, [], 0, 1⟩,
   ⟨BLW_POWER_MEASURED, .ro, 0x0, [], 0, 1⟩,
   ⟨BLW_VOLT_CORE, .ro, 0x0, [], 0, 1⟩,
   ⟨BLW_VOLT_GFX, .ro, 0x0, [], 0, 1⟩,
   ⟨BLW_VOLT_G_CORE, .ro, 0x2, [], 0, 1⟩,
   ⟨BLW_VOLT_G_GFX, .ro, 0x2, [], 0, 1⟩,
   ⟨BLW_AGE_D_GFX, .ro, 0x0, [], 0, 1⟩,
   ⟨BLW_AGE_D_CORE, .ro, 0x0, [], 0, 1⟩,
   ⟨BLW_AGE_RETIRED, .ro, 0x0, [], 0, 1⟩,
   ⟨BLW_SENSOR_TEMP, .ro, 0x0, [], 4, 32⟩,
   ⟨BLW_SENSOR_PEAK, .ro, 0x0, [], 4, 32⟩] ++
  [⟨BLW_POINT_MHZ, .ro, 0x0, [], 4, 5⟩,
   ⟨BLW_POINT_MV, .ro, 0x0, [], 4, 5⟩,
   ⟨BLW_POINT_RETIRED, .ro, 0x0, [], 4, 5⟩,
   ⟨BLW_CTRL_REPLAN, .w1s, 0x0, [], 0, 1⟩]

open Reg in
/-- Field rows of the pic frame. -/
def picRows : List FRow :=
  [⟨PIC_STATE_STATE, .ro, 0x0, [], 0, 1⟩,
   ⟨PIC_STATE_ENTRY, .ro, 0x0, [], 0, 1⟩,
   ⟨PIC_STATE_INHIBIT, .ro, 0x0, [], 0, 1⟩,
   ⟨PIC_STATE_RC_32K, .ro, 0x0, [], 0, 1⟩,
   ⟨PIC_STATE_WAKE_CAUSE, .ro, 0x0, [], 0, 1⟩,
   ⟨PIC_EVENT_WAKE, .w1c, 0x0, [], 0, 1⟩,
   ⟨PIC_EVENT_SLEEP_REFUSED, .w1c, 0x0, [], 0, 1⟩,
   ⟨PIC_EVENT_SLEEP_ABORTED, .w1c, 0x0, [], 0, 1⟩,
   ⟨PIC_EVENT_INHIBIT, .w1c, 0x0, [], 0, 1⟩,
   ⟨PIC_EVENT_WAKE_RETRY, .w1c, 0x0, [], 0, 1⟩,
   ⟨PIC_EVENT_DOZE, .w1c, 0x0, [], 0, 1⟩,
   ⟨PIC_EVENT_IE_IE, .rw, 0x0, [], 0, 1⟩,
   ⟨PIC_CTRL_REQ_DOZE, .w1s, 0x0, [], 0, 1⟩,
   ⟨PIC_CTRL_REQ_STANDBY, .w1s, 0x0, [], 0, 1⟩,
   ⟨PIC_CTRL_REQ_DEEP, .w1s, 0x0, [], 0, 1⟩,
   ⟨PIC_CTRL_CANCEL, .w1s, 0x0, [], 0, 1⟩,
   ⟨PIC_CTRL_WAKE, .w1s, 0x0, [], 0, 1⟩,
   ⟨PIC_CTRL_DEV_RESET, .w1s, 0x0, [], 0, 1⟩,
   ⟨PIC_CFG_AUTO_STANDBY, .rw, 0x0, [], 0, 1⟩,
   ⟨PIC_CFG_DEEP_S, .rw, 0x0, [], 0, 1⟩,
   ⟨PIC_REFUSAL_BLOCK, .ro, 0x0, [], 0, 1⟩,
   ⟨PIC_REFUSAL_REASON, .ro, 0x0, [], 0, 1⟩,
   ⟨PIC_REFUSAL_IN_A_ROW, .ro, 0x0, [], 0, 1⟩,
   ⟨PIC_FAIL_STEP, .ro, 0x0, [], 0, 1⟩,
   ⟨PIC_FAIL_RAIL, .ro, 0x0, [], 0, 1⟩,
   ⟨PIC_FAIL_ATTEMPTS, .ro, 0x0, [], 0, 1⟩,
   ⟨PIC_ALARM_MS, .rw, 0x0, [], 0, 1⟩]

open Reg in
/-- Field rows of the head frame. -/
def headRows : List FRow :=
  [⟨HEAD_BG_RGB, .rwb, 0x0, [], 0, 1⟩,
   ⟨HEAD_COMP_STATUS_LEAD, .ro, 0x0, [], 0, 1⟩,
   ⟨HEAD_COMP_STATUS_SPEC_LINES, .ro, 0x0, [], 0, 1⟩,
   ⟨HEAD_COMP_STATUS_LAYERS, .ro, 0x0, [], 0, 1⟩,
   ⟨HEAD_COMP_EVENT_LATE_COMMIT, .w1c, 0x0, [], 0, 1⟩,
   ⟨HEAD_COMP_EVENT_MISSED_WINDOW, .w1c, 0x0, [], 0, 1⟩,
   ⟨HEAD_COMP_EVENT_RECOMPOSED, .w1c, 0x0, [], 0, 1⟩,
   ⟨HEAD_COMP_EVENT_DISCREPANCY, .w1c, 0x0, [], 0, 1⟩,
   ⟨HEAD_COMP_EVENT_GUARD_EXCL, .w1c, 0x0, [], 0, 1⟩,
   ⟨HEAD_COMP_EVENT_IE_IE, .rw, 0x0, [], 0, 1⟩,
   ⟨HEAD_STATE_LINK, .ro, 0x0, [], 0, 1⟩,
   ⟨HEAD_STATE_CAUSE, .ro, 0x0, [], 0, 1⟩,
   ⟨HEAD_STATE_CONTENT, .ro, 0x0, [], 0, 1⟩,
   ⟨HEAD_STATE_LOCKED, .ro, 0x0, [], 0, 1⟩,
   ⟨HEAD_EVENT_UNDERRUN, .w1c, 0x0, [], 0, 1⟩,
   ⟨HEAD_EVENT_LINK_CHANGE, .w1c, 0x0, [], 0, 1⟩,
   ⟨HEAD_EVENT_CONTENT_CHANGE, .w1c, 0x0, [], 0, 1⟩,
   ⟨HEAD_EVENT_LOCKED, .w1c, 0x0, [], 0, 1⟩,
   ⟨HEAD_EVENT_LOCK_LOST, .w1c, 0x0, [], 0, 1⟩,
   ⟨HEAD_EVENT_HOLD_EXPIRED, .w1c, 0x0, [], 0, 1⟩,
   ⟨HEAD_EVENT_IE_IE, .rw, 0x0, [], 0, 1⟩,
   ⟨HEAD_POS_LINE, .ro, 0x0, [], 0, 1⟩,
   ⟨HEAD_POS_FRAME_LO, .ro, 0x0, [], 0, 1⟩,
   ⟨HEAD_SYNC_SOURCE, .rw, 0x0, [(0x0, 0x2)], 0, 1⟩,
   ⟨HEAD_SYNC_REF_HEAD, .rw, 0x0, [], 0, 1⟩,
   ⟨HEAD_SYNC_RATIO, .rw, 0x0, [], 0, 1⟩,
   ⟨HEAD_SYNC_DRIVE_OUT, .rw, 0x0, [], 0, 1⟩,
   ⟨HEAD_SYNC_IN_POL, .rw, 0x0, [], 0, 1⟩,
   ⟨HEAD_SYNC_OFFSET, .rw, 0x0, [], 0, 1⟩,
   ⟨HEAD_LOST_HOLD_MS, .rw, 0x0, [], 0, 1⟩] ++
  [⟨HEAD_OUTSTAGE_GAMMA_EN, .rwb, 0x0, [], 0, 1⟩,
   ⟨HEAD_OUTSTAGE_DITHER, .rwb, 0x1, [(0x0, 0x2)], 0, 1⟩,
   ⟨HEAD_CRING_RING, .rw, 0xFF, [], 0, 1⟩,
   ⟨HEAD_H_H_ACTIVE, .ro, 0x0, [], 0, 1⟩,
   ⟨HEAD_H_H_TOTAL, .ro, 0x0, [], 0, 1⟩,
   ⟨HEAD_V_V_ACTIVE, .ro, 0x0, [], 0, 1⟩,
   ⟨HEAD_V_V_TOTAL, .ro, 0x0, [], 0, 1⟩,
   ⟨HEAD_HSYNC_HS_START, .ro, 0x0, [], 0, 1⟩,
   ⟨HEAD_HSYNC_HS_END, .ro, 0x0, [], 0, 1⟩,
   ⟨HEAD_VSYNC_VS_START, .ro, 0x0, [], 0, 1⟩,
   ⟨HEAD_VSYNC_VS_END, .ro, 0x0, [], 0, 1⟩,
   ⟨HEAD_PIXEL_PIXEL_KHZ, .ro, 0x0, [], 0, 1⟩,
   ⟨HEAD_LATCH_LINE, .ro, 0x0, [], 0, 1⟩,
   ⟨HEAD_PERIOD_NS, .ro, 0x0, [], 0, 1⟩,
   ⟨HEAD_GAMMA_R_ENTRY_EVEN, .rwb, 0x0, [], 4, 512⟩,
   ⟨HEAD_GAMMA_G_ENTRY_EVEN, .rwb, 0x0, [], 4, 512⟩,
   ⟨HEAD_GAMMA_B_ENTRY_EVEN, .rwb, 0x0, [], 4, 512⟩,
   ⟨HEAD_GAMMA_R_ENTRY_ODD, .rwb, 0x0, [], 4, 512⟩,
   ⟨HEAD_GAMMA_G_ENTRY_ODD, .rwb, 0x0, [], 4, 512⟩,
   ⟨HEAD_GAMMA_B_ENTRY_ODD, .rwb, 0x0, [], 4, 512⟩]

open Reg in
/-- Field rows of the layer frame. -/
def layerRows : List FRow :=
  [⟨LAYER_ID_OWNER, .ro, 0x0, [], 0, 1⟩,
   ⟨LAYER_ID_HEAD, .ro, 0x0, [], 0, 1⟩,
   ⟨LAYER_ID_VIDEO, .ro, 0x0, [], 0, 1⟩,
   ⟨LAYER_ID_CAPTURE_FED, .ro, 0x0, [], 0, 1⟩,
   ⟨LAYER_ID_CAPTURE, .ro, 0x0, [], 0, 1⟩,
   ⟨LAYER_STATUS_ON_GLASS, .ro, 0x0, [], 0, 1⟩,
   ⟨LAYER_STATUS_MOVE_PENDING, .ro, 0x0, [], 0, 1⟩,
   ⟨LAYER_STATUS_HELD, .ro, 0x0, [], 0, 1⟩,
   ⟨LAYER_STATUS_COVERED, .ro, 0x0, [], 0, 1⟩,
   ⟨LAYER_ASSIGN_TARGET, .rw, 0x0, [(0x0, 0x7), (0xF, 0xF)], 0, 1⟩,
   ⟨LAYER_EVENT_APPLIED, .w1c, 0x0, [], 0, 1⟩,
   ⟨LAYER_EVENT_LATE_COMMIT, .w1c, 0x0, [], 0, 1⟩,
   ⟨LAYER_EVENT_MISSED_WINDOW, .w1c, 0x0, [], 0, 1⟩,
   ⟨LAYER_EVENT_SUPERSEDED, .w1c, 0x0, [], 0, 1⟩,
   ⟨LAYER_EVENT_FETCH_REFUSED, .w1c, 0x0, [], 0, 1⟩,
   ⟨LAYER_EVENT_MOVE_DONE, .w1c, 0x0, [], 0, 1⟩,
   ⟨LAYER_EVENT_IE_IE, .rw, 0x0, [], 0, 1⟩,
   ⟨LAYER_CFG_ENABLE, .rwb, 0x0, [], 0, 1⟩,
   ⟨LAYER_CFG_INPUT, .rwb, 0x0, [], 0, 1⟩,
   ⟨LAYER_CFG_HFLIP, .rwb, 0x0, [], 0, 1⟩,
   ⟨LAYER_CFG_VFLIP, .rwb, 0x0, [], 0, 1⟩,
   ⟨LAYER_CFG_Z, .rwb, 0x0, [], 0, 1⟩,
   ⟨LAYER_CFG_FORMAT, .rwb, 0x0, [(0x0, 0xB), (0x10, 0x17)], 0, 1⟩,
   ⟨LAYER_CFG_BLEND, .rwb, 0x0, [(0x0, 0x2)], 0, 1⟩,
   ⟨LAYER_CFG_PLANE_ALPHA, .rwb, 0xFF, [], 0, 1⟩,
   ⟨LAYER_COLOUR_PRIMARIES, .rwb, 0x0, [(0x0, 0x1)], 0, 1⟩,
   ⟨LAYER_COLOUR_TRANSFER, .rwb, 0x0, [], 0, 1⟩,
   ⟨LAYER_COLOUR_MATRIX, .rwb, 0x0, [], 0, 1⟩,
   ⟨LAYER_COLOUR_RANGE, .rwb, 0x0, [], 0, 1⟩,
   ⟨LAYER_COLOUR_CSITE_X, .rwb, 0x0, [], 0, 1⟩] ++
  [⟨LAYER_COLOUR_CSITE_Y, .rwb, 0x0, [], 0, 1⟩,
   ⟨LAYER_SRC_POS_X, .rwb, 0x0, [], 0, 1⟩,
   ⟨LAYER_SRC_POS_Y, .rwb, 0x0, [], 0, 1⟩,
   ⟨LAYER_SRC_SIZE_W, .rwb, 0x0, [], 0, 1⟩,
   ⟨LAYER_SRC_SIZE_H, .rwb, 0x0, [], 0, 1⟩,
   ⟨LAYER_DST_POS_X, .rwb, 0x0, [], 0, 1⟩,
   ⟨LAYER_DST_POS_Y, .rwb, 0x0, [], 0, 1⟩,
   ⟨LAYER_DST_SIZE_W, .rwb, 0x0, [], 0, 1⟩,
   ⟨LAYER_DST_SIZE_H, .rwb, 0x0, [], 0, 1⟩,
   ⟨LAYER_PLANE_LO_ADDR, .rwb, 0x0, [], 8, 3⟩,
   ⟨LAYER_PLANE_HI_ADDR, .rwb, 0x0, [], 8, 3⟩,
   ⟨LAYER_PITCH01_PITCH0, .rwb, 0x0, [], 0, 1⟩,
   ⟨LAYER_PITCH01_PITCH1, .rwb, 0x0, [], 0, 1⟩,
   ⟨LAYER_PITCH2_PITCH2, .rwb, 0x0, [], 0, 1⟩,
   ⟨LAYER_CONST_COLOUR, .rwb, 0x0, [], 0, 1⟩,
   ⟨LAYER_HSTEP_STEP, .rwb, 0x100000, [], 0, 1⟩,
   ⟨LAYER_VSTEP_STEP, .rwb, 0x100000, [], 0, 1⟩,
   ⟨LAYER_HINIT_INIT, .rwb, 0x0, [], 0, 1⟩,
   ⟨LAYER_VINIT_INIT, .rwb, 0x0, [], 0, 1⟩,
   ⟨LAYER_HCOEFF_TAP_EVEN, .rwb, 0x0, [], 4, 256⟩,
   ⟨LAYER_VCOEFF_TAP_EVEN, .rwb, 0x0, [], 4, 192⟩,
   ⟨LAYER_HCOEFF_TAP_ODD, .rwb, 0x0, [], 4, 256⟩,
   ⟨LAYER_VCOEFF_TAP_ODD, .rwb, 0x0, [], 4, 192⟩]

open Reg in
/-- Field rows of the cvu frame. -/
def cvuRows : List FRow :=
  [⟨CVU_ID_OWNER, .ro, 0xFF, [], 0, 1⟩,
   ⟨CVU_ID_ARG, .ro, 0x0, [], 0, 1⟩,
   ⟨CVU_ID_SNOOP, .ro, 0x0, [], 0, 1⟩,
   ⟨CVU_CFG_WIDTH, .ro, 0x0, [], 0, 1⟩,
   ⟨CVU_CFG_REFIN, .ro, 0x0, [], 0, 1⟩,
   ⟨CVU_CFG_REFOUT, .ro, 0x0, [], 0, 1⟩,
   ⟨CVU_CFG_FOLD_HEAD, .ro, 0x0, [], 0, 1⟩,
   ⟨CVU_CFG_FOLD_UNIT, .ro, 0x0, [], 0, 1⟩,
   ⟨CVU_CFG_FOLD_ADDR, .ro, 0x0, [], 0, 1⟩,
   ⟨CVU_CFG_FOLD_SEQ, .ro, 0x0, [], 0, 1⟩,
   ⟨CVU_CFG_COMPARE, .ro, 0x0, [], 0, 1⟩,
   ⟨CVU_CFG_REF_MODE, .ro, 0x0, [], 0, 1⟩,
   ⟨CVU_STATUS_STATE, .ro, 0x0, [], 0, 1⟩,
   ⟨CVU_STATUS_LAST_MATCH, .ro, 0x0, [], 0, 1⟩,
   ⟨CVU_STATUS_QUEUED, .ro, 0x0, [], 0, 1⟩,
   ⟨CVU_STATUS_RUN, .ro, 0x0, [], 0, 1⟩,
   ⟨CVU_EVENT_DONE, .w1c, 0x0, [], 0, 1⟩,
   ⟨CVU_EVENT_MISMATCH, .w1c, 0x0, [], 0, 1⟩,
   ⟨CVU_EVENT_NO_EXPECT, .w1c, 0x0, [], 0, 1⟩,
   ⟨CVU_EVENT_MISSING, .w1c, 0x0, [], 0, 1⟩,
   ⟨CVU_EVENT_SEQUENCE, .w1c, 0x0, [], 0, 1⟩,
   ⟨CVU_EVENT_COMPARATOR, .w1c, 0x0, [], 0, 1⟩,
   ⟨CVU_EVENT_IE_IE, .rw, 0x0, [], 0, 1⟩]

open Reg in
/-- Field rows of the sn frame. -/
def snRows : List FRow :=
  [⟨SN_STATUS_GUARANTEE, .ro, 0x0, [], 0, 1⟩,
   ⟨SN_STATUS_STOPPED, .ro, 0x0, [], 0, 1⟩,
   ⟨SN_STATUS_FAULT_N, .ro, 0x0, [], 0, 1⟩,
   ⟨SN_STATUS_PERSIST, .ro, 0x0, [], 0, 1⟩,
   ⟨SN_STATUS_COND, .ro, 0x0, [], 0, 1⟩,
   ⟨SN_EVENT_FAULT, .w1c, 0x0, [], 0, 1⟩,
   ⟨SN_EVENT_STOPPED, .w1c, 0x0, [], 0, 1⟩,
   ⟨SN_EVENT_RELEASED, .w1c, 0x0, [], 0, 1⟩,
   ⟨SN_EVENT_RELEASE_REFUSED, .w1c, 0x0, [], 0, 1⟩,
   ⟨SN_EVENT_GUARANTEE_CHANGE, .w1c, 0x0, [], 0, 1⟩,
   ⟨SN_EVENT_IE_IE, .rw, 0x0, [], 0, 1⟩,
   ⟨SN_CTRL_STOP, .w1s, 0x0, [], 0, 1⟩,
   ⟨SN_CTRL_RELEASE, .w1s, 0x0, [], 0, 1⟩,
   ⟨SN_CFG_MISMATCH_STOP, .rw, 0x0, [], 0, 1⟩,
   ⟨SN_STOP_MASK_MASK, .rw, 0xC180, [], 0, 1⟩,
   ⟨SN_FAULT_FLAGS_FLAGS, .w1c, 0x0, [], 0, 1⟩,
   ⟨SN_PERSIST_PERSIST, .ro, 0x0, [], 0, 1⟩,
   ⟨SN_INJECT_SOURCE, .rw, 0x0, [], 0, 1⟩,
   ⟨SN_INJECT_INDEX, .rw, 0x0, [], 0, 1⟩,
   ⟨SN_INJECT_SINGLE, .rw, 0x0, [], 0, 1⟩,
   ⟨SN_INJECT_SUPPRESS_STOP, .rw, 0x0, [], 0, 1⟩,
   ⟨SN_INJECT_GO, .w1s, 0x0, [], 0, 1⟩,
   ⟨SN_INJECT_ADDR_LO_ADDR, .rw, 0x0, [], 0, 1⟩,
   ⟨SN_INJECT_ADDR_HI_ADDR, .rw, 0x0, [], 0, 1⟩]

open Reg in
/-- Field rows of the cap frame. -/
def capRows : List FRow :=
  [⟨CAP_STATUS_STATE, .ro, 0x0, [], 0, 1⟩,
   ⟨CAP_STATUS_NEWEST, .ro, 0x0, [], 0, 1⟩,
   ⟨CAP_STATUS_LANES, .ro, 0x0, [], 0, 1⟩,
   ⟨CAP_EVENT_FRAME_BAD, .w1c, 0x0, [], 0, 1⟩,
   ⟨CAP_EVENT_STALL, .w1c, 0x0, [], 0, 1⟩,
   ⟨CAP_EVENT_RESUMED, .w1c, 0x0, [], 0, 1⟩,
   ⟨CAP_EVENT_PKT_ERR, .w1c, 0x0, [], 0, 1⟩,
   ⟨CAP_EVENT_OVERFLOW, .w1c, 0x0, [], 0, 1⟩,
   ⟨CAP_EVENT_IE_IE, .rw, 0x0, [], 0, 1⟩,
   ⟨CAP_STALL_MS, .rw, 0x64, [(0xA, 0x3E8)], 0, 1⟩]

open Reg in
/-- Field rows of the out frame. -/
def outRows : List FRow :=
  [⟨OUT_CFG_BPC, .rw, 0x2, [], 0, 1⟩,
   ⟨OUT_CFG_DSC_MODE, .rw, 0x1, [(0x0, 0x2)], 0, 1⟩,
   ⟨OUT_CFG_DSC_BPP, .rw, 0xC0, [(0x80, 0x180)], 0, 1⟩,
   ⟨OUT_CFG_HSYNC_NEG, .rw, 0x0, [], 0, 1⟩,
   ⟨OUT_CFG_VSYNC_NEG, .rw, 0x0, [], 0, 1⟩,
   ⟨OUT_CFG_DSI_VIDEO, .rw, 0x0, [(0x0, 0x2)], 0, 1⟩,
   ⟨OUT_CFG_DSI_CONT_CLK, .rw, 0x0, [], 0, 1⟩,
   ⟨OUT_CFG_DSI_READY_PIN, .rw, 0x0, [], 0, 1⟩,
   ⟨OUT_CFG_PSR_EN, .rw, 0x0, [], 0, 1⟩,
   ⟨OUT_CFG_PSR_FRAMES, .rw, 0x4, [(0x2, 0xFF)], 0, 1⟩,
   ⟨OUT_CFG_DSI_PANEL_DSC, .rw, 0x0, [], 0, 1⟩,
   ⟨OUT_STATUS_RATE, .ro, 0x0, [], 0, 1⟩,
   ⟨OUT_STATUS_LANES, .ro, 0x0, [], 0, 1⟩,
   ⟨OUT_STATUS_DSC, .ro, 0x0, [], 0, 1⟩,
   ⟨OUT_STATUS_HPD, .ro, 0x0, [], 0, 1⟩,
   ⟨OUT_STATUS_SINK_DSC, .ro, 0x0, [], 0, 1⟩,
   ⟨OUT_STATUS_HDCP, .ro, 0x0, [], 0, 1⟩,
   ⟨OUT_STATUS_PSR, .ro, 0x0, [], 0, 1⟩,
   ⟨OUT_STATUS_AUDIO, .ro, 0x0, [], 0, 1⟩,
   ⟨OUT_EVENT_PLUG, .w1c, 0x0, [], 0, 1⟩,
   ⟨OUT_EVENT_UNPLUG, .w1c, 0x0, [], 0, 1⟩,
   ⟨OUT_EVENT_IRQ_HPD, .w1c, 0x0, [], 0, 1⟩,
   ⟨OUT_EVENT_TRAINED, .w1c, 0x0, [], 0, 1⟩,
   ⟨OUT_EVENT_TRAIN_FAIL, .w1c, 0x0, [], 0, 1⟩,
   ⟨OUT_EVENT_LINK_LOST, .w1c, 0x0, [], 0, 1⟩,
   ⟨OUT_EVENT_HDCP_CHANGE, .w1c, 0x0, [], 0, 1⟩,
   ⟨OUT_EVENT_PSR_EXIT, .w1c, 0x0, [], 0, 1⟩,
   ⟨OUT_EVENT_AUX_DONE, .w1c, 0x0, [], 0, 1⟩,
   ⟨OUT_EVENT_IE_IE, .rw, 0x0, [], 0, 1⟩,
   ⟨OUT_CMD_RETRAIN, .w1s, 0x0, [], 0, 1⟩] ++
  [⟨OUT_CMD_AUX_GO, .w1s, 0x0, [], 0, 1⟩,
   ⟨OUT_HDCP_REQUEST, .rw, 0x0, [(0x0, 0x2)], 0, 1⟩,
   ⟨OUT_AUX_REQ_ADDR, .rw, 0x0, [], 0, 1⟩,
   ⟨OUT_AUX_REQ_LEN, .rw, 0x0, [], 0, 1⟩,
   ⟨OUT_AUX_REQ_OP, .rw, 0x0, [(0x0, 0x6)], 0, 1⟩,
   ⟨OUT_AUX_STATUS_BUSY, .ro, 0x0, [], 0, 1⟩,
   ⟨OUT_AUX_STATUS_RESULT, .ro, 0x0, [], 0, 1⟩,
   ⟨OUT_AUX_STATUS_COUNT, .ro, 0x0, [], 0, 1⟩,
   ⟨OUT_AUX_DATA_DATA, .rw, 0x0, [], 4, 4⟩]

open Reg in
/-- Field rows of the gfx frame. -/
def gfxRows : List FRow :=
  [⟨GFX_STATUS_GROUPS_OK, .ro, 0xF, [], 0, 1⟩,
   ⟨GFX_STATUS_GROUPS_SECURE, .ro, 0x0, [], 0, 1⟩,
   ⟨GFX_STATUS_GROUPS_BUSY, .ro, 0x0, [], 0, 1⟩,
   ⟨GFX_EVENT_DROPPED, .w1c, 0x0, [], 0, 1⟩,
   ⟨GFX_EVENT_TIMEOUT, .w1c, 0x0, [], 0, 1⟩,
   ⟨GFX_EVENT_TEST_FAIL, .w1c, 0x0, [], 0, 1⟩,
   ⟨GFX_EVENT_RESTORE_ERR, .w1c, 0x0, [], 0, 1⟩,
   ⟨GFX_EVENT_IE_IE, .rw, 0x0, [], 0, 1⟩,
   ⟨GFX_CFG_JOB_LIMIT_MS, .rw, 0x7D0, [], 0, 1⟩,
   ⟨GFX_CONST_SAVE_KIB, .ro, 0x1A00, [], 0, 1⟩,
   ⟨GFX_CONST_CORES, .ro, 0x10, [], 0, 1⟩,
   ⟨GFX_CONST_L2_MIB, .ro, 0x10, [], 0, 1⟩,
   ⟨GFX_CLOCK_MHZ, .ro, 0x0, [], 0, 1⟩,
   ⟨GFX_L2_POLICY, .ro, 0x0, [], 0, 1⟩,
   ⟨GFX_L2_SECURE_WAYS, .ro, 0x0, [], 0, 1⟩]

open Reg in
/-- Field rows of the gfxCore frame. -/
def gfxCoreRows : List FRow :=
  [⟨GFX_CORE_STATUS_STATE, .ro, 0x0, [], 0, 1⟩,
   ⟨GFX_CORE_STATUS_IN_SERVICE, .ro, 0x1, [], 0, 1⟩,
   ⟨GFX_CORE_STATUS_TEST_SEG, .ro, 0x0, [], 0, 1⟩,
   ⟨GFX_CORE_STATUS_TEST_FAILED, .ro, 0x0, [], 0, 1⟩,
   ⟨GFX_CORE_EVENT_TEST_FAIL, .w1c, 0x0, [], 0, 1⟩,
   ⟨GFX_CORE_EVENT_IE_IE, .rw, 0x0, [], 0, 1⟩]

open Reg in
/-- Field rows of the cpy frame. -/
def cpyRows : List FRow :=
  [⟨CPY_STATUS_BUSY, .ro, 0x0, [], 0, 1⟩,
   ⟨CPY_STATUS_SECURE, .ro, 0x0, [], 0, 1⟩,
   ⟨CPY_STATUS_CLASS_B, .ro, 0x0, [], 0, 1⟩,
   ⟨CPY_STATUS_INSTANCE, .ro, 0x0, [], 0, 1⟩,
   ⟨CPY_EVENT_FAULT, .w1c, 0x0, [], 0, 1⟩,
   ⟨CPY_EVENT_BAD_PARAMS, .w1c, 0x0, [], 0, 1⟩,
   ⟨CPY_EVENT_IE_IE, .rw, 0x0, [], 0, 1⟩]

open Reg in
/-- Field rows of the dmcCh frame. -/
def dmcChRows : List FRow :=
  [⟨DMCCH_STATUS_RANK0, .ro, 0x0, [], 0, 1⟩,
   ⟨DMCCH_STATUS_RANK1, .ro, 0x0, [], 0, 1⟩,
   ⟨DMCCH_STATUS_RATE_X, .ro, 0x0, [], 0, 1⟩,
   ⟨DMCCH_STATUS_OWED_0, .ro, 0x0, [], 0, 1⟩,
   ⟨DMCCH_STATUS_URGENCY, .ro, 0x0, [], 0, 1⟩,
   ⟨DMCCH_STATUS_OWED_1, .ro, 0x0, [], 0, 1⟩,
   ⟨DMCCH_STATUS_QUEUED, .ro, 0x0, [], 0, 1⟩,
   ⟨DMCCH_EVENT_CE, .w1c, 0x0, [], 0, 1⟩,
   ⟨DMCCH_EVENT_UE, .w1c, 0x0, [], 0, 1⟩,
   ⟨DMCCH_EVENT_ADDR_CHECK, .w1c, 0x0, [], 0, 1⟩,
   ⟨DMCCH_EVENT_RATE_CHANGE, .w1c, 0x0, [], 0, 1⟩,
   ⟨DMCCH_EVENT_FORCED, .w1c, 0x0, [], 0, 1⟩,
   ⟨DMCCH_EVENT_MITIGATION, .w1c, 0x0, [], 0, 1⟩,
   ⟨DMCCH_EVENT_EYE_LOW, .w1c, 0x0, [], 0, 1⟩,
   ⟨DMCCH_EVENT_TRAIN_FAIL, .w1c, 0x0, [], 0, 1⟩,
   ⟨DMCCH_EVENT_IE_IE, .rw, 0x0, [], 0, 1⟩,
   ⟨DMCCH_EYE_RD_CENTRE_B0, .ro, 0x0, [], 8, 2⟩,
   ⟨DMCCH_EYE_WR_CENTRE_B0, .ro, 0x0, [], 8, 2⟩,
   ⟨DMCCH_EYE_RD_WIDTH_B0, .ro, 0x0, [], 8, 2⟩,
   ⟨DMCCH_EYE_WR_WIDTH_B0, .ro, 0x0, [], 8, 2⟩,
   ⟨DMCCH_EYE_RD_CENTRE_B1, .ro, 0x0, [], 8, 2⟩,
   ⟨DMCCH_EYE_WR_CENTRE_B1, .ro, 0x0, [], 8, 2⟩,
   ⟨DMCCH_EYE_RD_WIDTH_B1, .ro, 0x0, [], 8, 2⟩,
   ⟨DMCCH_EYE_WR_WIDTH_B1, .ro, 0x0, [], 8, 2⟩]

open Reg in
/-- Field rows of the dmc frame. -/
def dmcRows : List FRow :=
  [⟨DMC_STATUS_STATE, .ro, 0x0, [], 0, 1⟩,
   ⟨DMC_STATUS_ECC_ON, .ro, 0x0, [], 0, 1⟩,
   ⟨DMC_STATUS_TWO_RANKS, .ro, 0x0, [], 0, 1⟩,
   ⟨DMC_STATUS_INSTALLED_GIB, .ro, 0x0, [], 0, 1⟩,
   ⟨DMC_STATUS_RATE_MTS, .ro, 0x0, [], 0, 1⟩,
   ⟨DMC_USABLE_MIB, .ro, 0x0, [], 0, 1⟩,
   ⟨DMC_EVENT_CE, .w1c, 0x0, [], 0, 1⟩,
   ⟨DMC_EVENT_UE, .w1c, 0x0, [], 0, 1⟩,
   ⟨DMC_EVENT_TEMP_HIGH, .w1c, 0x0, [], 0, 1⟩,
   ⟨DMC_EVENT_PATROL_PASS, .w1c, 0x0, [], 0, 1⟩,
   ⟨DMC_EVENT_RECENTRE_STARVED, .w1c, 0x0, [], 0, 1⟩,
   ⟨DMC_EVENT_EYE_LOW, .w1c, 0x0, [], 0, 1⟩,
   ⟨DMC_EVENT_TRAIN_FAIL, .w1c, 0x0, [], 0, 1⟩,
   ⟨DMC_EVENT_IE_IE, .rw, 0x0, [], 0, 1⟩,
   ⟨DMC_REFRESH_LIMIT, .rw, 0x4, [(0x1, 0x8)], 0, 1⟩,
   ⟨DMC_REFRESH_ALL_BANK, .rw, 0x0, [], 0, 1⟩,
   ⟨DMC_REFRESH_POLL_US, .rw, 0x3E8, [(0x64, 0x3E80)], 0, 1⟩,
   ⟨DMC_DISTURB_THRESHOLD, .rw, 0x400, [(0x100, 0x3FFF)], 0, 1⟩,
   ⟨DMC_DISTURB_ENABLE, .rw, 0x1, [], 0, 1⟩,
   ⟨DMC_DISTURB_MODE, .rw, 0x0, [], 0, 1⟩,
   ⟨DMC_POLICY_AGE_US, .rw, 0xA, [(0x1, 0xFF)], 0, 1⟩,
   ⟨DMC_POLICY_HIT_LIMIT, .rw, 0x10, [(0x1, 0x1F)], 0, 1⟩,
   ⟨DMC_LP_PD_US, .ro, 0x0, [], 0, 1⟩,
   ⟨DMC_LP_SR_IDLE_US, .rw, 0x64, [(0x0, 0x0), (0xA, 0xFFFF)], 0, 1⟩,
   ⟨DMC_PATROL_HOURS, .ro, 0x0, [], 0, 1⟩,
   ⟨DMC_PATROL_ENABLE, .ro, 0x0, [], 0, 1⟩,
   ⟨DMC_RECENTRE_PERIOD_S, .rw, 0x258, [(0x3C, 0xFFFF)], 0, 1⟩,
   ⟨DMC_RECENTRE_STEP_C, .rw, 0x5, [(0x1, 0xF)], 0, 1⟩,
   ⟨DMC_RECENTRE_NOW, .w1s, 0x0, [], 0, 1⟩]

open Reg in
/-- Field rows of the cal frame. -/
def calRows : List FRow :=
  [⟨CAL_STATUS_STATE, .ro, 0x0, [], 0, 1⟩,
   ⟨CAL_STATUS_MODE, .ro, 0x0, [], 0, 1⟩,
   ⟨CAL_STATUS_RATE96, .ro, 0x0, [], 0, 1⟩,
   ⟨CAL_STATUS_COMPILING, .ro, 0x0, [], 0, 1⟩,
   ⟨CAL_STATUS_COMPILED, .ro, 0x0, [], 0, 1⟩,
   ⟨CAL_STATUS_LOCK_A, .ro, 0x0, [], 0, 1⟩,
   ⟨CAL_STATUS_LOCK_B, .ro, 0x0, [], 0, 1⟩,
   ⟨CAL_STATUS_PERIOD, .ro, 0x0, [], 0, 1⟩,
   ⟨CAL_EVENT_SWAPPED, .w1c, 0x0, [], 0, 1⟩,
   ⟨CAL_EVENT_XRUN, .w1c, 0x0, [], 0, 1⟩,
   ⟨CAL_EVENT_OVERLOAD, .w1c, 0x0, [], 0, 1⟩,
   ⟨CAL_EVENT_PORT_CLOCK, .w1c, 0x0, [], 0, 1⟩,
   ⟨CAL_EVENT_HS_0, .w1c, 0x0, [], 0, 1⟩,
   ⟨CAL_EVENT_HS_1, .w1c, 0x0, [], 0, 1⟩,
   ⟨CAL_EVENT_CHIME_FAULT, .w1c, 0x0, [], 0, 1⟩,
   ⟨CAL_EVENT_IE_IE, .rw, 0x0, [], 0, 1⟩,
   ⟨CAL_XFADE_T, .rwb, 0x0, [(0x32, 0x1388)], 0, 1⟩,
   ⟨CAL_LOAD_CORE_n, .ro, 0x0, [], 0, 1⟩,
   ⟨CAL_HS_STATUS_PRESENT, .ro, 0x0, [], 64, 2⟩,
   ⟨CAL_HS_STATUS_TYPE, .ro, 0x0, [], 64, 2⟩,
   ⟨CAL_HS_STATUS_LINE, .ro, 0x0, [], 64, 2⟩,
   ⟨CAL_HS_STATUS_BUTTON, .ro, 0x0, [], 64, 2⟩,
   ⟨CAL_HS_CFG_BIAS_EN, .rw, 0x1, [], 64, 2⟩,
   ⟨CAL_HS_CFG_LINE_KOHM, .rw, 0x5, [(0x1, 0x7F)], 64, 2⟩,
   ⟨CAL_HS_BTN_A, .rw, 0x1B, [], 64, 2⟩,
   ⟨CAL_HS_BTN_B, .rw, 0x4A, [], 64, 2⟩,
   ⟨CAL_HS_BTN_C, .rw, 0x69, [], 64, 2⟩,
   ⟨CAL_HS_BTN_D, .rw, 0x82, [], 64, 2⟩,
   ⟨CAL_LEGACY_MUX_SOURCE, .rwb, 0x0, [(0x0, 0x1A)], 4, 9⟩,
   ⟨CAL_PORT_STATUS_STATE, .ro, 0x0, [], 16, 6⟩] ++
  [⟨CAL_STREAM_STATUS_STATE, .ro, 0x0, [], 4, 128⟩,
   ⟨CAL_STREAM_STATUS_QUEUED, .ro, 0x0, [], 4, 128⟩,
   ⟨CAL_NODE_CTRL_WORD, .rwb, 0x0, [], 16, 512⟩,
   ⟨CAL_NODE_PARAM_WORD, .rwb, 0x0, [], 16, 512⟩,
   ⟨CAL_NODE_AUX_WORD, .rwb, 0x0, [], 16, 512⟩,
   ⟨CAL_NODE_STATUS_WORD, .ro, 0x0, [], 16, 512⟩,
   ⟨CAL_COEFF_WORD, .rwb, 0x0, [], 4, 2560⟩]

open Reg in
/-- Field rows of the hap frame. -/
def hapRows : List FRow :=
  [⟨HAP_STATUS_READY, .ro, 0x0, [], 0, 1⟩,
   ⟨HAP_STATUS_FAULT, .ro, 0x0, [], 0, 1⟩,
   ⟨HAP_EVENT_FAULT, .w1c, 0x0, [], 0, 1⟩,
   ⟨HAP_EVENT_IE_IE, .rw, 0x0, [], 0, 1⟩]

open Reg in
/-- Field rows of the hapCh frame. -/
def hapChRows : List FRow :=
  [⟨HAPCH_STATUS_STATE, .ro, 0x0, [], 0, 1⟩,
   ⟨HAPCH_STATUS_CAUSE, .ro, 0x0, [], 0, 1⟩,
   ⟨HAPCH_STATUS_WAITING, .ro, 0x0, [], 0, 1⟩,
   ⟨HAPCH_STATUS_SLOT, .ro, 0xFF, [], 0, 1⟩,
   ⟨HAPCH_STATUS_PRIORITY, .ro, 0x0, [], 0, 1⟩,
   ⟨HAPCH_STATUS_RETRIES, .ro, 0x0, [], 0, 1⟩,
   ⟨HAPCH_EVENT_FAULT, .w1c, 0x0, [], 0, 1⟩,
   ⟨HAPCH_EVENT_CAL_DONE, .w1c, 0x0, [], 0, 1⟩,
   ⟨HAPCH_EVENT_TEST_DONE, .w1c, 0x0, [], 0, 1⟩,
   ⟨HAPCH_EVENT_RECOVERED, .w1c, 0x0, [], 0, 1⟩,
   ⟨HAPCH_EVENT_RETRIGGER, .w1c, 0x0, [], 0, 1⟩,
   ⟨HAPCH_EVENT_IE_IE, .rw, 0x0, [], 0, 1⟩,
   ⟨HAPCH_CMD_CALIBRATE, .w1s, 0x0, [], 0, 1⟩,
   ⟨HAPCH_CMD_TEST, .w1s, 0x0, [], 0, 1⟩,
   ⟨HAPCH_CMD_RECOVER, .w1s, 0x0, [], 0, 1⟩,
   ⟨HAPCH_CMD_STOP, .w1s, 0x0, [], 0, 1⟩,
   ⟨HAPCH_LEVEL_STRENGTH, .rwb, 0x64, [(0x0, 0x64)], 0, 1⟩,
   ⟨HAPCH_LEVEL_MUTE, .rwb, 0x0, [], 0, 1⟩,
   ⟨HAPCH_CAL_F_RES, .ro, 0x0, [], 0, 1⟩,
   ⟨HAPCH_CAL_R_DC, .ro, 0x0, [], 0, 1⟩,
   ⟨HAPCH_TRIG_RESULT_RESULT, .ro, 0x0, [], 0, 1⟩,
   ⟨HAPCH_TRIG_RESULT_CHANNEL, .ro, 0x0, [], 0, 1⟩]

open Reg in
/-- Field rows of the tch frame. -/
def tchRows : List FRow :=
  [⟨TCH_STATUS_POWERED, .ro, 0x0, [], 0, 1⟩,
   ⟨TCH_EVENT_SEQ_FAULT, .w1c, 0x0, [], 0, 1⟩,
   ⟨TCH_EVENT_IE_IE, .rw, 0x0, [], 0, 1⟩]

open Reg in
/-- Field rows of the tchPort frame. -/
def tchPortRows : List FRow :=
  [⟨TCHP_STATUS_STATE, .ro, 0x0, [], 0, 1⟩,
   ⟨TCHP_STATUS_DOWN, .ro, 0x0, [], 0, 1⟩,
   ⟨TCHP_STATUS_SAFETY, .ro, 0x0, [], 0, 1⟩,
   ⟨TCHP_STATUS_HEAD, .ro, 0x0, [], 0, 1⟩,
   ⟨TCHP_EVENT_BAD_REPORT, .w1c, 0x0, [], 0, 1⟩,
   ⟨TCHP_EVENT_SEQ_FAULT, .w1c, 0x0, [], 0, 1⟩,
   ⟨TCHP_EVENT_STALE, .w1c, 0x0, [], 0, 1⟩,
   ⟨TCHP_EVENT_BUS_ERR, .w1c, 0x0, [], 0, 1⟩,
   ⟨TCHP_EVENT_DISCARD, .w1c, 0x0, [], 0, 1⟩,
   ⟨TCHP_EVENT_IE_IE, .rw, 0x0, [], 0, 1⟩,
   ⟨TCHP_MATRIX_COEF, .ro, 0x0, [], 4, 6⟩]

open Reg in
/-- Field rows of the tab frame. -/
def tabRows : List FRow :=
  [⟨TAB_GEN_GEN, .ro, 0x0, [], 0, 1⟩,
   ⟨TAB_EVENT_CAPTURED, .w1c, 0x0, [], 0, 1⟩,
   ⟨TAB_EVENT_AT_LATE, .w1c, 0x0, [], 0, 1⟩,
   ⟨TAB_EVENT_TELEM_SKIPPED, .w1c, 0x0, [], 0, 1⟩,
   ⟨TAB_EVENT_IE_IE, .rw, 0x0, [], 0, 1⟩,
   ⟨TAB_CTRL_CAPTURE, .w1s, 0x0, [], 0, 1⟩,
   ⟨TAB_CTRL_AT_ARM, .w1s, 0x0, [], 0, 1⟩,
   ⟨TAB_CTRL_AT_CANCEL, .w1s, 0x0, [], 0, 1⟩,
   ⟨TAB_CTRL_AT_PENDING, .ro, 0x0, [], 0, 1⟩,
   ⟨TAB_AT_LO_TIME, .rw, 0x0, [], 0, 1⟩,
   ⟨TAB_AT_HI_TIME, .rw, 0x0, [], 0, 1⟩]

open Reg in
/-- Field rows of the log frame. -/
def logRows : List FRow :=
  [⟨LOG_STATUS_READY, .ro, 0x0, [], 0, 1⟩,
   ⟨LOG_STATUS_INHIBITED, .ro, 0x0, [], 0, 1⟩,
   ⟨LOG_STATUS_BUSY, .ro, 0x0, [], 0, 1⟩,
   ⟨LOG_STATUS_STAGED, .ro, 0x0, [], 0, 1⟩,
   ⟨LOG_STATUS_RETIRED, .ro, 0x0, [], 0, 1⟩,
   ⟨LOG_EVENT_LOST, .w1c, 0x0, [], 0, 1⟩,
   ⟨LOG_EVENT_SECTOR_RETIRED, .w1c, 0x0, [], 0, 1⟩,
   ⟨LOG_EVENT_IE_IE, .rw, 0x0, [], 0, 1⟩,
   ⟨LOG_HEAD_SEQ, .ro, 0x0, [], 0, 1⟩,
   ⟨LOG_TAIL_SEQ, .ro, 0x0, [], 0, 1⟩,
   ⟨LOG_RD_SEQ_SEQ, .rw, 0x0, [], 0, 1⟩,
   ⟨LOG_RD_CMD_GO, .w1s, 0x0, [], 0, 1⟩,
   ⟨LOG_RD_STATUS_BUSY, .ro, 0x0, [], 0, 1⟩,
   ⟨LOG_RD_STATUS_VALID, .ro, 0x0, [], 0, 1⟩,
   ⟨LOG_RD_STATUS_GONE, .ro, 0x0, [], 0, 1⟩,
   ⟨LOG_RD_DATA_DATA, .ro, 0x0, [], 4, 16⟩]

open Reg in
/-- Field rows of the brk frame. -/
def brkRows : List FRow :=
  [⟨BRK_STATUS_LEVEL, .ro, 0x1, [], 0, 1⟩,
   ⟨BRK_EVENT_UNLOCKED, .w1c, 0x0, [], 0, 1⟩,
   ⟨BRK_EVENT_REFUSED, .w1c, 0x0, [], 0, 1⟩,
   ⟨BRK_EVENT_OVERRUN, .w1c, 0x0, [], 0, 1⟩,
   ⟨BRK_EVENT_IE_IE, .rw, 0x0, [], 0, 1⟩,
   ⟨BRK_CFG_ENABLE, .rw, 0x1, [], 0, 1⟩,
   ⟨BRK_CFG_BAUD, .rw, 0x0, [(0x0, 0x4)], 0, 1⟩]

open Reg in
/-- Field rows of the sec frame. -/
def secRows : List FRow :=
  [⟨SEC_STATE_STATE, .ro, 0x0, [], 0, 1⟩,
   ⟨SEC_STATE_DEBUG_NORMAL, .ro, 0x0, [], 0, 1⟩,
   ⟨SEC_STATE_DEBUG_SECURE, .ro, 0x0, [], 0, 1⟩,
   ⟨SEC_STATE_DEBUG_COUNTER, .ro, 0x0, [], 0, 1⟩,
   ⟨SEC_EVENT_HUNG, .w1c, 0x0, [], 0, 1⟩,
   ⟨SEC_EVENT_RELEASED, .w1c, 0x0, [], 0, 1⟩,
   ⟨SEC_EVENT_RUNNING, .w1c, 0x0, [], 0, 1⟩,
   ⟨SEC_EVENT_HELD, .w1c, 0x0, [], 0, 1⟩,
   ⟨SEC_EVENT_DEBUG_CHANGE, .w1c, 0x0, [], 0, 1⟩,
   ⟨SEC_EVENT_IE_IE, .rw, 0x0, [], 0, 1⟩,
   ⟨SEC_CTRL_REBOOT, .w1s, 0x0, [], 0, 1⟩,
   ⟨SEC_CTRL_AUTO_REBOOT, .rw, 0x0, [], 0, 1⟩,
   ⟨SEC_CTRL_DEBUG_LOCK, .w1s, 0x0, [], 0, 1⟩,
   ⟨SEC_HANG_CAUSE_CAUSE, .ro, 0x0, [], 0, 1⟩]

open Reg in
/-- Field rows of the win frame. -/
def winRows : List FRow :=
  [⟨MBX_REQ_OFFSET, .rw, 0x0, [], 0, 1⟩,
   ⟨MBX_REQ_OP, .rw, 0x0, [(0x0, 0x1)], 0, 1⟩,
   ⟨MBX_STATUS_VALID, .ro, 0x0, [], 0, 1⟩,
   ⟨MBX_STATUS_ERR, .ro, 0x0, [], 0, 1⟩,
   ⟨MBX_STATUS_WORDS, .ro, 0x0, [], 0, 1⟩,
   ⟨MBX_DATA_DATA, .mbx, 0x0, [], 4, 4⟩,
   ⟨CALL_CMD_SERVICE, .rw, 0x0, [], 0, 1⟩,
   ⟨CALL_CMD_VECTOR, .rw, 0x0, [], 0, 1⟩,
   ⟨CALL_CMD_IRQ, .rw, 0x0, [], 0, 1⟩,
   ⟨CALL_CMD_GO, .w1s, 0x0, [], 0, 1⟩,
   ⟨CALL_STATUS_BUSY, .ro, 0x0, [], 0, 1⟩,
   ⟨CALL_STATUS_DONE, .w1c, 0x0, [], 0, 1⟩,
   ⟨CALL_STATUS_RESULT, .ro, 0x0, [], 0, 1⟩,
   ⟨CALL_ARG_ARG, .rw, 0x0, [], 4, 4⟩,
   ⟨CALL_RET_RET, .ro, 0x0, [], 4, 2⟩,
   ⟨HAP_TRIG_RESULT_RESULT, .ro, 0x0, [], 0, 1⟩,
   ⟨HAP_TRIG_RESULT_CHANNEL, .ro, 0x0, [], 0, 1⟩,
   ⟨SN_REQ_RESULT_RESULT, .ro, 0x0, [], 0, 1⟩,
   ⟨MSIX_TABLE_WORD, .rw, 0x0, [], 4, 128⟩,
   ⟨MSIX_PBA_WORD, .ro, 0x0, [], 4, 2⟩]

open Reg in
/-- Wide slots of the pci frame. -/
def pciWides : List WRow :=
  [⟨PCI_TIMEBASE, 0, 1, 2, false⟩,
   ⟨PCI_PTM_OFFSET_A, 0, 1, 2, false⟩,
   ⟨PCI_PTM_OFFSET_B, 0, 1, 2, false⟩,
   ⟨PCI_LINKDOWN_A, 0, 1, 2, true⟩,
   ⟨PCI_LINKDOWN_B, 0, 1, 2, true⟩]

open Reg in
/-- Wide slots of the inst frame. -/
def instWides : List WRow :=
  [⟨INST_DL_MISS, 0, 1, 2, true⟩,
   ⟨INST_ABORTED, 0, 1, 2, true⟩,
   ⟨INST_REFUSED, 0, 1, 2, true⟩]

open Reg in
/-- Wide slots of the ring frame. -/
def ringWides : List WRow :=
  [⟨RING_DONE, 0, 1, 2, true⟩,
   ⟨RING_DROPS, 0, 1, 2, true⟩,
   ⟨RING_ABORTS, 0, 1, 2, true⟩]

open Reg in
/-- Wide slots of the car frame. -/
def carWides : List WRow :=
  [⟨CAR_PREEMPT_DL, 0, 1, 2, true⟩,
   ⟨CAR_PREEMPT_QUANTUM, 0, 1, 2, true⟩,
   ⟨CAR_TEST_SLICES, 0, 1, 2, true⟩,
   ⟨CAR_PREEMPT_SLOW, 0, 1, 2, true⟩,
   ⟨CAR_HEAD_MISS, 16, 8, 2, true⟩,
   ⟨CAR_INST_GFX_TIME, 64, 64, 2, true⟩,
   ⟨CAR_INST_PREEMPTED, 64, 64, 2, true⟩]

open Reg in
/-- Wide slots of the head frame. -/
def headWides : List WRow :=
  [⟨HEAD_LAYER_MASK, 0, 1, 2, false⟩,
   ⟨HEAD_SPEC_DISCARD, 0, 1, 2, true⟩,
   ⟨HEAD_RECOMPOSE, 0, 1, 2, true⟩,
   ⟨HEAD_LATE_COMMIT, 0, 1, 2, true⟩,
   ⟨HEAD_MISSED_WINDOW, 0, 1, 2, true⟩,
   ⟨HEAD_GUARD_EXCL, 0, 1, 2, true⟩,
   ⟨HEAD_FRAME, 0, 1, 2, false⟩,
   ⟨HEAD_UNDERRUN, 0, 1, 2, true⟩,
   ⟨HEAD_LOCK_LOSS, 0, 1, 2, true⟩,
   ⟨HEAD_LATCH_TIME, 0, 1, 2, false⟩]

open Reg in
/-- Wide slots of the layer frame. -/
def layerWides : List WRow :=
  [⟨LAYER_FETCH_ERR, 0, 1, 2, true⟩,
   ⟨LAYER_COMMITS, 0, 1, 2, true⟩,
   ⟨LAYER_SKIP_BYTES, 0, 1, 2, true⟩]

open Reg in
/-- Wide slots of the out frame. -/
def outWides : List WRow :=
  [⟨OUT_TRAIN_FAILS, 0, 1, 2, true⟩,
   ⟨OUT_LINK_LOSS, 0, 1, 2, true⟩]

open Reg in
/-- Wide slots of the cap frame. -/
def capWides : List WRow :=
  [⟨CAP_FRAMES, 0, 1, 2, true⟩,
   ⟨CAP_BAD_FRAMES, 0, 1, 2, true⟩,
   ⟨CAP_UNSHOWN, 0, 1, 2, true⟩,
   ⟨CAP_PKT_ERR, 0, 1, 2, true⟩,
   ⟨CAP_LAST_FRAME, 0, 1, 3, false⟩]

open Reg in
/-- Wide slots of the gfx frame. -/
def gfxWides : List WRow :=
  [⟨GFX_DROPPED, 0, 1, 2, true⟩,
   ⟨GFX_TIMEOUTS, 0, 1, 2, true⟩,
   ⟨GFX_PRIMS, 0, 1, 2, true⟩,
   ⟨GFX_PIXELS, 0, 1, 2, true⟩,
   ⟨GFX_L2_HITS, 0, 1, 2, true⟩,
   ⟨GFX_L2_MISSES, 0, 1, 2, true⟩,
   ⟨GFX_TEX_PROBES, 0, 1, 2, true⟩]

open Reg in
/-- Wide slots of the gfxCore frame. -/
def gfxCoreWides : List WRow :=
  [⟨GFX_CORE_BUSY, 0, 1, 2, true⟩,
   ⟨GFX_CORE_WAVE_INSTR, 0, 1, 2, true⟩,
   ⟨GFX_CORE_TEST_RUNS, 0, 1, 2, true⟩,
   ⟨GFX_CORE_LAST_TEST, 0, 1, 2, false⟩]

open Reg in
/-- Wide slots of the cpy frame. -/
def cpyWides : List WRow :=
  [⟨CPY_BYTES, 0, 1, 2, true⟩,
   ⟨CPY_JOBS, 0, 1, 2, true⟩]

open Reg in
/-- Wide slots of the dmc frame. -/
def dmcWides : List WRow :=
  [⟨DMC_CE_TOTAL, 0, 1, 2, true⟩,
   ⟨DMC_UE_TOTAL, 0, 1, 2, true⟩,
   ⟨DMC_PATROL_POS, 0, 1, 2, false⟩,
   ⟨DMC_PATROL_PASSES, 0, 1, 2, true⟩,
   ⟨DMC_LAST_CE, 0, 1, 4, false⟩,
   ⟨DMC_LAST_UE, 0, 1, 4, false⟩]

open Reg in
/-- Wide slots of the dmcCh frame. -/
def dmcChWides : List WRow :=
  [⟨DMCCH_CE, 0, 1, 2, true⟩,
   ⟨DMCCH_UE, 0, 1, 2, true⟩,
   ⟨DMCCH_REFRESHES, 0, 1, 2, true⟩,
   ⟨DMCCH_POSTPONED, 0, 1, 2, true⟩,
   ⟨DMCCH_FORCED, 0, 1, 2, true⟩,
   ⟨DMCCH_MITIGATIONS, 0, 1, 2, true⟩,
   ⟨DMCCH_ACTIVATES, 0, 1, 2, true⟩,
   ⟨DMCCH_G_DEFERRED, 0, 1, 2, true⟩]

open Reg in
/-- Wide slots of the sec frame. -/
def secWides : List WRow :=
  [⟨SEC_HANGS, 0, 1, 2, true⟩,
   ⟨SEC_HELD, 0, 1, 2, true⟩]

open Reg in
/-- Wide slots of the cal frame. -/
def calWides : List WRow :=
  [⟨CAL_PERIODS, 0, 1, 2, true⟩,
   ⟨CAL_SWAPS, 0, 1, 2, true⟩,
   ⟨CAL_OVERLOADS, 0, 1, 2, true⟩,
   ⟨CAL_STREAM_XRUN, 16, 128, 2, true⟩]

open Reg in
/-- Wide slots of the tchPort frame. -/
def tchPortWides : List WRow :=
  [⟨TCHP_REPORTS, 0, 1, 2, true⟩,
   ⟨TCHP_BAD_REPORTS, 0, 1, 2, true⟩,
   ⟨TCHP_DISCARDS, 0, 1, 2, true⟩,
   ⟨TCHP_CANCELS, 0, 1, 2, true⟩,
   ⟨TCHP_LAST, 0, 1, 2, false⟩]

open Reg in
/-- Wide slots of the hapCh frame. -/
def hapChWides : List WRow :=
  [⟨HAPCH_EFFECTS, 0, 1, 2, true⟩,
   ⟨HAPCH_RETRIGGERS, 0, 1, 2, true⟩,
   ⟨HAPCH_FAULTS, 0, 1, 2, true⟩,
   ⟨HAPCH_DROPPED, 0, 1, 2, true⟩]

open Reg in
/-- Wide slots of the cvu frame. -/
def cvuWides : List WRow :=
  [⟨CVU_POLY, 0, 1, 2, false⟩,
   ⟨CVU_INIT, 0, 1, 2, false⟩,
   ⟨CVU_XOROUT, 0, 1, 2, false⟩,
   ⟨CVU_REF, 0, 1, 2, false⟩,
   ⟨CVU_LAST, 0, 1, 4, false⟩,
   ⟨CVU_LAST_P, 0, 1, 2, false⟩,
   ⟨CVU_COMPARES, 0, 1, 2, true⟩,
   ⟨CVU_MISMATCHES, 0, 1, 2, true⟩]

open Reg in
/-- Wide slots of the sn frame. -/
def snWides : List WRow :=
  [⟨SN_FAULTS, 0, 1, 2, true⟩,
   ⟨SN_INJECTIONS, 0, 1, 2, true⟩,
   ⟨SN_LAST, 0, 1, 4, false⟩,
   ⟨SN_STOPS, 0, 1, 2, true⟩,
   ⟨SN_SOURCE_COUNT, 16, 32, 2, true⟩]

open Reg in
/-- Wide slots of the pic frame. -/
def picWides : List WRow :=
  [⟨PIC_TIME, 16, 5, 2, true⟩,
   ⟨PIC_WAKES, 0, 1, 2, true⟩,
   ⟨PIC_REFUSALS, 0, 1, 2, true⟩]

open Reg in
/-- Wide slots of the blw frame. -/
def blwWides : List WRow :=
  [⟨BLW_ENERGY, 0, 1, 2, true⟩,
   ⟨BLW_THROTTLE_ROUNDS, 0, 1, 2, true⟩,
   ⟨BLW_BYPASSES, 0, 1, 2, true⟩,
   ⟨BLW_BOOSTS, 0, 1, 2, true⟩]

open Reg in
/-- Wide slots of the dev frame. -/
def devWides : List WRow :=
  [⟨DEV_COLD_STARTS, 0, 1, 2, true⟩,
   ⟨DEV_READY_TIME, 0, 1, 2, false⟩]

open Reg in
/-- Wide slots of the tab frame. -/
def tabWides : List WRow :=
  [⟨TAB_LAST, 0, 1, 4, false⟩,
   ⟨TAB_CAPTURES, 0, 1, 2, true⟩,
   ⟨TAB_SHADOW, 16, 2576, 3, false⟩]

open Reg in
/-- Wide slots of the log frame. -/
def logWides : List WRow :=
  [⟨LOG_RECORDS, 0, 1, 2, true⟩,
   ⟨LOG_ERASES, 0, 1, 2, true⟩,
   ⟨LOG_DROPPED, 0, 1, 2, true⟩]

open Reg in
/-- Wide slots of the brk frame. -/
def brkWides : List WRow :=
  [⟨BRK_COMMANDS, 0, 1, 2, true⟩,
   ⟨BRK_REFUSED, 0, 1, 2, true⟩]

/-- A row moved up by `d` bytes. -/
def FRow.up (d : Nat) (r : FRow) : FRow := { r with fld := { r.fld with off := r.fld.off + d } }

/-- Rows of a wide-value mailbox (R104), a call block (R408) and an MSI-X table (R124) at offset `d`; the
`win` table lists them at offset 0 of their own blocks. -/
def mailboxRows (d : Nat) : List FRow := (winRows.take 6).map (FRow.up d)
def callBlockRows (d : Nat) : List FRow := ((winRows.drop 6).take 9).map (FRow.up d)
def msixRows (t p n : Nat) : List FRow :=
  [⟨⟨t, 0, 32⟩, .rw, 0, [], 4, 4 * n⟩, ⟨⟨p, 0, 32⟩, .ro, 0, [], 4, 2⟩]

/-- The field rows of a frame, its own and then the common ones. -/
def FrameKind.rows : FrameKind → List FRow
  | .dev => devRows ++ mailboxRows 0x100 ++ commonRows
  | .rpl => rplRows ++ commonRows
  | .pci => pciRows ++ msixRows 0x2000 0x3000 32 ++ commonRows
  | .inst => instRows ++ commonRows
  | .ring => ringRows ++ commonRows ++ bufferedRows
  | .car => carRows ++ commonRows ++ bufferedRows
  | .blw => blwRows ++ commonRows ++ bufferedRows
  | .pic => picRows ++ commonRows
  | .head => headRows ++ commonRows ++ bufferedRows
  | .layer => layerRows ++ commonRows ++ bufferedRows
  | .cvu => cvuRows ++ commonRows
  | .sn => snRows ++ commonRows
  | .cap => capRows ++ commonRows
  | .out => outRows ++ commonRows
  | .gfx => gfxRows ++ commonRows
  | .gfxCore => gfxCoreRows ++ commonRows
  | .cpy => cpyRows ++ commonRows
  | .dmcCh => dmcChRows ++ commonRows
  | .dmc => dmcRows ++ commonRows
  | .cal => calRows ++ commonRows ++ bufferedRows
  | .hap => hapRows ++ commonRows
  | .hapCh => hapChRows ++ commonRows ++ bufferedRows
  | .tch => tchRows ++ commonRows
  | .tchPort => tchPortRows ++ commonRows
  | .pot => [] ++ commonRows
  | .tab => tabRows ++ commonRows
  | .log => logRows ++ commonRows
  | .brk => brkRows ++ commonRows
  | .sec => secRows ++ callBlockRows 0x100 ++ commonRows
  | .win => mailboxRows 0x3000 ++ callBlockRows 0x3100 ++ [⟨Reg.HAP_TRIG_RESULT_RESULT, .ro, 0, [], 0, 1⟩,
      ⟨Reg.HAP_TRIG_RESULT_CHANNEL, .ro, 0, [], 0, 1⟩, ⟨Reg.SN_REQ_RESULT_RESULT, .ro, 0, [], 0, 1⟩] ++ msixRows 0x3800 0x3C00 32

/-- The wide slots of a frame. -/
def FrameKind.wides : FrameKind → List WRow
  | .dev => devWides
  | .rpl => []
  | .pci => pciWides
  | .inst => instWides
  | .ring => ringWides
  | .car => carWides
  | .blw => blwWides
  | .pic => picWides
  | .head => headWides
  | .layer => layerWides
  | .cvu => cvuWides
  | .sn => snWides
  | .cap => capWides
  | .out => outWides
  | .gfx => gfxWides
  | .gfxCore => gfxCoreWides
  | .cpy => cpyWides
  | .dmcCh => dmcChWides
  | .dmc => dmcWides
  | .cal => calWides
  | .hap => []
  | .hapCh => hapChWides
  | .tch => []
  | .tchPort => tchPortWides
  | .pot => []
  | .tab => tabWides
  | .log => logWides
  | .brk => brkWides
  | .sec => secWides
  | .win => []

/-- Frames with buffered fields (R98). -/
def FrameKind.buffered : FrameKind → Bool
  | .ring | .car | .blw | .head | .layer | .cal | .hapCh => true
  | .dev | .rpl | .pci | .inst | .pic | .cvu | .sn | .cap | .out | .gfx | .gfxCore | .cpy | .dmcCh | .dmc | .hap | .tch | .tchPort | .pot | .tab | .log | .brk | .sec | .win => false

end Sys2Proof.Machine
end

