-- ==== Sys2Proof/Machine/Store.lean ====
section
/-!
DEFINITION. Operations of the sparse keyed map (`KMap`): reading with a default for unlisted keys, and
writing so that the canonical form is kept (keys strictly rising, no entry equal to its default).
-/
namespace Sys2Proof.Machine

/-- The entry listed at key `k`. -/
def KMap.find {α : Type} : KMap α → Nat → Option α
  | [], _ => none
  | (a, v) :: m, k => if a = k then some v else KMap.find m k

/-- What key `k` reads as: its entry, or the default `d k`. -/
def KMap.get {α : Type} (d : Nat → α) (m : KMap α) (k : Nat) : α :=
  (KMap.find m k).getD (d k)

/-- The map with `v` listed at `k`. -/
def KMap.insert {α : Type} : KMap α → Nat → α → KMap α
  | [], k, v => [(k, v)]
  | (a, w) :: m, k, v =>
    if a = k then (k, v) :: m else if k < a then (k, v) :: (a, w) :: m else (a, w) :: KMap.insert m k v

/-- The map with nothing listed at `k`. -/
def KMap.erase {α : Type} : KMap α → Nat → KMap α
  | [], _ => []
  | (a, w) :: m, k => if a = k then KMap.erase m k else (a, w) :: KMap.erase m k

/-- The map with `k` reading as `v`: writing the default removes the entry. -/
def KMap.set {α : Type} [DecidableEq α] (d : Nat → α) (m : KMap α) (k : Nat) (v : α) : KMap α :=
  if v = d k then KMap.erase m k else KMap.insert m k v

/-- The canonical form: keys strictly rising and above `lo` (if given), no entry equal to its default. -/
def KMap.wfFrom {α : Type} [DecidableEq α] (d : Nat → α) : Nat → KMap α → Bool
  | _, [] => true
  | lo, (a, v) :: m => decide (lo ≤ a) && decide (v ≠ d a) && KMap.wfFrom d (a + 1) m

/-- The canonical form of a map. -/
def KMap.wf {α : Type} [DecidableEq α] (d : Nat → α) (m : KMap α) : Bool := KMap.wfFrom d 0 m

/-- Bytes at `a, a+1, …` of a map. -/
def KMap.readBytes (d : Nat → Byte) (m : KMap Byte) : Nat → Nat → List Byte
  | _, 0 => []
  | a, n + 1 => KMap.get d m a :: KMap.readBytes d m (a + 1) n

/-- The cells that bytes at `a, a+1, …` list: those that differ from the default. -/
def cellsOf (d : Nat → Byte) : Nat → List Byte → KMap Byte
  | _, [] => []
  | a, b :: bs => if b = d a then cellsOf d (a + 1) bs else (a, b) :: cellsOf d (a + 1) bs

/-- The map with `bs` written at `a, a+1, …`: what lies below, the new cells, what lies above. -/
def KMap.writeBytes (d : Nat → Byte) (m : KMap Byte) (a : Nat) (bs : List Byte) : KMap Byte :=
  (m.filter fun e => decide (e.1 < a)) ++ cellsOf d a bs ++ m.filter fun e => decide (a + bs.length ≤ e.1)

/-- The little-endian value of bytes (R39). -/
def leNat : List Byte → Nat
  | [] => 0
  | b :: bs => b.toNat + 256 * leNat bs

/-- The `n` little-endian bytes of a value. -/
def natLE : Nat → Nat → List Byte
  | 0, _ => []
  | n + 1, v => BitVec.ofNat 8 v :: natLE n (v / 256)

/-- The big-endian bytes of a value. -/
def natBE (n v : Nat) : List Byte := (natLE n v).reverse

/-- Bits [lo+w-1 : lo] of a number. -/
def bitsOf (v lo w : Nat) : Nat := v / 2 ^ lo % 2 ^ w

/-- `v` with bits [lo+w-1 : lo] replaced by `x`. -/
def setBits (v lo w x : Nat) : Nat :=
  v - bitsOf v lo w * 2 ^ lo + (x % 2 ^ w) * 2 ^ lo

/-- Whether bit `n` of a number is 1. -/
def bitSet (v n : Nat) : Bool := decide (v / 2 ^ n % 2 = 1)

/-- The number with bit `n` set to `b`. -/
def setBit (v n : Nat) (b : Bool) : Nat := setBits v n 1 (if b then 1 else 0)

/-- A number read as two's complement of `w` bits. -/
def signedOf (w v : Nat) : Int := if v % 2 ^ w < 2 ^ (w - 1) then (v % 2 ^ w : Nat) else (v % 2 ^ w : Nat) - (2 ^ w : Nat)

/-- Two's complement of `w` bits. -/
def ofSigned (w : Nat) (i : Int) : Nat := (i % (2 ^ w : Nat)).toNat

end Sys2Proof.Machine
end

