-- ==== Sys2Proof/Machine/RegAddr.lean ====
section
/-!
DEFINITION. Finding registers: which frame an address lies in (R78), which field rows a register has,
and the reset value of a field (R4).
-/
namespace Sys2Proof.Machine

/-- The frame, its index and the offset in it of an address of the normal view (or a window key). -/
def frameAt (a : Nat) : Option (FrameKind × Nat × Nat) :=
  (FrameKind.all.find? fun k => decide (k.base ≤ a) && decide (a < k.base + k.stride * k.count)).map
    fun k => (k, (a - k.base) / k.stride, (a - k.base) % k.stride)

/-- The base address of frame `n` of a kind. -/
def FrameKind.at (k : FrameKind) (n : Nat) : Nat := k.base + k.stride * n

/-- The key of the window of instance i; 64 is the subordinate physical function, 66 Barker. -/
def winBase (n : Nat) : Nat := FrameKind.win.at n

/-- The INST_ frame of instance i, or of the subordinate physical function at 64 (R79, R180). -/
def instBase (i : Nat) : Nat := if i = 64 then winBase 64 else FrameKind.inst.at i
def ringBase (q : Nat) : Nat := FrameKind.ring.at q
def headBase (h : Nat) : Nat := FrameKind.head.at h
def layerBase (k : Nat) : Nat := FrameKind.layer.at k

/-- Whether a row has a field at offset `off`, lowest bit `lo`. -/
def FRow.hits (off lo : Nat) (r : FRow) : Bool :=
  decide (r.fld.lo = lo) && (if r.stride = 0 then decide (off = r.fld.off) else
    decide (r.fld.off ≤ off) && decide ((off - r.fld.off) % r.stride = 0) && decide ((off - r.fld.off) / r.stride < r.count))

/-- Whether a row has a field in the register at offset `off`. -/
def FRow.inReg (off : Nat) (r : FRow) : Bool := r.hits off r.fld.lo

/-- The kind whose rows a frame uses: the window of the subordinate physical function holds its INST_
registers below 0x1000. -/
def rowsOfFrame (k : FrameKind) (n off : Nat) : List FRow :=
  if k = .win ∧ off < 0x1000 then (if n = 64 then FrameKind.inst.rows else []) else k.rows

/-- The field rows of the register at an address. -/
def regRows (a : Nat) : List FRow :=
  match frameAt a with
  | none => []
  | some (k, n, off) => (rowsOfFrame k n off).filter (FRow.inReg off)

/-- The key of a field: its register's address and lowest bit. -/
def fkey (a lo : Nat) : Nat := a * 32 + lo

/-- Built-in coefficient words (R230): the tap at position `t` of phase φ, of `n` taps a phase. -/
def builtinTap (n φ t : Nat) : Nat :=
  let c := if n = 8 then 3 else 2
  if t = c then 1024 - 16 * φ else if t = c + 1 then 16 * φ else 0

/-- Reset values that depend on the register's place: gamma entries (R309), coefficients (R230), the layer
kind and scaler steps (R257, R258), the MSI-X mask bit (PCI Express), and the event-log result.
Rests on log entry 24 (PRESUMED). -/
def placeReset (k : FrameKind) (n off lo : Nat) : Option Nat :=
  match k with
  | .head =>
    if 0x1000 ≤ off ∧ off < 0x2800 then
      let w := off % 0x800 / 4
      let e := 2 * w + (if lo = 16 then 1 else 0)
      some (4 * e + e / 256)
    else none
  | .layer =>
    if off = 0 ∧ lo = 12 then some (if n ≤ 15 then 1 else 0)
    else if off = 0x7C ∨ off = 0x80 then some (if n ≤ 15 then 0x100000 else 0)
    else if 0x800 ≤ off ∧ off < 0xC00 then
      let w := (off - 0x800) / 4
      some (if n ≤ 15 then builtinTap 8 (w / 4) (2 * (w % 4) + (if lo = 16 then 1 else 0)) else 0)
    else if 0xC00 ≤ off ∧ off < 0xF00 then
      let w := (off - 0xC00) / 4
      some (if n ≤ 15 then builtinTap 6 (w / 3) (2 * (w % 3) + (if lo = 16 then 1 else 0)) else 0)
    else none
  | .pci => if 0x2000 ≤ off ∧ off < 0x2200 then some (if off % 16 = 12 then 1 else 0) else none
  | .win => if 0x3800 ≤ off ∧ off < 0x3A00 then some (if off % 16 = 12 then 1 else 0) else none
  | _ => none

/-- The reset value of the field with a key (R4): fields loaded from the Ringplan are zero. -/
def fieldReset (key : Nat) : Nat :=
  match frameAt (key / 32) with
  | none => 0
  | some (k, n, off) =>
    match placeReset k n off (key % 32) with
    | some v => v
    | none => (((rowsOfFrame k n off).find? (FRow.hits off (key % 32))).map FRow.reset).getD 0

/-- The wide slot at an address. -/
def wideRow (a : Nat) : Option WRow :=
  match frameAt a with
  | none => none
  | some (k, n, off) =>
    let ws := if k = .win then (if n = 64 ∧ off < 0x1000 then FrameKind.inst.wides else []) else k.wides
    ws.find? fun w => if w.stride = 0 then decide (off = w.off) else
      decide (w.off ≤ off) && decide ((off - w.off) % w.stride = 0) && decide ((off - w.off) / w.stride < w.count)

end Sys2Proof.Machine
end

