-- ==== Sys2Proof/Machine/State.lean ====
section
/-!
DEFINITION. The state of the block: every register, wide value, buffer, queue, table and timer the spec
gives it, as plain data, and the state after reset.
-/
namespace Sys2Proof.Machine

/-- Faults. No command of this block ends in one: a command that cannot act leaves the state as it is or records
the error the spec names. -/
inductive Fault where
  /-- Raised by no command of this model; kept so that the type has a name to report. Safe. -/
  | none
  deriving DecidableEq, Repr

/-- Refusals. -/
inductive Refusal where
  /-- Raised by an arm of `exec` whose command has no meaning yet. Safe: nothing is claimed of the command. -/
  | notModelled (mnemonic : String)
  deriving DecidableEq, Repr

/-! ## The applied structure (chapter 2) -/

/-- A GLOBAL record (R47). -/
structure GlobalRec where
  portMode : Nat := 0
  managerPort : Nat := 0
  dramGib : Nat := 0
  dramRanks : Nat := 0
  dramRate : Nat := 0
  l2Policy : Nat := 0
  l2SecureWays : Nat := 0
  fetchPolicy : Nat := 0
  bTestPm : Nat := 0
  bDramPm : Nat := 0
  bCopyPm : Nat := 0
  patrolHours : Nat := 0
  deriving DecidableEq, Repr

/-- An INSTANCES record (R48). -/
structure InstRec where
  inst : Nat := 0
  port : Nat := 0
  cls : Nat := 0
  flags : Nat := 0
  rings : Nat := 0
  vectors : Nat := 0
  gfxShare : Nat := 0
  gfxMax : Nat := 0
  cpyShare : Nat := 0
  cpyMax : Nat := 0
  dramRes : Nat := 0
  dramMax : Nat := 0
  pageQuota : Nat := 0
  deriving DecidableEq, Repr

/-- A HEADS record (R49). -/
structure HeadRec where
  head : Nat := 0
  owner : Nat := 0
  portType : Nat := 0
  lanes : Nat := 0
  linkRate : Nat := 0
  lead : Nat := 0
  colour : Nat := 0
  ownerWritable : Nat := 0
  hActive : Nat := 0
  hTotal : Nat := 0
  vActive : Nat := 0
  vTotal : Nat := 0
  pixelKhz : Nat := 0
  hsStart : Nat := 0
  hsEnd : Nat := 0
  vsStart : Nat := 0
  vsEnd : Nat := 0
  latchLine : Nat := 0
  lostAction : Nat := 0
  lostImage : Nat := 0
  lostHoldMs : Nat := 0
  background : Nat := 0
  deriving DecidableEq, Repr

/-- A LAYERS record (R50). -/
structure LayerRec where
  layer : Nat := 0
  owner : Nat := 0
  head : Nat := 0
  flags : Nat := 0
  capture : Nat := 0
  maxBpp : Nat := 0
  maxWidth : Nat := 0
  maxHeight : Nat := 0
  headMask : Nat := 0
  deriving DecidableEq, Repr

/-- A GUARDED record (R52). -/
structure GuardRec where
  region : Nat := 0
  head : Nat := 0
  owner : Nat := 0
  cvu : Nat := 0
  x : Nat := 0
  y : Nat := 0
  w : Nat := 0
  h : Nat := 0
  mode : Nat := 0
  deriving DecidableEq, Repr

/-- A CAPTURE record (R53). -/
structure CapRec where
  port : Nat := 0
  lanes : Nat := 0
  laneMbps : Nat := 0
  dataType : Nat := 0
  vc : Nat := 0
  layer : Nat := 0
  owner : Nat := 0
  width : Nat := 0
  height : Nat := 0
  deriving DecidableEq, Repr

/-- The POWER record (R54). -/
structure PowerRec where
  capMw : Nat := 0
  capMinMw : Nat := 0
  capMaxMw : Nat := 0
  dozeMs : Nat := 0
  rankPdUs : Nat := 0
  retainMask : Nat := 0
  wakeMask : Nat := 0
  deriving DecidableEq, Repr

/-- The SAFETY record (R55). -/
structure SafetyRec where
  profile : Nat := 0
  testSlices : Nat := 0
  ecc : Nat := 0
  cfgCompareMs : Nat := 0
  faultHeads : Nat := 0
  deriving DecidableEq, Repr

/-- A fallback image decoded to ARGB8888 pixels, row by row (R56, R57). -/
structure FallbackImg where
  width : Nat := 0
  height : Nat := 0
  pixels : List Nat := []
  deriving DecidableEq, Repr

/-! ## Host attachment (chapter 4) -/

/-- The settings of one function's configuration space that the spec gives an effect (R119, R121 to R125, R134).
Rests on log entry 15 (DESIGN CHOICE). -/
structure FnCfg where
  ready : Bool := false        -- configuration requests complete without RRS (R134)
  busMaster : Bool := false
  d3hot : Bool := false
  msixEnable : Bool := false
  msixMaskAll : Bool := false
  numVFs : Nat := 0
  vfEnable : Bool := false
  aspmL1 : Bool := false
  ptmEnable : Bool := false
  apertureLog2 : Nat := 28     -- 256 MiB at reset (R122)
  aerErrors : Nat := 0         -- errors recorded in AER (R127)
  other : KMap Nat := []       -- other configuration words the host has written
  deriving DecidableEq, Repr

/-- One host port (R132 to R141). -/
structure PortX where
  perst : Bool := false        -- PCIE_PERST_x_N is low
  cutOff : Bool := false       -- writes to the host are dropped (R135 step 2)
  inL2 : Bool := false
  ptmWaiting : Bool := false   -- a PTM dialogue is in progress
  ptmFails : Nat := 0          -- failed dialogues in a row (R130)
  ltrUs : Nat := 3000          -- latency tolerance reported (R140)
  deriving DecidableEq, Repr

/-- The timebase's discipline (R128 to R131). Rests on log entry 16 (DESIGN CHOICE). -/
structure TimeX where
  trim : Nat := 200            -- rate trim in ppm above −200: 0 to 400, 200 none (R128)
  slewing : Bool := false      -- running at −200 ppm until the error is below 1 µs (R129)
  freeRun : Bool := false      -- PTM_LOST: running at the last rate (R130)
  osc38 : Bool := false        -- counting from the 38.4 MHz reference (R131)
  deriving DecidableEq, Repr

/-! ## Instances, rings, descriptors, fences (chapter 5) -/

/-- Where a fetched descriptor stands. -/
inductive DPhase where
  | waiting                                -- waits on a fence (R164)
  | ready                                  -- may start
  | running                                -- its work is in an engine
  | armed                                  -- a commit, move, EXPECT, audio buffer or chime outstanding
  | held                                   -- a commit deferred by R251
  | done (status detail : Nat)             -- work ended; its effects wait for their turn (R159)
  deriving DecidableEq, Repr

/-- A descriptor a ring has fetched (R157). -/
structure Desc where
  idx : Nat                                -- DEV_IDX at its fetch
  words : BitVec 512
  phase : DPhase := .waiting
  target : Option Nat := none              -- 64-bit deadline frame (R168)
  passed : Option Nat := none              -- when the target latch passed (R169)
  deferred : Nat := 0                      -- DEFERRED detail of a commit (R244)
  discard : Bool := false                  -- to be discarded at its next preemption point (R173)
  missed : Bool := false                   -- its deadline miss has been counted (R169)
  charged : Nat := 0                       -- engine time charged so far (R337)
  cycles : Nat := 0                        -- shader clocks times groups, in thousandths (R199)
  limitHit : Bool := false                 -- JOB_LIMIT_MS is exceeded (R337)
  saved : Bool := false                    -- its context is saved in its ring's area (R341)
  binned : Bool := false                   -- binning has ended (R321); the transfers of a copy are made (R346)
  outcomes : List (Nat × Nat) := []        -- statuses and details its work has met so far (R349)
  got : List Byte := []                    -- data its reads have returned
  deriving DecidableEq, Repr

/-- What a ring holds beside its registers. -/
structure RingX where
  fetched : List Desc := []                -- in fetch order, oldest first
  fetching : Bool := false                 -- a descriptor fetch is outstanding
  disablePending : Bool := false           -- DISABLE waits for the fetched descriptors (R156)
  startPending : Bool := false             -- START waits for an armed apply (R156)
  pend : Nat := 0                          -- items since the last interrupt (R171)
  firstPend : Nat := 0                     -- time of the oldest pending item
  oneshotOff : Bool := false               -- disarmed after an interrupt until REARM
  lost : Nat := 0                          -- records dropped since the last record (R154)
  sweepNext : Option Nat := none           -- TELEM: round of the next periodic sweep (R568)
  sweep : Option (Nat × Nat) := none       -- TELEM: sweep in progress: next counter number, generation it began with
  mixed : Bool := false                    -- the sweep spans generations (R570)
  est : List Nat := []                     -- work estimates of the last eight deadline descriptors (R199)
  saveArea : Nat := 0                      -- context-save area, 0 none (R342)
  deriving DecidableEq, Repr

/-- A fence slot (R163). -/
structure Fence where
  value : Nat := 0
  status : Nat := 0
  detail : Nat := 0
  deriving DecidableEq, Repr

/-- What an instance holds beside its registers. -/
structure InstX where
  resetAfter : Bool := false               -- FLR or RESET during STOPPING (R177)
  lossAfter : Bool := false                -- port lost during STOPPING (R177)
  stopCleared : Bool := false              -- STOP cleared during STOPPING (R177)
  flr : Bool := false                      -- the function answers RRS until the reset is done (R134)
  heldRecords : List (Nat × Nat) := []     -- LAYERS_DISABLED records held for delivery: time, mask (R174)
  turnGfx : Nat := 0                       -- the ring served last, for R194
  turnCpy : Nat := 0
  secureNote : Bool := false               -- the secure core has been told of voided windows (R404)
  deriving DecidableEq, Repr

/-! ## The Carousel (chapter 6) -/

/-- What occupies a core group or a copy engine. -/
inductive Holder where
  | idle
  | job (q idx : Nat) (secure : Bool)      -- the context running descriptor idx of ring q
  | test (forced : Bool)                   -- a test slice (R208)
  deriving DecidableEq, Repr

/-- One core group or copy engine. -/
structure EngineX where
  holder : Holder := .idle
  since : Nat := 0                         -- up to when the holder's time is charged
  spare : Bool := false                    -- the holder runs on spare time (R188)
  quantum : Nat := 0                       -- when the quantum began (R192)
  incoming : Option Holder := none         -- a preemption in progress: what comes next (R203)
  requestAt : Nat := 0                     -- when step 1 of the preemption began
  atPoint : Bool := false                  -- the outgoing work has reached its point
  fullSave : Bool := false                 -- preempted inside a tile (R204)
  sliceRounds : Nat := 0                   -- rounds since the group's last slice (R209)
  outOfService : Bool := false             -- R350
  deriving DecidableEq, Repr

/-- Accounts of one instance on one engine kind in this round (R185 to R189). -/
structure Account where
  entitled : Nat := 0                      -- all in core-ns or engine-ns
  used : Nat := 0                          -- charged this round, spare time included
  spare : Nat := 0                         -- spare time among it
  debt : Nat := 0
  limit : Bool := false
  deriving DecidableEq, Repr

/-- The Carousel beside its registers and accounts. -/
structure CarX where
  deficitG : Nat := 0                      -- budget overrun deducted from the next spare time (R189), core-ns
  deficitC : Nat := 0
  cutC : Nat := 0                          -- CUT of the copy engines (R191)
  factorGC : Nat := 1000                   -- copy factors of class G and P (R191)
  factorPC : Nat := 1000
  deriving DecidableEq, Repr

/-! ## Layers and heads (chapters 7 and 8) -/

/-- A pending layer move (R219). -/
structure Move where
  target : Nat                             -- head 0 to 7, or 0xF to unassign
  left : Bool := false
  leftAt : Option Nat := none              -- when the layer left its head; a latch of that moment is not after it (R219)
  by_ : Option (Nat × Nat) := none         -- the MOVE commit: ring and descriptor index; none: the manager
  deriving DecidableEq, Repr

/-- What a layer holds beside its registers. -/
structure LayerX where
  commit : Option (Nat × Nat) := none      -- the armed commit: ring and descriptor index
  move : Option Move := none
  nextMove : Option Move := none           -- a request made after the leave (R219)
  aborted : List (Nat × Nat) := []         -- MOVE commits that complete ABORTED at the join (R254)
  disable : Bool := false                  -- to be disabled at the head's next latch (R174)
  planTaken : Bool := true                 -- the layer has taken its part of the apply in progress (R72)
  substituted : Bool := false              -- blended as its substitute (R405)
  protection : Option (Nat × List Nat) := none  -- protected: the window's SUBST and the plane addresses (R405)
  skip : Bool := false                     -- the manager's ARM waits for the latch after the next (R251)
  deriving DecidableEq, Repr

/-- A layer in the state of a frame. -/
structure SnapLayer where
  layer : Nat := 0
  owner : Nat := 0xFF
  subst : Option Nat := none               -- blended as its substitute, of this colour (R405)
  cap : Option (Nat × Nat) := none         -- capture-fed: port and buffer (R220)
  deriving DecidableEq, Repr

/-- The state a frame shows: the active register fields of the head and of the layers on it, and the content mode. -/
structure Snap where
  regs : KMap Nat := []
  layers : List SnapLayer := []
  content : Nat := 0
  deriving DecidableEq, Repr

/-- A composed line in the line store. -/
structure LineRec where
  pixels : List Nat := []                  -- R [29:20], G [19:10], B [9:0]
  spec : Bool := false                     -- composed before the latch of its frame (R248)
  used : List Nat := []                    -- layers whose shadow it used; 64 stands for the head, 255 for what has changed since
  refusedBy : List (Nat × Nat) := []       -- layers whose fetch was refused on the line, and where (R20)
  skipped : List (Nat × Nat) := []         -- layers and the bytes not fetched for them (R235)
  fetched : List Nat := []                 -- layers of which something was fetched
  excluded : Bool := false                 -- a layer was excluded from a guarded region (R236)
  content : Nat := 0                       -- the content mode it was composed in
  deriving DecidableEq, Repr

/-- The content a head's host-lost timer has reached (R277, R278). -/
inductive HostMode where
  | live | hold | fallback | blank
  deriving DecidableEq, Repr

/-- What a head holds beside its registers. -/
structure HeadX where
  frameStart : Nat := 0                    -- time of line 0 of the frame on the glass
  latched : Bool := false                  -- the latch of this frame has occurred
  glassLatch : Nat := 0                    -- when the frame on the glass was latched (R179)
  locking : Bool := false                  -- leaving OFF: waits for the pixel PLL (R263)
  settled : Bool := false                  -- has reached ACTIVE or NO_SINK since the apply began (R12)
  composed : Nat := 0                      -- lines of the next frame whose composition has started
  sentLines : Nat := 0                     -- lines of this frame that have become due
  skip : Bool := false                     -- the manager's ARM waits for the latch after the next (R251)
  store : KMap LineRec := []               -- composed lines, by 8192 × frame + line
  lastPixel : Option Nat := none           -- the last pixel sent (R268)
  commitBg : Option (Nat × Nat) := none    -- armed HEAD commit
  commitGamma : Option (Nat × Nat) := none -- armed GAMMA commit
  hostMode : HostMode := .live
  holdEnd : Option Nat := none             -- when the hold expires
  holdOver : Bool := false                 -- the hold has expired; the next latch acts on it
  faulted : Bool := false                  -- takes part in the Safety Net's stop (R281)
  structBlank : Bool := false              -- STRUCTURE_BLANK (R73)
  planTaken : Bool := true                 -- the head has taken its part of the apply in progress (R72)
  next : Snap := {}                        -- the state the last latch applied, for the next frame
  cur : Snap := {}                         -- the state of the frame on the glass (R26, R27, R250)
  changed : Bool := false                  -- the last latch applied a change
  quiet : Nat := 0                         -- frames in a row that met the conditions of R293
  psrNext : Nat × Nat := (0, 0)            -- rows of a selective update that the next frame carries (R294)
  psrCur : Nat × Nat := (0, 0)             -- rows that this frame carries in SELF_REFRESH
  lockFrames : Nat := 0                    -- frames in a row within 1 line (R272)
  refTime : Option Nat := none             -- time of the last reference event
  refPeriod : Nat := 0                     -- time between the last two reference events
  sync : Nat := 0                          -- HEAD_SYNC in force since the last line 0 (R270)
  uncarried : Bool := false                -- SELF_REFRESH ended during this frame, which the port does not carry (R294)
  deriving DecidableEq, Repr

/-- What a sink reports (R285, R288, R293). -/
structure Sink where
  maxLanes : Nat := 4
  maxRate : Nat := 4                       -- LINK_RATE code
  dsc : Bool := false
  dscCounts : Nat := 15                    -- slice counts 1, 2, 4, 8 as bits 0 to 3
  psr : Nat := 0                           -- 0 none, 1 PSR, 2 PSR2
  deriving DecidableEq, Repr

/-- What an output port holds beside its registers.
Rests on log entry 119 (DESIGN CHOICE), log entry 121 (DESIGN CHOICE). -/
structure OutX where
  hpdIn : Bool := false                    -- DP_HPD_h after debouncing
  sink : Sink := {}
  search : List (Nat × Nat × Bool) := []   -- pairs still to try: rate code, lanes, compressed
  current : Option (Nat × Nat × Bool) := none
  retryAt : Option Nat := none             -- TRAIN_FAIL search again (R286)
  auxWaiting : Bool := false               -- a request made during TRAINING waits (R289)
  auxRetries : Nat := 0                    -- DEFER replies taken
  dsiWait : Bool := false                  -- between exit_sleep_mode and the stream (R296)
  dsiFrame : Bool := false                 -- set_display_on follows the first frame
  sent : List Nat := []                    -- pixels of the line last sent on the pins
  dcs : List Nat := []                     -- DCS commands the port itself has sent since it left OFF
  bpc : Nat := 2                           -- OUT_h_CFG[BPC] in force since the last training (R310)
  deriving DecidableEq, Repr

/-- What a capture port holds beside its registers. Rests on log entry 41 (DESIGN CHOICE). -/
structure CapX where
  writing : Nat := 0                       -- buffer the port writes
  glassBuf : Option Nat := none            -- buffer of the frame on the glass
  fresh : Bool := false                    -- the newest complete frame is not yet latched
  inFrame : Bool := false
  lines : Nat := 0
  frameNo : Nat := 0
  lastDone : Nat := 0                      -- when the last frame completed
  bufs : KMap (List Byte) := []            -- line bytes by 8192 × buffer + line
  deriving DecidableEq, Repr


/-- A CVU record (R490). -/
structure CvuRec where
  unit : Nat := 0
  owner : Nat := 0
  snoop : Nat := 0
  arg : Nat := 0
  width : Nat := 0
  flags : Nat := 0
  poly : Nat := 0
  init : Nat := 0
  xorout : Nat := 0
  ref : Nat := 0
  deriving DecidableEq, Repr

/-- A TOUCH port record (R458). -/
structure TouchRec where
  port : Nat := 0
  bus : Nat := 0
  head : Nat := 0
  flags : Nat := 0
  addr : Nat := 0
  owner : Nat := 0
  clkKhz : Nat := 0
  cmd : List Nat := []
  reportMax : Nat := 0
  lenOff : Nat := 0
  countOff : Nat := 0
  contactOff : Nat := 0
  contactSize : Nat := 0
  maxContacts : Nat := 0
  check : Nat := 0
  fId : Nat := 0
  fTip : Nat := 0
  fX : Nat := 0
  fY : Nat := 0
  fPress : Nat := 0
  fSeq : Nat := 0
  checkOff : Nat := 0
  staleMs : Nat := 0
  matrix : List Int := []
  deriving DecidableEq, Repr

/-- A haptic zone record (R470). -/
structure ZoneRec where
  zone : Nat := 0
  target : Nat := 0
  channel : Nat := 0
  x : Nat := 0
  y : Nat := 0
  w : Nat := 0
  h : Nat := 0
  slotDown : Nat := 0
  slotUp : Nat := 0
  deriving DecidableEq, Repr

/-- A HAPTIC channel record (R473). -/
structure HapRec where
  channel : Nat := 0
  owner : Nat := 0
  flags : Nat := 0
  odCycles : Nat := 0
  ratedMv : Nat := 0
  overdriveMv : Nat := 0
  bridgeMv : Nat := 0
  fNom : Nat := 0
  sweepPct : Nat := 0
  brakeMax : Nat := 0
  bemfRatedMv : Nat := 0
  rMin : Nat := 0
  rMax : Nat := 0
  iMaxMa : Nat := 0
  vsScale : Nat := 0
  isScale : Nat := 0
  deriving DecidableEq, Repr

/-- An effect slot (R474). -/
structure SlotRec where
  slot : Nat := 0
  priority : Nat := 0
  segments : Nat := 0
  flags : Nat := 0
  segs : List (Nat × Nat) := []            -- amplitude ‰, cycles
  deriving DecidableEq, Repr

/-- An audio node record (R428); PARAM as its 24 bytes. -/
structure NodeRec where
  node : Nat := 0
  typ : Nat := 0
  channels : Nat := 0
  owner : Nat := 0
  inputs : Nat := 0
  flags : Nat := 0
  param : List Byte := []
  deriving DecidableEq, Repr

/-- An audio edge (R429). -/
structure EdgeRec where
  src : Nat := 0
  dst : Nat := 0
  input : Nat := 0
  deriving DecidableEq, Repr

/-- A schedule entry (R430). -/
structure SchedRec where
  node : Nat := 0
  step : Nat := 0
  core : Nat := 0
  deriving DecidableEq, Repr

/-- A TDM/I2S port record (R431). -/
structure PortRec where
  port : Nat := 0
  format : Nat := 0
  role : Nat := 0
  family : Nat := 0
  rate : Nat := 0
  slots : Nat := 0
  slotBits : Nat := 0
  sampleBits : Nat := 0
  dir : Nat := 0
  deriving DecidableEq, Repr

/-- A chime clip (R432): its samples as the device copied them at apply. -/
structure ClipRec where
  frames : Nat := 0
  channels : Nat := 0
  priority : Nat := 0
  loop : Nat := 0
  samples : List Byte := []
  deriving DecidableEq, Repr

/-- The AUDIO section (R427). -/
structure AudioRec where
  mode : Nat := 0
  rate : Nat := 0
  period : Nat := 0
  xfade : Nat := 0
  hsEnable : Nat := 0
  legacyChime : Nat := 0
  nodes : List NodeRec := []
  edges : List EdgeRec := []
  sched : List SchedRec := []
  ports : List PortRec := []
  coefs : List (List Nat) := []            -- five binary32 values a section
  clips : List ClipRec := []
  deriving DecidableEq, Repr

/-- An applied (or validated) Ringplan: its image and the records of its sections (R44). -/
structure Plan where
  image : List Byte := []
  version : Nat := 0
  glob : GlobalRec := {}
  insts : List InstRec := []
  heads : List HeadRec := []
  layers : List LayerRec := []
  lineStore : List Nat := []               -- KiB of heads 0 to 7 (R51)
  guarded : List GuardRec := []
  caps : List CapRec := []
  power : PowerRec := {}
  safety : SafetyRec := {}
  fallback : List FallbackImg := []
  touch : List TouchRec := []
  zones : List ZoneRec := []
  haps : List HapRec := []
  slots : List SlotRec := []
  audio : Option AudioRec := none
  cvus : List CvuRec := []
  deriving DecidableEq, Repr

/-! ## DRAM controller (chapter 10) -/

/-- A request queued at a channel. -/
structure QReq where
  port : Nat
  urg : Nat
  cls : Nat
  inst : Nat
  secure : Bool
  addr : Nat
  write : Bool
  data : List Byte := []
  arrived : Nat := 0
  deferred : Bool := false                 -- counted in G_DEFERRED
  deriving DecidableEq, Repr

/-- A bank: its open row and its disturbance table (R373). -/
structure BankX where
  openRow : Option Nat := none
  table : List (Nat × Nat) := []           -- row, count; at most 32 entries, lowest numbered first
  deriving DecidableEq, Repr

/-- One channel beside its registers. -/
structure ChanX where
  queue : List QReq := []                  -- oldest first
  held : List QReq := []                   -- held back in Midway (R362)
  banks : KMap BankX := []                 -- by 16 × rank + bank
  rot0 : Nat := 0                          -- next bank of the refresh rotation, rank 0 and 1
  rot1 : Nat := 0
  force0 : Bool := false                   -- forcing down to LIMIT − 1 (R370, R371)
  force1 : Bool := false
  mitig : List (Nat × Nat × Nat) := []     -- mitigations due: rank, bank, row
  fx0 : Nat := 1                           -- rate factor of rank 0 and 1 (R369)
  fx1 : Nat := 1
  ecc : List (Nat × Bool) := []            -- cached ECC blocks by row key, dirty or not (R358), newest first
  draining : Bool := false                 -- a write batch runs (R366)
  hits : Nat := 0                          -- row hits that passed an older request (R363)
  idleSince : Nat := 0
  pollDue : Bool := false                  -- an MR4 poll has been issued and not answered
  probeEnd : Nat := 0
  deriving DecidableEq, Repr

/-- The controller beside its registers. -/
structure DramX where
  rows : Nat := 32768                      -- rows per bank of the fit (R354)
  poison : KMap Bool := []                 -- blocks with the poison bit set, by block number
  budgets : KMap Nat := []                 -- left this round: instance i, 64 class B, 65 page scrubs, 66 FW port
  recentring : List (Nat × Nat × Nat × Bool) := []  -- probes left in the pass: channel, rank, lane, write
  deriving DecidableEq, Repr

/-! ## Secure world (chapter 11) -/

/-- A grant window (R403). -/
structure GrantWin where
  first : Nat := 0
  pages : Nat := 0                         -- 0: the window is not set
  inst : Nat := 0
  rd : Bool := false
  wr : Bool := false
  compose : Bool := false
  save : Bool := false
  hdcp : Nat := 0
  subst : Nat := 0
  deriving DecidableEq, Repr

/-- A call in progress at a call block (R408). -/
structure CallX where
  service : Nat := 0
  batch : List (Nat × Nat) := []           -- entries the batch will set: page, entry
  pins : Bool := false                     -- some of its pages are pinned (PENDING_PIN)
  since : Nat := 0
  deriving DecidableEq, Repr

/-- A page on its way to being free (R402). -/
structure Release where
  page : Nat
  scrub : Bool
  cause : Nat                              -- instance + 1 of a reset, 65 a hang, 0 a call
  deriving DecidableEq, Repr

/-- What the secure world holds beside its registers. Rests on log entry 9 (DESIGN CHOICE). -/
structure SecX where
  windows : KMap GrantWin := []            -- 0 to 31
  calls : KMap CallX := []                 -- 0 manager, 1 subordinate, 2 + i instance i
  releases : List Release := []
  certOpens : Nat := 0                     -- OPENS of the certificate in force
  heldReqs : List (Nat × Nat) := []        -- deferred requests: 0 a BLW apply, 1 sleep entry
  heartbeat : Nat := 0                     -- when it last arrived
  wdMs : Nat := 100                        -- WD_MS (R413)
  words : KMap (Option Nat) := []          -- words of the POT_ frame that have been written
  deriving DecidableEq, Repr

/-! ## Audio (chapter 12) -/

/-- A host buffer queued for a stream. -/
structure AudBuf where
  q : Nat
  idx : Nat
  fmt : Nat
  dram : Bool
  last : Bool                              -- END
  frames : Nat
  addr : Nat
  pos : Nat := 0                           -- frames used
  xrun : Nat := 0                          -- frames lost before it (R441)
  bad : Option Nat := none                 -- address of a read that failed (R127)
  data : List Byte := []                   -- host data fetched, or recorded bytes to write
  deriving DecidableEq, Repr

/-- A host stream. -/
structure StreamX where
  queue : List AudBuf := []
  silence : Nat := 0                       -- frames lost since the last buffer (R441)
  deriving DecidableEq, Repr

/-- A clip triggered on a chime player. -/
structure ClipRun where
  clip : Nat
  q : Nat
  idx : Nat
  pos : Nat := 0
  deriving DecidableEq, Repr

/-- A chime player and its mix, by holder instance. -/
structure ChimeX where
  playing : Option ClipRun := none
  starting : Option ClipRun := none        -- starts at the next boundary
  waiting : Option ClipRun := none
  fade : Nat := 0                          -- ticks of the 0.5 ms fade left
  duck : Nat := 0                          -- reduction in force, in parts of DUCK_DB by the product of both times in ticks
  fault : Bool := false                    -- an overrun tick or a stopped port clock in this period
  flip : Option Bool := none               -- injected 0x10: copy B's next word; its SUPPRESS_STOP (R508)
  injected : Option Bool := none           -- the injection has met a word of this period
  deriving DecidableEq, Repr

/-- Calliope beside its registers. -/
structure AudX where
  out : KMap (List Nat) := []              -- node outputs of the last tick, a binary32 value a channel (R434); 512 + n: sink n of MODE 1
  past : KMap (List (List Nat)) := []      -- inputs of DELAY nodes, newest first
  xfadeNodes : List Nat := []              -- endpoints that crossfade (R437)
  fits : Bool := true                      -- the compiled program keeps R423
  compiledAt : Nat := 0
  ramps : KMap Nat := []                   -- ticks left of a node's ramp (R434, R453)
  deriving DecidableEq, Repr

/-! ## Touch and haptics (chapter 13) -/

/-- A contact that is down. -/
structure Contact where
  id : Nat
  target : Nat := 0                        -- layer k, or 0x80 + region
  dead : Bool := false                     -- cancelled or discarded: produces no records until UP
  zone : Option Nat := none                -- place in the zone table of its DOWN
  hx : Int := 0
  hy : Int := 0
  deriving DecidableEq, Repr

/-- A touch port. Rests on log entry 119 (DESIGN CHOICE). -/
structure TouchX where
  contacts : List Contact := []            -- ascending identifier
  seq : Option Nat := none
  badRun : Nat := 0
  lastGood : Nat := 0
  attn : Nat := 0
  failNext : Nat := 0                      -- injected check failures left (R508)
  failQuiet : Bool := false                -- the injection's SUPPRESS_STOP
  afterFault : Bool := false               -- no good report since a sequencing fault (R462)
  deriving DecidableEq, Repr

/-- A haptic channel. Rests on log entry 119 (DESIGN CHOICE). -/
structure HapX where
  seg : Nat := 0
  half : Nat := 0                          -- half-cycles of e in this segment
  odHalf : Nat := 0                        -- overdrive half-cycles left
  brakeHalf : Nat := 0                     -- half-cycles of braking run
  polarity : Bool := false
  amp : Nat := 0                           -- amplitude of e, mV
  driveMv : Int := 0                       -- drive voltage
  enable : Bool := false                   -- HAP_a_EN
  waiting : Option Nat := none             -- slot
  cut : Option Nat := none                 -- slot that starts at the brake cut
  ending : Bool := false                   -- the effect ends with this brake
  calPending : Bool := false               -- CALIBRATE waits for READY
  recalibrate : Bool := false              -- the record changed; calibrates at the boundary
  openFor : Nat := 0                       -- samples in a row of a condition
  stallFor : Nat := 0
  cycles : Nat := 0                        -- half-cycles driven since the effect began
  bemf : Int := 0                          -- the back-EMF estimate e of the last sample, mV (R472)
  recCal : Bool := false                   -- the calibration of a recovery has passed (R481)
  injected : Option Bool := none           -- the next probe sees an open actuator; its SUPPRESS_STOP (R508)
  deriving DecidableEq, Repr

/-! ## Safety Net (chapter 14) -/

/-- An EXPECT entry (R496). -/
structure Expect where
  frame : Nat
  value : Nat
  q : Nat
  idx : Nat
  deriving DecidableEq, Repr

/-- A check-value unit beside its registers. -/
structure CvuX where
  v : Nat := 0                             -- running V and P
  p : Nat := 0
  running : Bool := false                  -- an interval is in progress
  expects : List Expect := []              -- in frame order, at most four
  lastSeq : Option Nat := none
  lastAt : Nat := 0                        -- time of the last comparison
  invert : Option Bool := none             -- injected 0x0A; its SUPPRESS_STOP
  disagree : Option Bool := none           -- injected 0x0E
  deriving DecidableEq, Repr

/-- The Safety Net beside its registers. -/
structure SnX where
  persist : List (Nat × Nat) := []         -- conditions that last: source, index
  armed : List (Nat × Nat × Nat) := []     -- injections waiting: source, index, flags (bit 0 SINGLE, bit 1 SUPPRESS)
  injAddr : Nat := 0
  hold : Bool := true                      -- Piccolo holds FAULT_N low (R551)
  aon : Bool := false                      -- asserted from the always-on domain (R531 to R533)
  outside : Bool := false                  -- outside recommended conditions (R488)
  deriving DecidableEq, Repr

/-! ## Power (chapter 15) -/

/-- A log record (R572) without its number. -/
structure LogRec where
  kind : Nat
  source : Nat := 0
  index : Nat := 0xFFFF
  time : Nat := 0
  rep : Nat := 0
  flags : Nat := 0
  data : List Byte := []
  deriving DecidableEq, Repr

/-- Piccolo and the Bellows beside their registers. -/
structure PwrX where
  off : Bool := false                      -- VDD_AON below its reset threshold (R588)
  enables : Nat := 0                       -- PWR_EN_n driven high
  pgood : Nat := 0                         -- PGOOD_n levels
  target : Option Nat := none              -- sleep entry requested: 2 STANDBY, 3 DEEP STANDBY
  parked : Nat := 0                        -- blocks 1 to n have parked
  inARow : Nat := 0
  retryAt : Nat := 0                       -- end of the back-off (R527)
  heldWake : Nat := 0                      -- wake source after the point of no return
  waking : Nat := 0                        -- step of R524 in progress, 0 none
  wakeFrom : Nat := 5                      -- the state being left; 5: OFF
  sequencing : Bool := false               -- rails are being raised (R515)
  railWait : Bool := false                 -- 10 ms before a retry of the rails (R532)
  bootFail : Option Nat := none            -- a rail that failed in a cold start, for the next start (R556)
  since : Nat := 0                         -- when the state in force was entered
  oscTries : Nat := 0
  railTries : Nat := 0
  lastFail : Bool := false                 -- the last wake failed (R532)
  warn : Bool := false                     -- PWR_WARN_N low
  aonLow : Bool := false                   -- VDD_AON below the inhibit threshold
  inhibitEnding : Bool := false            -- the 10 ms timer runs
  aonLog : List LogRec := []               -- the always-on log
  poweredMs : Nat := 0                     -- time in ON and DOZE (R544)
  planMs : Nat := 0                        -- powered time at the last re-plan
  gGfx : Nat := 2                          -- guardbands kept in the always-on log, in 5 mV (R546)
  gCore : Nat := 2
  thermal : Nat := 4                       -- thermal ceiling
  coolRounds : Nat := 0
  replicaFail : Nat := 0                   -- rounds in a row with low slack (R545)
  ageCeiling : Nat := 4                    -- shader ceiling of R545
  safeRounds : Nat := 0                    -- rounds of the safe setting left (R540)
  trips : List Nat := []                   -- sensors above T_TRIP
  nextPoint : Nat := 0                     -- decision for the next round: point, budgets, boost
  nextGfx : Nat := 1000
  nextCpy : Nat := 1000
  nextBoost : Bool := false
  raising : Bool := false                  -- the decision raises a voltage
  confirmed : Bool := true                 -- the regulators have confirmed the targets
  boostAt : KMap Nat := []                 -- round of the last boost granted, by instance
  replanning : Bool := false
  rc32k : Bool := false                    -- switched to the RC oscillator while asleep (R547)
  deriving DecidableEq, Repr

/-! ## Start-up, pushes and stores (chapters 2 and 16) -/

/-- Fused values (R43, R65, R113, R416, R419, R554). Rests on log entry 6 (DESIGN CHOICE). -/
structure Fuses where
  deviceId : Nat := 0
  grade : Nat := 1                         -- DEV_ID[GRADE]: 1 grade E, 2 grade C (R111)
  keys : List Nat := [0]                   -- enrolled and not revoked
  fwFloor : Nat := 0
  rplFloor : Nat := 0
  debugCounter : Nat := 0
  laneMode : Nat := 0
  pointMv : List Nat := [590, 670, 750, 840, 940]  -- VDD_GFX of the points without guardband (R534)
  coreMv : Nat := 0                        -- VDD_CORE without guardband
  gfxSens : Nat := 0                       -- S of each domain, mV per 1 % (R544)
  coreSens : Nat := 0
  deriving DecidableEq, Repr

/-- What an operation of the Ringplan block or of the firmware push is waiting for. -/
inductive PushPhase where
  | idle | dma | check | applying | storing (step : Nat)
  deriving DecidableEq, Repr

/-- An operation of the Ringplan block or of the firmware push (R70, R554). -/
structure PushX where
  phase : PushPhase := .idle
  op : Nat := 0
  image : List Byte := []
  plan : Option Plan := none
  reason : Nat := 0
  deriving DecidableEq, Repr

/-- The running firmware bundle and the boot. -/
structure BootX where
  fw : List Byte := []                     -- the running bundle; empty while the firmware runs from ROM
  rmDown : Bool := false                   -- the Ringmaster restarts (R37)
  parts : Nat := 0                         -- parts of an apply not yet taken: bits 0 to 7 heads, 8 the round,
                                           -- 9 the audio period, 16 + t touch ports, 24 + a haptic channels (R72)
  taking : Option Plan := none             -- the plan whose parts are being taken
  blanking : Nat := 0                      -- heads that blank before they take their part (R73)
  retained : Option Plan := none           -- kept in segment 31 over DEEP STANDBY (R521)
  staged : List LogRec := []
  deriving DecidableEq, Repr

/-! ## Log, Tableau, Barker (chapter 17) -/

/-- The next flash work of the event log; LOG_STATUS[BUSY] shows whether it runs. -/
inductive LogPhase where
  | idle | body | mark | erase (sector : Nat)
  deriving DecidableEq, Repr

/-- The event log beside its registers. -/
structure LogX where
  staged : List LogRec := []               -- oldest first, at most 256
  lost : Nat := 0
  phase : LogPhase := .idle
  cur : Option LogRec := none              -- the record being written
  sector : Nat := 0                        -- write position
  slot : Nat := 0
  opened : Bool := false                   -- the sector of the write position is erased and has its header
  ahead : Bool := false                    -- so is the next one
  nextSeq : Nat := 1
  sectorSeq : Nat := 0                     -- newest SECTOR_SEQ
  retired : List Nat := []
  deriving DecidableEq, Repr

/-- The reply of the last Barker command: its code (0 ok) and the values it reports (R577, R579).
Rests on log entry 119 (DESIGN CHOICE). -/
structure BrkReply where
  code : Nat := 0
  reason : Nat := 0
  words : List Nat := []
  deriving DecidableEq, Repr
/-! ## The whole block -/

/-- The state of the block. The first group is the register file; the rest is what the spec gives each unit
beside its registers. -/
structure State where
  /-- Commands waiting, first in, first out (the model's own field). -/
  pending : List Instr := []
  /-- Counter of free values taken (the model's own field, log entry 10). -/
  freeCtr : Nat := 0
  /-- The device timebase in nanoseconds, 64 bits (R8, R128). -/
  now : Nat := 0
  /-- Register fields by `fkey`; for RWB fields the shadow (R96). Unlisted: the reset value. -/
  regs : KMap Nat := []
  /-- Active values of RWB fields (R96). Unlisted: the reset value. -/
  act : KMap Nat := []
  /-- Wide values by slot address (R104). Unlisted: 0. -/
  wide : KMap Nat := []
  /-- When ARM was last set, by frame base (R98). -/
  armAt : KMap Nat := []
  /-- Bytes the device has written to host memory at port A and port B. -/
  hostA : List Host.Cell := []
  hostB : List Host.Cell := []
  /-- Device DRAM by device address (R356); unlisted bytes read zero (R378). -/
  dram : List Host.Cell := []
  /-- The xSPI flash by address; unlisted bytes are erased, 0xFF (R61, R571). -/
  flash : List Host.Cell := []
  /-- Page ownership entries by page number (R398); unlisted pages are free. -/
  pot : KMap Nat := []
  /-- References that pin pages: holder, first page, count (R398 PINNED). -/
  pins : List (Nat × Nat × Nat) := []
  /-- MSI-X messages sent, by 64 × function + vector; 0 manager, 1 subordinate, 2 + i instance i. -/
  msiSent : KMap Nat := []
  /-- Data of the last read completion returned to a requester, first byte first. -/
  readData : List Byte := []
  /-- The last configuration request was answered with RRS (R134). -/
  lastRrs : Bool := false
  plan : Option Plan := none
  /-- READY, FAULT_N (true: driven low), PCIE_WAKE_N (true: driven low), VSYNC_OUT. -/
  readyPin : Bool := false
  faultLow : Bool := true
  wakeLow : Bool := false
  vsyncOut : Bool := false
  fns : KMap FnCfg := []
  portA : PortX := {}
  portB : PortX := {}
  time : TimeX := {}
  /-- Reads that a wide-value mailbox has in hand, by function: 0 manager, 1 subordinate, 2 + i instance i, 66 Barker (R105, R580). -/
  mbx : KMap (Option Nat) := []
  rings : KMap RingX := []
  insts : KMap InstX := []
  fences : KMap Fence := []
  engines : KMap EngineX := []
  gfxAcc : KMap Account := []
  cpyAcc : KMap Account := []
  carx : CarX := {}
  layers : KMap LayerX := []
  heads : KMap HeadX := []
  outs : KMap OutX := []
  caps : KMap CapX := []
  chans : KMap ChanX := []
  dramx : DramX := {}
  sec : SecX := {}
  streams : KMap StreamX := []
  chimes : KMap ChimeX := []
  aud : AudX := {}
  tch : KMap TouchX := []
  hap : KMap HapX := []
  cvu : KMap CvuX := []
  sn : SnX := {}
  pwr : PwrX := {}
  fuses : Fuses := {}
  rpl : PushX := {}
  fwp : PushX := {}
  boot : BootX := {}
  /-- Tableau shadows by counter number, unlisted 0, and the generation they all carry (R564). -/
  shadows : KMap Nat := []
  shadowGen : Nat := 0
  tabAt : Nat := 0
  log : LogX := {}
  brk : BrkReply := {}
  deriving DecidableEq, Repr

/-- The block right after reset: every register field at its reset value (an empty list reads so), every
counter 0, the queue empty.
Rests on log entry 6 (DESIGN CHOICE), log entry 7 (DEDUCED), log entry 8 (DESIGN CHOICE), log entry 122 (DESIGN CHOICE). -/
def State.reset : State := {}

end Sys2Proof.Machine
end

