-- ==== Sys2Proof/Machine/Ops.lean ====
section
/-!
DEFINITION. The named operations over the state: register fields, wide values, the entries of each unit, free
values, time, page ownership and the memories.
-/
namespace Sys2Proof.Machine

/-! ## Registers (R3, R4, R96, R104) -/

/-- The value of a field of the frame at `a` (the shadow of an RWB field). -/
def State.rd (s : State) (a : Nat) (f : Fld) : Nat := KMap.get fieldReset s.regs (fkey (a + f.off) f.lo)

/-- The field set to a value, cut to its width. -/
def State.put (s : State) (a : Nat) (f : Fld) (v : Nat) : State :=
  { s with regs := KMap.set fieldReset s.regs (fkey (a + f.off) f.lo) (v % 2 ^ f.w) }

/-- The active value of an RWB field (R96). -/
def State.rda (s : State) (a : Nat) (f : Fld) : Nat := KMap.get fieldReset s.act (fkey (a + f.off) f.lo)

/-- The active value of an RWB field set. -/
def State.puta (s : State) (a : Nat) (f : Fld) (v : Nat) : State :=
  { s with act := KMap.set fieldReset s.act (fkey (a + f.off) f.lo) (v % 2 ^ f.w) }

/-- Shadow and active value set together (a Ringplan apply, R96). -/
def State.putBoth (s : State) (a : Nat) (f : Fld) (v : Nat) : State := (s.put a f v).puta a f v

/-- A field raised by one, modulo its width. -/
def State.inc (s : State) (a : Nat) (f : Fld) : State := s.put a f (s.rd a f + 1)

/-- A field raised by one, saturating. -/
def State.incSat (s : State) (a : Nat) (f : Fld) : State := s.put a f (min (s.rd a f + 1) (2 ^ f.w - 1))

/-- The wide value in the slot at address `a`. -/
def State.wideAt (s : State) (a : Nat) : Nat := KMap.get (fun _ => 0) s.wide a

/-- A wide value set. -/
def State.putWide (s : State) (a v : Nat) : State := { s with wide := KMap.set (fun _ => 0) s.wide a v }

/-- A 48-bit CNT counts (R563: modulo 2^48). -/
def State.count (s : State) (a n : Nat) : State := s.putWide a ((s.wideAt a + n) % 2 ^ 48)

/-- Every field, shadow and wide value of the addresses [lo, lo + n) back at reset (R103).
Rests on log entry 44 (DESIGN CHOICE). -/
def State.resetRange (s : State) (lo n : Nat) : State :=
  let out := fun (e : Nat × Nat) => decide (e.1 < lo * 32) || decide ((lo + n) * 32 ≤ e.1)
  { s with regs := s.regs.filter out, act := s.act.filter out
           wide := s.wide.filter fun e => decide (e.1 < lo) || decide (lo + n ≤ e.1)
           armAt := s.armAt.filter fun e => decide (e.1 < lo) || decide (lo + n ≤ e.1) }

/-- The registers of [lo, lo + n) without the wide values back at reset. -/
def State.resetRegs (s : State) (lo n : Nat) : State :=
  let out := fun (e : Nat × Nat) => decide (e.1 < lo * 32) || decide ((lo + n) * 32 ≤ e.1)
  { s with regs := s.regs.filter out, act := s.act.filter out
           armAt := s.armAt.filter fun e => decide (e.1 < lo) || decide (lo + n ≤ e.1) }

/-! ## Entries of the units -/

/-- The RingX entry `k`, its setter and its update. -/
def State.ring (s : State) (k : Nat) : RingX := KMap.get (fun _ => ({} : RingX)) s.rings k
def State.setRing (s : State) (k : Nat) (x : RingX) : State := { s with rings := KMap.set (fun _ => ({} : RingX)) s.rings k x }
def State.modRing (s : State) (k : Nat) (f : RingX → RingX) : State := s.setRing k (f (s.ring k))

/-- The InstX entry `k`, its setter and its update. -/
def State.inst (s : State) (k : Nat) : InstX := KMap.get (fun _ => ({} : InstX)) s.insts k
def State.setInst (s : State) (k : Nat) (x : InstX) : State := { s with insts := KMap.set (fun _ => ({} : InstX)) s.insts k x }
def State.modInst (s : State) (k : Nat) (f : InstX → InstX) : State := s.setInst k (f (s.inst k))

/-- The EngineX entry `k`, its setter and its update. -/
def State.engine (s : State) (k : Nat) : EngineX := KMap.get (fun _ => ({} : EngineX)) s.engines k
def State.setEngine (s : State) (k : Nat) (x : EngineX) : State := { s with engines := KMap.set (fun _ => ({} : EngineX)) s.engines k x }
def State.modEngine (s : State) (k : Nat) (f : EngineX → EngineX) : State := s.setEngine k (f (s.engine k))

/-- The LayerX entry `k`, its setter and its update. -/
def State.layer (s : State) (k : Nat) : LayerX := KMap.get (fun _ => ({} : LayerX)) s.layers k
def State.setLayer (s : State) (k : Nat) (x : LayerX) : State := { s with layers := KMap.set (fun _ => ({} : LayerX)) s.layers k x }
def State.modLayer (s : State) (k : Nat) (f : LayerX → LayerX) : State := s.setLayer k (f (s.layer k))

/-- The HeadX entry `k`, its setter and its update. -/
def State.head (s : State) (k : Nat) : HeadX := KMap.get (fun _ => ({} : HeadX)) s.heads k
def State.setHead (s : State) (k : Nat) (x : HeadX) : State := { s with heads := KMap.set (fun _ => ({} : HeadX)) s.heads k x }
def State.modHead (s : State) (k : Nat) (f : HeadX → HeadX) : State := s.setHead k (f (s.head k))

/-- The OutX entry `k`, its setter and its update. -/
def State.out (s : State) (k : Nat) : OutX := KMap.get (fun _ => ({} : OutX)) s.outs k
def State.setOut (s : State) (k : Nat) (x : OutX) : State := { s with outs := KMap.set (fun _ => ({} : OutX)) s.outs k x }
def State.modOut (s : State) (k : Nat) (f : OutX → OutX) : State := s.setOut k (f (s.out k))

/-- The CapX entry `k`, its setter and its update. -/
def State.cap (s : State) (k : Nat) : CapX := KMap.get (fun _ => ({} : CapX)) s.caps k
def State.setCap (s : State) (k : Nat) (x : CapX) : State := { s with caps := KMap.set (fun _ => ({} : CapX)) s.caps k x }
def State.modCap (s : State) (k : Nat) (f : CapX → CapX) : State := s.setCap k (f (s.cap k))

/-- The ChanX entry `k`, its setter and its update. -/
def State.chan (s : State) (k : Nat) : ChanX := KMap.get (fun _ => ({} : ChanX)) s.chans k
def State.setChan (s : State) (k : Nat) (x : ChanX) : State := { s with chans := KMap.set (fun _ => ({} : ChanX)) s.chans k x }
def State.modChan (s : State) (k : Nat) (f : ChanX → ChanX) : State := s.setChan k (f (s.chan k))

/-- The StreamX entry `k`, its setter and its update. -/
def State.stream (s : State) (k : Nat) : StreamX := KMap.get (fun _ => ({} : StreamX)) s.streams k
def State.setStream (s : State) (k : Nat) (x : StreamX) : State := { s with streams := KMap.set (fun _ => ({} : StreamX)) s.streams k x }
def State.modStream (s : State) (k : Nat) (f : StreamX → StreamX) : State := s.setStream k (f (s.stream k))

/-- The ChimeX entry `k`, its setter and its update. -/
def State.chimeOf (s : State) (k : Nat) : ChimeX := KMap.get (fun _ => ({} : ChimeX)) s.chimes k
def State.setChimeOf (s : State) (k : Nat) (x : ChimeX) : State := { s with chimes := KMap.set (fun _ => ({} : ChimeX)) s.chimes k x }
def State.modChimeOf (s : State) (k : Nat) (f : ChimeX → ChimeX) : State := s.setChimeOf k (f (s.chimeOf k))

/-- The TouchX entry `k`, its setter and its update. -/
def State.touch (s : State) (k : Nat) : TouchX := KMap.get (fun _ => ({} : TouchX)) s.tch k
def State.setTouch (s : State) (k : Nat) (x : TouchX) : State := { s with tch := KMap.set (fun _ => ({} : TouchX)) s.tch k x }
def State.modTouch (s : State) (k : Nat) (f : TouchX → TouchX) : State := s.setTouch k (f (s.touch k))

/-- The HapX entry `k`, its setter and its update. -/
def State.hapOf (s : State) (k : Nat) : HapX := KMap.get (fun _ => ({} : HapX)) s.hap k
def State.setHapOf (s : State) (k : Nat) (x : HapX) : State := { s with hap := KMap.set (fun _ => ({} : HapX)) s.hap k x }
def State.modHapOf (s : State) (k : Nat) (f : HapX → HapX) : State := s.setHapOf k (f (s.hapOf k))

/-- The CvuX entry `k`, its setter and its update. -/
def State.unit (s : State) (k : Nat) : CvuX := KMap.get (fun _ => ({} : CvuX)) s.cvu k
def State.setUnit (s : State) (k : Nat) (x : CvuX) : State := { s with cvu := KMap.set (fun _ => ({} : CvuX)) s.cvu k x }
def State.modUnit (s : State) (k : Nat) (f : CvuX → CvuX) : State := s.setUnit k (f (s.unit k))

/-- The FnCfg entry `k`, its setter and its update. -/
def State.fn (s : State) (k : Nat) : FnCfg := KMap.get (fun _ => ({} : FnCfg)) s.fns k
def State.setFn (s : State) (k : Nat) (x : FnCfg) : State := { s with fns := KMap.set (fun _ => ({} : FnCfg)) s.fns k x }
def State.modFn (s : State) (k : Nat) (f : FnCfg → FnCfg) : State := s.setFn k (f (s.fn k))

/-- A host port's entry and its setter. -/
def State.portX (s : State) : Port → PortX
  | .a => s.portA
  | .b => s.portB
def State.setPortX (s : State) (p : Port) (x : PortX) : State :=
  match p with
  | .a => { s with portA := x }
  | .b => { s with portB := x }

/-- The fence slot n of instance i (R163). -/
def State.fence (s : State) (i n : Nat) : Fence := KMap.get (fun _ => ({} : Fence)) s.fences (256 * i + n)
def State.setFence (s : State) (i n : Nat) (f : Fence) : State :=
  { s with fences := KMap.set (fun _ => ({} : Fence)) s.fences (256 * i + n) f }

/-- The account of instance i on the graphics engine or on the copy engines (R185). -/
def State.acct (s : State) (gfx : Bool) (i : Nat) : Account :=
  KMap.get (fun _ => ({} : Account)) (if gfx then s.gfxAcc else s.cpyAcc) i
def State.setAcct (s : State) (gfx : Bool) (i : Nat) (x : Account) : State :=
  if gfx then { s with gfxAcc := KMap.set (fun _ => ({} : Account)) s.gfxAcc i x }
  else { s with cpyAcc := KMap.set (fun _ => ({} : Account)) s.cpyAcc i x }

/-! ## Free values and time -/

/-- A free value of `w` bits (log entry 10), and the state with the counter advanced.
Rests on log entry 10 (DESIGN CHOICE). -/
def State.takeFree (s : State) (w : Nat) : Nat × State :=
  (Config.freeValue s.freeCtr % 2 ^ w, { s with freeCtr := s.freeCtr + 1 })

/-- The timebase has reached `t` (R128: it never steps backwards). Rests on log entry 4 (DESIGN CHOICE). -/
def State.reach (s : State) (t : Nat) : State := { s with now := max s.now t }

/-- One idle step: one count of the timebase (R8; log entry 2). Rests on log entry 2 (DESIGN CHOICE). -/
def idleTick (s : State) : State := { s with now := s.now + 1 }

/-- Apply `f` for each element of a list, first to last. -/
def State.each {α : Type} (s : State) (l : List α) (f : State → α → State) : State := l.foldl f s

/-! ## Frames -/

def pciB : Nat := FrameKind.pci.base
def rplB : Nat := FrameKind.rpl.base
def devB : Nat := FrameKind.dev.base
def carB : Nat := FrameKind.car.base
def blwB : Nat := FrameKind.blw.base
def picB : Nat := FrameKind.pic.base
def snB : Nat := FrameKind.sn.base
def gfxB : Nat := FrameKind.gfx.base
def dmcB : Nat := FrameKind.dmc.base
def calB : Nat := FrameKind.cal.base
def hapB : Nat := FrameKind.hap.base
def tchB : Nat := FrameKind.tch.base
def tabB : Nat := FrameKind.tab.base
def logB : Nat := FrameKind.log.base
def brkB : Nat := FrameKind.brk.base
def secB : Nat := FrameKind.sec.base
def coreB (n : Nat) : Nat := FrameKind.gfxCore.at n
def cpyB (n : Nat) : Nat := FrameKind.cpy.at n
def chB (c : Nat) : Nat := FrameKind.dmcCh.at c
def hapChB (a : Nat) : Nat := FrameKind.hapCh.at a
def tchPB (t : Nat) : Nat := FrameKind.tchPort.at t
def cvuB (u : Nat) : Nat := FrameKind.cvu.at u
def capB (c : Nat) : Nat := FrameKind.cap.at c
def outB (h : Nat) : Nat := FrameKind.out.at h

/-! ## The applied plan -/

/-- The records of the applied Ringplan; the empty plan while none is applied. -/
def State.p (s : State) : Plan := s.plan.getD {}

/-- Whether a Ringplan is applied. -/
def State.applied (s : State) : Bool := s.plan.isSome

def Plan.inst (p : Plan) (i : Nat) : Option InstRec := p.insts.find? fun r => decide (r.inst = i)
def Plan.head (p : Plan) (h : Nat) : HeadRec := (p.heads.find? fun r => decide (r.head = h)).getD {}
def Plan.layer (p : Plan) (k : Nat) : LayerRec :=
  (p.layers.find? fun r => decide (r.layer = k)).getD { layer := k, owner := 0xFF, head := 0xFF, capture := 0xFF }
def Plan.region (p : Plan) (r : Nat) : Option GuardRec := p.guarded.find? fun g => decide (g.region = r)
def Plan.cvuRec (p : Plan) (u : Nat) : Option CvuRec := p.cvus.find? fun c => decide (c.unit = u)
def Plan.capRec (p : Plan) (n : Nat) : Option CapRec := p.caps.find? fun c => decide (c.port = n)
def Plan.touchRec (p : Plan) (t : Nat) : Option TouchRec := p.touch.find? fun c => decide (c.port = t)
def Plan.hapRec (p : Plan) (a : Nat) : Option HapRec := p.haps.find? fun c => decide (c.channel = a)
def Plan.slotRec (p : Plan) (n : Nat) : Option SlotRec := p.slots.find? fun c => decide (c.slot = n)
def Plan.nodeRec (p : Plan) (n : Nat) : Option NodeRec := (p.audio.getD {}).nodes.find? fun c => decide (c.node = n)

/-- A head in use (R49). -/
def Plan.headUsed (p : Plan) (h : Nat) : Bool := decide ((p.head h).portType ≠ 0)

/-- The class of instance i, 0 if the plan does not define it. -/
def Plan.cls (p : Plan) (i : Nat) : Nat := ((p.inst i).map InstRec.cls).getD 0

/-- Whether the plan defines instance i. -/
def Plan.has (p : Plan) (i : Nat) : Bool := (p.inst i).isSome

/-- The number of ports (R113). -/
def State.ports (s : State) : Nat := s.fuses.laneMode + 1

/-- Functions by number: 0 the manager, 1 the subordinate physical function, 2 + i instance i. -/
def fnOfInst (i : Nat) : Nat := i + 2
def fnNum : FnId → Nat
  | .mgr => 0
  | .sub => 1
  | .vf i => i.val + 2

/-- The first ring of each instance and its record, in ascending order (R148): instances 0 to 63 and rings 0 to 255, as every plan
has them (R48). -/
def ringTable : Nat → List InstRec → List (Nat × InstRec)
  | _, [] => []
  | q, r :: rs => if r.inst < 64 ∧ q + r.rings ≤ 256 then (q, r) :: ringTable (q + r.rings) rs else ringTable (q + r.rings) rs

/-- The function that holds ring q, and its local slot (R148). -/
def State.ringOwner (s : State) (q : Nat) : Option (Nat × Nat) :=
  if q < 8 then some (0, q)
  else if s.ports = 2 ∧ q < 16 then some (1, q - 8)
  else ((ringTable (8 * s.ports) s.p.insts).find? fun e => decide (e.1 ≤ q) && decide (q < e.1 + e.2.rings)).map
    fun e => (fnOfInst e.2.inst, q - e.1)

/-- The ring at local slot n of a function. -/
def State.ringAt (s : State) (fn n : Nat) : Option Nat :=
  if fn = 0 then (if n < 8 then some n else none)
  else if fn = 1 then (if s.ports = 2 ∧ n < 8 then some (8 + n) else none)
  else ((ringTable (8 * s.ports) s.p.insts).find? fun e => decide (e.2.inst + 2 = fn) && decide (n < e.2.rings)).map
    fun e => e.1 + n

/-- The rings of a function, ascending. -/
def State.ringsOf (s : State) (fn : Nat) : List Nat := (List.range 16).filterMap (s.ringAt fn)

/-- The instance of a ring, if an instance holds it. -/
def State.ringInst (s : State) (q : Nat) : Option Nat :=
  match s.ringOwner q with
  | some (fn, _) => if 2 ≤ fn then some (fn - 2) else none
  | none => none

/-- The INST_ frame of a function, the PCI_ frame standing for the manager. -/
def fnFrame (fn : Nat) : Nat := if fn = 0 then pciB else if fn = 1 then instBase 64 else instBase (fn - 2)

/-- The number of vectors of a function. -/
def State.vectors (s : State) (fn : Nat) : Nat := if fn ≤ 1 then 32 else ((s.p.inst (fn - 2)).map InstRec.vectors).getD 0

/-- The port of a function (R116). -/
def State.mgrPort (s : State) : Port := if s.rd pciB Reg.PCI_PORT_CFG_MANAGER_PORT = 1 then .b else .a
def otherPort : Port → Port
  | .a => .b
  | .b => .a
def State.fnPort (s : State) (fn : Nat) : Port :=
  if fn = 0 then s.mgrPort else if fn = 1 then otherPort s.mgrPort
  else if ((s.p.inst (fn - 2)).map InstRec.port).getD 0 = 1 then .b else .a

/-- The instances of a port, ascending. -/
def State.portInsts (s : State) (p : Port) : List Nat :=
  (s.p.insts.filter fun r => decide ((r.port = 1) = (p = .b))).map InstRec.inst

/-- The state of instance i (R172). -/
def State.instState (s : State) (i : Nat) : Nat := s.rd (instBase i) Reg.INST_STATUS_STATE
def absent : Nat := 0
def ready : Nat := 1
def stopping : Nat := 2
def quiesced : Nat := 3
def resetting : Nat := 4

/-! ## Sleep (R526) -/

/-- Blocks 1 to n have parked for a sleep entry, or the device sleeps. -/
def State.parkedTo (s : State) (n : Nat) : Bool :=
  let st := s.rd picB Reg.PIC_STATE_STATE
  let e := s.rd picB Reg.PIC_STATE_ENTRY
  decide (st = 2) || decide (st = 3) || decide (e = 2) || (decide (e = 1) && decide (n ≤ s.pwr.parked))

/-! ## Device DRAM and page ownership (R19, R355, R397 to R402) -/

/-- Who makes an access: the owner value its pages must have, the instance it is logged against, whether it is
the compositor's, whether it is a secure context's. -/
structure Who where
  owner : Nat
  inst : Option Nat := none
  compose : Bool := false
  secure : Bool := false
  deriving DecidableEq, Repr

def Who.fw : Who := { owner := 2 }
def Who.mgr : Who := { owner := 3 }
/-- The function `fn` itself. -/
def Who.fn (fn : Nat) : Who := if fn = 0 then { owner := 3 } else if fn = 1 then { owner := 4 } else { owner := fn + 14, inst := some (fn - 2) }

/-- Usable capacity in bytes (R355). -/
def State.usable (s : State) : Nat := s.rd dmcB Reg.DMC_USABLE_MIB * 2 ^ 20

/-- The ownership entry of a page (R398). -/
def State.page (s : State) (p : Nat) : Nat := KMap.get (fun _ => 0) s.pot p
def State.setPage (s : State) (p e : Nat) : State := { s with pot := KMap.set (fun _ => 0) s.pot p e }
def ownerOf (e : Nat) : Nat := bitsOf e 0 10
def pWritable (e : Nat) : Bool := bitSet e 10
def pCompose (e : Nat) : Bool := bitSet e 11
def pScrub (e : Nat) : Bool := bitSet e 12

/-- Whether an owner value is reserved (R19). -/
def ownerReserved (o : Nat) : Bool := (decide (5 ≤ o) && decide (o ≤ 15)) || decide (80 ≤ o)

/-- Whether an entry is corrupt (R400). -/
def entryBad (e : Nat) : Bool := decide (2 ^ 14 ≤ e) || ownerReserved (ownerOf e)

/-- A page is pinned while a head or engine reference covers it (R398). -/
def State.pinned (s : State) (p : Nat) : Bool := s.pins.any fun r => decide (r.2.1 ≤ p) && decide (p < r.2.1 + r.2.2)

/-- The base of the table (R397). -/
def State.potBase (s : State) : Nat := (s.usable - s.usable / 2048) / 65536 * 65536

/-- The entry the checker sees: the table's own pages belong to the secure world. -/
def State.entry (s : State) (p : Nat) : Nat := if s.potBase ≤ p * 4096 then 1 else s.page p

/-- A valid grant window of instance i with a right, containing page p (R403). -/
def State.windowed (s : State) (i p : Nat) (right : GrantWin → Bool) : Bool :=
  s.sec.windows.any fun w => decide (w.2.inst = i) && right w.2 && decide (w.2.first ≤ p) && decide (p < w.2.first + w.2.pages)

/-- The check of one page (R399, R400). -/
def State.pageOk (s : State) (w : Who) (write : Bool) (p : Nat) : Bool :=
  let e := s.entry p
  let own := decide (ownerOf e = w.owner)
  if entryBad e then false
  else if w.compose then
    (own && pCompose e && !write) || (!write && (match w.inst with | some i => s.windowed i p GrantWin.compose | none => false))
  else if w.secure then
    match w.inst with
    | some i => if write then s.windowed i p GrantWin.wr else own || s.windowed i p GrantWin.rd
    | none => false
  else own && (!write || pWritable e)

/-- The pages an access touches. -/
def pagesOf (a n : Nat) : List Nat := if n = 0 then [] else (List.range ((a + n - 1) / 4096 - a / 4096 + 1)).map (a / 4096 + ·)

/-- Whether an access may be made: inside usable capacity and every page permits it (R19, R317, R355). -/
def State.mayAccess (s : State) (w : Who) (write : Bool) (a n : Nat) : Bool :=
  decide (a + n ≤ s.usable) && (pagesOf a n).all (s.pageOk w write)

/-- What an unlisted byte of DRAM reads as: zero (R378; log entry 20). Rests on log entry 20 (DEDUCED). -/
def dramDefault : Nat → Byte := fun _ => 0

/-- Rests on log entry 20 (DEDUCED). -/
def State.dramBytes (s : State) (a n : Nat) : List Byte := KMap.readBytes dramDefault s.dram a n

/-- The 64-byte blocks an access touches. -/
def blocksOf (a n : Nat) : List Nat := if n = 0 then [] else (List.range ((a + n - 1) / 64 - a / 64 + 1)).map (a / 64 + ·)

def State.poisoned (s : State) (b : Nat) : Bool := KMap.get (fun _ => false) s.dramx.poison b
def State.setPoison (s : State) (b : Nat) (v : Bool) : State :=
  { s with dramx := { s.dramx with poison := KMap.set (fun _ => false) s.dramx.poison b v } }

/-- DRAM written without a check: whole blocks lose their poison bit, a block written in part keeps it (R385). -/
def State.dramWrite (s : State) (a : Nat) (bs : List Byte) : State :=
  let whole := (blocksOf a bs.length).filter fun b => decide (a ≤ b * 64) && decide (b * 64 + 64 ≤ a + bs.length)
  (s.each whole fun s b => s.setPoison b false) |> fun s => { s with dram := KMap.writeBytes dramDefault s.dram a bs }

/-- What a read gives. -/
inductive Got where
  | ok (bs : List Byte) | refused | poisoned
  deriving DecidableEq, Repr

/-- A checked read (R19, R384). -/
def State.dramGet (s : State) (w : Who) (a n : Nat) : Got :=
  if s.mayAccess w false a n then
    (if (blocksOf a n).any s.poisoned then .poisoned else .ok (s.dramBytes a n))
  else .refused

/-- A refused access is logged against its instance (R19). -/
def State.logRefused (s : State) (w : Who) : State :=
  match w.inst with
  | some i => s.count (instBase i + Reg.INST_REFUSED) 1
  | none => s

/-- A checked write: the new state, or none where it is refused. -/
def State.dramPut (s : State) (w : Who) (a : Nat) (bs : List Byte) : Option State :=
  if s.mayAccess w true a bs.length then some (s.dramWrite a bs) else none

/-! ## Host memory and the flash -/

/-- What an unlisted byte of a host's memory reads as; the block never reads it (log entry 22).
Rests on log entry 22 (DESIGN CHOICE). -/
def hostDefault : Nat → Byte := fun _ => 0

/-- The canonical form of a memory: addresses strictly rising, no cell equal to what an unlisted address reads as. -/
def Memory.wf (d : Nat → Byte) (m : List Host.Cell) : Bool := KMap.wf d m

/-- The device writes to the memory of a port's host; while the port is cut off the write is dropped (R135).
Rests on log entry 22 (DESIGN CHOICE), log entry 121 (DESIGN CHOICE). -/
def State.hostWrite (s : State) (p : Port) (a : Nat) (bs : List Byte) : State :=
  if (s.portX p).cutOff || (s.portX p).inL2 then s
  else match p with
    | .a => { s with hostA := KMap.writeBytes hostDefault s.hostA a bs }
    | .b => { s with hostB := KMap.writeBytes hostDefault s.hostB a bs }

/-- What an unlisted byte of the flash reads as: erased (log entry 21). Rests on log entry 21 (DESIGN CHOICE). -/
def flashDefault : Nat → Byte := fun _ => 0xFF

/-- Rests on log entry 21 (DESIGN CHOICE). -/
def State.flashBytes (s : State) (a n : Nat) : List Byte := KMap.readBytes flashDefault s.flash a n

/-- A program of the flash clears bits: each byte becomes its old value AND the new one. -/
def andBytes : List Byte → List Byte → List Byte
  | a :: as, b :: bs => (a &&& b) :: andBytes as bs
  | _, _ => []
def State.flashProgram (s : State) (a : Nat) (bs : List Byte) : State :=
  { s with flash := KMap.writeBytes flashDefault s.flash a (andBytes (s.flashBytes a bs.length) bs) }

/-- An erase sets every byte of [a, a + n) to 0xFF. -/
def State.flashErase (s : State) (a n : Nat) : State :=
  { s with flash := s.flash.filter fun e => decide (e.1 < a) || decide (a + n ≤ e.1) }

/-- A write to a memory that LOC names: 0 host memory through the function's port, 1 device DRAM (R165, R181). -/
def State.locWrite (s : State) (fn : Nat) (dram : Bool) (a : Nat) (bs : List Byte) : Option State :=
  if dram then s.dramPut (Who.fn fn) a bs else some (s.hostWrite (s.fnPort fn) a bs)

end Sys2Proof.Machine
end

