-- ==== Sys2Proof/Machine/Parts.lean ====
section
/-!
DEFINITION. Parts of a Ringplan apply (R72): what is still to be taken, and the end of the apply.
-/
namespace Sys2Proof.Machine

/-- The image whose part with this bit is still to be taken. -/
def State.partDue (s : State) (bit : Nat) : Option Plan := if bitSet s.boot.parts bit then s.boot.taking else none

/-- The records of the image in force changed. -/
def State.setPlan (s : State) (f : Plan → Plan) : State := { s with plan := s.plan.map f }

/-- With the last part the whole image is in force. -/
def State.partsLook (s : State) : State :=
  if s.boot.parts = 0 then
    match s.boot.taking with
    | some p => { s with plan := some p, boot := { s.boot with taking := none } }
    | none => s
  else s

/-- A part is taken. -/
def State.partTaken (s : State) (bit : Nat) : State :=
  State.partsLook { s with boot := { s.boot with parts := setBit s.boot.parts bit false } }

def roundPart : Nat := 8
def audioPart : Nat := 9
def touchPart (t : Nat) : Nat := 16 + t
def hapPart (a : Nat) : Nat := 24 + a

end Sys2Proof.Machine
end

