-- ==== Sys2Proof/Machine/Flags.lean ====
section
/-!
DEFINITION. Event and error flags and what they raise: the level of a flag and its enable (R609), the function a
frame belongs to (R608), the vectors (R170), MSI-X masking and messages (R124, R125).
-/
namespace Sys2Proof.Machine

/-! ## MSI-X (R124, R125) -/

/-- The MSI-X table and pending-bit array of a function. -/
def msixBase (fn : Nat) : Nat :=
  if fn = 0 then pciB + 0x2000 else if fn = 1 then winBase 64 + 0x3800 else winBase (fn - 2) + 0x3800
def pbaBase (fn : Nat) : Nat :=
  if fn = 0 then pciB + 0x3000 else if fn = 1 then winBase 64 + 0x3C00 else winBase (fn - 2) + 0x3C00

/-- Word k of table entry v: 0 and 1 the address, 2 the data, 3 vector control. Rests on log entry 23 (PRESUMED). -/
def State.msixWord (s : State) (fn v k : Nat) : Nat := s.rd (msixBase fn + 16 * v + 4 * k) Reg.MSIX_TABLE_WORD

/-- Whether vector v of a function has its pending bit set. -/
def State.vecPending (s : State) (fn v : Nat) : Bool := bitSet (s.rd (pbaBase fn + 4 * (v / 32)) Reg.MSIX_PBA_WORD) (v % 32)

def State.setVecPending (s : State) (fn v : Nat) (b : Bool) : State :=
  let a := pbaBase fn + 4 * (v / 32)
  s.put a Reg.MSIX_PBA_WORD (setBit (s.rd a Reg.MSIX_PBA_WORD) (v % 32) b)

/-- Whether a vector sends no message: its mask bit, the function's mask or MSI-X disabled (log entry 31), D3hot or L2, or
Bus Master Enable 0. Rests on log entry 23 (PRESUMED), log entry 31 (PRESUMED). -/
def State.vecMasked (s : State) (fn v : Nat) : Bool :=
  let c := s.fn fn
  bitSet (s.msixWord fn v 3) 0 || c.msixMaskAll || !c.msixEnable || c.d3hot || !c.busMaster || (s.portX (s.fnPort fn)).inL2

/-- The port of a function passes writes to its host. -/
def State.portOpen (s : State) (p : Port) : Bool := !(s.portX p).cutOff && !(s.portX p).inL2

/-- One message of vector v: the entry's data written to its address (R160 step 4). Rests on log entry 31 (PRESUMED). -/
def State.sendMessage (s : State) (fn v : Nat) : State :=
  if s.portOpen (s.fnPort fn) then
    let a := s.msixWord fn v 0 + 2 ^ 32 * s.msixWord fn v 1
    let s := s.hostWrite (s.fnPort fn) a (natLE 4 (s.msixWord fn v 2))
    { s with msiSent := KMap.set (fun _ => 0) s.msiSent (64 * fn + v) (KMap.get (fun _ => 0) s.msiSent (64 * fn + v) + 1) }
  else s

/-- An event on vector v: a message, or the pending bit while the vector is masked. -/
def State.raiseVec (s : State) (fn v : Nat) : State :=
  if v < s.vectors fn then (if s.vecMasked fn v then s.setVecPending fn v true else s.sendMessage fn v) else s

/-- Pending vectors that are no longer masked each send one message. Rests on log entry 57 (DESIGN CHOICE). -/
def State.flushVecs (s : State) (fn : Nat) : State :=
  s.each (List.range (s.vectors fn)) fun s v =>
    if s.vecPending fn v && !s.vecMasked fn v then (s.setVecPending fn v false).sendMessage fn v else s

/-- Manager vector 0 carries every block interrupt (R149). -/
def State.mgrIrq (s : State) : State := s.raiseVec 0 0

/-! ## Whose interrupt a frame raises (R170, R608) -/

/-- What raises: a block of the manager's window, the INST_ frame of function fn, or ring q. -/
inductive FrameOf where
  | block | inst (fn : Nat) | ring (q : Nat)
  deriving DecidableEq, Repr

def frameOf (a : Nat) : FrameOf :=
  match frameAt a with
  | some (.inst, n, _) => .inst (fnOfInst n)
  | some (.ring, q, _) => .ring q
  | some (.win, n, _) => .inst (if n = 64 then 1 else fnOfInst n)
  | _ => .block

/-- The base of the INST_ frame of a function that has one. -/
def fnInst (fn : Nat) : Nat := if fn = 1 then winBase 64 else instBase (fn - 2)

/-- The interrupt of an enabled event flag of a frame. A ring event raises the ring's vector at once and sets its
pending count to zero (R171). -/
def State.eventIrq (s : State) (a : Nat) (own mgr : Bool) : State :=
  match frameOf a with
  | .block => if own then s.mgrIrq else s
  | .inst fn =>
    let s := if own then s.raiseVec fn (s.rd (fnInst fn) Reg.INST_VEC_EVENT_VEC) else s
    if mgr then s.mgrIrq else s
  | .ring q =>
    if own then
      match s.ringOwner q with
      | some (fn, _) => (s.modRing q fun r => { r with pend := 0 }).raiseVec fn (s.rda (ringBase q) Reg.RING_CFG_VECTOR)
      | none => s
    else s

/-- The interrupt of an enabled ERR flag (R608). -/
def State.errIrq (s : State) (a : Nat) : State :=
  match frameOf a with
  | .block => s.mgrIrq
  | .inst fn => s.raiseVec fn (s.rd (fnInst fn) Reg.INST_VEC_ERR_VEC)
  | .ring q =>
    match s.ringOwner q with
    | some (0, _) => s.mgrIrq
    | some (fn, _) => s.raiseVec fn (s.rd (fnInst fn) Reg.INST_VEC_ERR_VEC)
    | none => s.mgrIrq

/-! ## Flags (R93, R609) -/

/-- The enable register of an event register: 4 bytes above it. -/
def ieFld (f : Fld) : Fld := { off := f.off + 4, lo := 0, w := 32 }

/-- Whether flag f of the frame at a is enabled, and for an instance whether the manager's enable is set. -/
def State.enabled (s : State) (a : Nat) (f : Fld) : Bool := bitSet (s.rd a (ieFld f)) f.lo
def State.mgrEnabled (s : State) (a : Nat) (f : Fld) : Bool :=
  match frameOf a with
  | .inst _ => bitSet (s.rd a Reg.INST_MGR_IE_IE) f.lo
  | _ => false

/-- Event flag f of the frame at a is set by hardware: the source asserts from 0 to 1 once (R609). -/
def State.raise (s : State) (a : Nat) (f : Fld) : State :=
  if s.rd a f = 1 then s
  else (s.put a f 1).eventIrq a (s.enabled a f) (s.mgrEnabled a f)

/-- Error flag f of ERR of the frame at a is set by hardware. -/
def State.raiseErr (s : State) (a : Nat) (f : Fld) : State :=
  if s.rd a f = 1 then s
  else
    let s := s.put a f 1
    if bitSet (s.rd a Reg.ERR_IE_IE) f.lo then s.errIrq a else s

/-- An ignored access at offset `off` of the frame at a (R82, R83): the first one since ACCESS_ERR was last 0 is
recorded. -/
def State.accessErr (s : State) (a off kind : Nat) : State :=
  if s.rd a Reg.ERR_ACCESS_ERR = 1 then s
  else ((s.put a Reg.ERR_ACCESS_KIND kind).put a Reg.ERR_ACCESS_OFFSET (off / 4)).raiseErr a Reg.ERR_ACCESS_ERR

/-- A refused apply of the frame at a (R99, R100): every reason and the offset of the register. -/
def State.refuseApply (s : State) (a reason off : Nat) : State :=
  let s := ((s.put a Reg.APPLY_REASON reason).put a Reg.APPLY_REFUSED_OFFSET (off / 4)).put a Reg.CTRL_ARM 0
  s.raiseErr a Reg.ERR_APPLY_REFUSED

/-- Hardware writes a status field and raises an event when it changes. -/
def State.putChange (s : State) (a : Nat) (f : Fld) (v : Nat) (ev : Fld) : State :=
  if s.rd a f = v then s else (s.put a f v).raise a ev

/-! ## Buffered frames (R96 to R99) -/

/-- The fields of a row: every member of an array. -/
def rowMembers (r : FRow) : List Fld :=
  if r.stride = 0 then [r.fld] else (List.range r.count).map fun n => { r.fld with off := r.fld.off + r.stride * n }

/-- The row of the field with a key. -/
def rowOfKey (key : Nat) : Option FRow :=
  match frameAt (key / 32) with
  | none => none
  | some (k, n, off) => (rowsOfFrame k n off).find? (FRow.hits off (key % 32))

/-- The length of the frame at a. -/
def frameLen (a : Nat) : Nat := ((frameAt a).map fun e => e.1.stride).getD 0

/-- The RWB fields of the frame at a that are listed in the shadows or in the active values; every other one reads its
reset value in both. -/
def State.rwbKeys (s : State) (a : Nat) : List Nat :=
  let here := fun (e : Nat × Nat) => decide (a * 32 ≤ e.1) && decide (e.1 < (a + frameLen a) * 32)
  (((s.regs.filter here) ++ (s.act.filter here)).map Prod.fst).filter fun k =>
    match rowOfKey k with
    | some r => decide (r.ty = .rwb)
    | none => false

/-- Active values equal to the shadows for the whole frame (R99), and the reverse (R97 REVERT). -/
def State.takeShadow (s : State) (a : Nat) : State :=
  { s with act := (s.rwbKeys a).foldl (fun m k => KMap.set fieldReset m k (KMap.get fieldReset s.regs k)) s.act }
def State.revertShadow (s : State) (a : Nat) : State :=
  { s with regs := (s.rwbKeys a).foldl (fun m k => KMap.set fieldReset m k (KMap.get fieldReset s.act k)) s.regs }

/-- A frame's apply that passed its checks: active from shadow, ARM clear, APPLIED up (R99). -/
def State.applyFrame (s : State) (a : Nat) : State :=
  ((s.takeShadow a).put a Reg.CTRL_ARM 0).inc a Reg.APPLY_APPLIED

/-- ARM set now (R97). -/
def State.armFrame (s : State) (a : Nat) : State :=
  let s := s.put a Reg.CTRL_ARM 1
  { s with armAt := KMap.set (fun _ => 0) s.armAt a s.now }

def State.armed (s : State) (a : Nat) : Bool := decide (s.rd a Reg.CTRL_ARM = 1)

/-- Whether a value is one of the listed encodings of a field (R5); an empty list stands for every value. -/
def encOk (l : List (Nat × Nat)) (v : Nat) : Bool := l.isEmpty || l.any fun r => decide (r.1 ≤ v) && decide (v ≤ r.2)

/-- The offset of the lowest register whose shadow holds a reserved encoding (R5, reason 0x02 of R101). -/
def State.reservedShadow (s : State) (a : Nat) : Option Nat :=
  match frameAt a with
  | none => none
  | some (k, n, off) =>
    let rows := (rowsOfFrame k n off).filter fun r => decide (r.ty = .rwb) && !r.legal.isEmpty
    let bad := rows.flatMap fun r => (rowMembers r).filter fun f => !encOk r.legal (s.rd a f)
    (bad.map Fld.off).min?

end Sys2Proof.Machine
end

