-- ==== Sys2Proof/Machine/Operands.lean ====
section
/-!
DEFINITION. Operand forms: the bytes and fields of a descriptor (R157), the fixed-point and list helpers that several
families read their operands with, and the cyclic redundancy checks of the spec (R42, R492).
-/
namespace Sys2Proof.Machine

/-! ## Descriptors (R157) -/

/-- Byte k of a descriptor, and n bytes at k, little-endian. -/
def Desc.b (d : Desc) (k : Nat) : Nat := d.words.toNat / 2 ^ (8 * k) % 256
def Desc.f (d : Desc) (k n : Nat) : Nat := d.words.toNat / 2 ^ (8 * k) % 2 ^ (8 * n)

def Desc.opcode (d : Desc) : Nat := d.b 0
def Desc.flags (d : Desc) : Nat := d.b 1
def Desc.signal (d : Desc) : Bool := bitSet d.flags 0
def Desc.wait (d : Desc) : Bool := bitSet d.flags 1
def Desc.deadline (d : Desc) : Bool := bitSet d.flags 2
def Desc.irq (d : Desc) : Bool := bitSet d.flags 3
def Desc.secure (d : Desc) : Bool := bitSet d.flags 4
def Desc.tag (d : Desc) : Nat := d.f 2 2
def Desc.signalSlot (d : Desc) : Nat := d.b 4
def Desc.waitSlot (d : Desc) : Nat := d.b 5
def Desc.dlHead (d : Desc) : Nat := d.b 6 % 8
def Desc.signalValue (d : Desc) : Nat := d.f 8 8
def Desc.waitValue (d : Desc) : Nat := d.f 16 8
def Desc.dlFrame (d : Desc) : Nat := d.f 24 4
/-- n bytes of the payload at offset k of the payload. -/
def Desc.pay (d : Desc) (k n : Nat) : Nat := d.f (32 + k) n

/-- Whether a descriptor has ended. -/
def Desc.isDone (d : Desc) : Bool := match d.phase with | .done _ _ => true | _ => false

/-! ## Bytes -/

/-- n bytes of a list at k, little-endian; bytes beyond the list read zero. -/
def leAt (l : List Byte) (k n : Nat) : Nat := leNat ((l.drop k).take n)
def byteAt (l : List Byte) (k : Nat) : Nat := ((l.drop k).head?.map BitVec.toNat).getD 0

/-- A number cut to [lo, hi]. -/
def clampI (lo hi v : Int) : Int := if v < lo then lo else if hi < v then hi else v

/-- Division of integers rounding half away from zero; of naturals rounding half up. -/
def roundDiv (n d : Nat) : Nat := if d = 0 then 0 else (2 * n + d) / (2 * d)

/-! ## Cyclic redundancy checks (R42, R492) -/

/-- The low w bits of v in reverse order. -/
def reflectBits : Nat → Nat → Nat
  | 0, _ => 0
  | w + 1, v => v % 2 * 2 ^ w + reflectBits w (v / 2)

/-- One bit step of the algorithm of R492. -/
def crcBit (w poly crc : Nat) : Nat :=
  if bitSet crc (w - 1) then (2 * crc % 2 ^ w) ^^^ (poly % 2 ^ w) else 2 * crc % 2 ^ w

/-- One byte entered. -/
def crcByte (w poly : Nat) (refin : Bool) (crc b : Nat) : Nat :=
  let b := if refin then reflectBits 8 b else b
  (List.range 8).foldl (fun c _ => crcBit w poly c) (crc ^^^ (b * 2 ^ (w - 8)))

/-- Bytes entered, one after another, into a running value. -/
def crcRun (w poly : Nat) (refin : Bool) (crc : Nat) (bs : List Byte) : Nat :=
  bs.foldl (fun c b => crcByte w poly refin c b.toNat) crc

/-- The value at the end of an interval. -/
def crcEnd (w : Nat) (refout : Bool) (xorout crc : Nat) : Nat :=
  (if refout then reflectBits w crc else crc) ^^^ (xorout % 2 ^ w)

/-- CRC-32C: polynomial 0x1EDC6F41, reflected, initial value and final inversion of all ones (R42). -/
def crc32c (bs : List Byte) : Nat := crcEnd 32 true 0xFFFFFFFF (crcRun 32 0x1EDC6F41 true 0xFFFFFFFF bs)

end Sys2Proof.Machine
end

