-- ==== Sys2Proof/Machine/Delivery.lean ====
section
/-!
DEFINITION. What rings deliver: indices and fill (R152, R153), moderation (R171), delivery records (R154, R166,
R167), completion records (R161), fence signals and mirrors (R163, R165), and the order of completions (R159, R160).
-/
namespace Sys2Proof.Machine

/-! ## Ring registers -/

def State.ringType (s : State) (q : Nat) : Nat := s.rda (ringBase q) Reg.RING_CFG_TYPE
def State.ringState (s : State) (q : Nat) : Nat := s.rd (ringBase q) Reg.RING_STATE_STATE
def disabled : Nat := 0
def running : Nat := 1
def stoppingRing : Nat := 2
def stopped : Nat := 3
def halted : Nat := 4

/-- Entries of the ring by its active size. -/
def State.entries (s : State) (q : Nat) : Nat := 2 ^ s.rda (ringBase q) Reg.RING_CFG_LOG2_ENTRIES
def State.hostIdx (s : State) (q : Nat) : Nat := s.rd (ringBase q) Reg.RING_HOST_IDX_INDEX
def State.devIdx (s : State) (q : Nat) : Nat := s.rd (ringBase q) Reg.RING_DEV_IDX_INDEX

/-- A ring type that carries descriptors, and one that carries records (R150). -/
def isSubmission (t : Nat) : Bool := decide (1 ≤ t) && decide (t ≤ 4)
def isDelivery (t : Nat) : Bool := decide (5 ≤ t) && decide (t ≤ 7)

/-- The fill for given indices (R152). -/
def fillOf (t host dev : Nat) : Nat := if isDelivery t then (dev + 2 ^ 32 - host) % 2 ^ 32 else (host + 2 ^ 32 - dev) % 2 ^ 32
def State.fill (s : State) (q : Nat) : Nat := fillOf (s.ringType q) (s.hostIdx q) (s.devIdx q)
def State.free (s : State) (q : Nat) : Nat := if s.ringState q = disabled then 0 else s.entries q - s.fill q

/-- RING_q_STATE[FREE] and [WAITING] as the indices and the descriptors stand (R152, R164). -/
def State.ringLook (s : State) (q : Nat) : State :=
  let w : Bool := match (s.ring q).fetched.find? (fun d => !d.isDone) with | some d => decide (d.phase = .waiting) | none => false
  (s.put (ringBase q) Reg.RING_STATE_FREE (s.free q)).put (ringBase q) Reg.RING_STATE_WAITING w.toNat

/-- LTR of the ports: 100 µs while any ring of the port is enabled, 3 ms otherwise (R140). -/
def State.ltrLook (s : State) : State :=
  s.each [Port.a, Port.b] fun s p =>
    let on := (List.range 256).any fun q => decide (s.ringState q ≠ disabled) &&
      (match s.ringOwner q with | some (fn, _) => decide (s.fnPort fn = p) | none => false)
    s.setPortX p { s.portX p with ltrUs := if on then 100 else 3000 }

/-- A commit ring binding ends when its ring is disabled (R246). -/
def State.unbind (s : State) (q : Nat) : State :=
  s.each (List.range 8) fun s h => if s.rd (headBase h) Reg.HEAD_CRING_RING = q then s.put (headBase h) Reg.HEAD_CRING_RING 0xFF else s

/-- A new state of the ring with its cause; ACTIVE_RINGS, LTR and a commit ring binding follow. -/
def State.setRingState (s : State) (q st cause : Nat) : State :=
  let s := ((s.put (ringBase q) Reg.RING_STATE_STATE st).put (ringBase q) Reg.RING_STATE_CAUSE cause)
  let s := match s.ringOwner q with
    | some (fn, n) =>
      if fn = 0 then s else
        s.put (fnInst fn) Reg.INST_STATUS_ACTIVE_RINGS
          (setBit (s.rd (fnInst fn) Reg.INST_STATUS_ACTIVE_RINGS) n (decide (st ≠ disabled)))
    | none => s
  let s := if st = disabled then s.unbind q else s
  (s.ringLook q).ltrLook

/-- A ring enters HALTED: the ring event and the owner's RING_HALT (R156, R180). -/
def State.haltRing (s : State) (q cause : Nat) (ev : Fld) : State :=
  let s := (s.setRingState q halted cause).raise (ringBase q) ev
  match s.ringOwner q with
  | some (fn, _) => if fn = 0 then s else s.raise (fnInst fn) Reg.INST_EVENT_RING_HALT
  | none => s

/-! ## Moderation (R171) -/

/-- Raise the ring's vector for its items: the count goes to zero and a one-shot ring is disarmed. -/
def State.itemIrq (s : State) (q : Nat) : State :=
  match s.ringOwner q with
  | some (fn, _) =>
    let one := decide (s.rda (ringBase q) Reg.RING_MOD_ONESHOT = 1)
    (s.modRing q fun r => { r with pend := 0, oneshotOff := one }).raiseVec fn (s.rda (ringBase q) Reg.RING_CFG_VECTOR)
  | none => s

/-- Test the conditions for an interrupt. -/
def State.checkItems (s : State) (q : Nat) (irq : Bool) : State :=
  let r := s.ring q
  let one := decide (s.rda (ringBase q) Reg.RING_MOD_ONESHOT = 1)
  let cnt := s.rda (ringBase q) Reg.RING_MOD_COUNT
  let tim := s.rda (ringBase q) Reg.RING_MOD_TIME_US
  let input := decide (s.ringType q = 5)
  if (one && r.oneshotOff) || r.pend = 0 then s
  else if irq || input || (decide (cnt ≠ 0) && decide (cnt ≤ r.pend)) || (decide (tim ≠ 0) && decide (r.firstPend + 1000 * tim ≤ s.now))
    then s.itemIrq q else s

/-- One item more is pending. -/
def State.onItem (s : State) (q : Nat) (irq : Bool) : State :=
  (s.modRing q fun r => { r with pend := r.pend + 1, firstPend := if r.pend = 0 then s.now else r.firstPend }).checkItems q irq

/-! ## Memory of a ring -/

/-- The phase bit for an index (R161): 1 when the bits above the ring size are even. -/
def phaseOf (entries idx : Nat) : Nat := if idx / entries % 2 = 0 then 1 else 0

def State.ringBaseAddr (s : State) (q : Nat) : Nat :=
  s.rda (ringBase q) Reg.RING_BASE_LO_ADDR_LO * 64 + s.rda (ringBase q) Reg.RING_BASE_HI_ADDR_HI * 2 ^ 32
def State.cplAddr (s : State) (q : Nat) : Nat :=
  s.rda (ringBase q) Reg.RING_CPL_LO_ADDR_LO * 16 + s.rda (ringBase q) Reg.RING_CPL_HI_ADDR_HI * 2 ^ 32

/-! ## Delivery records (R154, R166) -/

/-- A record dropped: counted, and remembered for RECORDS_LOST (R154). Rests on log entry 62 (DEDUCED). -/
def State.dropRecord (s : State) (q : Nat) : State :=
  ((s.count (ringBase q + Reg.RING_DROPS) 1).modRing q fun r => { r with lost := min (r.lost + 1) 0xFFFFFFFF }).raise
    (ringBase q) Reg.RING_EVENT_DROP

/-- Whether a ring can take a record: RUNNING, its instance READY (R173), an entry free. -/
def State.canDeliver (s : State) (q : Nat) : Bool :=
  decide (s.ringState q = running) && decide (0 < s.free q) &&
    (match s.ringInst q with | some i => decide (s.instState i = ready) | none => true)

/-- One record written at DEV_IDX, without moderation; none where its write is refused. -/
def State.writeRecord (s : State) (q kind : Nat) (payload : List Byte) (stamp : Option Nat := none) : Option State :=
  match s.ringOwner q with
  | none => none
  | some (fn, _) =>
    let idx := s.devIdx q
    let n := s.entries q
    let seq := (s.wideAt (ringBase q + Reg.RING_DONE) + 1) % 65536
    let bytes := natLE 1 kind ++ natLE 1 (phaseOf n idx) ++ natLE 2 seq ++ natLE 4 0 ++ natLE 8 (stamp.getD s.now) ++ (payload ++ natLE 48 0).take 48
    match s.locWrite fn (decide (s.rda (ringBase q) Reg.RING_BASE_LO_LOC = 1)) (s.ringBaseAddr q + 64 * (idx % n)) bytes with
    | none => none
    | some s => some (((s.put (ringBase q) Reg.RING_DEV_IDX_INDEX (idx + 1)).count (ringBase q + Reg.RING_DONE) 1).ringLook q)

/-- A record delivered on ring q: written, or dropped and counted; on an EVENT ring RECORDS_LOST goes first after drops.
`force` raises the vector whatever the moderation (a SAFETY record, R504). -/
def State.deliver (s : State) (q kind : Nat) (payload : List Byte) (force : Bool) (stamp : Option Nat := none) : State :=
  let who := Who.fn ((s.ringOwner q).map Prod.fst |>.getD 0)
  if !s.canDeliver q then s.dropRecord q
  else
    let s1 := if s.ringType q = 6 ∧ 0 < (s.ring q).lost then
        match s.writeRecord q 6 (natLE 4 (s.ring q).lost) with
        | some t => ((t.modRing q fun r => { r with lost := 0 }).onItem q false)
        | none => s
      else s
    if !s1.canDeliver q then s1.dropRecord q
    else match s1.writeRecord q kind payload stamp with
      | none => (s1.logRefused who).dropRecord q
      | some t => if force then (t.modRing q fun r => { r with pend := r.pend + 1 }).itemIrq q else t.onItem q false

/-- The ring on which a function's device events go: its lowest RUNNING EVENT ring, else its lowest EVENT ring (there
the record is dropped and counted). Rests on log entry 62 (DEDUCED). -/
def State.eventRing (s : State) (fn : Nat) : Option Nat :=
  let rs := (s.ringsOf fn).filter fun q => decide (s.ringType q = 6)
  match rs.find? fun q => decide (s.ringState q = running) with
  | some q => some q
  | none => rs.head?

/-- A device event for instance i (R167). -/
def State.eventRecord (s : State) (i kind : Nat) (payload : List Byte) (force : Bool := false) (stamp : Option Nat := none) : State :=
  match s.eventRing (fnOfInst i) with
  | some q => s.deliver q kind payload force stamp
  | none => s

/-- The INPUT ring of instance i: its lowest RUNNING one, else its lowest. Rests on log entry 62 (DEDUCED). -/
def State.inputRing (s : State) (i : Nat) : Option Nat :=
  let rs := (s.ringsOf (fnOfInst i)).filter fun q => decide (s.ringType q = 5)
  match rs.find? fun q => decide (s.ringState q = running) with
  | some q => some q
  | none => rs.head?

/-! ## Fences (R163, R165) -/

/-- The mirror of slot n written to the instance's fence table. -/
def State.mirrorFence (s : State) (i n : Nat) : State :=
  let b := instBase i
  let dram := decide (s.rd b Reg.INST_FENCE_LO_LOC = 1)
  let base := s.rd b Reg.INST_FENCE_LO_ADDR_LO * 4096 + s.rd b Reg.INST_FENCE_HI_ADDR_HI * 2 ^ 32
  let f := s.fence i n
  if !dram ∧ base = 0 then s
  else match s.locWrite (fnOfInst i) dram (base + 16 * n) (natLE 8 f.value ++ natLE 1 f.status ++ natLE 3 0 ++ natLE 4 f.detail) with
    | some t => t
    | none => s.logRefused (Who.fn (fnOfInst i))

/-- A signal: status and detail from the completion, the value never lower (R163). -/
def State.signalFence (s : State) (i n value status detail : Nat) : State :=
  let f := s.fence i n
  (s.setFence i n { value := max f.value value, status := status, detail := detail }).mirrorFence i n

/-! ## Completion (R159 to R162, R169) -/

def stOk : Nat := 0x00
def stOkLate : Nat := 0x01
def stAborted : Nat := 0x02
def stDropped : Nat := 0x03
def stBad : Nat := 0x04
def stNotPermitted : Nat := 0x05
def stFault : Nat := 0x06
def stSuperseded : Nat := 0x81

/-- DETAIL of a FAULT: bits [43:12] of the address (R162). -/
def faultDetail (addr : Nat) : Nat := addr / 4096 % 2 ^ 32

/-- A deadline miss of descriptor d of ring q: counted for the instance, the head and the Carousel, and reported (R169,
R202). Rests on log entry 63 (DESIGN CHOICE). -/
def State.missDeadline (s : State) (q : Nat) (d : Desc) : State :=
  match s.ringOwner q with
  | none => s
  | some (fn, slot) =>
    if fn < 2 then s else
    let i := fn - 2
    let s := (s.count (instBase i + Reg.INST_DL_MISS) 1).raise (instBase i) Reg.INST_EVENT_DL_MISS
    let s := (s.count (carB + Reg.CAR_HEAD_MISS + 16 * d.dlHead) 1).raise carB Reg.CAR_EVENT_DL_MISS
    s.eventRecord i 3 (natLE 1 slot ++ natLE 1 d.dlHead ++ natLE 2 d.tag ++ natLE 4 0 ++ natLE 8 (d.target.getD d.dlFrame))

/-- The completion record of a descriptor (R161). -/
def State.completionRecord (s : State) (q fn : Nat) (d : Desc) (status detail : Nat) : State :=
  if s.rda (ringBase q) Reg.RING_CFG_CPL_EN = 1 then
    let n := s.entries q
    let bytes := natLE 2 d.tag ++ natLE 1 status ++ natLE 1 (phaseOf n d.idx) ++ natLE 4 detail ++ natLE 8 s.now
    match s.locWrite fn (decide (s.rda (ringBase q) Reg.RING_CPL_LO_LOC = 1)) (s.cplAddr q + 16 * (d.idx % n)) bytes with
    | some t => t
    | none => s.logRefused (Who.fn fn)
  else s

/-- A descriptor completes: record, counters, fence and mirror, then the message (R160).
Rests on log entry 63 (DESIGN CHOICE). -/
def State.completeDesc (s : State) (q : Nat) (d : Desc) (status detail : Nat) : State :=
  match s.ringOwner q with
  | none => s
  | some (fn, _) =>
    let i := fn - 2
    let late := match d.passed with | some t => decide (status = stOk) && decide (t ≤ s.now) | none => false
    let status := if late then stOkLate else status
    let detail := if late then min ((s.now - d.passed.getD 0) / 1000) 0xFFFFFFFF else detail
    let s := s.completionRecord q fn d status detail
    let s := s.count (ringBase q + Reg.RING_DONE) 1
    let s := if status = stAborted then (s.count (ringBase q + Reg.RING_ABORTS) 1).count (instBase i + Reg.INST_ABORTED) 1 else s
    let s := if d.signal then s.signalFence i d.signalSlot d.signalValue status detail else s
    let s := s.onItem q d.irq
    let s := if status = stBad then s.raise (ringBase q) Reg.RING_EVENT_DESC_ERR else s
    if d.passed.isSome && !d.missed then s.missDeadline q d else s

/-- The instance that holds a ring is READY; the rings of a physical function always are. -/
def State.ringReady (s : State) (q : Nat) : Bool := match s.ringInst q with | some i => decide (s.instState i = ready) | none => true

/-- What follows when a ring holds no fetched descriptor and none is on its way: STOPPING becomes STOPPED, unless a quiesce of the
instance has begun and stops it with its own cause (R173), and a waiting DISABLE takes effect (R156). -/
def State.ringDrained (s : State) (q : Nat) : State :=
  if (s.ring q).fetching then s else
  let s := if s.ringState q = stoppingRing ∧ s.ringReady q then
      (s.setRingState q stopped 1).raise (ringBase q) Reg.RING_EVENT_STOPPED else s
  if (s.ring q).disablePending then (s.modRing q fun r => { r with disablePending := false }).setRingState q disabled 0 else s

/-- Completions in ring order: every ended descriptor that no earlier one still holds back (R159). -/
def State.flushList (s : State) (q : Nat) : List Desc → State
  | [] => (s.ringLook q).ringDrained q
  | d :: ds =>
    match d.phase with
    | .done st dt => ((s.modRing q fun r => { r with fetched := ds }).completeDesc q d st dt).flushList q ds
    | _ => s.ringLook q

def State.flushRing (s : State) (q : Nat) : State := if q < 256 then s.flushList q (s.ring q).fetched else s

/-- The fetched descriptor of ring q with index idx, and its update. -/
def State.desc (s : State) (q idx : Nat) : Option Desc := (s.ring q).fetched.find? fun d => decide (d.idx = idx)
def State.modDesc (s : State) (q idx : Nat) (f : Desc → Desc) : State :=
  s.modRing q fun r => { r with fetched := r.fetched.map fun d => if d.idx = idx then f d else d }

/-- A descriptor's work ends with a status: its completion waits for its turn. -/
def State.finish (s : State) (q idx status detail : Nat) : State :=
  (s.modDesc q idx fun d => { d with phase := .done status detail }).flushRing q

/-- The descriptors of a ring that may start: those before the first that waits on its fence (R164). -/
def State.startable (s : State) (q : Nat) : List Desc := (s.ring q).fetched.takeWhile fun d => decide (d.phase ≠ .waiting)

/-- The next descriptor of a ring to start, in fetch order (R159). -/
def State.nextReady (s : State) (q : Nat) : Option Desc := (s.startable q).find? fun d => decide (d.phase = .ready)

/-- The next descriptor of a ring, if it has the given type and opcode: what the row of that opcode runs. -/
def State.nextOp (s : State) (q t op : Nat) : Option Desc :=
  match s.nextReady q with
  | some d => if s.ringType q = t ∧ d.opcode = op then some d else none
  | none => none

/-- Whether every earlier descriptor of the ring has ended. -/
def State.isFirst (s : State) (q idx : Nat) : Bool :=
  match (s.ring q).fetched.find? (fun d => !d.isDone) with
  | some d => decide (d.idx = idx)
  | none => false

end Sys2Proof.Machine
end

