-- ==== Sys2Proof/Machine/SafetyOps.lean ====
section
/-!
DEFINITION. The Safety Net's reporting (R503 to R505, R510), the staging of log records (R574), and the outputs that
follow the state after every command: SN_STATUS, FAULT_N and READY (R12, R488, R503).
-/
namespace Sys2Proof.Machine

/-! ## Staging log records (R574) -/

/-- The queue of staged records is full. -/
def logFull (l : List LogRec) : Bool := decide (256 ≤ l.length)

/-- Two records are the same occurrence (R574). -/
def sameRec (a b : LogRec) : Bool :=
  decide (a.kind = b.kind) && decide (a.source = b.source) && decide (a.index = b.index) &&
    decide (a.flags % 2 = b.flags % 2) && decide (b.time ≤ a.time + 1000000000)

/-- The queue with one record more: merged into the newest, appended, or lost. -/
def stageInto (l : List LogRec) (r : LogRec) : Option (List LogRec) :=
  match l.getLast? with
  | some n => if sameRec n r then some (l.dropLast ++ [{ n with rep := min (n.rep + 1) 65535 }])
      else if logFull l then none else some (l ++ [r])
  | none => some [r]

/-- LOG_STATUS[STAGED] follows the queue. -/
def State.logLook (s : State) : State := s.put logB Reg.LOG_STATUS_STAGED (min s.log.staged.length 255)

/-- Once space returns, the number of records lost is staged. -/
def State.stageLost (s : State) : State :=
  if 0 < s.log.lost ∧ !logFull s.log.staged then
    let r : LogRec := { kind := 0x0A, time := s.now, data := natLE 4 s.log.lost }
    State.logLook { s with log := { s.log with staged := s.log.staged ++ [r], lost := 0 } }
  else s.logLook

/-- Sectors of the log in ascending order, wrapping, without the retired ones (R575). -/
def LogX.nextSector (x : LogX) : Nat :=
  (((List.range 1023).map fun n => (x.sector + 1 + n) % 1024).find? fun k => !x.retired.contains k).getD x.sector

/-- The log's next flash work starts while nothing holds it back (R526, R542, R575): erased sectors first, then the oldest staged
record. Rests on log entry 116 (DESIGN CHOICE). -/
def State.logKick (s : State) : State :=
  let x := s.log
  if s.rd logB Reg.LOG_STATUS_READY = 0 ∨ s.rd logB Reg.LOG_STATUS_BUSY = 1 ∨ s.rd picB Reg.PIC_STATE_INHIBIT = 1 ∨ s.parkedTo 9 then s
  else
    let run := fun (x : LogX) => State.put { s with log := x } logB Reg.LOG_STATUS_BUSY 1
    if x.phase ≠ .idle then run x
    else if x.retired.contains x.sector then s
    else if !x.opened then run { x with phase := .erase x.sector }
    else if !x.ahead ∧ x.nextSector ≠ x.sector then run { x with phase := .erase x.nextSector }
    else match x.cur, x.staged with
      | some _, _ => run { x with phase := .body }
      | none, r :: rest => (run { x with phase := .body, cur := some r, staged := rest }).stageLost
      | none, [] => s

/-- A record is staged, or dropped where the queue is full. -/
def State.stageRec (s : State) (r : LogRec) : State :=
  match stageInto s.log.staged r with
  | some l => (State.logLook { s with log := { s.log with staged := l } }).logKick
  | none => (State.count { s with log := { s.log with lost := min (s.log.lost + 1) 0xFFFFFFFF } } (logB + Reg.LOG_DROPPED) 1).raise
      logB Reg.LOG_EVENT_LOST

/-- A log record is made now: staged, or held while the Ringmaster restarts (R510, R582). -/
def State.stage (s : State) (r : LogRec) : State :=
  let r := { r with time := s.now }
  if s.boot.rmDown then { s with boot := { s.boot with staged := s.boot.staged ++ [r] } } else s.stageRec r

/-- A record for the always-on log (R531, R532; chapter 18). -/
def State.stageAon (s : State) (r : LogRec) : State :=
  { s with pwr := { s.pwr with aonLog := s.pwr.aonLog ++ [{ r with time := s.now }] } }

/-! ## Fault sources (R489) -/

def srcSramUe : Nat := 0x01
def srcDramUe : Nat := 0x02
def srcDramAddr : Nat := 0x03
def srcPotCorrupt : Nat := 0x04
def srcRmLockstep : Nat := 0x05
def srcSecLockstep : Nat := 0x06
def srcClock : Nat := 0x07
def srcVoltage : Nat := 0x08
def srcTemp : Nat := 0x09
def srcMismatch : Nat := 0x0A
def srcNoExpect : Nat := 0x0B
def srcMissing : Nat := 0x0C
def srcSequence : Nat := 0x0D
def srcComparator : Nat := 0x0E
def srcConfig : Nat := 0x0F
def srcChime : Nat := 0x10
def srcHaptic : Nat := 0x11
def srcTouchSeq : Nat := 0x12
def srcShader : Nat := 0x13
def srcMemLatent : Nat := 0x14
def srcCapture : Nat := 0x15
def srcSecureHang : Nat := 0x16
def srcDebugOpen : Nat := 0x17
def srcFaultPin : Nat := 0x18
def srcAonWatchdog : Nat := 0x19
def srcBoot : Nat := 0x1A

/-- The sources whose injected condition is over once it is detected (R508). Rests on log entry 103 (DESIGN CHOICE). -/
def passing : List Nat := [0x05, 0x0F, 0x18]

/-- The sources that persist (R489). -/
def persistent (src : Nat) : Bool := [0x05, 0x07, 0x08, 0x09, 0x0F, 0x11, 0x13, 0x15, 0x17, 0x18, 0x1A].contains src

/-- What a fault record carries beside its source. -/
structure FaultInfo where
  index : Nat := 0xFFFF
  seq : Nat := 0
  value : Nat := 0
  expected : Nat := 0
  injected : Bool := false
  suppress : Bool := false
  stop : Bool := false                     -- stops outputs whatever the mask says (R500)
  deriving DecidableEq, Repr

/-- SN_PERSIST follows the list of lasting conditions. -/
def State.persistLook (s : State) : State :=
  s.put snB Reg.SN_PERSIST_PERSIST (s.sn.persist.foldl (fun m e => setBit m e.1 true) 0)
def State.setPersist (s : State) (src idx : Nat) : State :=
  State.persistLook { s with sn := { s.sn with
    persist := if s.sn.persist.contains (src, idx) then s.sn.persist else s.sn.persist ++ [(src, idx)] } }
def State.clearPersist (s : State) (src idx : Nat) : State :=
  State.persistLook { s with sn := { s.sn with persist := s.sn.persist.filter fun e => decide (e ≠ (src, idx)) } }

/-! ## Stopping outputs (R505) -/

/-- Outputs stop; a stop while STOPPED is 1 changes nothing. -/
def State.stopOutputs (s : State) : State :=
  if s.rd snB Reg.SN_STATUS_STOPPED = 1 then s
  else ((s.put snB Reg.SN_STATUS_STOPPED 1).count (snB + Reg.SN_STOPS) 1).raise snB Reg.SN_EVENT_STOPPED

/-- The class S instances of the applied plan. -/
def State.classS (s : State) : List Nat := (s.p.insts.filter fun r => decide (r.cls = 1)).map InstRec.inst

/-- A fault record (R503 to R505): flag, counters, last, log, stop, SAFETY records. -/
def State.fault (s : State) (src : Nat) (i : FaultInfo) : State :=
  let inj := if i.injected then 1 else 0
  let last := persistent src && !(i.injected && passing.contains src)
  let s := if last then s.setPersist src i.index else s
  let s := s.put snB Reg.SN_FAULT_FLAGS_FLAGS (setBit (s.rd snB Reg.SN_FAULT_FLAGS_FLAGS) src true)
  let s := (s.count (snB + Reg.SN_FAULTS) 1).count (snB + Reg.SN_SOURCE_COUNT + 16 * src) 1
  let s := s.putWide (snB + Reg.SN_LAST) (src + 2 ^ 8 * (i.index % 65536) + 2 ^ 24 * inj + 2 ^ 64 * (s.now % 2 ^ 64))
  let s := s.raise snB Reg.SN_EVENT_FAULT
  let s := s.stage { kind := 0x01, source := src, index := i.index, flags := inj
                     data := natLE 8 i.seq ++ natLE 8 i.value ++ natLE 8 i.expected }
  let stops := (bitSet (s.rd snB Reg.SN_STOP_MASK_MASK) src || i.stop) && !i.suppress && decide (s.rd snB Reg.SN_STATUS_STOPPED = 0)
  let s := if stops then s.stopOutputs else s
  let flags := inj + (if last then 2 else 0) + (if stops then 4 else 0)
  let rec_ := natLE 1 src ++ natLE 1 flags ++ natLE 2 i.index ++ natLE 4 0 ++ natLE 8 s.now ++ natLE 8 i.seq ++
    natLE 8 i.value ++ natLE 8 i.expected
  s.each s.classS fun s k => s.eventRecord k 4 rec_ true

/-- A refused access is logged (R19); an entry with a reserved bit or owner among its pages is reported as table
corruption (R400). -/
def State.refuse (s : State) (w : Who) (a n : Nat) : State :=
  let s := s.logRefused w
  if (pagesOf a n).any fun p => entryBad (s.entry p) then s.fault srcPotCorrupt {} else s

/-! ## Outputs that follow the state -/

/-- SN_STATUS[COND] in the order of R488; zero while no Ringplan is applied. -/
def State.condBits (s : State) : Nat :=
  if !s.applied then 0 else
    let c := s.p.safety
    let b := fun (x : Bool) (n : Nat) => if x then 2 ^ n else 0
    b (c.profile = 0) 0 + b (c.testSlices = 0) 1 + b (c.ecc = 0) 2 +
      b (s.rd devB Reg.DEV_BOOT_STATUS_RELEASE = 0) 3 +
      b (s.p.cvus.any fun u => decide (s.rd (cvuB u.unit) Reg.CVU_STATUS_STATE = 1)) 4 + b s.sn.outside 5

/-- Whether GUARANTEE reads 1: a Ringplan is applied and no COND bit is set (R488). -/
def State.guaranteeHolds (s : State) : Bool := s.applied && decide (s.condBits = 0)

/-- Whether FAULT_N is driven low: a flag other than 0x17, Piccolo's hold until start-up ends, or the always-on domain
(R503, R531, R551). -/
def State.faultCond (s : State) : Bool :=
  s.sn.hold || s.sn.aon || decide (setBit (s.rd snB Reg.SN_FAULT_FLAGS_FLAGS) srcDebugOpen false ≠ 0)

/-- Whether READY is high (R12). -/
def State.readyCond (s : State) : Bool :=
  s.applied && !s.pwr.off && decide (s.rd picB Reg.PIC_STATE_STATE = 0) && decide (s.rd snB Reg.SN_STATUS_STOPPED = 0) &&
    decide (s.boot.parts = 0) && decide (s.rpl.phase ≠ .applying) &&
    s.p.heads.all fun h => decide (h.portType = 0) || (s.head h.head).settled

/-- GUARANTEE_CHANGE on a change of GUARANTEE (R488). -/
def State.guaranteeLook (s : State) : State :=
  if (s.rd snB Reg.SN_STATUS_GUARANTEE = 1) ↔ s.guaranteeHolds then s else s.raise snB Reg.SN_EVENT_GUARANTEE_CHANGE

/-- The bits of SN_STATUS that follow the state. -/
def State.statusLook (s : State) : State :=
  let b := fun (x : Bool) => if x then 1 else 0
  (((s.put snB Reg.SN_STATUS_GUARANTEE (b s.guaranteeHolds)).put snB Reg.SN_STATUS_FAULT_N (b s.faultCond)).put
    snB Reg.SN_STATUS_PERSIST (b (decide (s.rd snB Reg.SN_PERSIST_PERSIST ≠ 0)))).put snB Reg.SN_STATUS_COND s.condBits

/-- The pins FAULT_N and READY, and the time READY last rose. -/
def State.pinsLook (s : State) : State :=
  let r := s.readyCond
  let s := if r && !s.readyPin then s.putWide (devB + Reg.DEV_READY_TIME) s.now else s
  { s with faultLow := s.faultCond, readyPin := r }

/-- A region's unit holds an EXPECT or is in reference mode (R550). -/
def State.regionUnitLive (s : State) (g : GuardRec) : Bool :=
  !(s.unit g.cvu).expects.isEmpty || decide (g.mode ≠ 0)

/-- Start-up step 10 begins once READY has risen and a region unit may compare (R550). -/
def State.bootLook (s : State) : State :=
  if s.rd devB Reg.DEV_BOOT_STATUS_STEP = 9 ∧ s.readyPin ∧ s.p.guarded.any s.regionUnitLive then s.put devB Reg.DEV_BOOT_STATUS_STEP 10 else s

/-- The outputs that follow the state. -/
def State.look (s : State) : State := s.guaranteeLook.statusLook.pinsLook.bootLook

/-- What every command ends with: the derived outputs, and the timebase never behind where it was (R128). A command acts on everything
but the queue.
Rests on log entry 1 (DESIGN CHOICE), log entry 3 (DESIGN CHOICE), log entry 4 (DESIGN CHOICE), log entry 120 (DESIGN CHOICE). -/
def settle (pre post : State) : State := { State.look { post with now := max pre.now post.now } with pending := pre.pending }

/-- The same where the timebase starts anew (R131). Rests on log entry 111 (DESIGN CHOICE). -/
def settleAnew (pre post : State) : State := { post.look with pending := pre.pending }

end Sys2Proof.Machine
end

