-- ==== Sys2Proof/Machine/Carousel.lean ====
section
/-!
DEFINITION. The Carousel (chapter 6): engine time and accounts, deadlines, selection, preemption and test slices, and the
events of its engines. Engines 0 to 3 are the core groups (R183), 4 and 5 the copy engines.
-/
namespace Sys2Proof.Machine

/-- The engine a command names. -/
def engNum : EngineRef → Nat
  | .group g => g.val
  | .copy n => 4 + n.val

def isGfx (e : Nat) : Bool := decide (e < 4)
def groupList : List Nat := [0, 1, 2, 3]
def copyList : List Nat := [4, 5]
def engineList (gfx : Bool) : List Nat := if gfx then groupList else copyList

/-- Core groups in service (R350). -/
def State.groupsOk (s : State) : List Nat := groupList.filter fun g => !(s.engine g).outOfService
def State.enginesOk (s : State) (gfx : Bool) : List Nat := if gfx then s.groupsOk else copyList

/-- The shader clock in MHz. -/
def State.shaderMhz (s : State) : Nat := s.rd gfxB Reg.GFX_CLOCK_MHZ

/-! ## Shares and entitlements (R182, R185, R191) -/

def State.share (s : State) (gfx : Bool) (i : Nat) : Nat :=
  s.rda (carB + 64 * i) (if gfx then Reg.CAR_INST_SHARE_GFX else Reg.CAR_INST_SHARE_CPY)

/-- Whole units of an engine for `pm` per mille at factor `f`, in ns: core-µs or engine-µs rounded down, scaled with the
groups in service. -/
def State.entitlementOf (s : State) (gfx : Bool) (pm f : Nat) : Nat :=
  if gfx then pm * 16 * f * s.groupsOk.length / 4000 * 1000 else pm * 2 * f / 1000 * 1000

/-- The sum of the shares of a class. -/
def State.classSum (s : State) (gfx : Bool) (c : Nat) : Nat :=
  ((s.p.insts.filter fun r => decide (r.cls = c)).map fun r => s.share gfx r.inst).sum
def State.classB (s : State) (gfx : Bool) : Nat := if gfx then s.p.glob.bTestPm else s.p.glob.bCopyPm

/-- The class factors and CUT for budget x (R191): G factor, P factor, cut. -/
def cutFactors (x b sS pP g : Nat) : Nat × Nat × Nat :=
  if b + sS + pP + g ≤ x then (1000, 1000, 0)
  else if b + sS + pP ≤ x then ((if g = 0 then 0 else 1000 * (x - b - sS - pP) / g), 1000, 1)
  else (0, (if pP = 0 then 0 else 1000 * (x - b - sS) / pP), 2)

def State.budgetPm (s : State) (gfx : Bool) : Nat :=
  s.rd carB (if gfx then Reg.CAR_BUDGET_GFX_PM else Reg.CAR_BUDGET_CPY_PM)
def State.factor (s : State) (gfx : Bool) (c : Nat) : Nat :=
  if c = 3 then (if gfx then s.rd carB Reg.CAR_FACTOR_G_FACTOR else s.carx.factorGC)
  else if c = 2 then (if gfx then s.rd carB Reg.CAR_FACTOR_P_FACTOR else s.carx.factorPC)
  else 1000

/-! ## Charging (R182, R183, R206) -/

/-- Time charged to the job of descriptor idx of ring q for dt ns on engine e. -/
def State.chargeJob (s : State) (e q idx dt : Nat) (spare : Bool) : State :=
  match s.ringInst q with
  | none => s
  | some i =>
    let n := if isGfx e then 4 * dt else dt
    let a := s.acct (isGfx e) i
    let s := s.setAcct (isGfx e) i { a with used := a.used + n, spare := if spare then a.spare + n else a.spare }
    let s := if isGfx e then s.count (carB + 64 * i + Reg.CAR_INST_GFX_TIME) ((a.used + n) / 1000 - a.used / 1000) else s
    s.modDesc q idx fun d => { d with charged := d.charged + n, cycles := d.cycles + dt * s.shaderMhz }

/-- The holder of engine e, or what comes next once a preemption has begun, charged up to now. -/
def State.chargeEngine (s : State) (e : Nat) : State :=
  let x := s.engine e
  let s' := match x.incoming.getD x.holder with
    | .job q idx _ => s.chargeJob e q idx (s.now - x.since) x.spare
    | _ => s
  s'.modEngine e fun y => { y with since := max x.since s.now }

def State.chargeAll (s : State) : State := s.each (groupList ++ copyList) State.chargeEngine

/-! ## Jobs and candidates -/

/-- The opcodes that run on an engine: RENDER and DISPATCH; the copies (R318, R346). -/
def engineOp (gfx : Bool) (op : Nat) : Bool := if gfx then op = 1 || op = 2 else 1 ≤ op && decide (op ≤ 4)

/-- Whether an engine holds, or is about to hold, this job. -/
def State.placed (s : State) (q idx : Nat) : Bool :=
  (groupList ++ copyList).any fun e =>
    let is := fun (h : Holder) => match h with | .job a b _ => decide (a = q) && decide (b = idx) | _ => false
    is (s.engine e).holder || (match (s.engine e).incoming with | some h => is h | none => false)

/-- The job of ring q that may take an engine: its first unfinished descriptor, if that is engine work and placed on no
engine, and no secure job of the instance holds a saved context beside it (R404). -/
def State.jobOf (s : State) (gfx : Bool) (q : Nat) : Option Desc :=
  if s.ringType q ≠ (if gfx then 1 else 2) then none else
  match (s.ring q).fetched.find? (fun d => !d.isDone) with
  | some d =>
    if (decide (d.phase = .ready) || decide (d.phase = .running)) && engineOp gfx d.opcode && !d.discard && !s.placed q d.idx
      then some d else none
  | none => none

/-- The number of the latest latch of head h that has passed: the latch in frame F − 1 is the latch of frame F (R264). -/
def State.latchedFrame (s : State) (h : Nat) : Nat :=
  s.wideAt (headBase h + Reg.HEAD_FRAME) + (if (s.head h).latched then 1 else 0)

/-- T: the predicted time of the latch of the target frame (R196). -/
def State.latchAt (s : State) (h target : Nat) : Nat :=
  s.wideAt (headBase h + Reg.HEAD_LATCH_TIME) + (target - s.latchedFrame h) * s.rd (headBase h) Reg.HEAD_PERIOD_NS

/-- P: the preemption budget in ns (R197). -/
def State.preemptNs (s : State) (gfx : Bool) : Nat :=
  if gfx then (if 0 < s.shaderMhz ∧ s.shaderMhz < 1200 then 50000 * 1200 / s.shaderMhz else 50000) else 5000

/-- Whether a deadline descriptor keeps its urgency: its latch has not passed, its instance is below the debt limit
(R187, R201). -/
def State.deadlineLive (s : State) (gfx : Bool) (q : Nat) (d : Desc) : Bool :=
  d.target.isSome && d.passed.isNone && (match s.ringInst q with | some i => !(s.acct gfx i).limit | none => false)

/-- D: the scheduling deadline (R197). -/
def State.deadlineOf (s : State) (gfx : Bool) (d : Desc) : Nat :=
  s.latchAt d.dlHead (d.target.getD 0) - s.preemptNs gfx

/-- The class rank of the instance of ring q: 0 S, 1 P, 2 G. -/
def State.ringClass (s : State) (q : Nat) : Nat := match s.ringInst q with | some i => s.p.cls i - 1 | none => 3

/-- Core groups that count towards n for a job of class c (R198): in service, no test slice, not secure, and no context
of equal or higher class. -/
def State.claimable (s : State) (c : Nat) : List Nat :=
  s.groupsOk.filter fun g =>
    let x := s.engine g
    x.incoming.isNone && (match x.holder with | .idle => true | .test _ => false | .job q _ sec => !sec && decide (c < s.ringClass q))

/-- U: the urgent point (R197): D − P − E / n. A ring without history is urgent from the fetch (R199). -/
def State.urgentAt (s : State) (gfx : Bool) (q : Nat) (d : Desc) : Nat :=
  let est := s.rd (carB + 4 * q) Reg.CAR_RING_EST_EST
  let n := if gfx then max 1 (s.claimable (s.ringClass q)).length else 1
  let e := if s.shaderMhz = 0 then 0 else est * 1000 * 1000 / s.shaderMhz / n
  if est = 0 then 0 else s.deadlineOf gfx d - s.preemptNs gfx - e

def State.urgent (s : State) (gfx : Bool) (q : Nat) (d : Desc) : Bool := s.deadlineLive gfx q d && decide (s.urgentAt gfx q d ≤ s.now)

/-- Unspent entitlement of an instance. -/
def State.unspent (s : State) (gfx : Bool) (i : Nat) : Nat := let a := s.acct gfx i; a.entitled - (a.used - a.spare)

/-- Spare time left in this round (R188, R189): the budget beyond the entitlements and what class P and G instances
without ready work leave, less what was given and the last round's excess. -/
def State.spareLeft (s : State) (gfx : Bool) : Nat :=
  let insts := s.p.insts.map InstRec.inst
  let full := s.entitlementOf gfx (s.budgetPm gfx) 1000
  let ents := (insts.map fun i => (s.acct gfx i).entitled).sum + s.entitlementOf gfx (s.classB gfx) 1000
  let idle := insts.filter fun i => decide (2 ≤ s.p.cls i) && (s.ringsOf (fnOfInst i)).all fun q => (s.jobOf gfx q).isNone
  let given := (insts.map fun i => (s.acct gfx i).spare).sum
  (full - ents) + (idle.map fun i => s.unspent gfx i).sum - given - (if gfx then s.carx.deficitG else s.carx.deficitC)

/-- A candidate: its job, whether it would run on spare time, and its rank as a list compared from the front (R193,
R194, R188). -/
structure Cand where
  q : Nat
  idx : Nat
  secure : Bool
  spare : Bool
  key : List Nat
  deriving DecidableEq, Repr

/-- A deadline larger than any other. -/
def farDeadline : Nat := 2 ^ 64

/-- Rests on log entry 66 (DESIGN CHOICE). -/
def State.candOf (s : State) (gfx : Bool) (q : Nat) : Option Cand :=
  match s.jobOf gfx q, s.ringInst q with
  | some d, some i =>
    let c := s.ringClass q
    let a := s.acct gfx i
    let sh := s.share gfx i
    let dl := if s.deadlineLive gfx q d then s.deadlineOf gfx d else farDeadline
    let last := if gfx then (s.inst i).turnGfx else (s.inst i).turnCpy
    let turn := (q + 255 - last) % 256
    if s.urgent gfx q d then some { q := q, idx := d.idx, secure := d.secure, spare := false, key := [2, c, dl, turn, q] }
    else if 0 < s.unspent gfx i then
      some { q := q, idx := d.idx, secure := d.secure, spare := false
             key := [3, c, dl, (a.used - a.spare) * 1000000 / max 1 a.entitled, turn, q] }
    else if a.debt = 0 ∧ a.used - a.spare ≤ a.entitled ∧ 0 < s.spareLeft gfx then
      some { q := q, idx := d.idx, secure := d.secure, spare := true, key := [5, c, a.spare * 1000000 / max 1 sh, dl, turn, q] }
    else none
  | _, _ => none

/-- Lexicographic order of ranks. -/
def keyLt : List Nat → List Nat → Bool
  | [], [] => false
  | [], _ :: _ => true
  | _ :: _, [] => false
  | a :: as, b :: bs => if a = b then keyLt as bs else decide (a < b)

/-- The best of some candidates. Rests on log entry 66 (DESIGN CHOICE). -/
def bestCand : List Cand → Option Cand
  | [] => none
  | c :: cs =>
    match bestCand cs with
    | none => some c
    | some b => some (if keyLt b.key c.key then b else c)

def State.candidates (s : State) (gfx : Bool) : List Cand := (List.range 256).filterMap (s.candOf gfx)
/-- Rests on log entry 66 (DESIGN CHOICE). -/
def State.best (s : State) (gfx : Bool) : Option Cand := bestCand (s.candidates gfx)

/-! ## Test slices (R208 to R210) -/

def State.testing (s : State) : Bool := groupList.any fun g => match (s.engine g).holder, (s.engine g).incoming with
  | .test _, _ => true | _, some (.test _) => true | _, _ => false
def State.slicesOn (s : State) : Bool := s.applied && decide (s.p.safety.testSlices ≠ 0)
/-- A forced slice waits on group g: 11 rounds without one; a paced slice is due after 10. -/
def State.forcedDue (s : State) (g : Nat) : Bool := s.slicesOn && !s.testing && decide (11 ≤ (s.engine g).sliceRounds)
def State.pacedDue (s : State) (g : Nat) : Bool := s.slicesOn && !s.testing && decide (10 ≤ (s.engine g).sliceRounds)

/-! ## Placing (R184, R192, R193) -/

/-- Status registers of the engines follow their holders. -/
def State.engineLook (s : State) : State :=
  let busy := groupList.foldl (fun m g => setBit m g (decide ((s.engine g).holder ≠ .idle))) 0
  let sec := groupList.foldl (fun m g => setBit m g (match (s.engine g).holder with | .job _ _ b => b | _ => false)) 0
  let ok := groupList.foldl (fun m g => setBit m g !(s.engine g).outOfService) 0
  let tg := groupList.find? fun g => match (s.engine g).holder with | .test _ => true | _ => false
  let s := (((s.put carB Reg.CAR_STATUS_GROUPS_BUSY busy).put gfxB Reg.GFX_STATUS_GROUPS_BUSY busy).put
    gfxB Reg.GFX_STATUS_GROUPS_SECURE sec).put gfxB Reg.GFX_STATUS_GROUPS_OK ok
  let s := (s.put carB Reg.CAR_STATUS_TESTING tg.isSome.toNat).put carB Reg.CAR_STATUS_TEST_GROUP (tg.getD (s.rd carB Reg.CAR_STATUS_TEST_GROUP))
  let s := s.each (List.range 16) fun s n =>
    let st := match (s.engine (n / 4)).holder with | .idle => 0 | .job _ _ true => 2 | .job _ _ false => 1 | .test _ => 3
    (s.put (coreB n) Reg.GFX_CORE_STATUS_STATE st).put (coreB n) Reg.GFX_CORE_STATUS_IN_SERVICE (!(s.engine (n / 4)).outOfService).toNat
  s.each [0, 1] fun s n =>
    match (s.engine (4 + n)).holder with
    | .job q _ sec =>
      ((s.put (cpyB n) Reg.CPY_STATUS_BUSY 1).put (cpyB n) Reg.CPY_STATUS_SECURE sec.toNat).put (cpyB n) Reg.CPY_STATUS_INSTANCE
        (if sec then 0 else (s.ringInst q).getD 0)
    | _ => ((s.put (cpyB n) Reg.CPY_STATUS_BUSY 0).put (cpyB n) Reg.CPY_STATUS_SECURE 0).put (cpyB n) Reg.CPY_STATUS_INSTANCE 0

/-- A holder takes engine e now. -/
def State.occupy (s : State) (e : Nat) (h : Holder) (spare : Bool) : State :=
  s.modEngine e fun x => { x with holder := h, since := s.now, quantum := s.now, spare := spare, incoming := none, atPoint := false, fullSave := false }

/-- The ring served last by its instance (R194). -/
def State.served (s : State) (gfx : Bool) (q : Nat) : State :=
  match s.ringInst q with
  | some i => s.modInst i fun x => if gfx then { x with turnGfx := q } else { x with turnCpy := q }
  | none => s

/-- A context whose full save holds n groups resumes on n groups only (R341): how many groups a job asks for. -/
def State.idleGroups (s : State) : List Nat := s.groupsOk.filter fun g => decide ((s.engine g).holder = .idle)

/-- Selection on one idle engine: forced slice, best candidate, paced slice, in the order of R193.
Rests on log entry 68 (DESIGN CHOICE). -/
def State.selectOne (s : State) (e : Nat) : State :=
  let x := s.engine e
  let gfx := isGfx e
  if x.holder ≠ .idle ∨ x.outOfService then s
  else if gfx ∧ s.forcedDue e then (s.occupy e (.test true) false).raise carB Reg.CAR_EVENT_TEST_FORCED
  else match s.best gfx with
    | some c =>
      if gfx ∧ s.pacedDue e ∧ c.spare then s.occupy e (.test false) false
      else (s.occupy e (.job c.q c.idx c.secure) c.spare).served gfx c.q
    | none => if gfx ∧ s.pacedDue e then s.occupy e (.test false) false else s

/-- The groups a job holds. -/
def State.held (s : State) (q idx : Nat) : List Nat :=
  groupList.filter fun g => match (s.engine g).holder with | .job a b _ => decide (a = q) && decide (b = idx) | _ => false

/-- A running context expands onto idle groups to 2 or 4 groups, unless its restored waves bind it (R184, R341).
Rests on log entry 67 (DESIGN CHOICE), log entry 68 (DESIGN CHOICE). -/
def State.expandOne (s : State) : State :=
  let idle := s.idleGroups
  let jobs := (groupList.filterMap fun g => match (s.engine g).holder with | .job q i sec => some (q, i, sec, (s.engine g).spare) | _ => none).filter
    fun j => match s.desc j.1 j.2.1 with | some d => !d.saved | none => false
  match jobs.head? with
  | none => s
  | some (q, i, sec, sp) =>
    let n := (s.held q i).length
    let more := if n = 1 ∧ 3 ≤ idle.length then 3 else if n = 1 ∧ 1 ≤ idle.length then 1 else if n = 2 ∧ 2 ≤ idle.length then 2 else 0
    s.each (idle.take more) fun s g => s.occupy g (.job q i sec) sp

/-- A selection point (R192): every idle engine is filled, then a running context may expand.
Rests on log entry 68 (DESIGN CHOICE). -/
def State.select (s : State) : State :=
  if !s.parkedTo 3 && s.applied then
    let s := s.each (groupList ++ copyList) State.selectOne
    let s := if s.candidates true = [] then s.expandOne else s
    s.engineLook
  else s.engineLook

/-- A job that spans three groups gives the highest one up (R184: 1, 2 or 4). Rests on log entry 67 (DESIGN CHOICE). -/
def State.trim (s : State) (q idx : Nat) : State :=
  match s.held q idx with
  | [_, _, g] => (s.chargeEngine g).modEngine g fun x => { x with holder := .idle, spare := false }
  | _ => s

/-- Every engine that holds a job, or waits to hold it, lets it go; its time is charged first. -/
def State.vacate (s : State) (q idx : Nat) : State :=
  let is := fun (h : Holder) => match h with | .job a b _ => decide (a = q) && decide (b = idx) | _ => false
  s.each (groupList ++ copyList) fun s e =>
    let x := s.engine e
    if is x.holder || (match x.incoming with | some h => is h | none => false) then
      let s := s.chargeEngine e
      if is x.holder then
        match x.incoming with
        | some h => s.modEngine e fun y => { y with holder := h, incoming := none, quantum := s.now, spare := false, atPoint := false }
        | none => s.modEngine e fun y => { y with holder := .idle, spare := false, atPoint := false, fullSave := false }
      else s.modEngine e fun y => { y with incoming := none, atPoint := false, fullSave := false }
    else s

/-! ## Preemption (R195, R203 to R207) -/

/-- A preemption of engine e begins: step 1 of R203. -/
def State.preempt (s : State) (e : Nat) (next : Holder) : State :=
  (s.chargeEngine e).modEngine e fun x => { x with incoming := some next, requestAt := s.now, atPoint := false, fullSave := false, spare := false }

/-- QUANTUM_EXPIRY (R192, R195, R209): at expiry a forced slice, or a candidate of a higher rank than the running
context has, preempts it; otherwise a new quantum begins. -/
def doQuantumExpiry (s : State) (er : EngineRef) (t : Nat) : State :=
  let e := engNum er
  let s := s.reach t
  let x := s.engine e
  match x.holder with
  | .job q idx _ =>
    if x.incoming.isSome ∨ s.now < x.quantum + 250000 then s
    else if isGfx e ∧ s.forcedDue e then (s.preempt e (.test true)).engineLook
    else
      let s := s.chargeEngine e
      let waiting := s.best (isGfx e)
      -- the running context's own rank, as if it were a candidate without an engine
      let free : State := s.each (groupList ++ copyList) fun u g =>
        match (u.engine g).holder with
        | .job a b _ => if a = q ∧ b = idx then u.modEngine g fun y => { y with holder := .idle } else u
        | _ => u
      let own := free.candOf (isGfx e) q
      let higher := match waiting, own with
        | some w, some o => decide (w.key.headD 9 < o.key.headD 9)
        | some _, none => true
        | none, _ => false
      if higher then
        match waiting with
        | some w => (s.preempt e (.job w.q w.idx w.secure)).engineLook
        | none => s
      else s.modEngine e fun y => { y with quantum := s.now, spare := match own with | some o => o.spare | none => y.spare }
  | _ => s

/-- The engines a deadline job of ring q may claim: groups that count towards n; a copy engine that is idle or holds a
lower class. -/
def State.openEngines (s : State) (gfx : Bool) (q : Nat) : List Nat :=
  if gfx then s.claimable (s.ringClass q) else
    copyList.filter fun e => (s.engine e).incoming.isNone && (match (s.engine e).holder with
      | .idle => true
      | .test _ => false
      | .job p _ sec => !sec && decide (s.ringClass q < s.ringClass p))

/-- The order in which a claim takes engines (R200): idle ones, then class G before class P, and contexts without a
deadline before those with one. -/
def State.claimGrade (s : State) (e : Nat) : Nat :=
  match (s.engine e).holder with
  | .job p i _ => 1 + (3 - s.ringClass p) * 2 + (match s.desc p i with | some x => x.target.isSome.toNat | none => 0)
  | _ => 0
def State.claimOrder (s : State) (l : List Nat) : List Nat := (List.range 9).flatMap fun k => l.filter fun e => Nat.beq (s.claimGrade e) k

/-- One engine is claimed for a job of class rank c: a forced slice takes a group in place of a class P or G job
(R209). -/
def State.claim (s : State) (e c : Nat) (job : Holder) : State :=
  if isGfx e && decide (c ≠ 0) && s.forcedDue e then
    (if (s.engine e).holder = .idle then (s.occupy e (.test true) false).raise carB Reg.CAR_EVENT_TEST_FORCED else s.preempt e (.test true))
  else if (s.engine e).holder = .idle then s.occupy e job false
  else s.preempt e job

/-- How many engines a claim takes: groups in sets of 1, 2 or 4 (R184), one copy engine. -/
def claimCount (gfx : Bool) (n : Nat) : Nat := if gfx then (if n = 3 then 2 else n) else min 1 n

/-- URGENT_POINT (R197, R200, R209): the ring's deadline descriptor, once urgent, claims its engines. -/
def doUrgentPoint (s : State) (q t : Nat) : State :=
  let s := s.reach t
  let gfx := decide (s.ringType q = 1)
  match s.jobOf gfx q with
  | none => s
  | some d =>
    if s.urgent gfx q d then
      let s := s.chargeAll
      let l := s.claimOrder (s.openEngines gfx q)
      let c := s.ringClass q
      ((s.each (l.take (claimCount gfx l.length)) fun s e => s.claim e c (.job q d.idx d.secure)).served gfx q).engineLook
    else s

/-- A job that ends at its preemption point: discarded by a quiesce (ABORTED), or over its time limit (R173, R207, R337,
R349). -/
def State.endAtPoint (s : State) (q : Nat) (d : Desc) : State :=
  let s := s.vacate q d.idx
  if d.discard then s.finish q d.idx stAborted 0
  else ((s.count (gfxB + Reg.GFX_TIMEOUTS) 1).raise gfxB Reg.GFX_EVENT_TIMEOUT).finish q d.idx 0x82 (d.charged / 16000000)

/-- The descriptor an engine runs. -/
def State.runningOn (s : State) (e : Nat) : Option (Nat × Desc) :=
  match (s.engine e).holder with
  | .job q idx _ => (s.desc q idx).map fun d => (q, d)
  | _ => none

/-- PREEMPT_POINT_REACHED (R203 step 2, R207): work to be discarded or stopped ends there; otherwise its save begins. -/
def doPreemptPointReached (s : State) (er : EngineRef) (t : Nat) : State :=
  let e := engNum er
  let s := s.reach t
  match s.runningOn e with
  | none => s
  | some (q, d) =>
    if d.discard ∨ d.limitHit then ((s.chargeEngine e).endAtPoint q d).select
    else if (s.engine e).incoming.isSome then s.modEngine e fun x => { x with atPoint := true } else s

/-- TILE_BOUNDARY_TIMEOUT (R204): 30 µs after step 1 the work stops at an instruction boundary with a full save. -/
def doTileBoundaryTimeout (s : State) (g t : Nat) : State :=
  let s := s.reach t
  let x := s.engine g
  if x.incoming.isSome ∧ !x.atPoint ∧ x.requestAt + 30000 ≤ s.now then
    s.modEngine g fun x => { x with atPoint := true, fullSave := true } else s

/-- The pages of a ring's context-save area pinned while a saved context occupies it (R342), by holder 0x1000 + ring.
Rests on log entry 65 (DESIGN CHOICE). -/
def State.pinSave (s : State) (q : Nat) (on : Bool) : State :=
  let s := { s with pins := s.pins.filter fun r => decide (r.1 ≠ 0x1000 + q) }
  match (s.ring q).saveArea with
  | 0 => s
  | a => if on then { s with pins := s.pins ++ [(0x1000 + q, a / 4096, 1664)] } else s

/-- The bytes of a saved context: opaque (log entry 14). Rests on log entry 14 (DESIGN CHOICE). -/
def contextBytes (q n : Nat) : List Byte := (List.range n).map (Config.contextByte q)

/-- CONTEXT_SAVE_DONE (R203 to R206, R341, R342): the outgoing context stands in its save area, the incoming one takes the
engine, times and counters follow. -/
def doContextSaveDone (s : State) (er : EngineRef) (t : Nat) (restoreOk : Bool) : State :=
  let e := engNum er
  let s := s.reach t
  let x := s.engine e
  match x.incoming with
  | none => s
  | some next =>
    if !x.atPoint then s
    else
      let gfx := isGfx e
      let s := s.chargeEngine e
      -- the outgoing context: its save and its counter
      let s := match x.holder with
        | .job q idx sec =>
          let s := match s.ringInst q with
            | some i => s.count (carB + 64 * i + Reg.CAR_INST_PREEMPTED) 1
            | none => s
          if gfx ∧ s.held q idx = [e] ∧ !sec then
            let s := (s.modDesc q idx fun d => { d with saved := true }).pinSave q true
            match s.ringInst q with
            | some i => match s.dramPut (Who.fn (fnOfInst i)) (s.ring q).saveArea (contextBytes q (1664 * 1024)) with
              | some u => u
              | none => s.logRefused (Who.fn (fnOfInst i))
            | none => s
          else s
        | _ => s
      -- what preempted: a deadline or the quantum
      let s := match next with
        | .job q idx _ => match s.desc q idx with
          | some d => if s.urgent gfx q d then s.count (carB + Reg.CAR_PREEMPT_DL) 1 else s.count (carB + Reg.CAR_PREEMPT_QUANTUM) 1
          | none => s.count (carB + Reg.CAR_PREEMPT_QUANTUM) 1
        | _ => s.count (carB + Reg.CAR_PREEMPT_QUANTUM) 1
      let total := s.now - x.requestAt
      let s := if s.rd carB Reg.CAR_PREEMPT_WORST_WORST < total / 10 then s.put carB Reg.CAR_PREEMPT_WORST_WORST (min (total / 10) 65535) else s
      let s := if s.preemptNs gfx < total then (s.count (carB + Reg.CAR_PREEMPT_SLOW) 1).raise carB Reg.CAR_EVENT_PREEMPT_SLOW else s
      let s := s.modEngine e fun y => { y with holder := next, incoming := none, since := s.now, quantum := s.now, atPoint := false, fullSave := false }
      -- the incoming context: a forced slice, or work restored from its save area
      let s := match next with
        | .test true => s.raise carB Reg.CAR_EVENT_TEST_FORCED
        | .job q idx _ => match s.desc q idx with
          | some d =>
            if d.saved then
              let s := (s.modDesc q idx fun d => { d with saved := false }).pinSave q false
              if restoreOk then s
              else ((s.vacate q idx).raise gfxB Reg.GFX_EVENT_RESTORE_ERR).finish q idx 0x83 0
            else s
          | none => s.modEngine e fun y => { y with holder := .idle }
        | _ => s
      let s := match x.holder with
        | .job q idx _ => s.trim q idx
        | _ => s
      s.select

/-- TEST_SLICE_END (R208, R210, R350): the segment is done on each core; a failure takes the group out of service. -/
def doTestSliceEnd (s : State) (g t : Nat) (failed : Option (Fin 4)) : State :=
  let s := s.reach t
  match (s.engine g).holder with
  | .test _ =>
    let s := s.count (carB + Reg.CAR_TEST_SLICES) 1
    let s := s.each (List.range 4) fun s k =>
      let b := coreB (4 * g + k)
      ((s.put b Reg.GFX_CORE_STATUS_TEST_SEG (s.rd b Reg.GFX_CORE_STATUS_TEST_SEG + 1)).count (b + Reg.GFX_CORE_TEST_RUNS) 1).putWide
        (b + Reg.GFX_CORE_LAST_TEST) s.now
    -- an injected failure of one of the cores (R508)
    let inj := s.sn.armed.find? fun a => decide (a.1 = srcShader) && decide (a.2.1 / 4 = g)
    let s := { s with sn := { s.sn with armed := s.sn.armed.filter fun a => !(decide (a.1 = srcShader) && decide (a.2.1 / 4 = g)) } }
    let core := match failed, inj with
      | some k, _ => some (4 * g + k.val)
      | none, some a => some a.2.1
      | none, none => none
    let s := match core with
      | some n =>
        let s := ((s.put (coreB n) Reg.GFX_CORE_STATUS_TEST_FAILED 1).raise (coreB n) Reg.GFX_CORE_EVENT_TEST_FAIL).raise gfxB Reg.GFX_EVENT_TEST_FAIL
        let s := s.modEngine g fun x => { x with outOfService := true }
        s.fault srcShader { index := n, injected := failed.isNone, suppress := failed.isNone && (match inj with | some a => bitSet a.2.2 1 | none => false) }
      | none => s
    let s := s.modEngine g fun x => { x with holder := .idle, sliceRounds := 0, spare := false }
    s.select
  | _ => s

/-- JOB_TIMEOUT (R337): the ring's job has been charged more than JOB_LIMIT_MS and stops at its next preemption point. -/
def doJobTimeout (s : State) (q : Nat) : State :=
  let s := s.chargeAll
  let lim := s.rd gfxB Reg.GFX_CFG_JOB_LIMIT_MS
  match (s.ring q).fetched.find? fun d => decide (d.phase = .running) with
  | some d => if s.ringType q = 1 ∧ lim ≠ 0 ∧ lim * 16000000 < d.charged then s.modDesc q d.idx fun d => { d with limitHit := true } else s
  | none => s

/-! ## Rounds (R185 to R191, R209, R212) -/

/-- Accounts closed at the end of a round and renewed for the next one, on one kind of engine. -/
def State.renewInst (s : State) (gfx : Bool) (i : Nat) : State :=
  let a := s.acct gfx i
  let full := s.entitlementOf gfx (s.share gfx i) (s.factor gfx (s.p.cls i))
  let limit := s.entitlementOf gfx (s.share gfx i) 1000
  let excess := (a.used - a.spare) - a.entitled
  let debt := min (a.debt + excess) limit
  let hit := decide (0 < a.debt + excess) && decide (limit ≤ a.debt + excess)
  let lim := if hit then true else if 2 * debt < limit then false else a.limit
  let s := s.setAcct gfx i { entitled := full - min full debt, used := 0, spare := 0, debt := debt - min full debt, limit := lim }
  let b := carB + 64 * i
  let s := if gfx then (s.put b Reg.CAR_INST_USED_GFX (min (a.used / 1000) 16383)).put b Reg.CAR_INST_DEBT_GFX (debt / 1000)
    else (s.put b Reg.CAR_INST_USED_CPY (min (a.used / 1000) 4095)).put b Reg.CAR_INST_DEBT_CPY (debt / 1000)
  let s := s.put b Reg.CAR_INST_DEBT_LIMIT ((s.acct true i).limit || (s.acct false i).limit).toNat
  if hit then s.raise carB Reg.CAR_EVENT_DEBT_LIMIT else s

/-- The excess of a round over its budget, to be taken from the next spare time (R189). -/
def State.closeRound (s : State) (gfx : Bool) : State :=
  let used := (s.p.insts.map fun r => (s.acct gfx r.inst).used).sum
  let d := used - s.entitlementOf gfx (s.budgetPm gfx) 1000
  if gfx then { s with carx := { s.carx with deficitG := d } } else { s with carx := { s.carx with deficitC := d } }

/-- The factors of the new round, and the events of a cut that first takes effect (R191). -/
def State.cutRound (s : State) : State :=
  let f := fun (gfx : Bool) => cutFactors (s.budgetPm gfx) (s.classB gfx) (s.classSum gfx 1) (s.classSum gfx 2) (s.classSum gfx 3)
  let g := f true
  let c := f false
  let wasG := decide (s.rd carB Reg.CAR_FACTOR_G_FACTOR < 1000) || decide (s.carx.factorGC < 1000)
  let wasP := decide (s.rd carB Reg.CAR_FACTOR_P_FACTOR < 1000) || decide (s.carx.factorPC < 1000)
  let s := ((s.put carB Reg.CAR_FACTOR_G_FACTOR g.1).put carB Reg.CAR_FACTOR_P_FACTOR g.2.1).put carB Reg.CAR_STATUS_CUT g.2.2
  let s := { s with carx := { s.carx with factorGC := c.1, factorPC := c.2.1, cutC := c.2.2 } }
  let s := if (g.1 < 1000 ∨ c.1 < 1000) ∧ !wasG then s.raise carB Reg.CAR_EVENT_CUT_G else s
  if (g.2.1 < 1000 ∨ c.2.1 < 1000) ∧ !wasP then s.raise carB Reg.CAR_EVENT_CUT_P else s

/-- The order in which CAR_ checks its shadow at an apply (R216): the first failing check's reason and offset. -/
def State.carCheck (s : State) : Option (Nat × Nat) :=
  let insts := List.range 64
  let g := fun i => s.rd (carB + 64 * i) Reg.CAR_INST_SHARE_GFX
  let c := fun i => s.rd (carB + 64 * i) Reg.CAR_INST_SHARE_CPY
  let m := fun i => s.rd (carB + 64 * i) Reg.CAR_INST_DRAM_RES_MBS
  let off := fun i => 0x1000 + 64 * i
  let r := fun i => (s.p.inst i).getD {}
  match insts.find? (fun i => decide (1000 < g i) || decide (1000 < c i)) with
  | some i => some (0x03, off i)
  | none =>
  match insts.find? (fun i => s.p.has i && (decide ((r i).gfxMax < g i) || decide ((r i).cpyMax < c i) || decide ((r i).dramMax < m i))) with
  | some i => some (0x04, if (r i).gfxMax < g i ∨ (r i).cpyMax < c i then off i else off i + 4)
  | none =>
  match insts.find? (fun i => !s.p.has i && decide (g i + c i + m i ≠ 0)) with
  | some i => some (0x05, if g i + c i ≠ 0 then off i else off i + 4)
  | none =>
  let st := s.rd rplB Reg.RPL_STATE_STATE
  if st = 1 ∨ st = 2 ∨ st = 4 then some (0x06, 0x1000)
  else if 1000 < (insts.map g).sum + s.p.glob.bTestPm ∨ 1000 < (insts.map c).sum + s.p.glob.bCopyPm then some (0x80, 0x1000)
  else none

/-- An armed CAR_ or BLW_ apply at the start of a round (R98): less than 50 µs before it, the apply waits and LATE is
set; otherwise the checks run and the whole shadow becomes active or nothing does (R99).
Rests on log entry 69 (DEDUCED). -/
def State.roundApply (s : State) (a : Nat) (check : Option (Nat × Nat)) : State :=
  if !s.armed a then s
  else if s.now < KMap.get (fun _ => 0) s.armAt a + 50000 then s.raiseErr a Reg.ERR_LATE
  else match check with
    | some (reason, off) => s.refuseApply a reason off
    | none => s.applyFrame a

/-- What the start of a round does in the Carousel. -/
def State.carouselRound (s : State) : State :=
  let s := s.chargeAll
  let s := (s.closeRound true).closeRound false
  let s := s.roundApply carB s.carCheck
  let s := s.cutRound
  let s := s.each (s.p.insts.map InstRec.inst) fun s i => (s.renewInst true i).renewInst false i
  let s := s.each groupList fun s g => s.modEngine g fun x => { x with sliceRounds := x.sliceRounds + 1 }
  s.put carB Reg.CAR_STATUS_ROUND (s.now / 1000000)

/-! ## The estimate of a ring (R199) -/

/-- A deadline descriptor that completed OK or OK_LATE enters its ring's history. -/
def State.learn (s : State) (q : Nat) (d : Desc) : State :=
  if d.target.isSome then
    let s := s.modRing q fun r => { r with est := (d.cycles :: r.est).take 8 }
    s.put (carB + 4 * q) Reg.CAR_RING_EST_EST (min (((s.ring q).est.foldl max 0 + 999999) / 1000000) 0xFFFFFF)
  else s

def execQuantumExpiry (e : EngineRef) (t : BitVec 64) (s : State) : Host.Outcome State Fault Refusal := .next (settle s (doQuantumExpiry s e t.toNat))
def execUrgentPoint (q : Fin 256) (t : BitVec 64) (s : State) : Host.Outcome State Fault Refusal := .next (settle s (doUrgentPoint s q.val t.toNat))
def execPreemptPointReached (e : EngineRef) (t : BitVec 64) (s : State) : Host.Outcome State Fault Refusal := .next (settle s (doPreemptPointReached s e t.toNat))
def execTileBoundaryTimeout (g : Fin 4) (t : BitVec 64) (s : State) : Host.Outcome State Fault Refusal := .next (settle s (doTileBoundaryTimeout s g.val t.toNat))
def execContextSaveDone (e : EngineRef) (t : BitVec 64) (restoreOk : Bool) (s : State) : Host.Outcome State Fault Refusal := .next (settle s (doContextSaveDone s e t.toNat restoreOk))
def execTestSliceEnd (g : Fin 4) (t : BitVec 64) (failed : Option (Fin 4)) (s : State) : Host.Outcome State Fault Refusal := .next (settle s (doTestSliceEnd s g.val t.toNat failed))
def execJobTimeout (q : Fin 256) (s : State) : Host.Outcome State Fault Refusal := .next (settle s (doJobTimeout s q.val))

end Sys2Proof.Machine
end

