-- ==== Sys2Proof/Machine/Rings.lean ====
section
/-!
DEFINITION. Rings (chapter 5): doorbells and indices, ring states, the apply of a ring frame, fetching and checking
descriptors, fence waits, moderation timers, and NOP.
-/
namespace Sys2Proof.Machine

/-! ## Who may reach a window -/

/-- Whether a virtual function is enabled: VF Enable is set and its number does not exceed NumVFs (R118, R119). -/
def State.vfOn (s : State) (i : Nat) : Bool :=
  let p := s.fnPort (fnOfInst i)
  let pf := s.fn (if p = s.mgrPort then 0 else 1)
  let n := ((s.portInsts p).filter fun j => decide (j ≤ i)).length
  pf.vfEnable && decide (n ≤ pf.numVFs) && s.p.has i

/-- Whether the sub physical function exists (R116). -/
def State.subExists (s : State) : Bool := s.applied && decide (s.ports = 2)

/-- Whether a function answers memory requests (R134): it exists, its virtual function is enabled, and it is ready. -/
def State.answers (s : State) (fn : Nat) : Bool :=
  (s.fn fn).ready && !s.pwr.off && decide (s.rd picB Reg.PIC_STATE_STATE ≠ 2) && decide (s.rd picB Reg.PIC_STATE_STATE ≠ 3) && (if fn = 0 then true else if fn = 1 then s.subExists else s.vfOn (fn - 2))

/-- The function of a window, and the base of the frame that records errors of its doorbells. -/
def winFn : Win → Nat
  | .mgr => 0
  | .mgrDb => 0
  | .sub => 1
  | .vf i => fnOfInst i.val

/-- Whether writes to frames other than those of R86 are turned away: no Ringplan is applied. -/
def State.awaiting (s : State) : Bool := decide (s.rd rplB Reg.RPL_STATE_STATE = 0)

/-- A write to the address `off` turned away because no Ringplan is applied (R86).
Rests on log entry 37 (DESIGN CHOICE). -/
def State.earlyWrite (s : State) (off : Nat) : State := s.accessErr devB off 0x08

/-- A write of the manager reaches its window (R86, R134). -/
def State.mgrReach (s : State) (act : State → State) (off : Nat) : State :=
  if !s.answers 0 then s else if s.awaiting then s.earlyWrite off else act s

/-! ## Indices (R153, R155) -/

/-- Whether a write of HOST_IDX is taken: the ring is not DISABLED and the fill does not exceed the entries (R153). -/
def State.hostIdxOk (s : State) (q v : Nat) : Bool :=
  decide (s.ringState q ≠ disabled) && decide (fillOf (s.ringType q) v (s.devIdx q) ≤ s.entries q)

/-- A write of HOST_IDX under R153. -/
def State.writeHostIdx (s : State) (q v : Nat) : State :=
  if s.ringState q = disabled then s
  else if s.hostIdxOk q v then (s.put (ringBase q) Reg.RING_HOST_IDX_INDEX v).ringLook q
  else if s.ringState q = running then s.haltRing q 3 Reg.RING_EVENT_OVERRUN
  else s.raise (ringBase q) Reg.RING_EVENT_OVERRUN

/-- The ring whose doorbell slot n of a window is; none where the window has no such doorbell.
Rests on log entry 28 (DESIGN CHOICE). -/
def State.doorbellRing (s : State) (w : Win) (n : Nat) : Option Nat :=
  match w with
  | .mgr => none
  | w => s.ringAt (winFn w) n

/-- DB (R155). Before a Ringplan is applied only the manager's rings exist: slot and ring number agree. -/
def doDb (s : State) (w : Win) (slot v : Nat) : State :=
  if !s.answers (winFn w) || s.parkedTo 1 then s
  else if s.awaiting then s.earlyWrite (ringBase slot + 0x18)
  else match s.doorbellRing w slot with
    | some q => s.writeHostIdx q v
    | none => s

/-- DB64 (R155): the index and REARM in one update; neither if the index is not taken. -/
def doDb64 (s : State) (w : Win) (slot lo hi : Nat) : State :=
  if !s.answers (winFn w) || s.parkedTo 1 then s
  else if s.awaiting then s.earlyWrite (ringBase slot + 0x18)
  else match s.doorbellRing w slot with
    | some q =>
      let taken := s.hostIdxOk q lo
      let s := s.writeHostIdx q lo
      if taken && bitSet hi 0 then (s.modRing q fun r => { r with oneshotOff := false }).checkItems q false else s
    | none => s

/-! ## The apply of a ring frame (R151, R181) -/

/-- Whether a function may use a ring type (R149, R151). -/
def State.typeAllowed (s : State) (fn t : Nat) : Bool :=
  if fn ≤ 1 then t = 6 || t = 7 || t = 0 else
    let i := fn - 2
    match t with
    | 3 => (s.p.heads.any fun h => decide (h.owner = i) && decide (h.portType ≠ 0)) || s.p.layers.any fun l => decide (l.owner = i)
    | 4 => (s.p.audio.getD {}).nodes.any fun n => decide (n.owner = i) && (decide (n.typ = 6) || decide (n.typ = 7))
    | 5 => (s.p.layers.any fun l => decide (l.owner = i)) || s.p.guarded.any fun g => decide (g.owner = i)
    | _ => true

/-- The first failing check of a ring frame's shadow, with its register's offset (R181). -/
def State.ringCheck (s : State) (q : Nat) : Option (Nat × Nat) :=
  let b := ringBase q
  let differs := fun (f : Fld) => decide (s.rd b f ≠ s.rda b f)
  let cfg := differs Reg.RING_CFG_TYPE || differs Reg.RING_CFG_LOG2_ENTRIES
  let base := differs Reg.RING_BASE_LO_LOC || differs Reg.RING_BASE_LO_ADDR_LO
  let baseHi := differs Reg.RING_BASE_HI_ADDR_HI
  let cpl := differs Reg.RING_CPL_LO_LOC || differs Reg.RING_CPL_LO_ADDR_LO
  let cplHi := differs Reg.RING_CPL_HI_ADDR_HI
  let t := s.rd b Reg.RING_CFG_TYPE
  let l := s.rd b Reg.RING_CFG_LOG2_ENTRIES
  match s.ringOwner q with
  | none => none
  | some (fn, _) =>
    if 8 ≤ t ∨ l < 4 ∨ 12 < l then some (0x02, 0x00)
    else if s.vectors fn ≤ s.rd b Reg.RING_CFG_VECTOR then some (0x03, 0x00)
    else if s.ringState q ≠ disabled ∧ (cfg || base || baseHi || cpl || cplHi) then
      some (0x80, if cfg then 0x00 else if base then 0x04 else if baseHi then 0x08 else if cpl then 0x0C else 0x10)
    else if !s.typeAllowed fn t then some (0x81, 0x00)
    else none

/-- The armed apply of a ring frame at its boundary (R99). -/
def State.ringApply (s : State) (q : Nat) : State :=
  let b := ringBase q
  if !s.armed b then s
  else match s.ringCheck q with
    | some (reason, off) => s.refuseApply b reason off
    | none => (s.applyFrame b).ringLook q

/-! ## Ring states (R156) -/

/-- LAYERS_DISABLED records held until the instance has a RUNNING EVENT ring, each stamped with the time of its event (R174, R166). -/
def State.heldOut (s : State) (q : Nat) : State :=
  match s.ringInst q with
  | some i =>
    if s.ringType q = 6 ∧ s.ringState q = running then
      (s.modInst i fun x => { x with heldRecords := [] }).each (s.inst i).heldRecords fun s r => s.eventRecord i 5 (natLE 8 r.2) false (some r.1)
    else s
  | none => s

/-- START takes effect (R156). -/
def State.startRing (s : State) (q : Nat) : State :=
  let b := ringBase q
  match s.ringOwner q with
  | none => s
  | some (fn, _) =>
    let t := s.ringType q
    if s.ringState q ≠ disabled then s
    else if t ≠ 0 ∧ t < 8 ∧ s.typeAllowed fn t ∧ s.ringReady q then
      let s := ((s.put b Reg.RING_HOST_IDX_INDEX 0).put b Reg.RING_DEV_IDX_INDEX 0).setRingState q running 0
      (s.modRing q fun r => { r with pend := 0, oneshotOff := false }).heldOut q
    else s.raise b Reg.RING_EVENT_START_REFUSED

/-- RING_START: behind an armed apply of the frame, START waits for it (R156). -/
def State.ringStart (s : State) (q : Nat) : State :=
  if s.armed (ringBase q) ∧ s.ringState q = disabled then s.modRing q fun r => { r with startPending := true } else s.startRing q

/-- STOP and RESUME are ignored while the instance is STOPPING or QUIESCED (R177). -/
def State.ringHeldOff (s : State) (q : Nat) : Bool :=
  match s.ringInst q with | some i => decide (s.instState i = stopping) || decide (s.instState i = quiesced) | none => false

/-- RING_STOP (R156). -/
def State.ringStop (s : State) (q : Nat) : State :=
  if s.ringState q = running ∧ !s.ringHeldOff q then
    let s := s.setRingState q stoppingRing 0
    if (s.ring q).fetched = [] ∧ !(s.ring q).fetching then s.ringDrained q else s
  else s

/-- RING_RESUME (R156): a DISABLE that still waits falls away. Rests on log entry 124 (DESIGN CHOICE). -/
def State.ringResume (s : State) (q : Nat) : State :=
  let c := s.rd (ringBase q) Reg.RING_STATE_CAUSE
  if ((s.ringState q = stopped ∧ c = 1) ∨ s.ringState q = halted) ∧ s.ringReady q then ((s.setRingState q running 0).modRing q fun r => { r with disablePending := false }).heldOut q else s

/-- RING_DISABLE (R156): at once, or pending until every fetched descriptor has completed. -/
def State.ringDisable (s : State) (q : Nat) : State :=
  if s.ringState q = stopped ∨ s.ringState q = halted then
    (if (s.ring q).fetched = [] ∧ !(s.ring q).fetching then s.setRingState q disabled 0
     else s.modRing q fun r => { r with disablePending := true })
  else s

/-- A write of a ring's CTRL, in its function's window or in the manager's (R86, R134, R181). -/
def State.ringReach (s : State) (q : Nat) (act : State → State) : State :=
  if s.awaiting then (if s.answers 0 then s.earlyWrite (ringBase q + 0x34) else s)
  else match s.ringOwner q with
    | none => s
    | some (fn, _) => if s.answers 0 || s.answers fn then act s else s

def doRingStart (s : State) (q : Nat) : State := s.ringReach q fun s => s.ringStart q
def doRingStop (s : State) (q : Nat) : State := s.ringReach q fun s => s.ringStop q
def doRingResume (s : State) (q : Nat) : State := s.ringReach q fun s => s.ringResume q
def doRingDisable (s : State) (q : Nat) : State := s.ringReach q fun s => s.ringDisable q

/-! ## Fetching (R154, R157) -/

/-- DESCRIPTOR_FETCH: the frame's boundary passes, then the fetch of entry DEV_IDX is issued. -/
def doDescriptorFetch (s : State) (q : Nat) : State :=
  if s.ringState q = running ∧ !(s.ring q).fetching ∧ isSubmission (s.ringType q) ∧ s.ringReady q ∧ s.fill q ≠ 0 then
    (s.ringApply q).modRing q fun r => { r with fetching := true }
  else s

/-! ## Header checks (R158, R318, R346, R239, R439) -/

/-- The payload fields of an opcode: offset and size in the descriptor; every other payload byte is reserved. None: the
type does not define the opcode. -/
def payloadFields (t op : Nat) : Option (List (Nat × Nat)) :=
  if op = 0 then some [] else
  match t, op with
  | 1, 1 => some [(0x20, 8), (0x28, 8), (0x30, 4), (0x34, 4)]
  | 1, 2 => some [(0x20, 8), (0x28, 4), (0x2C, 2), (0x2E, 2), (0x30, 8)]
  | 1, 3 => some [(0x28, 8)]
  | 1, 4 => some [(0x28, 8)]
  | 2, 1 => some [(0x20, 1), (0x24, 4), (0x28, 8), (0x30, 8)]
  | 2, 2 => some [(0x20, 1), (0x24, 4), (0x28, 8), (0x30, 8)]
  | 2, 3 => some [(0x20, 1), (0x22, 2), (0x24, 4), (0x28, 8), (0x30, 8), (0x38, 4), (0x3C, 4)]
  | 2, 4 => some [(0x20, 1), (0x21, 1), (0x22, 1), (0x23, 1), (0x24, 2), (0x26, 2), (0x28, 8), (0x30, 8), (0x38, 4), (0x3C, 4)]
  | 2, 5 => some [(0x20, 1), (0x28, 8)]
  | 3, 1 => some [(0x20, 1), (0x21, 1), (0x28, 8)]
  | 3, 2 => some [(0x20, 1), (0x28, 8), (0x30, 8), (0x38, 8)]
  | 3, 3 => some [(0x20, 1), (0x21, 1), (0x28, 8)]
  | 3, 4 => some [(0x20, 1), (0x24, 4)]
  | 3, 5 => some [(0x20, 1), (0x21, 1)]
  | 3, 6 => some [(0x20, 1), (0x28, 8), (0x30, 8)]
  | 3, 7 => some [(0x20, 1), (0x21, 1), (0x28, 8)]
  | 3, 8 => some [(0x20, 1), (0x21, 1)]
  | 4, 1 => some [(0x20, 1), (0x21, 1), (0x22, 1), (0x24, 4), (0x28, 8)]
  | 4, 2 => some [(0x20, 1), (0x21, 1), (0x22, 1), (0x24, 4), (0x28, 8)]
  | 4, 3 => some [(0x20, 2), (0x22, 1), (0x24, 4)]
  | 4, 4 => some [(0x20, 2), (0x22, 1), (0x28, 8)]
  | 4, 5 => some [(0x20, 1)]
  | _, _ => none

/-- A device address with any of bits [63:36] set. -/
def far (a : Nat) : Bool := decide (2 ^ 36 ≤ a)

/-- Defects of the payload fields of an opcode: offset and whether the field is defective. -/
def payloadDefects (t : Nat) (d : Desc) : List (Nat × Bool) :=
  let a := fun k => d.f k 8
  let mis := fun k n => decide (a k % n ≠ 0)
  let bits := fun k m => decide (m ≤ d.b k)
  match t, d.opcode with
  | 1, 1 => [(0x20, mis 0x20 256 || far (a 0x20)), (0x28, mis 0x28 4096 || far (a 0x28)),
             (0x30, decide (d.f 0x30 4 % 4096 ≠ 0) || decide (d.f 0x30 4 < 65536) || decide (0x80000000 < d.f 0x30 4))]
  | 1, 2 => [(0x20, mis 0x20 256 || far (a 0x20)), (0x30, mis 0x30 16 || far (a 0x30))]
  | 1, 3 => [(0x01, d.secure), (0x28, mis 0x28 65536 || far (a 0x28))]
  | 1, 4 => [(0x01, d.secure), (0x28, mis 0x28 8 || far (a 0x28))]
  | 2, 1 => [(0x20, bits 0x20 4), (0x24, decide (d.f 0x24 4 = 0)), (0x28, bitSet (d.b 0x20) 0 && far (a 0x28)),
             (0x30, bitSet (d.b 0x20) 1 && far (a 0x30))]
  | 2, 2 => [(0x20, decide (d.b 0x20 ≠ 0) && decide (d.b 0x20 ≠ 2)), (0x24, decide (d.f 0x24 4 = 0)), (0x30, bitSet (d.b 0x20) 1 && far (a 0x30))]
  | 2, 3 => [(0x20, bits 0x20 4), (0x22, decide (d.f 0x22 2 = 0)), (0x24, decide (d.f 0x24 4 = 0)),
             (0x28, bitSet (d.b 0x20) 0 && far (a 0x28)), (0x30, bitSet (d.b 0x20) 1 && far (a 0x30))]
  | 2, 4 => [(0x22, bits 0x22 4), (0x23, bits 0x23 4), (0x28, bitSet (d.b 0x23) 0 && far (a 0x28)), (0x30, bitSet (d.b 0x23) 1 && far (a 0x30))]
  | 2, 5 => [(0x01, d.secure), (0x20, decide (d.b 0x20 ≠ 0) && decide (d.b 0x20 ≠ 2)), (0x28, mis 0x28 8 || (bitSet (d.b 0x20) 1 && far (a 0x28)))]
  | 3, 1 => [(0x21, bits 0x21 2), (0x28, mis 0x28 64 || (bitSet (d.b 0x21) 0 && far (a 0x28)))]
  | 3, 2 =>
    let g := decide (16 ≤ d.b 0x20)
    [(0x28, mis 0x28 256 || far (a 0x28)), (0x30, mis 0x30 256 || far (a 0x30) || (g && decide (a 0x30 ≠ 0))),
     (0x38, mis 0x38 256 || far (a 0x38) || (g && decide (a 0x38 ≠ 0)))]
  | 3, 3 => [(0x20, bits 0x20 16), (0x21, bits 0x21 2), (0x28, mis 0x28 64 || (bitSet (d.b 0x21) 0 && far (a 0x28)))]
  | 3, 7 => [(0x21, bits 0x21 4), (0x28, mis 0x28 64 || (bitSet (d.b 0x21) 0 && far (a 0x28)))]
  | 3, 8 => [(0x21, bits 0x21 2)]
  | 4, 1 => [(0x21, bits 0x21 4), (0x22, bits 0x22 4), (0x28, mis 0x28 16 || (bitSet (d.b 0x22) 0 && far (a 0x28)))]
  | 4, 2 => [(0x21, bits 0x21 4), (0x22, bits 0x22 4), (0x28, mis 0x28 16 || (bitSet (d.b 0x22) 0 && far (a 0x28)))]
  | 4, 3 => [(0x22, bits 0x22 3)]
  | 4, 4 => [(0x22, bits 0x22 2), (0x28, mis 0x28 16 || (bitSet (d.b 0x22) 0 && far (a 0x28)))]
  | _, 0 => [(0x01, d.secure)]
  | _, _ => []

/-- Defects of the common header (R158): offset and whether the field is defective. -/
def headerDefects (t : Nat) (d : Desc) : List (Nat × Bool) :=
  let gc := t = 1 || t = 2
  [(0x00, (payloadFields t d.opcode).isNone),
   (0x01, decide (32 ≤ d.flags) || (d.deadline && !gc) || (d.secure && !gc)),
   (0x04, !d.signal && decide (d.signalSlot ≠ 0)),
   (0x05, !d.wait && decide (d.waitSlot ≠ 0)),
   (0x06, decide (8 ≤ d.b 6) || (!d.deadline && decide (d.b 6 ≠ 0))),
   (0x07, decide (d.b 7 ≠ 0)),
   (0x08, !d.signal && decide (d.signalValue ≠ 0)),
   (0x10, !d.wait && decide (d.waitValue ≠ 0)),
   (0x18, !d.deadline && decide (d.dlFrame ≠ 0)),
   (0x1C, decide (d.f 0x1C 4 ≠ 0))]

/-- Reserved payload bytes that are not zero. -/
def reservedDefects (t : Nat) (d : Desc) : List (Nat × Bool) :=
  match payloadFields t d.opcode with
  | none => []
  | some fs => (List.range 32).map fun k =>
      let o := 0x20 + k
      (o, decide (d.b o ≠ 0) && !fs.any fun f => decide (f.1 ≤ o) && decide (o < f.1 + f.2))

/-- The offset of the first defect of a descriptor on a ring of type t. -/
def firstDefect (t : Nat) (d : Desc) : Option Nat :=
  (((headerDefects t d ++ payloadDefects t d ++ reservedDefects t d).filter Prod.snd).map Prod.fst).min?

/-! ## Deadlines at fetch (R168, R201) -/

/-- The 64-bit frame number of DL_FRAME: the nearest value not below the current one within 2^31 of it; a value just
behind it lies in the past (log entry 33). Rests on log entry 33 (DESIGN CHOICE). -/
def extendFrame (cur v : Nat) : Nat :=
  let up := (v + 2 ^ 32 - cur % 2 ^ 32) % 2 ^ 32
  if up ≤ 2 ^ 31 then cur + up else cur - (2 ^ 32 - up)

/-- Whether instance i owns head h or a layer assigned to it. -/
def State.seesHead (s : State) (i h : Nat) : Bool :=
  (decide ((s.p.head h).owner = i) && s.p.headUsed h) ||
    s.p.layers.any fun l => decide (l.owner = i) && decide (s.rd (layerBase l.layer) Reg.LAYER_ID_HEAD = h)

/-- A head that scans out and does not blank (R201). -/
def State.headShows (s : State) (h : Nat) : Bool :=
  decide (s.rd (headBase h) Reg.HEAD_STATE_LINK ≠ 0) &&
    !([3, 5, 6].contains (s.rd (headBase h) Reg.HEAD_STATE_CONTENT))

/-- Whether secure work is enabled for an instance: a valid SAVE window of at least 1,664 pages whose pages have owner 1
(R403, R404). -/
def State.secureOn (s : State) (i : Nat) : Bool :=
  s.sec.windows.any fun w => decide (w.2.inst = i) && w.2.save && decide (1664 ≤ w.2.pages) &&
    (List.range w.2.pages).all fun k => decide (ownerOf (s.entry (w.2.first + k)) = 1)

/-- What a fetched descriptor becomes: ended by a defect or a lack of permission, waiting on its fence, or ready. -/
def State.takeIn (s : State) (q : Nat) (d : Desc) : Desc :=
  let t := s.ringType q
  match firstDefect t d, s.ringInst q with
  | some off, _ => { d with phase := .done stBad off }
  | none, none => { d with phase := .done stNotPermitted 0 }
  | none, some i =>
    let work := (t = 1 ∧ (d.opcode = 1 ∨ d.opcode = 2)) ∨ (t = 2 ∧ 1 ≤ d.opcode ∧ d.opcode ≤ 4)
    if d.deadline ∧ work ∧ !s.seesHead i d.dlHead then { d with phase := .done stNotPermitted 6 }
    else if d.secure ∧ work ∧ !s.secureOn i then { d with phase := .done stNotPermitted 1 }
    else
      let cur := s.wideAt (headBase d.dlHead + Reg.HEAD_FRAME)
      let target := if d.deadline ∧ work ∧ s.headShows d.dlHead then some (extendFrame cur d.dlFrame) else none
      let passed := match target with | some f => if f ≤ s.latchedFrame d.dlHead then some s.now else none | none => none
      let waits := d.wait && decide ((s.fence i d.waitSlot).value < d.waitValue)
      { d with target := target, passed := passed, phase := if waits then .waiting else .ready }

/-- The bytes of a descriptor fetched from device DRAM. -/
def State.dramDesc (s : State) (q : Nat) : Got :=
  let fn := (s.ringOwner q).map Prod.fst |>.getD 0
  s.dramGet (Who.fn fn) (s.ringBaseAddr q + 64 * (s.devIdx q % s.entries q)) 64

/-- DESCRIPTOR_ARRIVE (R154, R156, R158): the entry that was being fetched arrives, or its fetch fails. -/
def doDescriptorArrive (s : State) (q : Nat) (w : BitVec 512) (st : ReadStatus) : State :=
  if !(s.ring q).fetching then s
  else
    let s := s.modRing q fun r => { r with fetching := false }
    let dram := decide (s.rda (ringBase q) Reg.RING_BASE_LO_LOC = 1)
    let got : Option (BitVec 512) :=
      if dram then (match s.dramDesc q with | .ok bs => some (BitVec.ofNat 512 (leNat bs)) | _ => none)
      else (match st with | .ok => some w | _ => none)
    let s := if dram ∧ s.dramDesc q = .refused then s.logRefused (Who.fn ((s.ringOwner q).map Prod.fst |>.getD 0)) else s
    match got with
    | none => if s.ringState q = running then s.haltRing q 4 Reg.RING_EVENT_FETCH_ERR else s.flushRing q
    | some w =>
      let idx := s.devIdx q
      let d := s.takeIn q { idx := idx, words := w }
      let s := s.put (ringBase q) Reg.RING_DEV_IDX_INDEX (idx + 1)
      let s := s.modRing q fun r => { r with fetched := r.fetched ++ [{ d with missed := d.passed.isSome }] }
      let s := if d.passed.isSome then s.missDeadline q d else s
      ((s.flushRing q).ringLook q).select

/-- FENCE_WAIT_SATISFIED (R164): the first waiting descriptor starts once its slot has reached the value. -/
def doFenceWait (s : State) (q : Nat) : State :=
  match (s.ring q).fetched.find? (fun d => decide (d.phase = .waiting)), s.ringInst q with
  | some d, some i =>
    if d.waitValue ≤ (s.fence i d.waitSlot).value then
      ((s.modDesc q d.idx fun d => { d with phase := .ready }).ringLook q).select
    else s
  | _, _ => s

/-- NOP (R157): nothing but its wait and its signal. -/
def doNop (s : State) (q : Nat) : State :=
  match s.nextReady q with
  | some d => if d.opcode = 0 then (s.finish q d.idx stOk 0).select else s
  | none => s

/-- MOD_TIMER_EXPIRE (R171): TIME_US after the oldest pending item. -/
def doModTimer (s : State) (q : Nat) : State :=
  let r := s.ring q
  let tim := s.rda (ringBase q) Reg.RING_MOD_TIME_US
  if r.pend ≠ 0 ∧ tim ≠ 0 ∧ s.ringType q ≠ 5 then (s.reach (r.firstPend + 1000 * tim)).checkItems q false else s

def execDb (w : Win) (slot : Fin 16) (v : Word) (s : State) : Host.Outcome State Fault Refusal := .next (settle s (doDb s w slot.val v.toNat))
def execDb64 (w : Win) (slot : Fin 16) (lo hi : Word) (s : State) : Host.Outcome State Fault Refusal := .next (settle s (doDb64 s w slot.val lo.toNat hi.toNat))
def execRingStart (q : Fin 256) (s : State) : Host.Outcome State Fault Refusal := .next (settle s (doRingStart s q.val))
def execRingStop (q : Fin 256) (s : State) : Host.Outcome State Fault Refusal := .next (settle s (doRingStop s q.val))
def execRingResume (q : Fin 256) (s : State) : Host.Outcome State Fault Refusal := .next (settle s (doRingResume s q.val))
def execRingDisable (q : Fin 256) (s : State) : Host.Outcome State Fault Refusal := .next (settle s (doRingDisable s q.val))
def execDescriptorFetch (q : Fin 256) (s : State) : Host.Outcome State Fault Refusal := .next (settle s (doDescriptorFetch s q.val))
/-- Rests on log entry 5 (DESIGN CHOICE). -/
def execDescriptorArrive (q : Fin 256) (d : BitVec 512) (st : ReadStatus) (s : State) : Host.Outcome State Fault Refusal := .next (settle s (doDescriptorArrive s q.val d st))
def execFenceWaitSatisfied (q : Fin 256) (s : State) : Host.Outcome State Fault Refusal := .next (settle s (doFenceWait s q.val))
def execNop (q : Fin 256) (s : State) : Host.Outcome State Fault Refusal := .next (settle s (doNop s q.val))
def execModTimerExpire (q : Fin 256) (s : State) : Host.Outcome State Fault Refusal := .next (settle s (doModTimer s q.val))

end Sys2Proof.Machine
end

