-- ==== Sys2Proof/Machine/Haptics.lean ====
section
/-!
DEFINITION. Haptic channels (R472 to R483): effects, overdrive and braking, calibration and test, faults and recovery,
and triggers.
-/
namespace Sys2Proof.Machine

/-! ## A channel (R473, R485) -/

def hapOff : Nat := 0
def hapCalibrating : Nat := 1
def hapReadySt : Nat := 2
def hapDriving : Nat := 3
def hapBraking : Nat := 4
def hapTesting : Nat := 5
def hapFaulted : Nat := 6
def hapRecovering : Nat := 7

def State.hapState (s : State) (a : Nat) : Nat := s.rd (hapChB a) Reg.HAPCH_STATUS_STATE
def State.hapRecOf (s : State) (a : Nat) : HapRec := (s.p.hapRec a).getD {}
/-- The slot of the effect running on a channel, or the empty slot. -/
def State.hapSlot (s : State) (a : Nat) : SlotRec := (s.p.slotRec (s.rd (hapChB a) Reg.HAPCH_STATUS_SLOT)).getD {}

/-- HAP_STATUS and STATUS[WAITING] follow the channel. -/
def State.hapLook (s : State) (a : Nat) : State :=
  let bit := fun (n : Nat) (f : Fld) (v : Bool) (s : State) => s.put hapB f (setBit (s.rd hapB f) n v)
  bit a Reg.HAP_STATUS_READY (decide (s.hapState a = hapReadySt))
    (bit a Reg.HAP_STATUS_FAULT (decide (s.hapState a = hapFaulted))
      (s.put (hapChB a) Reg.HAPCH_STATUS_WAITING (s.hapOf a).waiting.isSome.toNat))
def State.setHapState (s : State) (a st : Nat) : State := (s.put (hapChB a) Reg.HAPCH_STATUS_STATE st).hapLook a

/-- A trigger that is not played. -/
def State.hapDrop (s : State) (a : Nat) : State := s.count (hapChB a + Reg.HAPCH_DROPPED) 1
/-- A waiting trigger is discarded. -/
def State.hapDiscard (s : State) (a : Nat) : State :=
  if (s.hapOf a).waiting.isSome then ((s.modHapOf a fun x => { x with waiting := none }).hapDrop a).hapLook a else s

/-- Whether the owner of a channel is READY (R482). -/
def State.hapOwnerReady (s : State) (a : Nat) : Bool := decide (s.instState (s.hapRecOf a).owner = ready)

/-! ## Drive (R472, R475) -/

def State.hapMuted (s : State) (a : Nat) : Bool := decide (s.rda (hapChB a) Reg.HAPCH_LEVEL_MUTE = 1)

/-- The drive of a channel: a voltage scaled by STRENGTH, at most the bridge supply, in the polarity of the half-cycle or against it. -/
def State.hapDrive (s : State) (a v : Nat) (anti : Bool) : State :=
  let r := s.hapRecOf a
  let m := if s.hapMuted a then 0 else min r.bridgeMv (v * s.rda (hapChB a) Reg.HAPCH_LEVEL_STRENGTH / 100)
  let neg := Bool.xor (Bool.xor (s.hapOf a).polarity anti) (bitSet r.flags 0)
  s.modHapOf a fun x => { x with driveMv := if neg then -(m : Int) else (m : Int), enable := true }

/-- The bridge inputs low and HAP_a_EN low. -/
def State.hapRest (s : State) (a : Nat) : State :=
  s.modHapOf a fun x => { x with driveMv := 0, enable := false, ending := false, cut := none, odHalf := 0, brakeHalf := 0, openFor := 0, stallFor := 0 }

/-- The frame's boundary: an armed HAP_a_LEVEL applies, or waits where ARM came less than 21 µs ago (R98, R99).
Rests on log entry 99 (DESIGN CHOICE). -/
def State.hapBoundary (s : State) (a : Nat) : State :=
  let b := hapChB a
  if !s.armed b then s
  else if s.now < KMap.get (fun _ => 0) s.armAt b + 21000 then s.raiseErr b Reg.ERR_LATE
  else match s.reservedShadow b with
    | some off => s.refuseApply b 0x02 off
    | none => s.applyFrame b

/-- Overdrive half-cycles of a segment of target amplitude A (R475). -/
def State.overdriveHalf (s : State) (a amp : Nat) : Nat :=
  let r := s.hapRecOf a
  let target := amp * r.bemfRatedMv / 1000
  if target = 0 then 0 else (2 * r.odCycles * (target - min target (s.hapOf a).amp) + target - 1) / target

/-- A brake begins; `ending` where the effect ends with it. -/
def State.hapBrake (s : State) (a : Nat) (ending : Bool) : State :=
  let s := (s.hapBoundary a).modHapOf a fun x => { x with brakeHalf := 0, odHalf := 0, ending := ending }
  (s.setHapState a hapBraking).hapDrive a (s.hapRecOf a).overdriveMv true

/-- A segment begins: a zero one brakes, one after rest or a zero segment begins with overdrive, another one steps. -/
def State.beginSeg (s : State) (a : Nat) (seg : Nat × Nat) (fromRest : Bool) : State :=
  let slot := s.hapSlot a
  let r := s.hapRecOf a
  if seg.1 = 0 then
    (if bitSet slot.flags 1 then ((s.hapBoundary a).setHapState a hapDriving).hapDrive a 0 false else s.hapBrake a false)
  else
    let s := (s.hapBoundary a).setHapState a hapDriving
    let od := if fromRest && !bitSet slot.flags 0 then s.overdriveHalf a seg.1 else 0
    let s := s.modHapOf a fun x => { x with odHalf := od, stallFor := 0, openFor := 0 }
    s.hapDrive a (if od = 0 then seg.1 * r.ratedMv / 1000 else r.overdriveMv) false

/-- An effect starts on a channel. A muted channel drives nothing and the trigger counts as taken. -/
def State.startEffect (s : State) (a slot : Nat) : State :=
  match s.p.slotRec slot with
  | none => s
  | some r =>
    let b := hapChB a
    let s := s.count (b + Reg.HAPCH_EFFECTS) 1
    if s.hapMuted a then s
    else
      let s := (s.put b Reg.HAPCH_STATUS_SLOT slot).put b Reg.HAPCH_STATUS_PRIORITY r.priority
      let s := s.modHapOf a fun x => { x with seg := 0, half := 0, cycles := 0, ending := false, cut := none }
      s.beginSeg a ((r.segs.head?).getD (0, 0)) true

/-- Calibration starts with the 5 % DC drive (R478). -/
def State.startCalibration (s : State) (a st : Nat) : State :=
  let s := s.modHapOf a fun x =>
    { x with calPending := false, recalibrate := false, recCal := false, enable := true, driveMv := ((s.hapRecOf a).bridgeMv * 5 / 100 : Nat) }
  s.setHapState a st

/-- The part of a structure-keeping apply that a channel takes at its effect boundary: its record, and with the last channel the
slots (R72, R483). -/
def State.takeHap (s : State) (a : Nat) : State :=
  match s.partDue (hapPart a) with
  | none => s
  | some p =>
    let s := s.setPlan fun q => { q with haps := q.haps.filter (fun r => decide (r.channel ≠ a)) ++ p.haps.filter (fun r => decide (r.channel = a)) }
    let s := (s.modHapOf a fun x => { x with recalibrate := true }).partTaken (hapPart a)
    if s.boot.parts / 2 ^ 24 = 0 then s.setPlan fun q => { q with slots := p.slots } else s

/-- The channel becomes READY: a calibration that waits runs first, then a waiting trigger starts. -/
def State.hapBecomesReady (s : State) (a : Nat) : State :=
  let s := ((s.hapBoundary a).hapRest a).takeHap a
  let s := (s.put (hapChB a) Reg.HAPCH_STATUS_SLOT 0xFF).put (hapChB a) Reg.HAPCH_STATUS_PRIORITY 0
  let x := s.hapOf a
  if x.recalibrate || x.calPending then s.startCalibration a hapCalibrating
  else
    let s := s.setHapState a hapReadySt
    match x.waiting with
    | none => s.modHapOf a fun x => { x with amp := 0 }
    | some sl =>
      let s := (s.modHapOf a fun x => { x with waiting := none }).hapLook a
      if s.hapOwnerReady a then s.startEffect a sl else s.hapDrop a

/-- The effect ends: with a brake, or at once. -/
def State.endEffect (s : State) (a : Nat) : State :=
  if bitSet (s.hapSlot a).flags 1 then s.hapBecomesReady a else s.hapBrake a true

/-- A running effect ends with its brake: STOP, and the owner quiesced, reset or lost (R483, R485). -/
def State.hapEnd (s : State) (a : Nat) : State :=
  if s.hapState a = hapDriving then s.endEffect a
  else if s.hapState a = hapBraking then s.modHapOf a fun x => { x with ending := true, cut := none }
  else s

/-- The channels of an owner that is quiesced, reset or lost (R483). -/
def State.hapOwnerGone (s : State) (i : Nat) : State :=
  s.each (s.p.haps.filter fun r => decide (r.owner = i)) fun s r => s.hapEnd r.channel

/-! ## Faults (R480, R481) -/

/-- A haptic actuator fault; `inj` for an injected one, with its SUPPRESS_STOP. -/
def State.hapFault (s : State) (a cause : Nat) (inj : Option Bool := none) : State :=
  let b := hapChB a
  let again := decide (s.hapState a = hapRecovering)
  let s := (s.hapRest a).hapDiscard a
  let s := (((s.put b Reg.HAPCH_STATUS_CAUSE cause).put b Reg.HAPCH_STATUS_SLOT 0xFF).put b Reg.HAPCH_STATUS_PRIORITY 0).setHapState a hapFaulted
  let s := if again then s.put b Reg.HAPCH_STATUS_RETRIES (min 3 (s.rd b Reg.HAPCH_STATUS_RETRIES + 1)) else s
  let s := (((s.count (b + Reg.HAPCH_FAULTS) 1).raise b Reg.HAPCH_EVENT_FAULT).raise hapB Reg.HAP_EVENT_FAULT).modHapOf a fun x =>
    { x with calPending := false, recCal := false }
  (s.fault srcHaptic { index := a, injected := inj.isSome, suppress := inj.getD false }).takeHap a

/-! ## Triggers (R477, R482) -/

def hapStarted : Nat := 1
def hapWaits : Nat := 2
def hapNotPermitted : Nat := 3
def hapNotReady : Nat := 4
def hapBadSlot : Nat := 5

/-- The trigger waits; it replaces one that waited. -/
def State.hapWait (s : State) (a slot : Nat) : State :=
  let s := if (s.hapOf a).waiting.isSome then s.hapDrop a else s
  (s.modHapOf a fun x => { x with waiting := some slot }).hapLook a

/-- A trigger of a slot on a channel: the state and its RESULT. -/
def State.hapTake (s : State) (a slot : Nat) : State × Nat :=
  let st := s.hapState a
  let live := decide (st = hapReadySt) || decide (st = hapDriving) || decide (st = hapBraking)
  if !live || !s.hapOwnerReady a then (s, hapNotReady)
  else match s.p.slotRec slot with
    | none => (s, hapBadSlot)
    | some r =>
      if st = hapReadySt then (s.startEffect a slot, hapStarted)
      else
        let cur := match (s.hapOf a).cut with
          | some c => ((s.p.slotRec c).getD {}).priority
          | none => s.rd (hapChB a) Reg.HAPCH_STATUS_PRIORITY
        if r.priority < cur then (s.hapWait a slot, hapWaits)
        else if st = hapDriving then
          (((s.count (hapChB a + Reg.HAPCH_RETRIGGERS) 1).raise (hapChB a) Reg.HAPCH_EVENT_RETRIGGER).startEffect a slot, hapStarted)
        else
          let s := if (s.hapOf a).cut.isSome then s.hapDrop a else s
          (s.modHapOf a fun x => { x with cut := some slot }, hapStarted)

/-- HAP_TRIG of instance i (R482). -/
def doHapTrig (s : State) (i v : Nat) : State :=
  if !s.answers (fnOfInst i) then s
  else
    let a := bitsOf v 8 3
    let w := winBase i
    let own := match s.p.hapRec a with | some r => decide (r.owner = i) | none => false
    let (s, r) := if own then s.hapTake a (bitsOf v 0 7) else (s, hapNotPermitted)
    (s.put w Reg.HAP_TRIG_RESULT_RESULT r).put w Reg.HAP_TRIG_RESULT_CHANNEL a

/-- HAP_a_TRIGGER of the manager (R482). -/
def State.hapTriggerNow (s : State) (a v : Nat) : State :=
  let (s, r) := s.hapTake a (bitsOf v 0 7)
  (s.put (hapChB a) Reg.HAPCH_TRIG_RESULT_RESULT r).put (hapChB a) Reg.HAPCH_TRIG_RESULT_CHANNEL a

def doHapTrigger (s : State) (a v : Nat) : State := s.mgrReach (off := hapChB a + 0x18) fun s => s.hapTriggerNow a v

/-! ## Commands of the manager (R485) -/

/-- CALIBRATE: on a READY channel at once, while an effect runs when the channel is READY (R478). -/
def State.hapCalibrateNow (s : State) (a : Nat) : State :=
  let st := s.hapState a
  if st = hapReadySt then s.startCalibration a hapCalibrating
  else if st = hapDriving ∨ st = hapBraking then s.modHapOf a fun x => { x with calPending := true }
  else s

def doHapCalibrate (s : State) (a : Nat) : State := s.mgrReach (off := hapChB a + 0x0C) fun s => s.hapCalibrateNow a

/-- TEST: ignored unless READY (R479). -/
def State.hapTestNow (s : State) (a : Nat) : State :=
  if s.hapState a = hapReadySt then (s.setHapState a hapTesting).hapDrive a (s.hapRecOf a).ratedMv false else s

def doHapTest (s : State) (a : Nat) : State := s.mgrReach (off := hapChB a + 0x0C) fun s => s.hapTestNow a

/-- RECOVER: from FAULT; RETRIES clears (R481). -/
def State.hapRecoverNow (s : State) (a : Nat) : State :=
  if s.hapState a = hapFaulted then (s.put (hapChB a) Reg.HAPCH_STATUS_RETRIES 0).startCalibration a hapRecovering else s

def doHapRecover (s : State) (a : Nat) : State := s.mgrReach (off := hapChB a + 0x0C) fun s => s.hapRecoverNow a

/-- STOP: the effect ends with its brake and a waiting trigger is discarded. -/
def State.hapStopNow (s : State) (a : Nat) : State := (s.hapDiscard a).hapEnd a

def doHapStop (s : State) (a : Nat) : State := s.mgrReach (off := hapChB a + 0x0C) fun s => s.hapStopNow a

/-! ## Events of the actuator -/

/-- The drive of the half-cycle that begins in a segment. -/
def State.segDrive (s : State) (a : Nat) : State :=
  let x := s.hapOf a
  let r := s.hapRecOf a
  match (s.hapSlot a).segs[x.seg]? with
  | none => s
  | some seg => s.hapDrive a (if seg.1 = 0 then 0 else if x.odHalf = 0 then seg.1 * r.ratedMv / 1000 else r.overdriveMv) false

/-- The segment after the one whose cycles have been driven, or the end of the effect. -/
def State.nextSeg (s : State) (a : Nat) : State :=
  let x := s.hapOf a
  let slot := s.hapSlot a
  let zero := match slot.segs[x.seg]? with | some g => decide (g.1 = 0) | none => true
  let s := s.modHapOf a fun x => { x with seg := x.seg + 1, half := 0 }
  if slot.segments ≤ x.seg + 1 then s.endEffect a
  else match slot.segs[x.seg + 1]? with
    | some g => s.beginSeg a g zero
    | none => s.endEffect a

/-- Whether the running segment has had its cycles. -/
def State.segDone (s : State) (a : Nat) : Bool :=
  match (s.hapSlot a).segs[(s.hapOf a).seg]? with
  | some g => decide (2 * g.2 ≤ (s.hapOf a).half)
  | none => true

/-- A brake ends: below 10 % of the rated back-EMF, or after BRAKE_MAX cycles (R475). -/
def State.brakeOver (s : State) (a : Nat) : Bool :=
  let r := s.hapRecOf a
  decide (10 * (s.hapOf a).amp < r.bemfRatedMv) || decide (2 * r.brakeMax ≤ (s.hapOf a).brakeHalf)

/-- The amplitude the effect's segment aims at, in mV of e. -/
def State.expectedAmp (s : State) (a : Nat) : Nat :=
  match (s.hapSlot a).segs[(s.hapOf a).seg]? with
  | some g => g.1 * (s.hapRecOf a).bemfRatedMv * s.rda (hapChB a) Reg.HAPCH_LEVEL_STRENGTH / 100000
  | none => 0

/-- BEMF_ZERO_CROSSING (R475, R476): the half-cycle ends and the polarity flips. In closed loop the drive of the next half-cycle is a
value the spec does not give, at most OVERDRIVE_MV. Rests on log entry 100 (DESIGN CHOICE). -/
def doZeroCrossing (s : State) (a amp : Nat) : State :=
  let st := s.hapState a
  if st = hapOff ∨ st = hapReadySt ∨ st = hapFaulted then s
  else
    let s := s.modHapOf a fun x => { x with amp := amp, polarity := !x.polarity, half := x.half + 1, odHalf := x.odHalf - 1, cycles := x.cycles + 1 }
    if st = hapDriving then (if s.segDone a then s.nextSeg a else s.segDrive a)
    else if st = hapBraking then
      let s := s.modHapOf a fun x => { x with brakeHalf := x.brakeHalf + 1 }
      match (s.hapOf a).cut with
      | some sl =>
        let s := s.modHapOf a fun x => { x with cut := none }
        ((s.count (hapChB a + Reg.HAPCH_RETRIGGERS) 1).raise (hapChB a) Reg.HAPCH_EVENT_RETRIGGER).startEffect a sl
      | none =>
        if (s.hapOf a).ending then (if s.brakeOver a then s.hapBecomesReady a else s.hapDrive a (s.hapRecOf a).overdriveMv true)
        else if s.segDone a then s.nextSeg a
        else if s.brakeOver a then (s.setHapState a hapDriving).hapDrive a 0 false
        else s.hapDrive a (s.hapRecOf a).overdriveMv true
    else
      let (v, s) := s.takeFree 16
      s.hapDrive a (v % ((s.hapRecOf a).overdriveMv + 1)) false

/-- The resistance test (R480). -/
def resistanceCause (r : HapRec) (mohm : Nat) : Nat := if r.rMax < mohm then 1 else if mohm < r.rMin then 2 else 0

/-- CALIBRATION_DONE (R478, R481). -/
def doCalibrationDone (s : State) (a fRes rDc : Nat) (atEnd : Bool) : State :=
  let st := s.hapState a
  if st ≠ hapCalibrating ∧ (st ≠ hapRecovering ∨ (s.hapOf a).recCal) then s
  else
    let c := resistanceCause (s.hapRecOf a) rDc
    if c ≠ 0 then s.hapFault a c
    else if atEnd then s.hapFault a 4
    else
      let b := hapChB a
      let s := ((s.put b Reg.HAPCH_CAL_F_RES fRes).put b Reg.HAPCH_CAL_R_DC rDc).raise b Reg.HAPCH_EVENT_CAL_DONE
      if st = hapCalibrating then s.hapBecomesReady a
      else (s.modHapOf a fun x => { x with recCal := true }).hapDrive a (s.hapRecOf a).ratedMv false

/-- TEST_DONE (R479, R481). -/
def doTestDone (s : State) (a : Nat) (settled : Bool) : State :=
  let st := s.hapState a
  if st ≠ hapTesting ∧ (st ≠ hapRecovering ∨ !(s.hapOf a).recCal) then s
  else if !settled then s.hapFault a 5
  else
    let b := hapChB a
    let s := s.raise b Reg.HAPCH_EVENT_TEST_DONE
    let s := if st = hapRecovering then
        (((s.put b Reg.HAPCH_STATUS_CAUSE 0).put b Reg.HAPCH_STATUS_RETRIES 0).raise b Reg.HAPCH_EVENT_RECOVERED).clearPersist srcHaptic a
      else s
    (s.modHapOf a fun x => { x with recCal := false }).hapBecomesReady a

/-- HAP_IDLE_PROBE (R480, R508). -/
def doHapIdleProbe (s : State) (a mohm : Nat) : State :=
  if s.hapState a ≠ hapReadySt then s
  else match (s.hapOf a).injected with
    | some q => (s.modHapOf a fun x => { x with injected := none }).hapFault a 1 (some q)
    | none =>
      let c := resistanceCause (s.hapRecOf a) mohm
      if c = 0 then s else s.hapFault a c

/-- Whether the bridge is driven. -/
def State.hapActive (s : State) (a : Nat) : Bool :=
  let st := s.hapState a
  decide (st ≠ hapOff) && decide (st ≠ hapFaulted)

/-- HAP_OVERCURRENT (R480). -/
def doHapOvercurrent (s : State) (a : Nat) : State := if s.hapActive a then s.hapFault a 2 else s

/-- SENSE_SAMPLE (R472, R480): the back-EMF estimate, and the conditions tested at 48 kS/s.
Rests on log entry 100 (DESIGN CHOICE). -/
def doSenseSample (s : State) (a : Nat) (mv ma : Int) : State :=
  if !s.hapActive a then s
  else
    let r := s.hapRecOf a
    let x := s.hapOf a
    let st := s.hapState a
    let i := ma.natAbs
    let drives := decide (st ≠ hapReadySt)
    let low := drives && decide (r.bridgeMv ≤ 5 * x.driveMv.natAbs) && decide (i * r.rMax * 50 < 1000 * r.ratedMv)
    let want := s.expectedAmp a
    let stall := decide (st = hapDriving) && decide (4 ≤ x.cycles) && decide (want ≠ 0) && decide (5 * x.amp < want)
    let s := s.modHapOf a fun y =>
      { y with bemf := mv - ma * (s.rd (hapChB a) Reg.HAPCH_CAL_R_DC : Nat) / 1000
               openFor := if low then y.openFor + 1 else 0, stallFor := if stall then y.stallFor + 1 else 0 }
    let y := s.hapOf a
    if drives && decide (r.iMaxMa < i) then s.hapFault a 2
    else if 48 ≤ y.openFor then s.hapFault a 1
    else if 192 ≤ y.stallFor then s.hapFault a 3
    else s

/-- HAP_RECOVERY_TIMER (R481): not after three failed recoveries in a row. -/
def doHapRecoveryTimer (s : State) (a : Nat) : State :=
  if s.hapState a = hapFaulted ∧ s.rd (hapChB a) Reg.HAPCH_STATUS_RETRIES < 3 then s.startCalibration a hapRecovering else s

def execHapTrig (i : Fin 64) (v : Word) (s : State) : Host.Outcome State Fault Refusal := .next (settle s (doHapTrig s i.val v.toNat))
def execHapTrigger (a : Fin 8) (v : Word) (s : State) : Host.Outcome State Fault Refusal := .next (settle s (doHapTrigger s a.val v.toNat))
def execHapCalibrate (a : Fin 8) (s : State) : Host.Outcome State Fault Refusal := .next (settle s (doHapCalibrate s a.val))
def execHapTest (a : Fin 8) (s : State) : Host.Outcome State Fault Refusal := .next (settle s (doHapTest s a.val))
def execHapRecover (a : Fin 8) (s : State) : Host.Outcome State Fault Refusal := .next (settle s (doHapRecover s a.val))
def execHapStop (a : Fin 8) (s : State) : Host.Outcome State Fault Refusal := .next (settle s (doHapStop s a.val))
def execBemfZeroCrossing (a : Fin 8) (amplitudeMv : BitVec 16) (s : State) : Host.Outcome State Fault Refusal := .next (settle s (doZeroCrossing s a.val amplitudeMv.toNat))
def execCalibrationDone (a : Fin 8) (fRes rDc : BitVec 16) (atEnd : Bool) (s : State) : Host.Outcome State Fault Refusal := .next (settle s (doCalibrationDone s a.val fRes.toNat rDc.toNat atEnd))
def execTestDone (a : Fin 8) (settled : Bool) (s : State) : Host.Outcome State Fault Refusal := .next (settle s (doTestDone s a.val settled))
def execHapIdleProbe (a : Fin 8) (rMohm : BitVec 16) (s : State) : Host.Outcome State Fault Refusal := .next (settle s (doHapIdleProbe s a.val rMohm.toNat))
def execHapOvercurrent (a : Fin 8) (s : State) : Host.Outcome State Fault Refusal := .next (settle s (doHapOvercurrent s a.val))
def execHapRecoveryTimer (a : Fin 8) (s : State) : Host.Outcome State Fault Refusal := .next (settle s (doHapRecoveryTimer s a.val))
def execSenseSample (a : Fin 8) (mv ma : BitVec 16) (s : State) : Host.Outcome State Fault Refusal := .next (settle s (doSenseSample s a.val mv.toInt ma.toInt))

end Sys2Proof.Machine
end

