-- ==== Sys2Proof/Machine/Worlds.lean ====
section
/-!
DEFINITION. Secure and normal worlds (chapter 11): page release and scrubbing, service calls, debug certificates, the
secure world's hang and reboot.
-/
namespace Sys2Proof.Machine

/-! ## Releasing pages (R174, R175, R387, R402) -/

/-- A page becomes free. -/
def State.freePage (s : State) (p : Nat) : State := s.setPage p 0

/-- A page is released: at once, or once its reference has ended and its scrub is done (R402). `cause` is 0 for a call,
instance + 1 for a reset, 65 for a hang. -/
def State.releasePage (s : State) (p : Nat) (scrub : Bool) (cause : Nat) : State :=
  if s.sec.releases.any fun r => decide (r.page = p) then s
  else if s.pinned p || scrub then { s with sec := { s.sec with releases := s.sec.releases ++ [{ page := p, scrub := scrub, cause := cause }] } }
  else s.freePage p

def State.endRelease (s : State) (p : Nat) : State :=
  State.freePage { s with sec := { s.sec with releases := s.sec.releases.filter fun r => decide (r.page ≠ p) } } p

/-- Zero data over a whole page (R387). -/
def State.zeroPage (s : State) (p : Nat) : State := s.dramWrite (p * 4096) (List.replicate 4096 0)

/-- PIN_RELEASE: the page's last reference has ended; a waiting release that needs no scrub frees it (R402). -/
def doPinRelease (s : State) (p : Nat) : State :=
  match s.sec.releases.find? fun r => decide (r.page = p) with
  | some r => if s.pinned p || r.scrub then s else s.endRelease p
  | none => s

/-- PAGE_SCRUB_DONE: zero data over the page, and it becomes free. -/
def doPageScrubDone (s : State) (p : Nat) : State :=
  match s.sec.releases.find? fun r => decide (r.page = p) with
  | some r => if s.pinned p || !r.scrub then s else (s.zeroPage p).endRelease p
  | none => s

/-- Every page with a given owner that the table lists. -/
def State.pagesOwned (s : State) (o : Nat) : List Nat := (s.pot.filter fun e => decide (ownerOf e.2 = o)).map Prod.fst

/-! ## Calls (R408 to R410) -/

/-- The call block of a caller, and its owner value. -/
def callBase : FnId → Nat
  | .mgr => secB + 0x100
  | .sub => winBase 64 + 0x3100
  | .vf i => winBase i.val + 0x3100
def ownerVal : FnId → Nat
  | .mgr => 3
  | .sub => 4
  | .vf i => 16 + i.val

def callOk : Nat := 0x00
def callUnavailable : Nat := 0x01
def callNotPermitted : Nat := 0x02
def callQuota : Nat := 0x03
def callNotFree : Nat := 0x04
def callBadArgs : Nat := 0x05
def callPendingPin : Nat := 0x06
def callBusy : Nat := 0x07
def callCertRefused : Nat := 0x08
def callInhibited : Nat := 0x09

def State.callX (s : State) (c : FnId) : CallX := KMap.get (fun _ => ({} : CallX)) s.sec.calls (fnNum c)
def State.setCallX (s : State) (c : FnId) (x : CallX) : State :=
  { s with sec := { s.sec with calls := KMap.set (fun _ => ({} : CallX)) s.sec.calls (fnNum c) x } }
def State.arg (s : State) (c : FnId) (k : Nat) : Nat := s.rd (callBase c + 4 * k) Reg.CALL_ARG_ARG
def State.putRet (s : State) (c : FnId) (k v : Nat) : State := s.put (callBase c + 4 * k) Reg.CALL_RET_RET v

/-- A call ends: BUSY clear, DONE, its result, and the vector it asked for. -/
def State.endCall (s : State) (c : FnId) (result : Nat) : State :=
  let b := callBase c
  let s := (((s.put b Reg.CALL_STATUS_BUSY 0).put b Reg.CALL_STATUS_DONE 1).put b Reg.CALL_STATUS_RESULT result).setCallX c {}
  if s.rd b Reg.CALL_CMD_IRQ = 1 then s.raiseVec (fnNum c) (if c = .mgr then 0 else s.rd b Reg.CALL_CMD_VECTOR) else s

/-- Whether the caller's call block exists and is reached. -/
def State.caller (s : State) (c : FnId) : Bool :=
  s.applied && (match c with | .mgr => true | .sub => s.subExists | .vf i => s.p.has i.val)

/-- A call starts (R409): GO while BUSY only changes RESULT; while the secure world is not RUNNING it ends
UNAVAILABLE; otherwise `run` checks it and carries it out. -/
def State.startCall (s : State) (c : FnId) (svc : Nat) (run : State → State) : State :=
  let b := callBase c
  if !s.caller c then s
  else if s.rd b Reg.CALL_STATUS_BUSY = 1 then s.put b Reg.CALL_STATUS_RESULT callBusy
  else
    let s := ((s.put b Reg.CALL_CMD_SERVICE svc).put b Reg.CALL_STATUS_BUSY 1).setCallX c { service := svc, since := s.now }
    if s.rd secB Reg.SEC_STATE_STATE = 1 then run s else s.endCall c callUnavailable

/-- Whether an owner exists, and whether a caller may name it (R409). -/
def State.ownerExists (s : State) (o : Nat) : Bool :=
  decide (o = 3) || (decide (o = 4) && s.subExists) || (decide (16 ≤ o) && decide (o < 80) && s.p.has (o - 16))
def State.mayName (s : State) (c : FnId) (o : Nat) : Bool :=
  s.ownerExists o && (match c with
    | .mgr => true
    | .sub => decide (o = 4) || (decide (16 ≤ o) && decide (s.fnPort (o - 14) = otherPort s.mgrPort))
    | .vf i => decide (o = 16 + i.val))

/-- The first index for which a test holds. -/
def firstIdx (n : Nat) (f : Nat → Bool) : Option Nat := (List.range n).find? f

/-- The entries of a page call that passed its checks wait for their commit (R401, R410). -/
def State.batchCall (s : State) (c : FnId) (l : List (Nat × Nat)) (pins : Bool) : State :=
  s.setCallX c { s.callX c with batch := l, pins := pins }

/-- A failed page call: its cause and the index of the first failing page. -/
def State.failCall (s : State) (c : FnId) (result idx : Nat) : State := (s.putRet c 0 idx).endCall c result

/-- Common checks of page number and count (R409, R410): none passes, some fails with the index of a page.
Rests on log entry 89 (DESIGN CHOICE). -/
def State.pageArgs (s : State) (c : FnId) : Option Nat :=
  let p := s.arg c 0 % 2 ^ 24
  let n := s.arg c 1
  if n = 0 ∨ 4096 < n then some 0 else firstIdx n fun k => decide (s.usable ≤ (p + k) * 4096)

/-- PAGE_ASSIGN (R409). Rests on log entry 89 (DESIGN CHOICE). -/
def State.pageAssign (s : State) (c : FnId) : State := s.startCall c 0x01 fun s =>
  let p := s.arg c 0 % 2 ^ 24
  let n := s.arg c 1
  let o := if s.arg c 2 = 0 then ownerVal c else s.arg c 2
  let f := s.arg c 3
  if 8 ≤ f ∨ 1024 ≤ o ∨ ownerReserved o then s.failCall c callBadArgs 0
  else match s.pageArgs c with
  | some k => s.failCall c callBadArgs k
  | none =>
    if !s.mayName c o then s.failCall c callNotPermitted 0
    else match firstIdx n fun k => decide (ownerOf (s.entry (p + k)) ≠ 0) with
    | some k => s.failCall c callNotFree k
    | none =>
      let quota := (s.p.inst (o - 16)).map InstRec.pageQuota |>.getD 0
      if 16 ≤ o ∧ quota < (s.pagesOwned o).length + n then s.failCall c callQuota 0
      else (s.putRet c 0 0).batchCall c ((List.range n).map fun k => (p + k, o + 1024 * f)) false

/-- PAGE_RELEASE (R402, R409): an entry of owner 0 in the batch stands for a release.
Rests on log entry 89 (DESIGN CHOICE). -/
def State.pageRelease (s : State) (c : FnId) : State := s.startCall c 0x02 fun s =>
  let p := s.arg c 0 % 2 ^ 24
  let n := s.arg c 1
  match s.pageArgs c with
  | some k => s.failCall c callBadArgs k
  | none =>
    match firstIdx n fun k => !s.mayName c (ownerOf (s.entry (p + k))) with
    | some k => s.failCall c callNotFree k
    | none => (s.putRet c 0 0).batchCall c ((List.range n).map fun k => (p + k, 0)) ((List.range n).any fun k => s.pinned (p + k))

/-- PAGE_FLAGS (R409). Rests on log entry 89 (DESIGN CHOICE). -/
def State.pageFlags (s : State) (c : FnId) : State := s.startCall c 0x03 fun s =>
  let p := s.arg c 0 % 2 ^ 24
  let n := s.arg c 1
  let f := s.arg c 3
  if 8 ≤ f then s.failCall c callBadArgs 0
  else match s.pageArgs c with
  | some k => s.failCall c callBadArgs k
  | none =>
    match firstIdx n fun k => !s.mayName c (ownerOf (s.entry (p + k))) with
    | some k => s.failCall c callNotFree k
    | none => (s.putRet c 0 0).batchCall c ((List.range n).map fun k => (p + k, ownerOf (s.entry (p + k)) + 1024 * f)) false

/-- The entry as a query shows it, with PINNED. -/
def State.shownEntry (s : State) (p : Nat) : Nat :=
  if s.potBase ≤ p * 4096 then 1 + 2 ^ 13 else setBit (s.page p) 13 (s.pinned p)

/-- PAGE_QUERY (R409). -/
def State.pageQuery (s : State) (c : FnId) : State := s.startCall c 0x04 fun s =>
  let p := s.arg c 0 % 2 ^ 24
  if s.usable ≤ p * 4096 then s.failCall c callBadArgs 0
  else (s.putRet c 0 (if s.mayName c (ownerOf (s.entry p)) then s.shownEntry p else 0)).endCall c callOk

/-- Whether a page of a batch still allows the change it was checked for. Rests on log entry 90 (DESIGN CHOICE). -/
def State.batchOk (s : State) (svc : Nat) (e : Nat × Nat) : Bool :=
  if svc = 1 then decide (ownerOf (s.entry e.1) = 0) else decide (ownerOf (s.entry e.1) ≠ 0)

/-- POT_BATCH_COMMIT (R401, R402, R410): the whole batch in one update, and the call's DONE.
Rests on log entry 90 (DESIGN CHOICE). -/
def doPotBatchCommit (s : State) (c : FnId) : State :=
  let x := s.callX c
  if x.batch = [] ∨ s.rd (callBase c) Reg.CALL_STATUS_BUSY = 0 then s
  else match firstIdx x.batch.length fun k => match x.batch[k]? with | some e => !s.batchOk x.service e | none => false with
  | some k => s.failCall c callNotFree k
  | none =>
    let s := s.each x.batch fun s e =>
      if x.service = 2 then
        let old := s.entry e.1
        let unclean := decide (16 ≤ ownerOf old) && decide (s.rd (instBase (ownerOf old - 16)) Reg.INST_STATUS_RESET_UNCLEAN = 1)
        s.releasePage e.1 (pScrub old || unclean) 0
      else s.setPage e.1 e.2
    s.endCall c (if x.pins then callPendingPin else callOk)

/-! ## Debug certificates (R416 to R419) -/

/-- BRK_STATUS[LEVEL] follows the certificate (R578); a rise sets UNLOCKED. -/
def State.levelLook (s : State) : State :=
  let open_ := bitSet s.sec.certOpens 1
  let l := if open_ ∧ s.rd secB Reg.SEC_STATE_DEBUG_SECURE = 1 then 3
    else if open_ ∧ s.rd secB Reg.SEC_STATE_DEBUG_NORMAL = 1 then 2 else 1
  let was := s.rd brkB Reg.BRK_STATUS_LEVEL
  let s := s.put brkB Reg.BRK_STATUS_LEVEL l
  if was < l then s.raise brkB Reg.BRK_EVENT_UNLOCKED else s

/-- SEC_STATE as a word. -/
def State.secStateWord (s : State) : Nat :=
  s.rd secB Reg.SEC_STATE_STATE + 8 * s.rd secB Reg.SEC_STATE_DEBUG_NORMAL + 16 * s.rd secB Reg.SEC_STATE_DEBUG_SECURE +
    256 * s.rd secB Reg.SEC_STATE_DEBUG_COUNTER

/-- The HDCP state of port h changes (R298). -/
def State.setHdcp (s : State) (h v : Nat) : State := s.putChange (outB h) Reg.OUT_STATUS_HDCP v Reg.OUT_EVENT_HDCP_CHANGE
def State.hdcpStop (s : State) : State := s.each (List.range 8) fun s h => s.setHdcp h 0

/-- A certificate's state changes: the event, the log, Barker's level. -/
def State.debugChange (s : State) : State :=
  ((s.raise secB Reg.SEC_EVENT_DEBUG_CHANGE).stage { kind := 0x07, data := natLE 4 s.secStateWord }).levelLook

/-- The certificate in force ends (R418). -/
def State.endCert (s : State) : State :=
  if s.rd secB Reg.SEC_STATE_DEBUG_NORMAL = 0 ∧ s.rd secB Reg.SEC_STATE_DEBUG_SECURE = 0 then s
  else
    let s := (s.put secB Reg.SEC_STATE_DEBUG_NORMAL 0).put secB Reg.SEC_STATE_DEBUG_SECURE 0
    let s := { s with sec := { s.sec with certOpens := 0 } }
    (s.clearPersist srcDebugOpen 0xFFFF).debugChange

/-- A certificate comes into force: SCOPE 2 also stops HDCP and records a debug-open event (R418). -/
def State.openCert (s : State) (scope opens : Nat) : State :=
  let s := (s.put secB Reg.SEC_STATE_DEBUG_NORMAL (decide (scope = 1)).toNat).put secB Reg.SEC_STATE_DEBUG_SECURE (decide (scope = 2)).toNat
  let s := { s with sec := { s.sec with certOpens := opens } }
  let s := if scope = 2 then (s.hdcpStop).fault srcDebugOpen {} else s.clearPersist srcDebugOpen 0xFFFF
  s.debugChange

/-- The checks of a certificate in their order (R417): none where it passes, else the reason.
Rests on log entry 11 (DESIGN CHOICE). -/
def State.certCheck (s : State) (b : List Byte) : Option Nat :=
  let scope := byteAt b 6
  let key := leAt b 0x14 4
  if b.length ≠ 160 ∨ leAt b 0 4 ≠ 0x54524344 ∨ leAt b 4 2 ≠ 1 ∨ scope = 0 ∨ 3 ≤ scope ∨ 4 ≤ byteAt b 7 ∨ leAt b 0x18 40 ≠ 0 then some 1
  else if !(decide (key ≤ 4) && s.fuses.keys.contains key) then some 2
  else if !Config.signatureOk key (b.take 0x40) (b.drop 0x40) then some 3
  else if leAt b 8 8 ≠ s.fuses.deviceId then some 4
  else if leAt b 0x10 4 ≠ s.fuses.debugCounter then some 5
  else none

/-- DEBUG_UNLOCK (R409, R417): the certificate in a page of owner 3 is checked and, if it passes, put in force.
Rests on log entry 89 (DESIGN CHOICE). -/
def State.debugUnlock (s : State) (c : FnId) : State := s.startCall c 0x05 fun s =>
  if c ≠ .mgr then s.endCall c callNotPermitted
  else match s.dramGet Who.mgr (s.arg c 0 + 2 ^ 32 * s.arg c 1) 160 with
  | .ok b =>
    match s.certCheck b with
    | some r => (s.putRet c 0 r).endCall c callCertRefused
    | none => ((s.openCert (byteAt b 6) (byteAt b 7)).putRet c 0 0).endCall c callOk
  | _ => s.endCall c callNotPermitted

/-- DEBUG_REVOKE (R419). -/
def State.debugRevoke (s : State) (c : FnId) : State := s.startCall c 0x06 fun s =>
  if c ≠ .mgr ∨ 63 ≤ s.fuses.debugCounter then s.endCall c callNotPermitted
  else if s.rd picB Reg.PIC_STATE_INHIBIT = 1 then s.endCall c callInhibited
  else
    let s := { s with fuses := { s.fuses with debugCounter := s.fuses.debugCounter + 1 } }
    let s := s.put secB Reg.SEC_STATE_DEBUG_COUNTER s.fuses.debugCounter
    (s.endCert).endCall c callOk

/-- A write of GO reaches the call block of a function that answers (R86, R134, R408). -/
def State.callReach (s : State) (c : FnId) (act : State → State) : State :=
  if !s.answers (fnNum c) then s else if s.awaiting then s.earlyWrite (callBase c) else act s

def doPageAssign (s : State) (c : FnId) : State := s.callReach c fun s => s.pageAssign c
def doPageRelease (s : State) (c : FnId) : State := s.callReach c fun s => s.pageRelease c
def doPageFlags (s : State) (c : FnId) : State := s.callReach c fun s => s.pageFlags c
def doPageQuery (s : State) (c : FnId) : State := s.callReach c fun s => s.pageQuery c
def doDebugUnlock (s : State) (c : FnId) : State := s.callReach c fun s => s.debugUnlock c
def doDebugRevoke (s : State) (c : FnId) : State := s.callReach c fun s => s.debugRevoke c

/-- DEBUG_LOCK (R418). -/
def doDebugLock (s : State) : State := s.mgrReach (off := secB + 0x0C) State.endCert

/-! ## Hang and reboot (R413 to R415) -/

/-- Secure jobs are discarded: running ones at their next preemption point, the others at once (R414 step 3).
Rests on log entry 91 (DEDUCED). -/
def State.discardSecure (s : State) : State :=
  s.each (List.range 256) fun s q =>
    s.each ((s.ring q).fetched.filter fun d => d.secure && !d.isDone) fun s d =>
      if s.placed q d.idx then s.modDesc q d.idx fun d => { d with discard := true } else s.finish q d.idx stAborted 0

/-- Callers whose calls are BUSY. -/
def allCallers : List FnId := FnId.mgr :: .sub :: (List.finRange 64).map FnId.vf

/-- The secure world is declared hung (R413, R414 steps 1 to 4); a hang during a hang changes nothing.
Rests on log entry 91 (DEDUCED). -/
def State.hang (s : State) (cause : Nat) : State :=
  if s.rd secB Reg.SEC_STATE_STATE ≠ 1 then s
  else
    let s := (s.put secB Reg.SEC_STATE_STATE 2).put secB Reg.SEC_HANG_CAUSE_CAUSE cause
    let s := ((s.count (secB + Reg.SEC_HANGS) 1).raise secB Reg.SEC_EVENT_HUNG).stage { kind := 0x08, data := natLE 4 cause ++ natLE 4 s.secStateWord }
    let s := s.fault srcSecureHang { index := cause }
    let s := s.each allCallers fun s c => if s.rd (callBase c) Reg.CALL_STATUS_BUSY = 1 then s.endCall c callUnavailable else s
    (s.discardSecure).hdcpStop

/-- SECURE_HEARTBEAT (R413). -/
def doSecureHeartbeat (s : State) : State := { s with sec := { s.sec with heartbeat := s.now } }

/-- SECURE_WATCHDOG_EXPIRE (R413): WD_MS after the last heartbeat. Rests on log entry 9 (DESIGN CHOICE). -/
def doSecureWatchdog (s : State) : State :=
  if s.rd secB Reg.SEC_STATE_STATE = 1 then (s.reach (s.sec.heartbeat + s.sec.wdMs * 1000000)).hang 1 else s

/-- SECURE_CALL_TIMEOUT (R413): a call has been BUSY for 50 ms. -/
def doSecureCallTimeout (s : State) (c : FnId) : State :=
  if s.rd (callBase c) Reg.CALL_STATUS_BUSY = 1 then (s.reach ((s.callX c).since + 50000000)).hang 2 else s

/-- SEC_LOCKSTEP_FAIL (R396): reported, and the secure world is declared hung. -/
def doSecLockstepFail (s : State) : State := (s.fault srcSecLockstep {}).hang 3

/-- Whether a secure context still holds an engine. -/
def State.secureRuns (s : State) : Bool :=
  (groupList ++ copyList).any fun e => match (s.engine e).holder with | .job _ _ b => b | _ => false

/-- SECURE_RELEASE_DONE (R414 step 5). -/
def doSecureReleaseDone (s : State) : State :=
  if s.rd secB Reg.SEC_STATE_STATE = 2 ∧ !s.secureRuns then
    let s := { s with sec := { s.sec with windows := [] } }
    let s := s.each (s.pagesOwned 1) fun s p => if s.pinned p then s.releasePage p true 65 else (s.zeroPage p).freePage p
    let s := (s.put secB Reg.SEC_STATE_STATE 3).raise secB Reg.SEC_EVENT_RELEASED
    if s.rd secB Reg.SEC_CTRL_AUTO_REBOOT = 1 then s.put secB Reg.SEC_STATE_STATE 4 else s
  else s

/-- SECURE_REBOOT (R415): only in RELEASED. Rests on log entry 91 (DEDUCED). -/
def State.secureReboot (s : State) : State :=
  if s.rd secB Reg.SEC_STATE_STATE = 3 then s.put secB Reg.SEC_STATE_STATE 4 else s

def doSecureReboot (s : State) : State := s.mgrReach (off := secB + 0x0C) State.secureReboot

/-- SECURE_BOOT_DONE (R415). -/
def doSecureBootDone (s : State) (tableOk : Bool) : State :=
  if s.rd secB Reg.SEC_STATE_STATE = 4 then
    (if tableOk then
      State.raise { (s.put secB Reg.SEC_STATE_STATE 1) with sec := { s.sec with heartbeat := s.now } } secB Reg.SEC_EVENT_RUNNING
     else s.fault srcPotCorrupt {})
  else s

/-- Whether a clock request is held back: a secure context holds a core group or a copy engine (R411, R412). -/
def State.clockHeld (s : State) : Bool := s.secureRuns

/-- A request of the normal world is deferred (R412). -/
def State.deferRequest (s : State) (kind v : Nat) : State :=
  let s := { s with sec := { s.sec with heldReqs := s.sec.heldReqs ++ [(kind, v)] } }
  (((s.put blwB Reg.BLW_STATUS_HELD_SECURE 1).count (secB + Reg.SEC_HELD) 1)).raise secB Reg.SEC_EVENT_HELD

/-- HELD_REQUEST_RELEASE (R412): the deferred BLW_ apply is carried out once no block is held. -/
def doHeldRequestRelease (s : State) (apply : State → State) : State :=
  if s.clockHeld ∨ s.sec.heldReqs = [] then s
  else
    let s := { s with sec := { s.sec with heldReqs := [] } }
    apply (s.put blwB Reg.BLW_STATUS_HELD_SECURE 0)

def execPinRelease (page : BitVec 24) (s : State) : Host.Outcome State Fault Refusal := .next (settle s (doPinRelease s page.toNat))
def execPageScrubDone (page : BitVec 24) (s : State) : Host.Outcome State Fault Refusal := .next (settle s (doPageScrubDone s page.toNat))
def execPageAssign (c : FnId) (s : State) : Host.Outcome State Fault Refusal := .next (settle s (doPageAssign s c))
def execPageRelease (c : FnId) (s : State) : Host.Outcome State Fault Refusal := .next (settle s (doPageRelease s c))
def execPageFlags (c : FnId) (s : State) : Host.Outcome State Fault Refusal := .next (settle s (doPageFlags s c))
def execPageQuery (c : FnId) (s : State) : Host.Outcome State Fault Refusal := .next (settle s (doPageQuery s c))
def execDebugUnlock (c : FnId) (s : State) : Host.Outcome State Fault Refusal := .next (settle s (doDebugUnlock s c))
def execDebugRevoke (c : FnId) (s : State) : Host.Outcome State Fault Refusal := .next (settle s (doDebugRevoke s c))
def execPotBatchCommit (c : FnId) (s : State) : Host.Outcome State Fault Refusal := .next (settle s (doPotBatchCommit s c))
def execSecureHeartbeat (s : State) : Host.Outcome State Fault Refusal := .next (settle s (doSecureHeartbeat s))
def execSecureWatchdogExpire (s : State) : Host.Outcome State Fault Refusal := .next (settle s (doSecureWatchdog s))
def execSecureCallTimeout (c : FnId) (s : State) : Host.Outcome State Fault Refusal := .next (settle s (doSecureCallTimeout s c))
def execSecLockstepFail (s : State) : Host.Outcome State Fault Refusal := .next (settle s (doSecLockstepFail s))
def execSecureReleaseDone (s : State) : Host.Outcome State Fault Refusal := .next (settle s (doSecureReleaseDone s))
def execSecureReboot (s : State) : Host.Outcome State Fault Refusal := .next (settle s (doSecureReboot s))
def execSecureBootDone (tableOk : Bool) (s : State) : Host.Outcome State Fault Refusal := .next (settle s (doSecureBootDone s tableOk))
def execDebugLock (s : State) : Host.Outcome State Fault Refusal := .next (settle s (doDebugLock s))

end Sys2Proof.Machine
end

