-- ==== Sys2Proof/Machine/Instances.lean ====
section
/-!
DEFINITION. Instances (R172 to R178): quiesce, reset, their ends, and what they withdraw from the other units.
-/
namespace Sys2Proof.Machine

/-! ## What an ended descriptor leaves behind (R173, R254) -/

/-- The rings' descriptor is the given one. -/
def isBy (q idx : Nat) (o : Option (Nat × Nat)) : Bool := decide (o = some (q, idx))

/-- A layer's armed commit withdrawn: the shadow is the active state again. -/
def State.dropLayerCommit (s : State) (k : Nat) : State :=
  ((s.revertShadow (layerBase k)).put (layerBase k) Reg.CTRL_ARM 0).modLayer k fun x => { x with commit := none }

/-- A head's armed commits withdrawn. -/
def State.dropHeadCommit (s : State) (h q idx : Nat) : State :=
  let x := s.head h
  let bg := isBy q idx x.commitBg
  let gm := isBy q idx x.commitGamma
  if !bg && !gm then s
  else
    let s := s.modHead h fun x => { x with commitBg := if bg then none else x.commitBg, commitGamma := if gm then none else x.commitGamma }
    let y := s.head h
    if y.commitBg.isNone && y.commitGamma.isNone then (s.revertShadow (headBase h)).put (headBase h) Reg.CTRL_ARM 0
    else if bg then s.put (headBase h) Reg.HEAD_BG_RGB (s.rda (headBase h) Reg.HEAD_BG_RGB) else s

/-- MOVE_PENDING follows the layer's moves (R219). -/
def State.moveLook (s : State) (k : Nat) : State :=
  s.put (layerBase k) Reg.LAYER_STATUS_MOVE_PENDING ((s.layer k).move.isSome || (s.layer k).nextMove.isSome).toNat

/-- CVU_u_STATUS[QUEUED] follows the queue (R496). -/
def State.queueLook (s : State) (u : Nat) : State := s.put (cvuB u) Reg.CVU_STATUS_QUEUED (s.unit u).expects.length

/-- Everything a COMMIT ring's descriptor armed is withdrawn; true where it must wait for its layer's join (R254). -/
def State.withdrawCommit (s : State) (q idx : Nat) : State × Bool :=
  let s := s.each (List.range 64) fun s k => if isBy q idx (s.layer k).commit then s.dropLayerCommit k else s
  let s := s.each (List.range 64) fun s k => match s.desc q idx with
    | some d => if d.phase = .held ∧ d.b 0x20 = k then s.put (layerBase k) Reg.LAYER_STATUS_HELD 0 else s
    | none => s
  let s := s.each (List.range 8) fun s h => s.dropHeadCommit h q idx
  let s := s.each (List.range 64) fun s u =>
    if (s.unit u).expects.any fun e => decide (e.q = q) && decide (e.idx = idx) then
      (s.modUnit u fun x => { x with expects := x.expects.filter fun e => !(decide (e.q = q) && decide (e.idx = idx)) }).queueLook u
    else s
  let left : Bool := (List.range 64).any fun k => match (s.layer k).move with | some m => m.left && isBy q idx m.by_ | none => false
  let s := s.each (List.range 64) fun s k =>
    let x := s.layer k
    let mv : Bool := match x.move with | some m => isBy q idx m.by_ | none => false
    let nx : Bool := match x.nextMove with | some m => isBy q idx m.by_ | none => false
    let gone : Bool := match x.move with | some m => m.left | none => false
    if mv && gone then s.modLayer k fun x => { x with aborted := x.aborted ++ [(q, idx)] }
    else if mv then (s.modLayer k fun x => { x with move := none }).moveLook k
    else if nx then (s.modLayer k fun x => { x with nextMove := none }).moveLook k
    else s
  (s, left)

/-- CAL_STREAM_m_STATUS[QUEUED] follows the queue. -/
def State.streamLook (s : State) (m : Nat) : State :=
  s.put (calB + 4 * m) Reg.CAL_STREAM_STATUS_QUEUED (min (s.stream m).queue.length 255)

/-- Buffers and clips of an AUDIO ring's descriptor withdrawn; a stream without buffers is silent (R441). -/
def State.withdrawAudio (s : State) (q idx : Nat) : State :=
  let s := s.each (List.range 128) fun s m =>
    if (s.stream m).queue.any fun b => decide (b.q = q) && decide (b.idx = idx) then
      let s := (s.modStream m fun x => { x with queue := x.queue.filter fun b => !(decide (b.q = q) && decide (b.idx = idx)) }).streamLook m
      if (s.stream m).queue = [] then (s.setStream m {}).put (calB + 4 * m) Reg.CAL_STREAM_STATUS_STATE 0 else s
    else s
  let is := fun (c : ClipRun) => decide (c.q = q) && decide (c.idx = idx)
  s.each (List.range 64) fun s i => s.modChimeOf i fun x =>
    { x with starting := x.starting.filter (fun c => !is c), waiting := x.waiting.filter (fun c => !is c)
             playing := x.playing.map fun c => if is c then { c with q := 256 } else c }

/-- An armed CONTROL or COEFF descriptor aborted: its shadow values stay pending until REVERT or the next ARM (R450). -/
def State.withdrawArm (s : State) (d : Desc) : State :=
  let arms := fun (d : Desc) => (decide (d.opcode = 3) || decide (d.opcode = 4)) && decide (d.phase = .armed)
  let other := (List.range 256).any fun q => decide (s.ringType q = 4) && (s.ring q).fetched.any arms
  if arms d && !other then s.put calB Reg.CTRL_ARM 0 else s

/-- One descriptor of a ring is aborted (R173): work in an engine ends at its next preemption point. -/
def State.abortDesc (s : State) (q : Nat) (d : Desc) : State :=
  if d.isDone then s
  else if s.placed q d.idx then s.modDesc q d.idx fun d => { d with discard := true }
  else
    match s.ringType q with
    | 3 => let (s, waits) := s.withdrawCommit q d.idx
           if waits then s else s.finish q d.idx stAborted 0
    | 4 => ((s.withdrawAudio q d.idx).finish q d.idx stAborted 0).withdrawArm d
    | _ => s.finish q d.idx stAborted 0

/-- Every fetched descriptor of an instance is aborted, and no ring of it fetches any more; effects on its haptic channels end with
their brake (R483). -/
def State.abortAll (s : State) (i : Nat) : State :=
  let s := s.hapOwnerGone i
  s.each (s.ringsOf (fnOfInst i)) fun s q =>
    let s := s.modRing q fun r => { r with fetching := false, startPending := false }
    s.each (s.ring q).fetched fun s d => s.abortDesc q d

/-- Work of an instance that still holds engines is discarded (R173 step 2, R207). -/
def State.dropEngines (s : State) (i : Nat) : State :=
  s.each (s.ringsOf (fnOfInst i)) fun s q =>
    s.each (s.ring q).fetched fun s d =>
      if d.isDone || !s.placed q d.idx then s else (s.vacate q d.idx).finish q d.idx stAborted 0

/-! ## States (R172) -/

def State.setInstState (s : State) (i st : Nat) : State := s.put (instBase i) Reg.INST_STATUS_STATE st

/-- The port of a function is up: its link is in L0 or L1 and it is not being lost. -/
def State.portUp (s : State) (p : Port) : Bool :=
  let st := s.rd pciB (match p with | .a => Reg.PCI_PORT_A_STATUS_STATE | .b => Reg.PCI_PORT_B_STATUS_STATE)
  (decide (st = 2) || decide (st = 3) || decide (st = 4)) && !(s.portX p).cutOff

/-- Whether an instance may be READY: its function enabled and its port up. -/
def State.hostThere (s : State) (i : Nat) : Bool := s.vfOn i && s.portUp (s.fnPort (fnOfInst i))

/-- The rings that the quiesce stopped resume (R156). -/
def State.resumeRings (s : State) (i : Nat) : State :=
  s.each (s.ringsOf (fnOfInst i)) fun s q =>
    if s.ringState q = stopped ∧ s.rd (ringBase q) Reg.RING_STATE_CAUSE = 2 then (s.setRingState q running 0).heldOut q else s

/-- QUIESCED to READY once STOP is clear, the function enabled and the port up. -/
def State.tryReady (s : State) (i : Nat) : State :=
  if s.instState i = quiesced ∧ s.rd (instBase i) Reg.INST_STOP_STOP = 0 ∧ s.hostThere i then
    ((s.setInstState i ready).put (instBase i) Reg.INST_STATUS_HOST_LOST 0).resumeRings i
  else s

/-! ## Reset (R174) -/

/-- Layers disabled for a reset: the record is delivered, or held until the instance has a RUNNING EVENT ring. -/
def State.layersDisabled (s : State) (i mask : Nat) : State :=
  if mask = 0 then s
  else if (s.ringsOf (fnOfInst i)).any fun q => decide (s.ringType q = 6) && decide (s.ringState q = running) && s.ringReady q then s.eventRecord i 5 (natLE 8 mask)
  else s.modInst i fun x => { x with heldRecords := x.heldRecords ++ [(s.now, mask)] }

/-- Shadow and active ENABLE of a layer cleared. -/
def State.disableLayer (s : State) (k : Nat) : State :=
  (s.putBoth (layerBase k) Reg.LAYER_CFG_ENABLE 0).modLayer k fun x => { x with disable := false }

/-- Step 3: layers of the instance are disabled at their head's next latch, or at once where none will come. -/
def State.resetLayers (s : State) (i : Nat) : State :=
  let ks := (s.p.layers.filter fun l => decide (l.owner = i)).map LayerRec.layer
  let off := fun k =>
    let h := s.rd (layerBase k) Reg.LAYER_ID_HEAD
    decide (8 ≤ h) || decide (s.rd (headBase h) Reg.HEAD_STATE_LINK = 0)
  let now := ks.filter off
  let s := s.each now State.disableLayer
  let s := s.layersDisabled i (now.foldl (fun m k => setBit m k true) 0)
  s.each (ks.filter fun k => !off k) fun s k => s.modLayer k fun x => { x with disable := true }

/-- Windows that name the instance are void (R404). -/
def State.voidWindows (s : State) (i : Nat) : State :=
  let any := s.sec.windows.any fun w => decide (w.2.inst = i)
  let s := { s with sec := { s.sec with windows := s.sec.windows.filter fun w => decide (w.2.inst ≠ i) } }
  if any then s.modInst i fun x => { x with secureNote := true } else s

/-- The owner of a contact's target: a layer, or 0x80 + region. -/
def State.targetOwner (s : State) (target : Nat) : Nat :=
  if target < 0x80 then (s.p.layer target).owner else ((s.p.region (target - 0x80)).map GuardRec.owner).getD 0xFF

/-- Contacts of a reset owner produce nothing any more; no CANCEL is sent (R483). -/
def State.forgetContacts (s : State) (i : Nat) : State :=
  s.each (List.range 8) fun s t => s.modTouch t fun x =>
    { x with contacts := x.contacts.map fun c => if s.targetOwner c.target = i then { c with dead := true } else c }

/-- Step 2: rings DISABLED with their frames at reset, fences, vectors and instance registers at reset, but ID, STOP,
STATUS and the three counters. A batch its call block waits for commits first (R420). -/
def State.clearInst (s : State) (i : Nat) : State :=
  let b := instBase i
  let s := if (s.callX (.vf (Fin.ofNat 64 i))).batch = [] then s else doPotBatchCommit s (.vf (Fin.ofNat 64 i))
  let s := (s.voidWindows i).forgetContacts i
  let s := s.each (s.ringsOf (fnOfInst i)) fun s q => (((s.setRingState q disabled 0).setRing q {}).resetRange (ringBase q) 0x100)
  let s := { s with fences := s.fences.filter fun e => decide (e.1 < 256 * i) || decide (256 * (i + 1) ≤ e.1)
                    mbx := KMap.erase s.mbx (fnOfInst i) }
  let s := (s.setCallX (.vf (Fin.ofNat 64 i)) {}).resetRange (winBase i) 0x10000
  let keep := [Reg.INST_ID_INSTANCE, Reg.INST_ID_CLASS, Reg.INST_ID_PORT, Reg.INST_ID_CHIME, Reg.INST_ID_RINGS, Reg.INST_ID_VECTORS,
    Reg.INST_STOP_STOP, Reg.INST_STATUS_STATE, Reg.INST_STATUS_RESET_UNCLEAN, Reg.INST_STATUS_SCRUBBING, Reg.INST_STATUS_HOST_LOST]
  let vals := keep.map fun f => (f, s.rd b f)
  (s.resetRegs b 0x40).each vals fun s e => s.put b e.1 e.2

/-- Step 4: every page of the instance is released; SCRUBBING reads 1 until the last is free. -/
def State.releaseInst (s : State) (i : Nat) : State :=
  let unclean := decide (s.rd (instBase i) Reg.INST_STATUS_RESET_UNCLEAN = 1)
  let s := s.put (instBase i) Reg.INST_STATUS_SCRUBBING 1
  s.each (s.pagesOwned (16 + i)) fun s p => s.releasePage p (unclean || pScrub (s.page p)) (i + 1)

/-- Steps 2 to 4 of a reset of a quiesced instance. Rests on log entry 64 (DESIGN CHOICE). -/
def State.resetBody (s : State) (i : Nat) : State :=
  (((s.setInstState i resetting).clearInst i).resetLayers i).releaseInst i

/-- An instance reset starts (R174, R177): a READY instance is quiesced by force and marked unclean; during STOPPING the
quiesce completes first; during RESETTING nothing. Rests on log entry 64 (DESIGN CHOICE). -/
def State.resetInst (s : State) (i : Nat) : State :=
  let st := s.instState i
  if st = ready then
    let s := (s.setInstState i resetting).put (instBase i) Reg.INST_STATUS_RESET_UNCLEAN 1
    ((s.abortAll i).dropEngines i).resetBody i
  else if st = stopping then s.modInst i fun x => { x with resetAfter := true }
  else if st = quiesced then s.resetBody i
  else s

/-- An instance is lost with its port or its function (R119, R135, R137): as a reset without quiesce, ending
RESET_UNCLEAN. -/
def State.loseInst (s : State) (i : Nat) : State :=
  let b := instBase i
  let st := s.instState i
  let s := if st = absent then s else s.put b Reg.INST_STATUS_HOST_LOST 1
  if st = ready then s.resetInst i
  else if st = stopping then s.modInst i fun x => { x with lossAfter := true }
  else if st = quiesced then (s.put b Reg.INST_STATUS_RESET_UNCLEAN 1).resetBody i
  else if st = resetting then s.put b Reg.INST_STATUS_RESET_UNCLEAN 1
  else s

/-- LOST of the ports clears once no instance of the port resets or awaits its initialisation (R144). -/
def State.lostLook (s : State) : State :=
  let waits := fun p => (s.portInsts p).any fun i => decide (s.instState i = resetting) || decide (s.rd (instBase i) Reg.INST_STATUS_RESET_UNCLEAN = 1)
  s.each [(Port.a, Reg.PCI_PORT_A_STATUS_LOST), (Port.b, Reg.PCI_PORT_B_STATUS_LOST)] fun s e => if waits e.1 then s else s.put pciB e.2 0

/-! ## Functions that answer (R116, R134) -/

/-- Whether a function exists in the structure in force: while no Ringplan is applied, the manager's alone. -/
def State.fnExists (s : State) (fn : Nat) : Bool := if fn = 0 then true else if fn = 1 then s.subExists else s.p.has (fn - 2)

/-- Start-up has come to its end, or has stopped where the manager can be told (R116, R550, R556). -/
def State.started (s : State) : Bool := decide (s.rd devB Reg.DEV_BOOT_STATUS_STATE ≠ 0) && !s.pwr.off

/-- While no Ringplan is applied, port A carries the manager and port B is held in Detect (R116, R144). -/
def State.portRoles (s : State) : State :=
  let st := s.rd pciB Reg.PCI_PORT_B_STATUS_STATE
  let s := (s.put pciB Reg.PCI_PORT_A_STATUS_MANAGER (decide (s.mgrPort = .a)).toNat).put pciB Reg.PCI_PORT_B_STATUS_MANAGER (decide (s.mgrPort = .b)).toNat
  if s.ports = 2 ∧ !s.applied then
    let s := (s.put pciB Reg.PCI_PORT_B_STATUS_WIDTH 0).put pciB Reg.PCI_PORT_B_STATUS_SPEED 0
    s.put pciB Reg.PCI_PORT_B_STATUS_STATE (if s.portB.perst then 6 else 5)
  else if st = 5 then s.put pciB Reg.PCI_PORT_B_STATUS_STATE 0
  else s

/-- Functions of the ports whose link is up become ready, but one whose reset runs. -/
def State.readyFns (s : State) : State :=
  if !s.started then s
  else s.portRoles.each (List.range 66) fun s fn =>
    if s.fnExists fn && s.portUp (s.fnPort fn) && !(s.fn fn).ready && !(decide (2 ≤ fn) && (s.inst (fn - 2)).flr) then
      s.modFn fn fun c => { c with ready := true }
    else s

/-! ## Commands -/

/-- INSTANCE_STOP (R173 steps 1 and 2). -/
def State.instanceStop (s : State) (i : Nat) : State :=
  if !s.p.has i then s
  else
    let s := s.put (instBase i) Reg.INST_STOP_STOP 1
    if s.instState i = ready then (s.setInstState i stopping).abortAll i
    else s.modInst i fun x => { x with stopCleared := false }

/-- INSTANCE_STOP_CLEAR (R172, R177). -/
def State.instanceStopClear (s : State) (i : Nat) : State :=
  if !s.p.has i then s
  else
    let s := s.put (instBase i) Reg.INST_STOP_STOP 0
    if s.instState i = stopping then s.modInst i fun x => { x with stopCleared := true } else s.tryReady i

/-- QUIESCED (R173 steps 3 and 4): the rings are STOPPED, then what met the quiesce follows (R177).
Rests on log entry 64 (DESIGN CHOICE). -/
def doQuiesced (s : State) (i : Nat) : State :=
  if s.instState i ≠ stopping then s
  else
    let s := s.dropEngines i
    let s := s.each (s.ringsOf (fnOfInst i)) fun s q =>
      if s.ringState q = running ∨ s.ringState q = stoppingRing then
        (s.setRingState q stopped 2).raise (ringBase q) Reg.RING_EVENT_STOPPED else s
    let s := (s.setInstState i quiesced).raise (instBase i) Reg.INST_EVENT_QUIESCED
    let x := s.inst i
    let s := s.modInst i fun x => { x with resetAfter := false, lossAfter := false, stopCleared := false }
    let s := if x.lossAfter then s.put (instBase i) Reg.INST_STATUS_RESET_UNCLEAN 1 else s
    let s := if x.resetAfter || x.lossAfter then s.resetBody i else if x.stopCleared then s.tryReady i else s
    s.select

/-- INSTANCE_RESET (R174). -/
def State.instanceReset (s : State) (i : Nat) : State := if s.p.has i then (s.resetInst i).select else s

/-- CLEAR_UNCLEAN (R176): only while READY. -/
def State.clearUnclean (s : State) (i : Nat) : State :=
  if s.instState i = ready then (s.put (instBase i) Reg.INST_STATUS_RESET_UNCLEAN 0).lostLook else s

def doInstanceStop (s : State) (i : Nat) : State := s.mgrReach (off := instBase i + 0x20) fun s => s.instanceStop i
def doInstanceStopClear (s : State) (i : Nat) : State := s.mgrReach (off := instBase i + 0x20) fun s => s.instanceStopClear i
def doInstanceReset (s : State) (i : Nat) : State := s.mgrReach (off := instBase i + 0x08) fun s => s.instanceReset i

/-- CLEAR_UNCLEAN is written in the instance's window or in the manager's. -/
def doClearUnclean (s : State) (i : Nat) : State :=
  if s.answers (fnOfInst i) then s.clearUnclean i else s.mgrReach (off := instBase i + 0x08) fun s => s.clearUnclean i

/-- RESET_DONE (R172, R174 step 5): the function answers again while its port is up. -/
def doResetDone (s : State) (i : Nat) : State :=
  if s.instState i ≠ resetting then s
  else
    let s := s.modInst i fun x => { x with flr := false }
    let s := if s.portUp (s.fnPort (fnOfInst i)) then s.modFn (fnOfInst i) fun c => { c with ready := true } else s
    let go := decide (s.rd (instBase i) Reg.INST_STOP_STOP = 0) && s.hostThere i
    let s := s.setInstState i (if go then ready else quiesced)
    let s := if go then s.put (instBase i) Reg.INST_STATUS_HOST_LOST 0 else s
    (s.raise (instBase i) Reg.INST_EVENT_RESET_DONE).lostLook

/-- SCRUB_DONE (R174 step 4): every page of the reset has been released and scrubbed. -/
def doScrubDone (s : State) (i : Nat) : State :=
  if s.rd (instBase i) Reg.INST_STATUS_SCRUBBING = 1 ∧ !(s.sec.releases.any fun r => decide (r.cause = i + 1)) then
    (s.put (instBase i) Reg.INST_STATUS_SCRUBBING 0).raise (instBase i) Reg.INST_EVENT_SCRUB_DONE
  else s

def execInstanceStop (i : Fin 64) (s : State) : Host.Outcome State Fault Refusal := .next (settle s (doInstanceStop s i.val))
def execInstanceStopClear (i : Fin 64) (s : State) : Host.Outcome State Fault Refusal := .next (settle s (doInstanceStopClear s i.val))
/-- Rests on log entry 3 (DESIGN CHOICE). -/
def execQuiesced (i : Fin 64) (s : State) : Host.Outcome State Fault Refusal := .next (settle s (doQuiesced s i.val))
def execInstanceReset (i : Fin 64) (s : State) : Host.Outcome State Fault Refusal := .next (settle s (doInstanceReset s i.val))
def execClearUnclean (i : Fin 64) (s : State) : Host.Outcome State Fault Refusal := .next (settle s (doClearUnclean s i.val))
def execResetDone (i : Fin 64) (s : State) : Host.Outcome State Fault Refusal := .next (settle s (doResetDone s i.val))
def execScrubDone (i : Fin 64) (s : State) : Host.Outcome State Fault Refusal := .next (settle s (doScrubDone s i.val))

end Sys2Proof.Machine
end

