-- ==== Sys2Proof/Machine/Pixels.lean ====
section
/-!
DEFINITION. Pixels: the layer formats and their layout (R221, R222), expansion (R223), YUV to RGB (R225), rounding to a
destination's width (R347), and the blend of an SDR head (R233, R234).
-/
namespace Sys2Proof.Machine

/-! ## Formats (R221) -/

/-- Bytes a pixel of a packed RGB format holds; 0 for the others. -/
def packedBytes (f : Nat) : Nat :=
  match f with
  | 0x01 => 4 | 0x02 => 4 | 0x03 => 4 | 0x04 => 4 | 0x05 => 2 | 0x06 => 2 | 0x07 => 2 | 0x08 => 4 | 0x09 => 3 | 0x0A => 1 | 0x0B => 8
  | _ => 0

/-- BPP: what a format counts in head fetch needs and against MAX_BPP. -/
def bppOf (f : Nat) : Nat :=
  match f with
  | 0x00 => 1 | 0x10 => 2 | 0x11 => 2 | 0x12 => 2 | 0x13 => 3 | 0x14 => 4 | 0x15 => 2 | 0x16 => 2 | 0x17 => 3
  | f => packedBytes f

def planesOf (f : Nat) : Nat :=
  if f = 0 then 0 else if f = 0x17 then 3 else if 0x10 ≤ f ∧ f ≤ 0x14 then 2 else 1

def isYuv (f : Nat) : Bool := decide (0x10 ≤ f) && decide (f ≤ 0x17)
/-- Chroma at half width; at half height. -/
def halfWide (f : Nat) : Bool := decide (0x10 ≤ f) && decide (f ≤ 0x16)
def halfHigh (f : Nat) : Bool := f = 0x10 || f = 0x11 || f = 0x13
/-- 16-bit samples with the value in [15:6]. -/
def tenBit (f : Nat) : Bool := f = 0x13 || f = 0x14
/-- Formats with no alpha (R235). -/
def noAlpha (f : Nat) : Bool := f = 0x02 || f = 0x04 || f = 0x05 || f = 0x09 || isYuv f

/-! ## Expansion (R223) -/

/-- An n-bit colour sample repeated from the top to 10 bits. -/
def expand10 (n v : Nat) : Nat :=
  if n = 4 then v * 64 + v * 4 + v / 4
  else if n < 10 then v * 2 ^ (10 - n) + v / 2 ^ (2 * n - 10)
  else v

/-- A colour component: a fraction num / den of full scale. -/
structure Comp where
  num : Nat
  den : Nat
  deriving DecidableEq, Repr

def comp10 (v : Nat) : Comp := { num := v, den := 1023 }

/-- The magnitude of a binary16 in units of 2^-24; infinities count as 2^41; none for a NaN. -/
def halfMag (h : Nat) : Option Nat :=
  let e := bitsOf h 10 5
  let m := bitsOf h 0 10
  if e = 31 then (if m = 0 then some (2 ^ 41) else none)
  else if e = 0 then some m else some ((1024 + m) * 2 ^ (e - 1))

/-- A binary16 colour: negative ones clamp to 0; a NaN gives a free value (log entry 12). -/
def halfComp (h : Nat) : Comp :=
  match halfMag h with
  | none => comp10 (Config.colourStage 1 0 0 h % 1024)
  | some m => if bitSet h 15 then { num := 0, den := 2 ^ 24 } else { num := m, den := 2 ^ 24 }

/-- A binary16 alpha as 8 bits: clamped to 0 to 1, a NaN counting 0, halves rounded up. -/
def halfAlpha (h : Nat) : Nat :=
  match halfMag h with
  | none => 0
  | some m => if bitSet h 15 then 0 else (2 * 255 * min m (2 ^ 24) + 2 ^ 24) / 2 ^ 25

/-- A component as an n-bit number of full scale 2^n − 1, rounded, halves up. -/
def Comp.to (c : Comp) (n : Nat) : Nat := roundDiv (min c.num c.den * (2 ^ n - 1)) c.den

/-- One pixel: colour components and 8-bit alpha. -/
structure Pixel where
  r : Comp
  g : Comp
  b : Comp
  a : Nat
  deriving DecidableEq, Repr

def pixel10 (r g b a : Nat) : Pixel := { r := comp10 r, g := comp10 g, b := comp10 b, a := a }

/-- A colour given as B [7:0], G [15:8], R [23:16], with an alpha. -/
def pixelConst (c a : Nat) : Pixel :=
  pixel10 (expand10 8 (bitsOf c 16 8)) (expand10 8 (bitsOf c 8 8)) (expand10 8 (bitsOf c 0 8)) a

/-- The pixel of word w of an RGB format, `const` being LAYER_k_CONST. -/
def decodeRgb (f w const : Nat) : Pixel :=
  let c := fun lo n => expand10 n (bitsOf w lo n)
  match f with
  | 0x00 => pixelConst const (bitsOf const 24 8)
  | 0x01 => pixel10 (c 16 8) (c 8 8) (c 0 8) (bitsOf w 24 8)
  | 0x02 => pixel10 (c 16 8) (c 8 8) (c 0 8) 255
  | 0x03 => pixel10 (c 0 8) (c 8 8) (c 16 8) (bitsOf w 24 8)
  | 0x04 => pixel10 (c 0 8) (c 8 8) (c 16 8) 255
  | 0x05 => pixel10 (c 11 5) (c 5 6) (c 0 5) 255
  | 0x06 => pixel10 (c 10 5) (c 5 5) (c 0 5) (255 * bitsOf w 15 1)
  | 0x07 => pixel10 (c 8 4) (c 4 4) (c 0 4) (17 * bitsOf w 12 4)
  | 0x08 => pixel10 (c 20 10) (c 10 10) (c 0 10) (85 * bitsOf w 30 2)
  | 0x09 => pixel10 (c 16 8) (c 8 8) (c 0 8) 255
  | 0x0A => pixelConst const (bitsOf w 0 8)
  | _ => { r := halfComp (bitsOf w 32 16), g := halfComp (bitsOf w 16 16), b := halfComp (bitsOf w 0 16), a := halfAlpha (bitsOf w 48 16) }

/-! ## YUV to RGB (R225) -/

/-- num / den clamped to 0 to 1 and rounded to 10 bits. -/
def clamp10 (num : Int) (den : Nat) : Nat := if num < 0 then 0 else roundDiv (min num.toNat den * 1023) den

/-- R225 on 10-bit codes: R, G, B of 10 bits. The denominators are 876 · 896 · 10^4 (limited) or 1023 · 1023 · 10^4. -/
def yuvToRgb (matrix range y cb cr : Nat) : Nat × Nat × Nat :=
  let kr : Int := if matrix = 0 then 2126 else 2627
  let kb : Int := if matrix = 0 then 722 else 593
  let dy : Nat := if range = 0 then 876 else 1023
  let dc : Nat := if range = 0 then 896 else 1023
  let yn : Int := if range = 0 then (y : Int) - 64 else y
  let rn : Int := yn * dc * 10000 + 2 * (10000 - kr) * ((cr : Int) - 512) * dy
  let bn : Int := yn * dc * 10000 + 2 * (10000 - kb) * ((cb : Int) - 512) * dy
  let gn : Int := 10000 * (yn * dc * 10000) - kr * rn - kb * bn
  let den := dy * dc * 10000
  (clamp10 rn den, clamp10 gn (den * (10000 - kr - kb).toNat), clamp10 bn den)

/-! ## Writing a pixel in a destination format (R347) -/

/-- The least s with num · 2^24 / (den · 2^s) below 2048, up to a bound. -/
def halfShift : Nat → Nat → Nat → Nat
  | 0, _, _ => 0
  | fuel + 1, num, den => if num * 2 ^ 24 < 2048 * den then 0 else 1 + halfShift fuel num (2 * den)

/-- A fraction of at most 1 as binary16, rounded to nearest, ties to even. -/
def toHalf (num den : Nat) : Nat :=
  let s := halfShift 30 num den
  let n := num * 2 ^ 24
  let d := den * 2 ^ s
  let q := n / d
  let r := n % d
  s * 1024 + (if d < 2 * r ∨ (2 * r = d ∧ q % 2 = 1) then q + 1 else q)

/-- A component as binary16; one that came as binary16 keeps its value. -/
def Comp.half (c : Comp) : Nat :=
  if c.den = 2 ^ 24 then
    let s := halfShift 30 c.num (2 ^ 24)
    if 2 ^ 41 ≤ c.num then 0x7C00 else s * 1024 + c.num / 2 ^ s
  else toHalf c.num c.den

/-- The word of a pixel in a destination format; an ignored byte is a free value (log entry 12).
Rests on log entry 83 (DESIGN CHOICE). -/
def encodeRgb (f : Nat) (p : Pixel) : Nat :=
  let x := Config.colourStage 2 f 0 0 % 256
  let al := fun n => roundDiv (p.a * (2 ^ n - 1)) 255
  match f with
  | 0x01 => p.b.to 8 + 2 ^ 8 * p.g.to 8 + 2 ^ 16 * p.r.to 8 + 2 ^ 24 * p.a
  | 0x02 => p.b.to 8 + 2 ^ 8 * p.g.to 8 + 2 ^ 16 * p.r.to 8 + 2 ^ 24 * x
  | 0x03 => p.r.to 8 + 2 ^ 8 * p.g.to 8 + 2 ^ 16 * p.b.to 8 + 2 ^ 24 * p.a
  | 0x04 => p.r.to 8 + 2 ^ 8 * p.g.to 8 + 2 ^ 16 * p.b.to 8 + 2 ^ 24 * x
  | 0x05 => p.b.to 5 + 2 ^ 5 * p.g.to 6 + 2 ^ 11 * p.r.to 5
  | 0x06 => p.b.to 5 + 2 ^ 5 * p.g.to 5 + 2 ^ 10 * p.r.to 5 + 2 ^ 15 * al 1
  | 0x07 => p.b.to 4 + 2 ^ 4 * p.g.to 4 + 2 ^ 8 * p.r.to 4 + 2 ^ 12 * al 4
  | 0x08 => p.b.to 10 + 2 ^ 10 * p.g.to 10 + 2 ^ 20 * p.r.to 10 + 2 ^ 30 * al 2
  | 0x09 => p.b.to 8 + 2 ^ 8 * p.g.to 8 + 2 ^ 16 * p.r.to 8
  | _ => p.b.half + 2 ^ 16 * p.g.half + 2 ^ 32 * p.r.half + 2 ^ 48 * toHalf p.a 255

/-! ## Blending on an SDR head (R233, R234) -/

def div255 (x : Nat) : Nat := (x + 127) / 255

/-- The effective alpha of a pixel alpha and a plane alpha under BLEND. -/
def effAlpha (blend a ap : Nat) : Nat := if blend = 0 then ap else div255 (a * ap)

/-- One component blended over another. -/
def blend1 (blend c a ap d : Nat) : Nat :=
  let e := effAlpha blend a ap
  min 1023 ((if blend = 1 then div255 (c * ap) else div255 (c * e)) + div255 (d * (255 - e)))

/-- A pixel of the line store: R [29:20], G [19:10], B [9:0]. -/
def pack10 (r g b : Nat) : Nat := r % 1024 * 2 ^ 20 + g % 1024 * 2 ^ 10 + b % 1024
def red10 (p : Nat) : Nat := bitsOf p 20 10
def green10 (p : Nat) : Nat := bitsOf p 10 10
def blue10 (p : Nat) : Nat := bitsOf p 0 10

/-- The head's background colour (R232). -/
def background (c : Nat) : Nat := pack10 (expand10 8 (bitsOf c 16 8)) (expand10 8 (bitsOf c 8 8)) (expand10 8 (bitsOf c 0 8))

end Sys2Proof.Machine
end

