-- ==== Sys2Proof/Machine/Layers.lean ====
section
/-!
DEFINITION. Layers and head timing: when lines are due (R248, R265), a layer's state as its registers hold it (R258),
the checks of an apply (R222, R228, R231, R259), and protection (R405).
-/
namespace Sys2Proof.Machine

/-! ## Head timing (R248, R250, R264, R265) -/

def State.vTotal (s : State) (h : Nat) : Nat := s.rd (headBase h) Reg.HEAD_V_V_TOTAL
def State.vActive (s : State) (h : Nat) : Nat := s.rd (headBase h) Reg.HEAD_V_V_ACTIVE
def State.hActive (s : State) (h : Nat) : Nat := s.rd (headBase h) Reg.HEAD_H_H_ACTIVE
def State.frameNo (s : State) (h : Nat) : Nat := s.wideAt (headBase h + Reg.HEAD_FRAME)
def State.lead (s : State) (h : Nat) : Nat := s.rd (headBase h) Reg.HEAD_COMP_STATUS_LEAD

/-- n lines of head h in ns. -/
def State.linesNs (s : State) (h n : Nat) : Nat :=
  n * s.rd (headBase h) Reg.HEAD_H_H_TOTAL * 1000000 / max 1 (s.rd (headBase h) Reg.HEAD_PIXEL_PIXEL_KHZ)

/-- When line y of the next frame is due. -/
def State.dueNext (s : State) (h y : Nat) : Nat := (s.head h).frameStart + s.linesNs h (s.vTotal h + y)

/-- Whether a head scans out (R260). -/
def State.scans (s : State) (h : Nat) : Bool := decide (h < 8) && decide (s.rd (headBase h) Reg.HEAD_STATE_LINK ≠ 0)
def State.content (s : State) (h : Nat) : Nat := s.rd (headBase h) Reg.HEAD_STATE_CONTENT

/-- The compositor clock in MHz: 800, or the safe setting (R540). -/
def State.compMhz (s : State) : Nat := if s.rd blwB Reg.BLW_STATUS_SAFE = 1 then 600 else 800

/-- The head a layer is on: 0 to 7, or 15 for none. -/
def State.layerHead (s : State) (k : Nat) : Nat := s.rd (layerBase k) Reg.LAYER_ID_HEAD
def State.layerOwner (s : State) (k : Nat) : Nat := s.rd (layerBase k) Reg.LAYER_ID_OWNER
/-- Layers assigned to a head, ascending. -/
def State.layersOn (s : State) (h : Nat) : List Nat := (List.range 64).filter fun k => decide (s.layerHead k = h)

/-- HEAD_h_COMP_STATUS[LAYERS] and HEAD_h_LAYER_MASK of every head follow the assignments. -/
def State.assignLook (s : State) : State :=
  s.each (List.range 8) fun s h =>
    let l := s.layersOn h
    (s.put (headBase h) Reg.HEAD_COMP_STATUS_LAYERS l.length).putWide (headBase h + Reg.HEAD_LAYER_MASK) (l.foldl (fun m k => m + 2 ^ k) 0)

/-! ## A layer's state (R258) -/

structure LState where
  enable : Nat := 0
  input : Nat := 0
  hflip : Nat := 0
  vflip : Nat := 0
  z : Nat := 0
  format : Nat := 0
  blend : Nat := 0
  alpha : Nat := 0
  primaries : Nat := 0
  transfer : Nat := 0
  matrix : Nat := 0
  range : Nat := 0
  csiteX : Nat := 0
  csiteY : Nat := 0
  srcX : Nat := 0
  srcY : Nat := 0
  srcW : Nat := 0
  srcH : Nat := 0
  dstX : Int := 0
  dstY : Int := 0
  dstW : Nat := 0
  dstH : Nat := 0
  planes : List Nat := []
  pitches : List Nat := []
  const : Nat := 0
  hstep : Nat := 0
  vstep : Nat := 0
  hinit : Int := 0
  vinit : Int := 0

/-- A layer's state through a reader of register fields. -/
def lstateOf (rd : Nat → Fld → Nat) (k : Nat) : LState :=
  let g := rd (layerBase k)
  let at_ := fun (n : Nat) => rd (layerBase k + 8 * n)
  { enable := g Reg.LAYER_CFG_ENABLE, input := g Reg.LAYER_CFG_INPUT, hflip := g Reg.LAYER_CFG_HFLIP, vflip := g Reg.LAYER_CFG_VFLIP
    z := g Reg.LAYER_CFG_Z, format := g Reg.LAYER_CFG_FORMAT, blend := g Reg.LAYER_CFG_BLEND, alpha := g Reg.LAYER_CFG_PLANE_ALPHA
    primaries := g Reg.LAYER_COLOUR_PRIMARIES, transfer := g Reg.LAYER_COLOUR_TRANSFER, matrix := g Reg.LAYER_COLOUR_MATRIX
    range := g Reg.LAYER_COLOUR_RANGE, csiteX := g Reg.LAYER_COLOUR_CSITE_X, csiteY := g Reg.LAYER_COLOUR_CSITE_Y
    srcX := g Reg.LAYER_SRC_POS_X, srcY := g Reg.LAYER_SRC_POS_Y, srcW := g Reg.LAYER_SRC_SIZE_W, srcH := g Reg.LAYER_SRC_SIZE_H
    dstX := signedOf 16 (g Reg.LAYER_DST_POS_X), dstY := signedOf 16 (g Reg.LAYER_DST_POS_Y)
    dstW := g Reg.LAYER_DST_SIZE_W, dstH := g Reg.LAYER_DST_SIZE_H
    planes := [0, 1, 2].map fun n => at_ n Reg.LAYER_PLANE_LO_ADDR * 256 + at_ n Reg.LAYER_PLANE_HI_ADDR * 2 ^ 32
    pitches := [64 * g Reg.LAYER_PITCH01_PITCH0, 64 * g Reg.LAYER_PITCH01_PITCH1, 64 * g Reg.LAYER_PITCH2_PITCH2]
    const := g Reg.LAYER_CONST_COLOUR, hstep := g Reg.LAYER_HSTEP_STEP, vstep := g Reg.LAYER_VSTEP_STEP
    hinit := signedOf 28 (g Reg.LAYER_HINIT_INIT), vinit := signedOf 28 (g Reg.LAYER_VINIT_INIT) }

/-- The state of layer k: the shadow, or the active state. -/
def State.lstate (s : State) (k : Nat) (shadow : Bool) : LState := lstateOf (if shadow then s.rd else s.rda) k

def LState.plane (st : LState) (n : Nat) : Nat := st.planes.getD n 0
def LState.pitch (st : LState) (n : Nat) : Nat := st.pitches.getD n 0

/-- The coefficient of phase φ and tap t of layer k, through a reader of register fields (R230). -/
def coefOf (rd : Nat → Fld → Nat) (k : Nat) (horizontal : Bool) (φ t : Nat) : Int :=
  let w := if horizontal then 4 * φ + t / 2 else 3 * φ + t / 2
  let f := if horizontal then (if t % 2 = 0 then Reg.LAYER_HCOEFF_TAP_EVEN else Reg.LAYER_HCOEFF_TAP_ODD)
    else (if t % 2 = 0 then Reg.LAYER_VCOEFF_TAP_EVEN else Reg.LAYER_VCOEFF_TAP_ODD)
  signedOf 12 (rd (layerBase k + 4 * w) f)

/-- A field in the state of a frame. -/
def Snap.rd (n : Snap) (a : Nat) (f : Fld) : Nat := KMap.get fieldReset n.regs (fkey (a + f.off) f.lo)

/-- The kind of a layer follows from its number (R217). -/
def isVideo (k : Nat) : Bool := decide (k < 16)

/-- The destination rows of an enabled layer inside the active area: first, and the one after the last. -/
def State.rowsOf (s : State) (h : Nat) (st : LState) : Nat × Nat :=
  if st.enable = 0 then (0, 0)
  else (st.dstY.toNat, min (s.vActive h) (st.dstY + st.dstH).toNat)

def inRows (r : Nat × Nat) (y : Nat) : Bool := decide (r.1 ≤ y) && decide (y < r.2)

/-! ## Checks of an apply (R222, R228, R231, R259) -/

/-- Bytes of plane n from the row start to the end of the source rectangle (R222). -/
def planeNeed (f right n : Nat) : Nat :=
  match f, n with
  | 0x10, 0 => right | 0x11, 0 => right | 0x12, 0 => right
  | 0x10, 1 => 2 * ((right + 1) / 2) | 0x11, 1 => 2 * ((right + 1) / 2) | 0x12, 1 => 2 * ((right + 1) / 2)
  | 0x13, 0 => 2 * right | 0x14, 0 => 2 * right
  | 0x13, 1 => 4 * ((right + 1) / 2) | 0x14, 1 => 4 * ((right + 1) / 2)
  | 0x15, 0 => 4 * ((right + 1) / 2) | 0x16, 0 => 4 * ((right + 1) / 2)
  | 0x17, _ => right
  | f, 0 => right * packedBytes f
  | _, _ => 0

def dist (a b : Nat) : Nat := (a - b) + (b - a)

/-- The scaler rate check on a head's line period, in 0.9 × f × t scaled by 40 · PIXEL_KHZ (R231). -/
def State.rateOk (s : State) (k : Nat) (st : LState) (h : Nat) : Bool :=
  let b := headBase h
  let rn := max 1 ((st.vstep + 2 ^ 20 - 1) / 2 ^ 20)
  let lim := 36 * s.compMhz * 1000 * s.rd b Reg.HEAD_H_H_TOTAL
  let khz := s.rd b Reg.HEAD_PIXEL_PIXEL_KHZ
  !isVideo k || decide (st.enable = 0) || (decide (rn * st.srcW * 10 * khz ≤ lim) && decide (st.dstW * 20 * khz ≤ lim))

/-- The heads an apply of layer k is checked against: the one it is on, and while a move is pending the target too; for an
unassigned layer each head in use of its mask (R231). -/
def State.rateHeads (s : State) (k : Nat) : List Nat :=
  let used := fun (l : List Nat) => l.filter fun h => decide (h < 8) && s.p.headUsed h
  match (s.layer k).move with
  | some m => used (if m.left then [m.target] else [s.layerHead k, m.target])
  | none => if s.layerHead k < 8 then used [s.layerHead k]
    else used ((List.range 8).filter fun h => bitSet (s.p.layer k).headMask h)

/-- The checks of R259 on the shadow of layer k: the first failing one's reason and offset.
Rests on log entry 73 (DEDUCED). -/
def State.layerCheck (s : State) (k : Nat) : Option (Nat × Nat) :=
  let st := s.lstate k true
  let r := s.p.layer k
  let f := st.format
  let x := st.srcX + st.srcW
  match s.reservedShadow (layerBase k) with
  | some off => some (0x02, off)
  | none =>
    if !(s.layer k).planTaken then some (0x06, 0x40)
    else if st.enable = 0 then none
    else if 8191 < st.srcX ∨ 8191 < st.srcY then some (0x03, 0x48)
    else if st.srcW = 0 ∨ 8192 < st.srcW ∨ st.srcH = 0 ∨ 8192 < st.srcH then some (0x03, 0x4C)
    else if st.dstW = 0 ∨ 8192 < st.dstW ∨ st.dstH = 0 ∨ 8192 < st.dstH then some (0x03, 0x54)
    else if r.maxBpp < bppOf f then some (0x04, 0x40)
    else if r.maxWidth < st.srcW ∨ r.maxHeight < st.srcH then some (0x04, 0x4C)
    else if isYuv f ∧ !isVideo k then some (0x80, 0x40)
    else if (st.transfer = 3) ≠ (f = 0x0B) then some (0x80, 0x40)
    else if !isVideo k ∧ (st.srcW ≠ st.dstW ∨ st.srcH ≠ st.dstH) then some (0x01, 0x4C)
    else if isVideo k ∧ (st.hstep < dist (st.dstW * st.hstep) (st.srcW * 2 ^ 20) ∨ st.vstep < dist (st.dstH * st.vstep) (st.srcH * 2 ^ 20))
      then some (0x01, 0x4C)
    else if [0, 1, 2].any fun n => decide (st.pitch n < planeNeed f x n) then some (0x81, 0x48)
    else if (halfWide f && (decide (st.srcX % 2 ≠ 0) || decide (st.srcW % 2 ≠ 0))) || (halfHigh f && (decide (st.srcY % 2 ≠ 0) || decide (st.srcH % 2 ≠ 0)))
      then some (0x81, 0x48)
    else if isVideo k ∧ (st.hstep < 0x10000 ∨ 0x800000 < st.hstep) then some (0x82, 0x7C)
    else if isVideo k ∧ (st.vstep < 0x10000 ∨ 0x800000 < st.vstep) then some (0x82, 0x80)
    else if (s.rateHeads k).any fun h => !s.rateOk k st h then some (0x83, 0x4C)
    else none

/-- While RPL_STATE is VALIDATING, APPLYING or STORING the manager amends nothing (R74); nor while the
Ringmaster restarts (R37) or has parked for a sleep entry (R526). -/
def State.rplBusy (s : State) : Bool := let st := s.rd rplB Reg.RPL_STATE_STATE; decide (st = 1) || decide (st = 2) || decide (st = 4) || s.boot.rmDown || s.parkedTo 2

/-- Offsets of the live amendments in a head frame's shadow: the background and, with bit 2, the gamma table and GAMMA_EN (R75). -/
def State.headAmends (s : State) (h : Nat) : List Nat :=
  let b := headBase h
  let rows := (FrameKind.head.rows.filter fun r => decide (r.ty = .rwb)).flatMap rowMembers
  (rows.filter fun f => decide (f ≠ Reg.HEAD_OUTSTAGE_DITHER) && decide (s.rd b f ≠ s.rda b f)).map Fld.off

/-- The checks of a head frame's shadow: reserved encodings, and BUSY for an amendment of the manager while a Ringplan is validated,
applied or stored, or for a value of the head that an image in progress changes (R74). -/
def State.headCheck (s : State) (h : Nat) : Option (Nat × Nat) :=
  let x := s.head h
  match s.reservedShadow (headBase h) with
  | some off => some (0x02, off)
  | none =>
    if !x.planTaken then some (0x06, 0x18)
    else if s.rplBusy && x.commitBg.isNone && x.commitGamma.isNone then (s.headAmends h).min?.map fun o => (0x06, o)
    else none

/-- Whether the next latch would apply the shadow of layer k if nothing else arrived (R249). -/
def State.willApply (s : State) (k : Nat) : Bool :=
  s.armed (layerBase k) && !(s.layer k).skip && (s.layer k).move.isNone && (s.layerCheck k).isNone
def State.headWillApply (s : State) (h : Nat) : Bool := s.armed (headBase h) && !(s.head h).skip && (s.headCheck h).isNone

/-! ## Protection (R403, R405) -/

/-- The COMPOSE windows of the layer's owner in which a plane address of a state lies. -/
def State.protectors (s : State) (k : Nat) (st : LState) : List GrantWin :=
  let o := s.layerOwner k
  ((s.sec.windows.map Prod.snd).filter fun w => decide (w.inst = o) && w.compose && decide (w.pages ≠ 0)).filter fun w =>
    (List.range (planesOf st.format)).any fun n =>
      decide (w.first ≤ st.plane n / 4096) && decide (st.plane n / 4096 < w.first + w.pages)

/-- Whether a window's condition for a substitute holds on head h. -/
def State.mustSubst (s : State) (h : Nat) (w : GrantWin) : Bool :=
  let auth := s.rd (outB h) Reg.OUT_STATUS_HDCP
  let dp := decide ((s.p.head h).portType = 1)
  (decide (w.hdcp ≠ 0) && !(dp && (decide (auth = 3) || (decide (auth = 2) && decide (w.hdcp = 1))))) ||
    decide (s.rd secB Reg.SEC_STATE_STATE ≠ 1) || decide (s.rd secB Reg.SEC_STATE_DEBUG_SECURE = 1)

/-- The substitute of a protected layer on head h, if one is due. -/
def State.substOf (s : State) (h k : Nat) (st : LState) : Option Nat :=
  ((s.protectors k st).find? (s.mustSubst h)).map GrantWin.subst

end Sys2Proof.Machine
end

