-- ==== Sys2Proof/Machine/Compose.lean ====
section
/-!
DEFINITION. Composition (chapter 7): the state a frame shows, the colour path, scaling, occlusion and the occlusion guard, and the
composition of one line into the line store.
-/
namespace Sys2Proof.Machine

/-! ## The state a frame shows (R249, R250) -/

/-- The buffer a capture-fed layer shows: the newest complete frame for a state to be latched, else the latched one (R220). -/
def State.capBuf (s : State) (c : Nat) (newest : Bool) : Nat :=
  if newest && (s.cap c).fresh then s.rd (capB c) Reg.CAP_STATUS_NEWEST else (s.cap c).glassBuf.getD 3

/-- Register entries of one frame in the lists of shadows or active values. -/
def entriesOf (m : KMap Nat) (a : Nat) : KMap Nat := m.filter fun e => decide (a * 32 ≤ e.1) && decide (e.1 < (a + frameLen a) * 32)

/-- The state head h shows if its latch applied the given shadows now: of the head (64) and of the listed layers. -/
def State.snap (s : State) (h : Nat) (shadows : List Nat) (newest : Bool) : Snap :=
  let ks := s.layersOn h
  let part := fun (n a : Nat) => entriesOf (if shadows.contains n then s.regs else s.act) a
  let layers := ks.map fun k =>
    let fed := decide (s.rd (layerBase k) Reg.LAYER_ID_CAPTURE_FED = 1)
    { layer := k, owner := s.layerOwner k, subst := if (s.layer k).substituted then (s.layer k).protection.map Prod.fst else none
      cap := if fed then some (s.rd (layerBase k) Reg.LAYER_ID_CAPTURE, s.capBuf (s.rd (layerBase k) Reg.LAYER_ID_CAPTURE) newest) else none : SnapLayer }
  { regs := part 64 (headBase h) ++ ks.flatMap fun k => part k (layerBase k)
    layers := layers
    content := s.content h }

/-- The shadows that the next latch would apply if nothing else arrived (R249). -/
def State.specShadows (s : State) (h : Nat) : List Nat :=
  ((s.layersOn h).filter s.willApply) ++ (if s.headWillApply h then [64] else [])

/-! ## One layer on one line -/

/-- A layer as it is composed. -/
structure View where
  layer : Nat
  owner : Nat
  st : LState
  cap : Option (Nat × Nat)
  coef : Bool → Nat → Nat → Int

/-- Bytes per line of a capture buffer's first plane. -/
def capFormat (dt : Nat) : Nat := if dt = 0x1F then 0x14 else if dt = 0x22 then 0x05 else if dt = 0x24 then 0x09 else 0x16

/-- A layer of a frame's state as it is composed: a substitute shows as SOLID (R405); a capture-fed layer in the format of its
buffer (R220, R301). -/
def State.view (s : State) (n : Snap) (x : SnapLayer) : View :=
  let st := lstateOf n.rd x.layer
  let st := match x.cap with
    | some (c, _) => { st with format := capFormat ((s.p.capRec c).map CapRec.dataType |>.getD 0) }
    | none => st
  let st := match x.subst with | some c => { st with format := 0, const := c } | none => st
  { layer := x.layer, owner := x.owner, st := st, cap := if x.subst.isSome then none else x.cap, coef := coefOf n.rd x.layer }

/-- Taps on one axis: coefficient and index inside the rectangle, edge pixels repeated (R227, R229). -/
def axisTaps (video : Bool) (cnt back size : Nat) (coef : Nat → Nat → Int) (half : Bool) (o : Nat) (p : Int) : List (Int × Nat) :=
  if !video then [(1024, p.toNat)]
  else
    let p := if half then p - o * 2 ^ 19 else p
    let n := p / (if half then 2 ^ 21 else 2 ^ 20)
    let φ := (p / (if half then 2 ^ 15 else 2 ^ 14) % 64).toNat
    (List.range cnt).map fun t => (coef φ t, (clampI 0 ((size : Int) - 1) (n - back + t)).toNat)

/-- Column taps of output x and row taps of output line j, of the main grid or of the chroma grid. -/
def View.cols (v : View) (chroma : Bool) (x : Nat) : List (Int × Nat) :=
  let half := chroma && halfWide v.st.format
  let vid := isVideo v.layer
  axisTaps vid 8 3 (if half then v.st.srcW / 2 else v.st.srcW) (v.coef true) half v.st.csiteX (if vid then v.st.hinit + x * v.st.hstep else x)
def View.rows (v : View) (chroma : Bool) (j : Nat) : List (Int × Nat) :=
  let half := chroma && halfHigh v.st.format
  let vid := isVideo v.layer
  axisTaps vid 6 2 (if half then v.st.srcH / 2 else v.st.srcH) (v.coef false) half v.st.csiteY (if vid then v.st.vinit + j * v.st.vstep else j)

/-- A column or row of the rectangle as the source's, after flips (R222). -/
def unflip (flip first size i : Nat) : Nat := if flip = 1 then first + size - 1 - i else first + i
def View.col (v : View) (chroma : Bool) (i : Nat) : Nat :=
  let d := if chroma && halfWide v.st.format then 2 else 1
  unflip v.st.hflip (v.st.srcX / d) (v.st.srcW / d) i
def View.row (v : View) (chroma : Bool) (i : Nat) : Nat :=
  let d := if chroma && halfHigh v.st.format then 2 else 1
  unflip v.st.vflip (v.st.srcY / d) (v.st.srcH / d) i

/-- Where the samples of a column and row lie: plane, byte in the row, bytes (R222). -/
def sampleLoc (f : Nat) (chroma : Bool) (col : Nat) : Nat × Nat × Nat :=
  if f = 0x15 ∨ f = 0x16 then (0, if chroma then 4 * col else 4 * (col / 2), 4)
  else if f = 0x17 then (if chroma then 1 else 0, col, 1)
  else if isYuv f then
    let b := if tenBit f then 2 else 1
    if chroma then (1, 2 * b * col, 2 * b) else (0, b * col, b)
  else (0, packedBytes f * col, packedBytes f)

/-- Every byte range that one output pixel of a layer needs on a line: plane, row, byte, bytes. -/
def View.needs (v : View) (j x : Nat) : List (Nat × Nat × Nat × Nat) :=
  let f := v.st.format
  let grid : Bool → List (Nat × Nat × Nat × Nat) := fun c => (v.rows c j).flatMap fun r => (v.cols c x).map fun cl =>
    let (p, o, n) := sampleLoc f c (v.col c cl.2)
    (p, v.row c r.2, o, n)
  let chroma := grid true
  if f = 0 then [] else if isYuv f then grid false ++ chroma ++ (if f = 0x17 then chroma.map fun e => (2, e.2) else []) else grid false

/-- The address of a byte of a plane; a capture buffer is addressed by plane, row and byte (log entry 41).
Rests on log entry 41 (DESIGN CHOICE). -/
def View.addr (v : View) (p r o : Nat) : Nat :=
  match v.cap with
  | some _ => 2 ^ 40 + p * 2 ^ 32 + r * 2 ^ 16 + o
  | none => v.st.plane p + r * v.st.pitch p + o

/-- The 64-byte blocks that a pixel needs. -/
def View.blocks (v : View) (j x : Nat) : List Nat := (v.needs j x).flatMap fun e => blocksOf (v.addr e.1 e.2.1 e.2.2.1) e.2.2.2

/-- Who the compositor fetches a layer of an owner as (R20). -/
def ownerWho (o : Nat) : Who :=
  if o = 0xFF then { owner := 3, compose := true } else { owner := o + 16, inst := some o, compose := true }

/-- Bytes of a range of a layer's source. -/
def State.source (s : State) (v : View) (p r o n : Nat) : List Byte :=
  match v.cap with
  | some (c, b) =>
    let line := KMap.get (fun _ => []) (s.cap c).bufs (8192 * b + r)
    let w := v.st.srcW
    (line.drop ((if p = 1 then 2 * ((s.p.capRec c).map CapRec.width |>.getD w) else 0) + o)).take n
  | none => s.dramBytes (v.addr p r o) n

/-- The samples of the main or the chroma grid at a place, as 10-bit values; alpha of 8 bits as the fourth. -/
def State.samples (s : State) (v : View) (chroma : Bool) (col row : Nat) : List Nat :=
  let f := v.st.format
  let (p, o, n) := sampleLoc f chroma col
  let bs := s.source v p row o n
  let ten := fun (i : Nat) => if tenBit f then leAt bs (2 * i) 2 / 64 else expand10 8 (byteAt bs i)
  if f = 0x15 then (if chroma then [ten 1, ten 3] else [ten (2 * (col % 2))])
  else if f = 0x16 then (if chroma then [ten 0, ten 2] else [ten (1 + 2 * (col % 2))])
  else if f = 0x17 then (if chroma then [ten 0, expand10 8 (byteAt (s.source v 2 row o 1) 0)] else [ten 0])
  else if isYuv f then (if chroma then (if f = 0x11 then [ten 1, ten 0] else [ten 0, ten 1]) else [ten 0])
  else
    let c := decodeRgb f (leNat bs) v.st.const
    [c.r.to 10, c.g.to 10, c.b.to 10, c.a]

/-- The filtered value of each component of a grid at an output pixel: columns first, then rows (R227). -/
def State.filtered (s : State) (v : View) (chroma : Bool) (j x : Nat) : List Nat :=
  let n := if isYuv v.st.format then (if chroma then 2 else 1) else 4
  let top := fun (i : Nat) => if i = 3 then 255 else 1023
  let cut := fun (i : Nat) (sum : Int) => (clampI 0 (top i) ((sum + 512) / 1024)).toNat
  let lines := (v.rows chroma j).map fun r =>
    let cols := (v.cols chroma x).map fun c => (c.1, s.samples v chroma (v.col chroma c.2) (v.row chroma r.2))
    (r.1, (List.range n).map fun i => cut i (cols.foldl (fun (acc : Int) c => acc + c.1 * ((c.2.getD i 0 : Nat) : Int)) 0))
  (List.range n).map fun i => cut i (lines.foldl (fun (acc : Int) l => acc + l.1 * ((l.2.getD i 0 : Nat) : Int)) 0)

/-- The layer's colour and alpha at an output pixel before the colour path (R224 steps 1 to 3). -/
def State.layerPixel (s : State) (v : View) (j x : Nat) : Nat × Nat :=
  let f := v.st.format
  if f = 0 then
    let c := decodeRgb 0 0 v.st.const
    (pack10 (c.r.to 10) (c.g.to 10) (c.b.to 10), c.a)
  else if isYuv f then
    let y := s.filtered v false j x
    let c := s.filtered v true j x
    let (r, g, b) := yuvToRgb v.st.matrix v.st.range (y.getD 0 0) (c.getD 0 0) (c.getD 1 0)
    (pack10 r g b, 255)
  else
    let c := s.filtered v false j x
    (pack10 (c.getD 0 0) (c.getD 1 0) (c.getD 2 0), c.getD 3 0)

/-- Steps 4 to 6 of the colour path (R224, R226): nothing where the layer's coding is the SDR head's; else a value the spec
gives only to within a code (log entry 12). Rests on log entry 12 (DESIGN CHOICE). -/
def pathed (headColour : Nat) (st : LState) (px a : Nat) : Nat :=
  if headColour / 16 = 0 ∧ st.primaries = headColour % 16 ∧ st.transfer = 0 then px
  else Config.colourStage (16 + st.blend % 4) headColour (st.primaries + 4 * st.transfer + 16 * a) px % 2 ^ 30

/-- One pixel blended over another (R233, R234; a PQ or HLG head gives no bit-exact result, log entry 12).
Rests on log entry 12 (DESIGN CHOICE). -/
def blendPixel (headColour : Nat) (st : LState) (px a under : Nat) : Nat :=
  if headColour / 16 = 0 then
    let m := fun (f : Nat → Nat) => blend1 st.blend (f px) a st.alpha (f under)
    pack10 (m red10) (m green10) (m blue10)
  else Config.colourStage (32 + st.blend % 4) headColour (a + 256 * st.alpha + 65536 * under) px % 2 ^ 30

/-! ## Cover and guard (R235, R236) -/

/-- Whether an output pixel of a head lies in the destination of a layer. -/
def View.hits (v : View) (x y : Nat) : Bool :=
  decide (v.st.dstX ≤ x) && decide ((x : Int) < v.st.dstX + v.st.dstW) && decide (v.st.dstY ≤ y) && decide ((y : Int) < v.st.dstY + v.st.dstH)

/-- Whether a layer covers the pixels it shows. -/
def View.covers (v : View) : Bool :=
  decide (v.st.alpha = 255) && (decide (v.st.blend = 0) || noAlpha v.st.format || (decide (v.st.format = 0) && decide (bitsOf v.st.const 24 8 = 255)))

/-- The guarded region of head h at a pixel. -/
def State.regionAt (s : State) (h x y : Nat) : Option GuardRec :=
  s.p.guarded.find? fun g => decide (g.head = h) && decide (g.x ≤ x) && decide (x < g.x + g.w) && decide (g.y ≤ y) && decide (y < g.y + g.h)

/-- Whether the occlusion guard excludes an owner at a pixel: another class, or no owner (R18, R236). -/
def State.guardExcludes (s : State) (h owner x y : Nat) : Bool :=
  match s.regionAt h x y with
  | some g => decide (owner = 0xFF) || decide (s.p.cls owner ≠ s.p.cls g.owner)
  | none => false

/-- A capture-fed layer has something to show once a frame has been latched for it (R220, R302). -/
def View.hasFrame (v : View) : Bool := match v.cap with | some (_, b) => decide (b < 3) | none => true

/-- Whether a layer is blended in a content mode (R261): in the host-lost modes only layers of live class S instances. -/
def State.contentShows (s : State) (content owner : Nat) : Bool :=
  if content = 5 ∨ content = 6 then false
  else if content = 2 ∨ content = 3 then decide (owner ≠ 0xFF) && decide (s.p.cls owner = 1) && s.hostThere owner
  else true

/-- The layers of a frame's state that a head blends, lowest first (R232). -/
def State.stack (s : State) (n : Snap) : List View :=
  let l := ((n.layers.map (s.view n)).filter fun v => decide (v.st.enable = 1) && v.hasFrame && s.contentShows n.content v.owner)
  (List.range 16).flatMap fun z => l.filter fun v => decide (v.st.z = z)

/-! ## A line (R20, R232 to R236, R247) -/

/-- What the fetch of a layer on a line comes to: the blocks fetched, the bytes skipped, whether it was refused. -/
structure Fetch where
  blocks : List Nat := []
  skipped : Nat := 0
  refused : Bool := false
  badAddr : Nat := 0

/-- The output pixels of a layer on line y of head h: inside its rectangle, the active area, and not excluded. -/
def State.pixelsOf (s : State) (h y : Nat) (v : View) : List Nat :=
  (List.range (s.hActive h)).filter fun x => v.hits x y

/-- The fetch of a layer below the layers `above` it on line y. Rests on log entry 70 (DESIGN CHOICE). -/
def State.fetchOf (s : State) (h y : Nat) (v : View) (above : List View) : Fetch :=
  let j := ((y : Int) - v.st.dstY).toNat
  let covered := fun (x : Nat) => above.any fun u => u.covers && u.hits x y && !s.guardExcludes h u.owner x y
  let blocks := fun (x : Nat) => v.blocks j ((x : Int) - v.st.dstX).toNat
  let all := ((s.pixelsOf h y v).flatMap blocks).eraseDups
  let want := (((s.pixelsOf h y v).filter fun x => !covered x).flatMap blocks).eraseDups
  let bad := match v.cap with
    | some _ => none
    | none => want.find? fun b => !(s.mayAccess (ownerWho v.owner) false (64 * b) 64) || s.poisoned b
  { blocks := want, skipped := 64 * (all.length - want.length), refused := bad.isSome, badAddr := 64 * bad.getD 0 }

/-- The pixel of the fallback plane at (x, y), and its alpha (R57). -/
def State.fallbackPixel (s : State) (h x y : Nat) : Option (Nat × Nat) :=
  match s.p.fallback[(s.p.head h).lostImage]? with
  | none => none
  | some im =>
    let x0 := (s.hActive h - im.width) / 2
    let y0 := (s.vActive h - im.height) / 2
    if x0 ≤ x ∧ x < x0 + im.width ∧ y0 ≤ y ∧ y < y0 + im.height then
      let c := im.pixels.getD ((y - y0) * im.width + (x - x0)) 0
      some (background c, bitsOf c 24 8)
    else none

/-- Line y of head h composed from a frame's state. -/
def State.composeFrom (s : State) (h y : Nat) (n : Snap) (used : List Nat) (spec : Bool) : LineRec :=
  let col := (s.p.head h).colour
  let stack := (s.stack n).filter fun v => decide (v.st.dstY ≤ (y : Int)) && decide ((y : Int) < v.st.dstY + v.st.dstH)
  let fetches := (List.range stack.length).filterMap fun i => (stack[i]?).map fun v => (v, s.fetchOf h y v (stack.drop (i + 1)))
  let bg := background (n.rd (headBase h) Reg.HEAD_BG_RGB)
  let px := fun (x : Nat) =>
    let base := if n.content = 2 ∧ (s.regionAt h x y).isNone then
        match s.fallbackPixel h x y with
        | some (c, a) => blendPixel col { blend := 2, alpha := 255 } c a bg
        | none => bg
      else bg
    fetches.foldl (fun under e =>
      let v := e.1
      let j := ((y : Int) - v.st.dstY).toNat
      let i := ((x : Int) - v.st.dstX).toNat
      if !v.hits x y || s.guardExcludes h v.owner x y || e.2.refused || !((v.blocks j i).all fun b => e.2.blocks.contains b) then under
      else
        let (c, a) := s.layerPixel v j i
        blendPixel col v.st (pathed col v.st c a) a under) base
  { pixels := (List.range (s.hActive h)).map px
    spec := spec
    used := used
    refusedBy := (fetches.filter fun e => e.2.refused).map fun e => (e.1.layer, e.2.badAddr)
    skipped := (fetches.filter fun e => decide (e.2.skipped ≠ 0)).map fun e => (e.1.layer, e.2.skipped)
    fetched := (fetches.filter fun e => decide (e.2.blocks ≠ [])).map fun e => e.1.layer
    excluded := stack.any fun v => (s.pixelsOf h y v).any fun x => s.guardExcludes h v.owner x y
    content := n.content }

/-- The key of a line in a head's line store. -/
def lineKey (frame y : Nat) : Nat := 8192 * frame + y

def State.storeLine (s : State) (h frame y : Nat) (r : LineRec) : State :=
  s.modHead h fun x => { x with store := KMap.set (fun _ => ({} : LineRec)) x.store (lineKey frame y) r }
def State.lineAt (s : State) (h frame y : Nat) : Option LineRec := KMap.find (s.head h).store (lineKey frame y)
def State.dropLine (s : State) (h frame y : Nat) : State :=
  s.modHead h fun x => { x with store := KMap.erase x.store (lineKey frame y) }

/-- What a confirmed line leaves in counters and events: refused fetches (R20), bytes skipped (R235; not of a protected layer, R406), the
occlusion guard (R236). Nothing of an unconfirmed line is counted (R22). Rests on log entry 70 (DESIGN CHOICE). -/
def State.confirmed (s : State) (h : Nat) (r : LineRec) : State :=
  let s := s.each r.refusedBy fun s e =>
    let s := (s.count (layerBase e.1 + Reg.LAYER_FETCH_ERR) 1).raise (layerBase e.1) Reg.LAYER_EVENT_FETCH_REFUSED
    s.refuse (ownerWho (s.layerOwner e.1)) e.2 64
  let s := s.each r.skipped fun s e => if (s.layer e.1).protection.isSome then s else s.count (layerBase e.1 + Reg.LAYER_SKIP_BYTES) e.2
  if r.excluded then (s.count (headBase h + Reg.HEAD_GUARD_EXCL) 1).raise (headBase h) Reg.HEAD_COMP_EVENT_GUARD_EXCL else s

/-- The layers among some shadows whose old or new rows hold line y, and the head's where its background differs: what a
speculative line used. -/
def State.usedOn (s : State) (h y : Nat) (shadows : List Nat) : List Nat :=
  shadows.filter fun n =>
    if n = 64 then decide (s.rd (headBase h) Reg.HEAD_BG_RGB ≠ s.rda (headBase h) Reg.HEAD_BG_RGB)
    else inRows (s.rowsOf h (s.lstate n true)) y || inRows (s.rowsOf h (s.lstate n false)) y

/-- Line y of the next frame composed before its latch, from what that latch would apply (R249): nothing in FAULT_HOLD (R261). -/
def State.composeSpec (s : State) (h y : Nat) : State :=
  let sh := s.specShadows h
  if s.content h = 4 then s.storeLine h (s.frameNo h + 1) y (s.composeFrom h y (s.head h).cur [] true)
  else s.storeLine h (s.frameNo h + 1) y (s.composeFrom h y (s.snap h sh true) (s.usedOn h y sh) true)

/-- Line y of a frame composed from latched state. -/
def State.composeLatched (s : State) (h frame y : Nat) (n : Snap) : State :=
  let r := s.composeFrom h y n [] false
  (s.storeLine h frame y r).confirmed h r

/-- COMPOSE_LINE_START (R248 to R250): lines below the lead belong to the next frame. In SELF_REFRESH only the rows of a selective
update are composed (R293, R294). Rests on log entry 78 (DESIGN CHOICE). -/
def doComposeLineStart (s : State) (h y t : Nat) : State :=
  let s := s.reach t
  let x := s.head h
  let carried := fun (r : Nat × Nat) => decide (s.rd (headBase h) Reg.HEAD_STATE_LINK ≠ 4) || inRows r y
  if !s.scans h ∨ s.vActive h ≤ y then s
  else if y < s.lead h then
    let s := s.modHead h fun x => { x with composed := max x.composed (y + 1) }
    if !carried x.psrNext then s
    else if (s.head h).latched then s.composeLatched h (s.frameNo h + 1) y (s.head h).next else s.composeSpec h y
  else if carried x.psrCur then s.composeLatched h (s.frameNo h) y x.cur
  else s

/-! ## Recomposition (R251, R253) -/

/-- Started lines of the next frame that a test holds of. -/
def State.startedLines (s : State) (h : Nat) (f : Nat → Bool) : List Nat := (List.range (min (s.head h).composed (s.lead h))).filter f

/-- Whether lines can be recomposed before the first of them is due (R251). Rests on log entry 71 (DESIGN CHOICE). -/
def State.fitsBefore (s : State) (h : Nat) (l : List Nat) : Bool :=
  match l.head? with
  | none => true
  | some y => decide (2000 * 4 * s.compMhz + l.length * s.hActive h * 1000 ≤ (s.dueNext h y - s.now) * 4 * s.compMhz)

/-- Lines discarded and composed again, before the latch. Rests on log entry 71 (DESIGN CHOICE). -/
def State.recompose (s : State) (h : Nat) (l : List Nat) : State :=
  if l = [] then s
  else
    let b := headBase h
    let s := ((s.count (b + Reg.HEAD_SPEC_DISCARD) l.length).count (b + Reg.HEAD_RECOMPOSE) l.length).raise b Reg.HEAD_COMP_EVENT_RECOMPOSED
    s.each l fun s y => s.composeSpec h y

/-- After a latch: lines that used another state than the latch applied are composed again in order; one that cannot be composed
before it is due leaves the store and underruns (R253). -/
def State.recomposeLatched (s : State) (h : Nat) (l : List Nat) : State :=
  if l = [] then s
  else
    let b := headBase h
    let f := s.frameNo h + 1
    let s := s.count (b + Reg.HEAD_SPEC_DISCARD) l.length
    let fits := (List.range l.length).filterMap fun i => (l[i]?).map fun y =>
      (y, decide (2000 * 4 * s.compMhz + (i + 1) * s.hActive h * 1000 ≤ (s.dueNext h y - s.now) * 4 * s.compMhz))
    let ok := (fits.filter Prod.snd).map Prod.fst
    let s := s.each fits fun s e => if e.2 then s.composeLatched h f e.1 (s.head h).next else s.dropLine h f e.1
    let s := if ok = [] then s else (s.count (b + Reg.HEAD_RECOMPOSE) ok.length).raise b Reg.HEAD_COMP_EVENT_RECOMPOSED
    if ok.length < l.length then s.raise b Reg.HEAD_COMP_EVENT_DISCREPANCY else s

/-- The lines composed before a latch once it has applied its state: `changed` are the layers it changed with their old and new
rows, 64 the head's background, and 128 + k what no shadow of layer k announced. -/
def State.confirmLines (s : State) (h : Nat) (changed : List (Nat × (Nat × Nat) × (Nat × Nat))) : State :=
  let f := s.frameNo h + 1
  let on := fun (y : Nat) => (changed.filter fun c => inRows c.2.1 y || inRows c.2.2 y).map Prod.fst
  let wrong := s.startedLines h fun y => match s.lineAt h f y with
    | some r => r.spec && !(r.used.all fun k => (on y).contains k) || (r.spec && !(on y).all fun k => r.used.contains k) ||
        (r.spec && decide (r.content ≠ (s.head h).next.content))
    | none => false
  let s := s.recomposeLatched h wrong
  s.each (s.startedLines h fun _ => true) fun s y => match s.lineAt h f y with
    | some r => if r.spec then (s.storeLine h f y { r with spec := false }).confirmed h r else s
    | none => s

def execComposeLineStart (h : Fin 8) (line : BitVec 16) (t : BitVec 64) (s : State) : Host.Outcome State Fault Refusal := .next (settle s (doComposeLineStart s h.val line.toNat t.toNat))

end Sys2Proof.Machine
end

