-- ==== Sys2Proof/Machine/Dram.lean ====
section
/-!
DEFINITION. The DRAM controller (chapter 10): the address map, requests with their urgency and budgets, what a command slot serves,
refresh, row disturbance, training and re-centring, low power, and ECC.
-/
namespace Sys2Proof.Machine

/-! ## Address map (R354 to R356) -/

/-- Rows per bank of a fit; none for a fit that R354 does not list. -/
def rowsOfFit (gib ranks : Nat) : Option Nat :=
  if ranks = 1 then ([(8, 16384), (16, 32768), (24, 49152), (32, 65536)].find? fun e => decide (e.1 = gib)).map Prod.snd
  else if ranks = 2 then ([(16, 16384), (32, 32768), (48, 49152), (64, 65536)].find? fun e => decide (e.1 = gib)).map Prod.snd
  else none

/-- A place in the memory devices. -/
structure Place where
  channel : Nat
  rank : Nat
  bank : Nat
  row : Nat
  block : Nat                              -- block in the row
  deriving DecidableEq, Repr

/-- The place of a device address. -/
def placeOf (rows : Nat) (a : Nat) : Place :=
  let c := bitsOf a 8 4 ^^^ bitsOf a 16 4 ^^^ bitsOf a 24 4 ^^^ bitsOf a 32 4
  let d := a / 4096 * 256 + a % 256
  let b := d / 64
  let g := b / 31
  let q := g % (16 * rows)
  { channel := c, rank := g / (16 * rows), bank := (q % 16) ^^^ (q / 16 % 16), row := q / 16, block := b % 31 }

def State.place (s : State) (a : Nat) : Place := placeOf s.dramx.rows a
def Place.bankKey (p : Place) : Nat := 16 * p.rank + p.bank

/-- ECC is on (R388). -/
def State.eccOn (s : State) : Bool := decide (s.rd dmcB Reg.DMC_STATUS_ECC_ON = 1)

/-! ## Budgets (R361) -/

def classBKey : Nat := 64
def scrubKey : Nat := 65
def fwKey : Nat := 66
def State.budget (s : State) (k : Nat) : Nat := KMap.get (fun _ => 0) s.dramx.budgets k
def State.setBudget (s : State) (k v : Nat) : State := { s with dramx := { s.dramx with budgets := KMap.set (fun _ => 0) s.dramx.budgets k v } }

/-- One transaction charged to a budget; true while the budget was not yet spent. -/
def State.charge (s : State) (k n : Nat) : State × Bool := (s.setBudget k (s.budget k - n), decide (0 < s.budget k))

/-- Sustained bandwidth in bytes per round: 80 % of the peak (R34). -/
def State.sustained (s : State) : Nat := s.rd dmcB Reg.DMC_STATUS_RATE_MTS * 25600

/-- Every budget is refilled at the start of a round. -/
def State.refillBudgets (s : State) : State :=
  let s := s.each (s.p.insts.map InstRec.inst) fun s i => s.setBudget i (s.rda (carB + 64 * i) Reg.CAR_INST_DRAM_RES_MBS * 1000)
  ((s.setBudget classBKey (s.p.glob.bDramPm * s.sustained / 1000)).setBudget scrubKey 4000000).setBudget fwKey 1000000

/-! ## The queue of a channel (R359, R360, R362) -/

def QReq.place (s : State) (r : QReq) : Place := s.place r.addr
def blockOf (a : Nat) : Nat := a / 64

/-- DMC_c_STATUS[QUEUED] and [URGENCY] follow the queue. -/
def State.chanLook (s : State) (c : Nat) : State :=
  let l := (s.chan c).queue
  (s.put (chB c) Reg.DMCCH_STATUS_QUEUED l.length).put (chB c) Reg.DMCCH_STATUS_URGENCY (l.foldl (fun m r => max m r.urg) 0)

/-- Whether a queue has an entry that a request may use. -/
def admits (l : List QReq) (r : QReq) : Bool :=
  decide (l.length < if 2 ≤ r.urg then 64 else 56) && (!r.write || decide ((l.filter QReq.write).length < 32))

/-- Requests held back in Midway enter as entries become free; a port keeps its order. -/
def admitList (q : List QReq) : List QReq → List Nat → List QReq × List QReq
  | [], _ => (q, [])
  | r :: rs, blocked =>
    if !blocked.contains r.port && admits q r then admitList (q ++ [r]) rs blocked
    else let (q, h) := admitList q rs (r.port :: blocked); (q, r :: h)
def State.admitHeld (s : State) (c : Nat) : State :=
  let x := s.chan c
  let (q, h) := admitList x.queue x.held []
  (s.setChan c { x with queue := q, held := h }).chanLook c

/-- Composed lines of head h not yet sent (R360). -/
def State.fillOfHead (s : State) (h : Nat) : Nat :=
  let x := s.head h
  let f := s.frameNo h
  (x.store.filter fun e => decide (lineKey f x.sentLines ≤ e.1)).length

/-- Urgency of a head port. -/
def State.headUrgency (s : State) (h : Nat) : Nat :=
  let f := s.fillOfHead h
  let l := s.lead h
  if l ≤ 2 * f then 1 else if l ≤ 4 * f then 2 else 3

/-- Who makes a request of a port. -/
def reqWho (r : DramReq) : Who :=
  let p := r.port.val
  let i := r.inst.toNat
  if p < 8 then ownerWho i
  else if p < 14 then (if p = 12 ∧ i < 64 then { owner := i + 16, inst := some i } else Who.fw)
  else if p = 14 then (if r.secure then { owner := 1 } else Who.fw)
  else if p ≤ 20 then (if i < 64 then { owner := i + 16, inst := some i, secure := r.secure } else Who.fw)
  else if i < 64 then { owner := i + 16, inst := some i }
  else if i = 0xFE then { owner := 4 }
  else Who.mgr

/-- Requests of the page ownership checker and of the background port are not checked against page ownership. -/
def unchecked (p : Nat) : Bool := decide (p = 22) || decide (p = 23)

/-- The urgency of a request, its budget charged. -/
def State.urgencyOf (s : State) (r : DramReq) : State × Nat :=
  let p := r.port.val
  let i := r.inst.toNat
  let by_ := fun (k : Nat) => let (s, left) := s.charge k 64; (s, left.toNat)
  if p < 8 then (s, s.headUrgency p)
  else if p < 12 ∨ p = 22 then (s, r.urg.val)
  else if p < 14 then (s, 2)
  else if p = 14 then by_ fwKey
  else if p = 23 then by_ (if r.scrub then scrubKey else classBKey)
  else if i < 64 then by_ i
  else if p = 21 then (s, 0)
  else by_ classBKey

/-- The class in which a request is served at urgency 0. -/
def reqClass (r : DramReq) : Nat :=
  if r.port.val = 14 then 1 else if r.port.val = 23 then 0 else if r.port.val = 21 ∧ 64 ≤ r.inst.toNat then 2 else r.cls.val

/-- A request wakes its rank (R381), and its channel from self-refresh, where MR4 is read before the first access (R382). -/
def State.wakeRank (s : State) (c rank : Nat) : State :=
  let f := if rank = 0 then Reg.DMCCH_STATUS_RANK0 else Reg.DMCCH_STATUS_RANK1
  let st := s.rd (chB c) f
  if st = 1 then s.put (chB c) f 0
  else if 2 ≤ st then ((s.put (chB c) Reg.DMCCH_STATUS_RANK0 0).put (chB c) Reg.DMCCH_STATUS_RANK1 0).modChan c fun x => { x with pollDue := true }
  else s

/-- DRAM_REQUEST_ARRIVE (R359): checked against page ownership (R19, R399), charged, queued or held back. -/
def doDramArrive (s : State) (r : DramReq) : State :=
  let a := r.addr.toNat
  let n := if r.write then r.data.length else 64
  let a := if r.write then a else a / 64 * 64
  if s.rd dmcB Reg.DMC_STATUS_STATE ≠ 3 ∨ n = 0 ∨ 64 < a % 64 + n then s
  else
    let w := reqWho r
    let ok := if unchecked r.port.val then decide (a + n ≤ s.usable) else s.mayAccess w r.write a n
    if !ok then s.refuse w a n
    else
      let p := s.place a
      let (s, u) := s.urgencyOf r
      let q : QReq := { port := r.port.val, urg := u, cls := reqClass r, inst := r.inst.toNat, secure := r.secure, addr := a, write := r.write
                        data := r.data, arrived := s.now }
      let s := s.wakeRank p.channel p.rank
      let raised := fun (o : QReq) => if r.port.val < 12 ∧ o.port = q.port ∧ (o.place s).bankKey = p.bankKey then { o with urg := max o.urg u } else o
      (s.modChan p.channel fun x => { x with queue := x.queue.map raised, held := x.held ++ [q] }).admitHeld p.channel

/-- REQUEST_AGE_PROMOTE (R364). -/
def doPromote (s : State) (c : Nat) : State :=
  let age := s.rd dmcB Reg.DMC_POLICY_AGE_US * 1000
  let up := fun (r : QReq) => if r.urg = 0 ∧ r.arrived + age ≤ s.now then { r with urg := 1 } else r
  (s.modChan c fun x => { x with queue := x.queue.map up }).chanLook c

/-! ## Refresh (R367 to R371) -/

/-- Per rank: its owed count, its factor, whether it is being forced, its place in the bank rotation. -/
def owedFld (rank : Nat) : Fld := if rank = 0 then Reg.DMCCH_STATUS_OWED_0 else Reg.DMCCH_STATUS_OWED_1
def State.owed (s : State) (c rank : Nat) : Nat := s.rd (chB c) (owedFld rank)
def ChanX.factor (x : ChanX) (rank : Nat) : Nat := if rank = 0 then x.fx0 else x.fx1
def ChanX.forced (x : ChanX) (rank : Nat) : Bool := if rank = 0 then x.force0 else x.force1
def ChanX.setForced (x : ChanX) (rank : Nat) (b : Bool) : ChanX := if rank = 0 then { x with force0 := b } else { x with force1 := b }
def ChanX.rot (x : ChanX) (rank : Nat) : Nat := if rank = 0 then x.rot0 else x.rot1
def ChanX.setRot (x : ChanX) (rank n : Nat) : ChanX := if rank = 0 then { x with rot0 := n } else { x with rot1 := n }
def State.ranks (s : State) : List Nat := if s.rd dmcB Reg.DMC_STATUS_TWO_RANKS = 1 then [0, 1] else [0]
def State.refreshLimit (s : State) : Nat := s.rd dmcB Reg.DMC_REFRESH_LIMIT
def State.allBank (s : State) : Bool := decide (s.rd dmcB Reg.DMC_REFRESH_ALL_BANK = 1)
def State.rankAsleep (s : State) (c rank : Nat) : Bool :=
  decide (2 ≤ s.rd (chB c) (if rank = 0 then Reg.DMCCH_STATUS_RANK0 else Reg.DMCCH_STATUS_RANK1))

/-- A port at urgency 2 or 3 has a request queued at the channel. -/
def State.urgentQueued (s : State) (c : Nat) : Bool := (s.chan c).queue.any fun r => decide (2 ≤ r.urg)

/-- ECC blocks of the closed rows of a bank are written back (R358). -/
def rowKey (p : Place) : Nat := (16 * p.rank + p.bank) * 65536 + p.row
def ChanX.closeBank (x : ChanX) (bankKey : Nat) : ChanX :=
  match (KMap.get (fun _ => ({} : BankX)) x.banks bankKey).openRow with
  | none => x
  | some r =>
    let clean := fun (e : Nat × Bool) => if e.1 = bankKey * 65536 + r then (e.1, false) else e
    let b := KMap.get (fun _ => ({} : BankX)) x.banks bankKey
    { x with banks := KMap.set (fun _ => ({} : BankX)) x.banks bankKey { b with openRow := none }, ecc := x.ecc.map clean }

/-- One refresh of a rank: its bank in the rotation, or every bank. -/
def State.refreshRank (s : State) (c rank : Nat) : State :=
  let x := s.chan c
  let n := s.owed c rank
  let counted := x.forced rank || decide (s.refreshLimit ≤ n)
  let banks := if s.allBank then List.range 16 else [x.rot rank]
  let x := (banks.foldl (fun (x : ChanX) b => x.closeBank (16 * rank + b)) x).setRot rank (if s.allBank then x.rot rank else (x.rot rank + 1) % 16)
  let x := if n - 1 < s.refreshLimit then x.setForced rank false else x
  let s := ((s.setChan c x).put (chB c) (owedFld rank) (n - 1)).count (chB c + Reg.DMCCH_REFRESHES) 1
  let s := if counted then s.count (chB c + Reg.DMCCH_FORCED) 1 else s
  let f := if rank = 0 then Reg.DMCCH_STATUS_RANK0 else Reg.DMCCH_STATUS_RANK1
  if s.rd (chB c) f = 1 then s.put (chB c) f 0 else s

/-- REFRESH_TICK (R367): the owed count grows; a tick at which an urgent request postpones the refresh is counted (R368). -/
def doRefreshTick (s : State) (c rank : Nat) : State :=
  if s.rd dmcB Reg.DMC_STATUS_STATE ≠ 3 ∨ !s.ranks.contains rank ∨ s.rankAsleep c rank then s
  else
    let s := (s.wakeRank c rank).put (chB c) (owedFld rank) (min (s.owed c rank + 1) 63)
    if s.urgentQueued c ∧ s.owed c rank < s.refreshLimit then s.count (chB c + Reg.DMCCH_POSTPONED) 1 else s

/-- Refreshes are forced down to LIMIT − 1 (R370, R371). -/
def State.force (s : State) (c rank : Nat) : State :=
  (s.modChan c fun x => x.setForced rank true).raise (chB c) Reg.DMCCH_EVENT_FORCED

/-- MR4_POLL (R369): not within 2 µs after a re-centring probe. -/
def doMr4Poll (s : State) (c : Nat) : State :=
  if s.rd dmcB Reg.DMC_STATUS_STATE ≠ 3 ∨ s.rankAsleep c 0 ∨ s.now < (s.chan c).probeEnd + 2000 then s
  else s.modChan c fun x => { x with pollDue := true }

/-- DMC_c_STATUS[RATE_X]: the higher factor of the ranks. Rests on log entry 85 (DESIGN CHOICE). -/
def State.rateLook (s : State) (c : Nat) : State :=
  let x := s.chan c
  let f := s.ranks.foldl (fun m r => max m (x.factor r)) 1
  s.put (chB c) Reg.DMCCH_STATUS_RATE_X (if f = 4 then 2 else if f = 2 then 1 else 0)

/-- MR4_RESULT (R369, R370): the band below 85 °C, to 105 °C, or above. -/
def doMr4Result (s : State) (c rank band : Nat) : State :=
  if s.rd dmcB Reg.DMC_STATUS_STATE ≠ 3 ∨ !s.ranks.contains rank then s
  else
    let x := s.chan c
    let old := x.factor rank
    let new := 2 ^ band
    let n := s.owed c rank
    let s := (s.setChan c (if rank = 0 then { x with fx0 := new, pollDue := false } else { x with fx1 := new, pollDue := false })).rateLook c
    let s := if s.rankAsleep c rank then s.put (chB c) (owedFld rank) 0
      else if old < new then
        let s := (s.wakeRank c rank).put (chB c) (owedFld rank) (min (n * (new / old)) 63)
        if s.refreshLimit < s.owed c rank then s.force c rank else s
      else if new < old then s.put (chB c) (owedFld rank) ((n + old / new - 1) / (old / new))
      else s
    let s := if new = 2 ∧ old ≠ 2 then s.raise (chB c) Reg.DMCCH_EVENT_RATE_CHANGE else s
    if new = 4 ∧ old ≠ 4 then (s.raise dmcB Reg.DMC_EVENT_TEMP_HIGH).fault srcTemp { index := 0x80 + c }
    else if s.ranks.all fun r => decide ((s.chan c).factor r ≠ 4) then s.clearPersist srcTemp (0x80 + c)
    else s

/-- A write of DMC_REFRESH (R371): a LIMIT below an owed count forces refreshes at once. -/
def State.refreshWrite (s : State) (limit allBank pollUs : Nat) : State :=
  let s := ((s.put dmcB Reg.DMC_REFRESH_LIMIT limit).put dmcB Reg.DMC_REFRESH_ALL_BANK allBank).put dmcB Reg.DMC_REFRESH_POLL_US pollUs
  s.each (List.range 16) fun s c => s.each s.ranks fun s r => if limit < s.owed c r then s.force c r else s

/-! ## Row disturbance (R373, R374) -/

/-- An activation of a row in a bank's table: the table, and whether the count reached the threshold. -/
def lowest : List (Nat × Nat) → Nat
  | [] => 0
  | e :: l => l.foldl (fun m x => min m x.2) e.2
/-- Rests on log entry 86 (DESIGN CHOICE). -/
def bumpRow (t : List (Nat × Nat)) (r threshold : Nat) : List (Nat × Nat) × Bool :=
  let set := fun (n v : Nat) => (List.range t.length).map fun i => if i = n then (r, v) else t.getD i (0, 0)
  let hit := fun (v : Nat) => decide (threshold ≤ v)
  let fin := fun (v : Nat) => if hit v then 0 else v
  match (List.range t.length).find? fun i => decide ((t.getD i (0, 0)).1 = r) with
  | some i => let v := (t.getD i (0, 0)).2 + 1; (set i (fin v), hit v)
  | none =>
    if t.length < 32 then (t ++ [(r, fin 1)], hit 1)
    else
      let m := lowest t
      match (List.range t.length).find? fun i => decide ((t.getD i (0, 0)).2 = m) with
      | some i => (set i (fin (m + 1)), hit (m + 1))
      | none => (t, false)

/-- A row is opened: the activation counts (not of secure work, R406), and may make a mitigation due. -/
def State.openRow (s : State) (c : Nat) (p : Place) (held : Bool) : State :=
  let x := (s.chan c).closeBank p.bankKey
  let b := KMap.get (fun _ => ({} : BankX)) x.banks p.bankKey
  let on := decide (s.rd dmcB Reg.DMC_DISTURB_ENABLE = 1)
  let (t, due) := if on then bumpRow b.table p.row (s.rd dmcB Reg.DMC_DISTURB_THRESHOLD) else (b.table, false)
  let x := { x with banks := KMap.set (fun _ => ({} : BankX)) x.banks p.bankKey { openRow := some p.row, table := t }
                    mitig := if due then x.mitig ++ [(p.rank, p.bank, p.row)] else x.mitig }
  let s := s.setChan c x
  if held then s else s.count (chB c + Reg.DMCCH_ACTIVATES) 1

/-- A mitigation (R374) closes its bank; neighbours or refresh management, by MODE.
Rests on log entry 86 (DESIGN CHOICE). -/
def State.mitigate (s : State) (c : Nat) : State :=
  match (s.chan c).mitig with
  | [] => s
  | (rank, bank, _) :: l =>
    let s := s.modChan c fun x => { x.closeBank (16 * rank + bank) with mitig := l }
    (s.count (chB c + Reg.DMCCH_MITIGATIONS) 1).raise (chB c) Reg.DMCCH_EVENT_MITIGATION

/-- DISTURB_WINDOW_END (R373). -/
def doDisturbWindow (s : State) (c : Nat) : State :=
  let halve := fun (e : Nat × BankX) => (e.1, { e.2 with table := e.2.table.map fun r => (r.1, r.2 / 2) })
  s.modChan c fun x => { x with banks := x.banks.map halve }

/-! ## A command slot (R357, R358, R363 to R366) -/

/-- Banks that forcing holds from the split until their own refresh (R370). -/
def State.heldBanks (s : State) (c : Nat) : List Nat :=
  s.ranks.flatMap fun r =>
    let x := s.chan c
    if !x.forced r then []
    else if s.allBank then (List.range 16).map (16 * r + ·)
    else (List.range (s.owed c r + 1 - s.refreshLimit)).map fun i => 16 * r + (x.rot r + i) % 16

/-- Requests that may be served now: none of a held bank, none behind an earlier request for its block, and reads or writes as the
batch rule says. -/
def State.eligible (s : State) (c : Nat) : List QReq :=
  let x := s.chan c
  let held := s.heldBanks c
  let first := fun (r : QReq) => match x.queue.find? fun o => decide (blockOf o.addr = blockOf r.addr) with | some o => decide (o = r) | none => false
  let kind := fun (r : QReq) => if x.draining then r.write || decide (r.urg = 3) else !r.write
  x.queue.filter fun r => !held.contains (r.place s).bankKey && first r && kind r

/-- Write batches start and end (R366). Rests on log entry 85 (DESIGN CHOICE). -/
def State.batchLook (s : State) (c : Nat) : State :=
  let x := s.chan c
  let w := (x.queue.filter QReq.write).length
  let r := x.queue.length - w
  let on := if x.draining then decide (0 < w) && !(decide (w ≤ 8) && decide (0 < r)) else decide (24 ≤ w) || (decide (r = 0) && decide (0 < w))
  s.setChan c { x with draining := on }

/-- Whether a request hits the open row of its bank. -/
def State.rowHit (s : State) (c : Nat) (r : QReq) : Bool :=
  let p := r.place s
  decide ((KMap.get (fun _ => ({} : BankX)) (s.chan c).banks p.bankKey).openRow = some p.row)

/-- Among requests of one order: a row hit first, else the oldest; at most HIT_LIMIT hits pass an older one. -/
def State.pick (s : State) (c : Nat) (l : List QReq) : Option QReq :=
  match l with
  | [] => none
  | old :: _ =>
    if s.rd dmcB Reg.DMC_POLICY_HIT_LIMIT ≤ (s.chan c).hits then some old
    else match l.find? (s.rowHit c) with | some r => some r | none => some old

/-- The ECC block of a row enters the cache or moves to its front; at most 32 are held (R358). -/
def touchEcc (l : List (Nat × Bool)) (k : Nat) (dirty : Bool) : List (Nat × Bool) :=
  let was := l.any fun e => decide (e.1 = k) && e.2
  ((k, was || dirty) :: l.filter fun e => decide (e.1 ≠ k)).take 32

/-- A request is served: its row is open, a write changes memory, and its entry is free. -/
def State.serve (s : State) (c : Nat) (l : List QReq) (r : QReq) : State :=
  let p := r.place s
  let hit := s.rowHit c r
  let protectedLayer := decide (r.port < 8) && ((s.layersOn r.port).any fun k => (s.layer k).protection.isSome && decide (s.layerOwner k = r.inst))
  let s := if hit then s else s.openRow c p (r.secure || protectedLayer)
  let older := match l.head? with | some o => decide (o ≠ r) | none => false
  let s := s.modChan c fun x => { x with hits := if hit && older then x.hits + 1 else 0, queue := x.queue.erase r, idleSince := s.now
                                         ecc := touchEcc x.ecc (rowKey p) r.write }
  let s := if r.write then s.dramWrite r.addr r.data else s
  s.admitHeld c

/-- Class G requests that have waited 1 µs only because of order 7 (R364). -/
def State.deferG (s : State) (c : Nat) : State :=
  let due := fun (r : QReq) => decide (r.urg = 0) && decide (r.cls = 3) && !r.deferred && decide (r.arrived + 1000 < s.now)
  let n := ((s.chan c).queue.filter due).length
  let mark := fun (r : QReq) => if due r then { r with deferred := true } else r
  if n = 0 then s else (s.modChan c fun x => { x with queue := x.queue.map mark }).count (chB c + Reg.DMCCH_G_DEFERRED) n

/-- The requests of each order of R363 in turn. -/
def orders : List (QReq → Bool) :=
  [fun r => decide (r.urg = 3), fun r => decide (r.urg = 2), fun r => decide (r.urg = 1), fun r => decide (r.urg = 0) && decide (r.cls = 1),
    fun r => decide (r.urg = 0) && decide (r.cls = 2), fun r => decide (r.urg = 0) && (decide (r.cls = 3) || decide (r.cls = 0))]

/-- The first order that has an eligible request serves one; `from_` is the first order tried, and the count of those tried. -/
def State.serveOrders (s : State) (c : Nat) (l : List QReq) : List (Nat × (QReq → Bool)) → State
  | [] => s
  | (n, f) :: fs =>
    match s.pick c (l.filter f) with
    | some r => let s := if n = 3 ∨ n = 4 then s.deferG c else s; s.serve c (l.filter f) r
    | none => s.serveOrders c l fs

/-- COMMAND_SLOT (R363): one candidate. -/
def doCommandSlot (s : State) (c : Nat) : State :=
  if s.rd dmcB Reg.DMC_STATUS_STATE ≠ 3 then s
  else
    let s := s.batchLook c
    let awake := s.ranks.filter fun r => !s.rankAsleep c r
    let must := awake.find? fun r => (s.chan c).forced r || decide (s.refreshLimit ≤ s.owed c r)
    let may := if s.urgentQueued c then none else awake.find? fun r => decide (0 < s.owed c r)
    let l := s.eligible c
    let os := (List.range 6).zip orders
    match must with
    | some r => s.refreshRank c r
    | none =>
      if (s.chan c).mitig ≠ [] then s.mitigate c
      else if l.any fun r => decide (2 ≤ r.urg) then s.serveOrders c l (os.take 2)
      else match may with
        | some r => s.refreshRank c r
        | none => s.serveOrders c l (os.drop 2)

/-! ## ECC (R384 to R388) -/

/-- DMC_LAST_CE and DMC_LAST_UE (R391). Rests on log entry 88 (DEDUCED). -/
def lastWord (a c port inst syn : Nat) : Nat := a + 2 ^ 64 * (c + 2 ^ 8 * port + 2 ^ 16 * inst) + 2 ^ 96 * syn

/-- What a check finds: nothing, a corrected bit, or poison (with its source). -/
inductive EccFind where
  | clean | corrected (syn : Nat) | bad (addrCheck : Bool) (syn : Nat)
  deriving DecidableEq, Repr

def eccFind : EccRead → EccFind
  | .clean => .clean
  | .oneBit v => .corrected v.toNat
  | .twoBits v => .bad false v.toNat
  | .addrCheck v => .bad true v.toNat

/-- The finding on a block: an injected one first (R508), then the block's poison bit; clean while ECC is off. -/
def State.findOn (s : State) (a : Nat) (r : EccRead) : EccFind × Option Bool :=
  let armed := s.sn.armed.find? fun e => decide (e.1 = 2)
  match armed with
  | some (_, _, flags) =>
    if s.sn.injAddr / 64 = a / 64 then (if bitSet flags 0 then .corrected 0 else .bad false 0, some (bitSet flags 1))
    else (if !s.eccOn then .clean else if s.poisoned (a / 64) then .bad false 0 else eccFind r, none)
  | none => (if !s.eccOn then .clean else if s.poisoned (a / 64) then .bad false 0 else eccFind r, none)

/-- The counters, events and reports of a checked read; true where its data is good. -/
def State.eccCheck (s : State) (a port inst : Nat) (r : EccRead) : State × Bool :=
  let c := (s.place a).channel
  let b := chB c
  let (f, inj) := s.findOn a r
  let s := if inj.isSome then { s with sn := { s.sn with armed := s.sn.armed.filter fun e => decide (e.1 ≠ 2) } } else s
  match f with
  | .clean => (s, true)
  | .corrected syn =>
    let s := ((s.count (b + Reg.DMCCH_CE) 1).count (dmcB + Reg.DMC_CE_TOTAL) 1).putWide (dmcB + Reg.DMC_LAST_CE) (lastWord a c port inst syn)
    let s := (s.raise b Reg.DMCCH_EVENT_CE).raise dmcB Reg.DMC_EVENT_CE
    ((s.charge classBKey 64).1, true)
  | .bad addr syn =>
    let s := ((s.count (b + Reg.DMCCH_UE) 1).count (dmcB + Reg.DMC_UE_TOTAL) 1).putWide (dmcB + Reg.DMC_LAST_UE) (lastWord a c port inst syn)
    let s := (s.raise b (if addr then Reg.DMCCH_EVENT_ADDR_CHECK else Reg.DMCCH_EVENT_UE)).raise dmcB Reg.DMC_EVENT_UE
    (s.fault (if addr then srcDramAddr else srcDramUe) { index := c, value := a, injected := inj.isSome, suppress := inj.getD false }, false)

/-- DRAM_READ_RETURN (R384, R385): the requester receives the block, or poison. -/
def doReadReturn (s : State) (port inst addr : Nat) (r : EccRead) : State :=
  let a := addr / 64 * 64
  if s.rd dmcB Reg.DMC_STATUS_STATE ≠ 3 ∨ s.usable < a + 64 then s
  else
    let (s, ok) := s.eccCheck a port inst r
    { s with readData := if ok then s.dramBytes a 64 else [] }

/-- PATROL_READ (R386). Rests on log entry 88 (DEDUCED). -/
def doPatrol (s : State) (r : EccRead) : State :=
  if s.rd dmcB Reg.DMC_STATUS_STATE ≠ 3 ∨ s.rd dmcB Reg.DMC_PATROL_ENABLE = 0 ∨ s.usable = 0 then s
  else
    let a := s.wideAt (dmcB + Reg.DMC_PATROL_POS) % s.usable
    let (s, ok) := ((s.charge classBKey 64).1).eccCheck a 23 0xFF r
    let s := if ok then s else s.setPoison (a / 64) true
    if a + 64 < s.usable then s.putWide (dmcB + Reg.DMC_PATROL_POS) (a + 64)
    else ((s.putWide (dmcB + Reg.DMC_PATROL_POS) 0).count (dmcB + Reg.DMC_PATROL_PASSES) 1).raise dmcB Reg.DMC_EVENT_PATROL_PASS

/-! ## Training and re-centring (R376 to R380) -/

def eyeFlds (rd_ : Bool) (lane : Nat) : Fld × Fld :=
  if rd_ then (if lane = 0 then (Reg.DMCCH_EYE_RD_CENTRE_B0, Reg.DMCCH_EYE_RD_WIDTH_B0) else (Reg.DMCCH_EYE_RD_CENTRE_B1, Reg.DMCCH_EYE_RD_WIDTH_B1))
  else (if lane = 0 then (Reg.DMCCH_EYE_WR_CENTRE_B0, Reg.DMCCH_EYE_WR_WIDTH_B0) else (Reg.DMCCH_EYE_WR_CENTRE_B1, Reg.DMCCH_EYE_WR_WIDTH_B1))

/-- A measured eye: its width, and what a narrow one raises (R380). -/
def State.eyeWidth (s : State) (c rank lane width : Nat) (wr : Bool) : State :=
  let s := s.put (chB c + 8 * rank) (eyeFlds (!wr) lane).2 width
  let s := if width < 24 then (s.raise (chB c) Reg.DMCCH_EVENT_EYE_LOW).raise dmcB Reg.DMC_EVENT_EYE_LOW else s
  if width < 16 then s.fault srcMemLatent { index := c } else s

/-- The eyes of a system in order of channel, rank, lane, read before write. -/
def State.eyeList (s : State) : List (Nat × Nat × Nat × Bool) :=
  (List.range 16).flatMap fun c => s.ranks.flatMap fun r => [0, 1].flatMap fun l => [(c, r, l, false), (c, r, l, true)]

/-- TRAINING_DONE (R376, R377). -/
def doTrainingDone (s : State) (r : TrainResult) : State :=
  let failed := fun (s : State) (chs : List Nat) =>
    let s := (s.put dmcB Reg.DMC_STATUS_STATE 5).raise dmcB Reg.DMC_EVENT_TRAIN_FAIL
    s.each chs fun s c => s.raise (chB c) Reg.DMCCH_EVENT_TRAIN_FAIL
  if s.rd dmcB Reg.DMC_STATUS_STATE ≠ 1 then s
  else match r with
    | .fail m => failed s ((List.range 16).filter fun c => m.getLsbD c)
    | .ok gib ranks rate eyes =>
      match rowsOfFit gib ranks with
      | none => failed s (List.range 16)
      | some rows =>
        let s := { s with dramx := { s.dramx with rows := rows } }
        let s := s.each [(Reg.DMC_STATUS_STATE, 2), (Reg.DMC_STATUS_TWO_RANKS, ranks - 1), (Reg.DMC_STATUS_INSTALLED_GIB, gib),
          (Reg.DMC_STATUS_RATE_MTS, rate.toNat), (Reg.DMC_USABLE_MIB, gib * 992)] fun s e => s.put dmcB e.1 e.2
        s.each (s.eyeList.zip eyes) fun s e =>
          let (c, rank, lane, wr) := e.1
          (s.put (chB c + 8 * rank) (eyeFlds (!wr) lane).1 e.2.1.toNat).eyeWidth c rank lane e.2.2.toNat wr

/-- Content that self-refresh with PASR retains (R383): the segments of a PASR segment that holds a marked one. -/
def State.segmentKept (s : State) (mask a : Nat) : Bool :=
  let g := if s.rd dmcB Reg.DMC_STATUS_TWO_RANKS = 1 then 2 else 4
  let n := a * 32 / max 1 s.usable / g * g
  (List.range g).any fun k => decide (n + k = 31) || bitSet mask (n + k)

/-- DRAM_INIT_DONE (R378): every usable block holds zero data; on a wake only the segments that were not retained. -/
def doDramInit (s : State) : State :=
  if s.rd dmcB Reg.DMC_STATUS_STATE ≠ 2 then s
  else
    let keep := fun (a : Nat) => decide (s.pwr.wakeFrom = 3) && s.segmentKept (s.boot.retained.getD {}).power.retainMask a
    let s := { s with dram := s.dram.filter fun e => keep e.1, dramx := { s.dramx with poison := s.dramx.poison.filter fun e => keep (64 * e.1) } }
    let s := s.each (List.range 16) fun s c => (s.put (chB c) Reg.DMCCH_STATUS_RANK0 0).put (chB c) Reg.DMCCH_STATUS_RANK1 0
    s.put dmcB Reg.DMC_STATUS_STATE 3

/-- A re-centring pass is due (R379): the one in progress goes on, or one begins. Rests on log entry 87 (DESIGN CHOICE). -/
def State.recentre (s : State) : State :=
  if s.rd dmcB Reg.DMC_STATUS_STATE ≠ 3 then s
  else if s.dramx.recentring ≠ [] then s.raise dmcB Reg.DMC_EVENT_RECENTRE_STARVED
  else { s with dramx := { s.dramx with recentring := s.eyeList } }

def doRecentreDue (s : State) : State := s.recentre
def doRecentreNow (s : State) : State := s.mgrReach (off := dmcB + 0x24) State.recentre

/-- A centre moved by at most 2 taps towards the measured one. -/
def moveTap (old new : Nat) : Nat := if old < new then min new (old + 2) else max new (old - 2)

/-- RECENTRE_PROBE: only while its conditions hold. Rests on log entry 87 (DESIGN CHOICE). -/
def doRecentreProbe (s : State) (c rank lane : Nat) (wr : Bool) (centre width : Nat) : State :=
  let x := s.chan c
  let ok := s.dramx.recentring.contains (c, rank, lane, wr) && x.queue.isEmpty && x.held.isEmpty && decide (x.idleSince + 1000 ≤ s.now) &&
    (s.ranks.all fun r => decide (s.owed c r + 1 < s.refreshLimit)) && !x.pollDue && !s.rankAsleep c rank
  if !ok then s
  else
    let f := (eyeFlds (!wr) lane).1
    let b := chB c + 8 * rank
    let s := (s.put b f (moveTap (s.rd b f) centre)).eyeWidth c rank lane width wr
    let s := s.modChan c fun x => { x with probeEnd := s.now + 250 }
    { s with dramx := { s.dramx with recentring := s.dramx.recentring.filter fun e => decide (e ≠ (c, rank, lane, wr)) } }

/-! ## Low power (R381, R382) -/

/-- RANK_POWER_DOWN. -/
def doRankPd (s : State) (c rank : Nat) : State :=
  let f := if rank = 0 then Reg.DMCCH_STATUS_RANK0 else Reg.DMCCH_STATUS_RANK1
  let busy := (s.chan c).queue.any fun r => decide ((r.place s).rank = rank)
  if s.rd dmcB Reg.DMC_STATUS_STATE ≠ 3 ∨ !s.ranks.contains rank ∨ busy ∨ s.owed c rank ≠ 0 ∨ s.rd (chB c) f ≠ 0 then s else s.put (chB c) f 1

/-- Every owed refresh of a channel is issued, its ECC blocks are written back, and its ranks enter self-refresh. -/
def State.selfRefresh (s : State) (c st : Nat) : State :=
  s.each s.ranks fun s r =>
    let s := ((s.count (chB c + Reg.DMCCH_REFRESHES) (s.owed c r)).put (chB c) (owedFld r) 0)
    let s := s.modChan c fun x => { (List.range 16).foldl (fun (x : ChanX) b => x.closeBank (16 * r + b)) x with ecc := [] }
    (s.modChan c fun x => x.setForced r false).put (chB c) (if r = 0 then Reg.DMCCH_STATUS_RANK0 else Reg.DMCCH_STATUS_RANK1) st

/-- CHANNEL_SELF_REFRESH. -/
def doChannelSr (s : State) (c : Nat) : State :=
  let st := s.rd picB Reg.PIC_STATE_STATE
  let quiet := decide (st ≤ 1) && !((List.range 8).any s.scans) && !((List.range 4).any fun p => decide (s.rd (capB p) Reg.CAP_STATUS_STATE ≠ 0)) &&
    decide (s.rd dmcB Reg.DMC_LP_SR_IDLE_US ≠ 0) && (s.chan c).queue.isEmpty && (s.chan c).held.isEmpty
  if s.rd dmcB Reg.DMC_STATUS_STATE = 3 ∧ quiet ∧ !s.rankAsleep c 0 then s.selfRefresh c 2 else s

/-- LIMIT_WRITE (R371): a manager write of DMC_REFRESH; a field with a reserved value stays as it is (R5). -/
def State.limitNow (s : State) (v : Nat) : State :=
  let limit := bitsOf v 0 4
  let poll := bitsOf v 16 14
  let badLimit := decide (limit = 0) || decide (8 < limit)
  let badPoll := decide (poll < 100) || decide (16000 < poll)
  let s := if badLimit || badPoll then s.accessErr dmcB 0x10 0x05 else s
  s.refreshWrite (if badLimit then s.rd dmcB Reg.DMC_REFRESH_LIMIT else limit) (bitsOf v 4 1) (if badPoll then s.rd dmcB Reg.DMC_REFRESH_POLL_US else poll)

def doLimitWrite (s : State) (v : Nat) : State := s.mgrReach (off := dmcB + 0x10) fun s => s.limitNow v

def execDramRequestArrive (r : DramReq) (s : State) : Host.Outcome State Fault Refusal := .next (settle s (doDramArrive s r))
def execRefreshTick (c : Fin 16) (rank : Fin 2) (s : State) : Host.Outcome State Fault Refusal := .next (settle s (doRefreshTick s c.val rank.val))
def execRequestAgePromote (c : Fin 16) (s : State) : Host.Outcome State Fault Refusal := .next (settle s (doPromote s c.val))
def execMr4Poll (c : Fin 16) (s : State) : Host.Outcome State Fault Refusal := .next (settle s (doMr4Poll s c.val))
def execMr4Result (c : Fin 16) (rank : Fin 2) (band : Fin 3) (s : State) : Host.Outcome State Fault Refusal := .next (settle s (doMr4Result s c.val rank.val band.val))
def execLimitWrite (v : Word) (s : State) : Host.Outcome State Fault Refusal := .next (settle s (doLimitWrite s v.toNat))
def execDisturbWindowEnd (c : Fin 16) (s : State) : Host.Outcome State Fault Refusal := .next (settle s (doDisturbWindow s c.val))
def execRankPowerDown (c : Fin 16) (rank : Fin 2) (s : State) : Host.Outcome State Fault Refusal := .next (settle s (doRankPd s c.val rank.val))
def execChannelSelfRefresh (c : Fin 16) (s : State) : Host.Outcome State Fault Refusal := .next (settle s (doChannelSr s c.val))
def execDramReadReturn (port : Fin 24) (inst : BitVec 8) (addr : BitVec 36) (r : EccRead) (s : State) : Host.Outcome State Fault Refusal :=
  .next (settle s (doReadReturn s port.val inst.toNat addr.toNat r))
def execPatrolRead (r : EccRead) (s : State) : Host.Outcome State Fault Refusal := .next (settle s (doPatrol s r))
def execRecentreDue (s : State) : Host.Outcome State Fault Refusal := .next (settle s (doRecentreDue s))
def execRecentreNow (s : State) : Host.Outcome State Fault Refusal := .next (settle s (doRecentreNow s))
def execRecentreProbe (c : Fin 16) (rank lane : Fin 2) (wr : Bool) (centre width : Fin 128) (s : State) : Host.Outcome State Fault Refusal :=
  .next (settle s (doRecentreProbe s c.val rank.val lane.val wr centre.val width.val))
def execCommandSlot (c : Fin 16) (s : State) : Host.Outcome State Fault Refusal := .next (settle s (doCommandSlot s c.val))

end Sys2Proof.Machine
end

