-- ==== Sys2Proof/Machine/Gfx.lean ====
section
/-!
DEFINITION. The graphics engine (chapter 9): checked accesses of an engine, the checks of pass blocks, draws, state blocks,
containers and bindings, binning, and how the work of a job ends.
-/
namespace Sys2Proof.Machine

/-! ## Accesses of an engine (R317, R348) -/

/-- An access in the pieces that lie in one 64-byte block each: address and length. -/
def piecesOf (a n : Nat) : List (Nat × Nat) :=
  (blocksOf a n).map fun b => let lo := max a (64 * b); (lo, min (a + n) (64 * b + 64) - lo)

/-- A read of an engine: refused and poisoned pieces read zeros; the address of the first of them. -/
def State.engineRead (s : State) (w : Who) (a n : Nat) : State × List Byte × Option Nat :=
  (piecesOf a n).foldl (fun (s, bs, f) p =>
    match s.dramGet w p.1 p.2 with
    | .ok x => (s, bs ++ x, f)
    | .poisoned => (s, bs ++ natLE p.2 0, f.or (some p.1))
    | .refused => (s.refuse w p.1 p.2, bs ++ natLE p.2 0, f.or (some p.1))) (s, [], none)

/-- A write of an engine: refused pieces are dropped; the address of the first of them. -/
def State.engineWrite (s : State) (w : Who) (a : Nat) (bs : List Byte) : State × Option Nat :=
  (piecesOf a bs.length).foldl (fun (s, f) p =>
    match s.dramPut w p.1 ((bs.drop (p.1 - a)).take p.2) with
    | some t => (t, f)
    | none => (s.refuse w p.1 p.2, f.or (some p.1))) (s, none)

/-- Bytes an engine may write, written wherever it may, without a fault of its own. -/
def State.quietWrite (s : State) (w : Who) (a : Nat) (bs : List Byte) : State :=
  s.each (piecesOf a bs.length) fun s p => (s.dramPut w p.1 ((bs.drop (p.1 - a)).take p.2)).getD s

/-- Who a job of ring q accesses memory as (R317, R344). -/
def State.jobWho (s : State) (q : Nat) (secure : Bool) : Who :=
  match s.ringInst q with
  | some i => { owner := i + 16, inst := some i, secure := secure }
  | none => Who.fw

/-! ## The end of a job's work (R349) -/

/-- The first refused or poisoned access of a job. -/
def State.noteFault (s : State) (q idx : Nat) (a : Option Nat) : State :=
  match a with
  | none => s
  | some a => s.modDesc q idx fun d =>
      { d with outcomes := if d.outcomes.any (fun o => decide (o.1 = stFault)) then d.outcomes else d.outcomes ++ [(stFault, faultDetail a)] }

/-- The statuses of R349 in their order, and those of CPY rings. -/
def outcomeOrder : List Nat := [stAborted, stDropped, 0x81, 0x83, 0x82, 0x84, 0x80, stFault]

/-- The status and detail a job completes with. -/
def outcomeOf (d : Desc) : Nat × Nat :=
  let all := d.outcomes ++ (if d.discard then [(stAborted, 0)] else []) ++ (if d.limitHit then [(0x82, d.charged / 16000000)] else [])
  match outcomeOrder.findSome? fun st => all.find? fun o => decide (o.1 = st) with
  | some (st, dt) => (st, if st = stFault ∧ d.secure then 0 else dt)
  | none => (stOk, 0)

/-- The copy engine that holds a job. -/
def State.copyOf (s : State) (q idx : Nat) : Option Nat :=
  [0, 1].find? fun n => match (s.engine (4 + n)).holder with | .job a b _ => decide (a = q) && decide (b = idx) | _ => false

/-- Whether an engine holds the job, so that its work can run. -/
def State.holds (s : State) (q idx : Nat) : Bool :=
  (groupList ++ copyList).any fun e => match (s.engine e).holder with | .job a b _ => decide (a = q) && decide (b = idx) | _ => false

/-- A secure job runs on a copy engine: both copy engines' counters hold (R348). -/
def State.secureCopy (s : State) : Bool := copyList.any fun e => match (s.engine e).holder with | .job _ _ sec => sec | _ => false

/-- The work of a job ends: its engines are let go, counters and events follow, its ring learns, it completes in its turn. -/
def State.endWork (s : State) (q idx : Nat) : State :=
  match s.desc q idx with
  | none => s
  | some d =>
    let (st, dt) := outcomeOf d
    let s := match s.copyOf q idx with
      | some n =>
        let s := if s.secureCopy then s else s.count (cpyB n + Reg.CPY_JOBS) 1
        let s := if st = stFault then s.raise (cpyB n) Reg.CPY_EVENT_FAULT else s
        if st = 0x80 then s.raise (cpyB n) Reg.CPY_EVENT_BAD_PARAMS else s
      | none => s
    let s := if st = stDropped then (s.count (gfxB + Reg.GFX_DROPPED) 1).raise gfxB Reg.GFX_EVENT_DROPPED else s
    let s := if st = 0x82 then (s.count (gfxB + Reg.GFX_TIMEOUTS) 1).raise gfxB Reg.GFX_EVENT_TIMEOUT else s
    let s := s.vacate q idx
    let s := match s.desc q idx with | some d => if st = stOk then s.learn q d else s | none => s
    (s.finish q idx st dt).select

/-- A job ends with one outcome more. -/
def State.endWith (s : State) (q idx st dt : Nat) : State :=
  (s.modDesc q idx fun d => { d with outcomes := d.outcomes ++ [(st, dt)] }).endWork q idx

/-! ## Checking the structures of a job (R322 to R325, R329, R336 to R340) -/

/-- A check in progress: the state after its reads, the first refused read, and the first defect as the DETAIL of
BAD_BLOCK (R320). -/
structure Check where
  s : State
  fault : Option Nat := none
  bad : Option Nat := none

def Check.read (c : Check) (w : Who) (a n : Nat) : Check × List Byte :=
  let (s, bs, f) := c.s.engineRead w a n
  ({ c with s := s, fault := c.fault.or f }, bs)

/-- Defects of one structure of a kind: the one of the lowest offset counts, unless an earlier structure failed.
Rests on log entry 81 (DESIGN CHOICE). -/
def Check.flaws (c : Check) (kind : Nat) (l : List (Nat × Bool)) : Check :=
  { c with bad := c.bad.or ((((l.filter Prod.snd).map Prod.fst).min?).map fun off => kind * 2 ^ 24 + off % 2 ^ 24) }

/-- Reserved bytes [lo, lo + n): each that is not zero is a defect. -/
def zeros (bs : List Byte) (lo n : Nat) : List (Nat × Bool) := (List.range n).map fun k => (lo + k, decide (byteAt bs (lo + k) ≠ 0))

def samplesOk (n : Nat) : Bool := n = 1 || n = 2 || n = 4

/-- Bytes per sample of a depth format (R323). -/
def depthBytes (f : Nat) : Nat := if f = 0 then 2 else if f = 3 then 5 else 4

/-- The attachment records of a pass: base offset 0x40 + 32 n. -/
def attachFlaws (bs : List Byte) (n : Nat) : List (Nat × Bool) :=
  let o := 0x40 + 32 * n
  let f := byteAt bs (o + 0x0C)
  [(o, decide (leAt bs o 8 % 256 ≠ 0)), (o + 8, decide (leAt bs (o + 8) 4 % 64 ≠ 0)), (o + 0x0C, decide (f = 0) || decide (0x0B < f)),
   (o + 0x0D, decide (2 < byteAt bs (o + 0x0D))), (o + 0x0E, decide (2 < byteAt bs (o + 0x0E))), (o + 0x0F, decide (byteAt bs (o + 0x0F) ≠ 0)),
   (o + 0x18, decide (byteAt bs (o + 0x0E) ≠ 2) && decide (leAt bs (o + 0x18) 8 ≠ 0))]

/-- The pass block (R322, R323); `len` is PASS_LEN. -/
def passFlaws (bs : List Byte) (len : Nat) : List (Nat × Bool) :=
  let n := byteAt bs 5
  let df := byteAt bs 7
  let hasDepth := bitSet (byteAt bs 6) 0
  let bytes := ((List.range n).map fun k => packedBytes (byteAt bs (0x4C + 32 * k))).sum + (if hasDepth then depthBytes df else 0)
  let dim := fun o => decide (leAt bs o 2 = 0) || decide (16384 < leAt bs o 2)
  [(0, dim 0), (2, dim 2), (4, !samplesOk (byteAt bs 4) || decide (64 < bytes * byteAt bs 4)), (5, decide (8 < n)), (6, decide (16 ≤ byteAt bs 6)),
   (7, decide (3 < df)), (8, decide (65536 < leAt bs 8 4)),
   (0x0C, decide (leAt bs 0x0C 4 % 32 ≠ 0) || decide (len < leAt bs 0x0C 4 + 32 * leAt bs 8 4)),
   (0x18, decide (leAt bs 0x18 8 % 256 ≠ 0)), (0x20, decide (leAt bs 0x20 4 % 64 ≠ 0)),
   (0x24, if df = 3 then decide (leAt bs 0x24 4 % 64 ≠ 0) else decide (leAt bs 0x24 4 ≠ 0)), (0x28, decide (df ≠ 3) && decide (leAt bs 0x28 8 ≠ 0))]
    ++ zeros bs 0x15 3 ++ zeros bs 0x30 16 ++ (List.range (min n 8)).flatMap (attachFlaws bs)

/-- A draw record (R324). -/
def drawFlaws (bs : List Byte) : List (Nat × Bool) :=
  let sz := byteAt bs 0x1D
  [(0, decide (leAt bs 0 8 % 256 ≠ 0)),
   (8, if sz = 0 then decide (leAt bs 8 8 ≠ 0) else decide (leAt bs 8 8 % (if sz = 1 then 2 else 4) ≠ 0)),
   (0x14, decide (leAt bs 0x14 4 = 0)), (0x1C, decide (5 < byteAt bs 0x1C)), (0x1D, decide (2 < sz))] ++ zeros bs 0x1E 2

/-- BLEND_n (R325). -/
def blendBad (w colours : Nat) : Bool :=
  let bad := fun f => decide (18 < f) || (decide (15 ≤ f) && decide (colours ≠ 1))
  bad (bitsOf w 1 5) || bad (bitsOf w 6 5) || bad (bitsOf w 14 5) || bad (bitsOf w 19 5) ||
    decide (4 < bitsOf w 11 3) || decide (4 < bitsOf w 24 3) || bitSet w 31

/-- The graphics state block (R325, R336). -/
def stateFlaws (bs : List Byte) (colours : Nat) : List (Nat × Bool) :=
  [(0x0A, decide (4 ≤ leAt bs 0x0A 2)), (0x18, decide (leAt bs 0x18 8 % 256 ≠ 0)), (0x20, decide (leAt bs 0x20 8 % 256 ≠ 0)),
   (0x28, decide (leAt bs 0x28 8 % 4096 ≠ 0)), (0x30, decide (65536 < leAt bs 0x30 4)), (0x34, decide (32 ≤ leAt bs 0x34 4)),
   (0x60, decide (64 ≤ leAt bs 0x60 4)), (0x64, decide (2 ^ 28 ≤ leAt bs 0x64 4)), (0x68, decide (2 ^ 28 ≤ leAt bs 0x68 4)),
   (0x6C, decide (2 ^ 16 ≤ leAt bs 0x6C 4))]
    ++ ((List.range 8).map fun n => (0x80 + 4 * n, blendBad (leAt bs (0x80 + 4 * n) 4) colours)) ++ zeros bs 0x0C 4 ++ zeros bs 0xA0 96

/-- A container's header (R338, R340); `stepping` is the device's. -/
def headerFlaws (bs : List Byte) (stepping : Nat) : List (Nat × Bool) :=
  let tot := leAt bs 8 4
  let out := fun (o n : Nat) => decide (tot < o + n)
  [(0, decide (leAt bs 0 4 ≠ 0x42534B57)), (4, decide (leAt bs 4 2 ≠ 1)), (6, decide (leAt bs 6 2 ≠ 64)), (8, decide (tot < 64)),
   (0x0C, decide (leAt bs 0x0C 2 ≠ 0x8840)), (0x0E, decide (stepping < byteAt bs 0x0E)), (0x0F, decide (byteAt bs 0x0F ≠ 1)),
   (0x10, decide (leAt bs 0x10 2 = 0) || decide (16 < leAt bs 0x10 2)), (0x12, decide (4096 < leAt bs 0x12 2)),
   (0x14, decide (leAt bs 0x14 4 % 32 ≠ 0) || out (leAt bs 0x14 4) (32 * leAt bs 0x10 2)),
   (0x18, decide (leAt bs 0x18 4 % 8 ≠ 0) || out (leAt bs 0x18 4) (8 * leAt bs 0x12 2)),
   (0x1C, decide (leAt bs 0x1C 4 % 256 ≠ 0)), (0x20, decide (2 ^ 24 < leAt bs 0x20 4) || out (leAt bs 0x1C 4) (leAt bs 0x20 4)),
   (0x24, decide (leAt bs 0x24 4 % 16 ≠ 0)), (0x28, decide (65536 < leAt bs 0x28 4) || out (leAt bs 0x24 4) (leAt bs 0x28 4)),
   (0x3C, decide (leAt bs 0x3C 4 ≠ crc32c (bs.take 0x3C)))] ++ zeros bs 0x30 12

/-- An entry record at offset `o` of its container (R336, R339): `stage` is the stage of the slot that names it. -/
def entryFlaws (e : List Byte) (o stage codeLen bindings : Nat) : List (Nat × Bool) :=
  let wg := fun k => leAt e (0x10 + 2 * k) 2
  let x := fun k m => if stage = 2 then decide (m < wg k) else decide (wg k ≠ 0)
  [(0, decide (byteAt e 0 ≠ stage)), (1, decide (8 ≤ byteAt e 1)), (2, decide (byteAt e 2 < 8)), (3, decide (byteAt e 3 ≠ 0)),
   (4, decide (leAt e 4 4 % 16 ≠ 0) || decide (codeLen ≤ leAt e 4 4)), (8, decide (65536 < leAt e 8 4)), (0x0C, decide (65536 < leAt e 0x0C 4)),
   (0x10, x 0 1024 || decide (1024 < wg 0 * wg 1 * wg 2)), (0x12, x 1 1024), (0x14, x 2 64),
   (0x16, decide (stage ≠ 1) && decide (byteAt e 0x16 ≠ 0)),
   (0x17, (decide (stage = 0) && decide (128 < byteAt e 0x17)) || (decide (stage = 1) && decide (8 < byteAt e 0x17))),
   (0x18, decide (bindings < leAt e 0x18 2 + leAt e 0x1A 2)), (0x1A, decide (256 < leAt e 0x1A 2))].map (fun p => (o + p.1, p.2))
    ++ (zeros e 0x1C 4).map fun p => (o + p.1, p.2)

/-- Image formats a resource may have (R330); the compressed ones. -/
def imageFormat (f : Nat) : Bool := (decide (1 ≤ f) && decide (f ≤ 0x0B)) || (decide (0x20 ≤ f) && decide (f ≤ 0x27))
def compressed (f : Nat) : Bool := decide (0x25 ≤ f) && decide (f ≤ 0x27)

/-- A resource descriptor against a binding of kind k and least size m (R329, R339): offsets within the descriptor. -/
def resourceFlaws (r : List Byte) (k m : Nat) : List (Nat × Bool) :=
  let b := byteAt r
  let named := fun (l : List (Nat × Nat)) =>
    (List.range 32).map fun o => (o, decide (b o ≠ 0) && !l.any fun e => decide (e.1 ≤ o) && decide (o < e.1 + e.2))
  if k = 1 ∨ k = 2 then
    [(0, decide (b 0 ≠ 1)), (1, decide (b 1 ≠ 0 ∧ b 1 ≠ 2) || (decide (k = 2) && !bitSet (b 1) 1)), (4, decide (leAt r 4 4 < m)),
     (8, decide (leAt r 8 8 % 16 ≠ 0))] ++ named [(0, 2), (4, 12)]
  else if k = 3 ∨ k = 4 then
    let dim := fun o mx => decide (leAt r o 2 = 0) || decide (mx < leAt r o 2)
    [(0, decide (b 0 ≠ 2)), (1, !imageFormat (b 1)), (2, decide (6 < b 2)), (3, decide (b 3 = 0) || decide (15 < b 3)), (4, dim 4 16384), (6, dim 6 16384),
     (8, dim 8 2048), (0x0A, !samplesOk (b 0x0A)),
     (0x0B, decide (4 ≤ b 0x0B) || (bitSet (b 0x0B) 1 && compressed (b 1)) || (decide (k = 4) && !bitSet (b 0x0B) 1)),
     (0x0C, decide (leAt r 0x0C 4 % 64 ≠ 0)), (0x10, decide (leAt r 0x10 8 % 256 ≠ 0)), (0x18, decide (leAt r 0x18 4 % 256 ≠ 0))]
      ++ named [(0, 0x1C)]
  else
    [(0, decide (b 0 ≠ 3) || decide (k ≠ 5)), (1, decide (16 ≤ b 1) || decide (b 1 / 4 = 3)), (2, decide (4 < b 2 % 8) || decide (4 < b 2 / 8 % 8) || decide (64 ≤ b 2)),
     (3, decide (4 < b 3 % 8) || decide (128 ≤ b 3)), (4, ! [1, 2, 4, 8, 16].contains (b 4)), (5, decide (5 < b 5))] ++ named [(0, 6), (8, 6)]

/-- The stepping of the device (R113). -/
def State.stepping (s : State) : Nat := s.rd devB Reg.DEV_ID_STEPPING

/-- One binding record of an entry against the stage's resource table: a vertex entry may not write (R336). -/
def Check.binding (c : Check) (w : Who) (stage at_ boff table : Nat) : Check :=
  if c.bad.isSome then c else
  let (c, b) := c.read w (at_ + boff) 8
  let k := byteAt b 0
  let c := c.flaws 5 [(boff, decide (stage = 0) && (decide (k = 2) || decide (k = 4))), (boff + 1, decide (byteAt b 1 ≠ 0))]
  if c.bad.isSome then c
  else if 4096 ≤ leAt b 2 2 then c.flaws 4 [(0, true)]
  else
    let (c, r) := c.read w (table + 32 * leAt b 2 2) 32
    c.flaws 4 (resourceFlaws r k (leAt b 4 4))

/-- What a stage's check hands on: its entry record. -/
def Check.container (c : Check) (w : Who) (stage at_ entry table slotOff : Nat) : Check × List Byte :=
  if c.bad.isSome then (c, []) else
  let (c, h) := c.read w at_ 64
  let c := c.flaws 5 (headerFlaws h c.s.stepping)
  if c.bad.isSome then (c, []) else
  let c := c.flaws 3 [(slotOff, decide (leAt h 0x10 2 ≤ entry))]
  let eo := leAt h 0x14 4 + 32 * entry
  let (c, e) := c.read w (at_ + eo) 32
  let c := c.flaws 5 (entryFlaws e eo stage (leAt h 0x20 4) (leAt h 0x12 2))
  ((List.range (leAt e 0x1A 2)).foldl (fun c k => c.binding w stage at_ (leAt h 0x18 4 + 8 * (leAt e 0x18 2 + k)) table) c, e)

/-- One draw: its record, state block, containers and bindings (R324, R325, R335, R340).
Rests on log entry 81 (DESIGN CHOICE). -/
def Check.draw (c : Check) (w : Who) (a colours : Nat) : Check :=
  if c.bad.isSome then c else
  let (c, d) := c.read w a 32
  let c := c.flaws 2 (drawFlaws d)
  if c.bad.isSome then c else
  let (c, st) := c.read w (leAt d 0 8) 256
  let c := c.flaws 3 (stateFlaws st colours)
  let (c, v) := c.container w 0 (leAt st 0 8) (byteAt st 8) (leAt st 0x18 8) 8
  let fs := bitSet (leAt st 0x0A 2) 0
  let (c, f) := if fs then c.container w 1 (leAt st 0x10 8) (byteAt st 9) (leAt st 0x20 8) 9 else (c, [])
  let need := max (leAt v 0x0C 4) (leAt f 0x0C 4)
  c.flaws 3 [(9, fs && decide (byteAt v 0x17 ≠ byteAt f 0x16)), (0x30, decide (leAt st 0x30 4 < need))]

/-- A whole render pass (R321 to R325): header and attachments, then draw by draw.
Rests on log entry 81 (DESIGN CHOICE). -/
def Check.pass (c : Check) (w : Who) (a len : Nat) : Check :=
  let (c, h) := c.read w a 64
  let n := min (byteAt h 5) 8
  let (c, at_) := c.read w (a + 64) (32 * n)
  let c := c.flaws 1 (passFlaws (h ++ at_) len)
  if c.bad.isSome then c else
  (List.range (leAt h 8 4)).foldl (fun c k => c.draw w (a + leAt h 0x0C 4 + 32 * k) (byteAt h 5)) c

/-- A compute dispatch (R333, R335, R336): its state block, container and bindings, then its counts.
Rests on log entry 81 (DESIGN CHOICE). -/
def Check.compute (c : Check) (w : Who) (a : Nat) (groups : List Nat) : Check :=
  let (c, st) := c.read w a 64
  let c := c.flaws 3 ([(0x10, decide (leAt st 0x10 8 % 256 ≠ 0)), (0x18, decide (leAt st 0x18 8 % 4096 ≠ 0)), (0x20, decide (65536 < leAt st 0x20 4))]
    ++ zeros st 9 7 ++ zeros st 0x24 28)
  let (c, e) := c.container w 2 (leAt st 0 8) (byteAt st 8) (leAt st 0x10 8) 8
  let c := c.flaws 3 [(0x20, decide (leAt st 0x20 4 < leAt e 0x0C 4))]
  match groups with
  | [x, y, z] => c.flaws 3 [(0, decide (0x7FFFFFFF < x) || decide (65535 < y) || decide (65535 < z))]
  | _ => c

/-! ## RENDER, BINNING_DONE, DISPATCH (R318, R320, R321, R327, R328, R333) -/

/-- The first unfinished descriptor of ring q, if it is of the given type and opcode, ready, and an engine holds it. -/
def State.startOn (s : State) (q t op : Nat) : Option Desc :=
  match s.nextOp q t op with
  | some d => if s.isFirst q d.idx && s.holds q d.idx then some d else none
  | none => none

/-- What a check leaves: BAD_BLOCK, or the job runs. -/
def State.checked (q idx : Nat) (c : Check) : State :=
  let s := c.s.noteFault q idx c.fault
  match c.bad with
  | some dt => s.endWith q idx 0x81 dt
  | none => s.modDesc q idx fun d => { d with phase := .running, binned := false }

/-- RENDER (R318, R320, R321, R342). -/
def doRender (s : State) (q : Nat) : State :=
  match s.startOn q 1 1 with
  | none => s
  | some d =>
    if (s.ring q).saveArea = 0 ∧ !d.secure then (s.vacate q d.idx |>.finish q d.idx 0x80 0).select
    else State.checked q d.idx (Check.pass { s := s } (s.jobWho q d.secure) (d.f 0x20 8) (d.f 0x34 4))

/-- DISPATCH (R318, R333): with a zero count the job completes without running. -/
def doDispatch (s : State) (q : Nat) : State :=
  match s.startOn q 1 2 with
  | none => s
  | some d =>
    if (s.ring q).saveArea = 0 ∧ !d.secure then (s.vacate q d.idx |>.finish q d.idx 0x80 0).select
    else
      let w := s.jobWho q d.secure
      let ind := d.f 0x30 8
      let (c, g) := if ind = 0 then ((({ s := s } : Check)), [d.f 0x28 4, d.f 0x2C 2, d.f 0x2E 2]) else
        let (c, b) := Check.read { s := s } w ind 12
        (c, [leAt b 0 4, leAt b 4 4, leAt b 8 4])
      if g.any fun n => decide (n = 0) then (c.s.noteFault q d.idx c.fault).endWork q d.idx
      else State.checked q d.idx (c.compute w (d.f 0x20 8) g)

/-- The largest vertex output count A of a pass (R327). -/
def State.passOutputs (s : State) (w : Who) (a : Nat) (h : List Byte) : Nat :=
  ((List.range (leAt h 8 4)).map fun k =>
    let d := (s.engineRead w (a + leAt h 0x0C 4 + 32 * k) 32).2.1
    let st := (s.engineRead w (leAt d 0 8) 256).2.1
    let c := (s.engineRead w (leAt st 0 8) 64).2.1
    byteAt (s.engineRead w (leAt st 0 8 + leAt c 0x14 4 + 32 * byteAt st 8) 32).2.1 0x17).foldl max 0

/-- N of R327: tiles t, entries of each tile, stored vertices v, outputs a. -/
def tileListBytes (t : Nat) (entries : List Nat) (v a : Nat) : Nat :=
  64 * t + 64 * (entries.map fun e => (e + 6) / 7).sum + 32 * ((v * (16 + 4 * a) + 31) / 32)

/-- Bytes that a shader's work leaves: free values (log entry 14). -/
def shaderBytes (q idx k n : Nat) : List Byte := (List.range n).map fun j => Config.shaderByte q idx (k + j)

/-- A performance counter of the engine counts an amount the spec leaves to the work; a secure context leaves it (R344).
Rests on log entry 84 (DESIGN CHOICE). -/
def State.perf (s : State) (secure : Bool) (a : Nat) : State :=
  if secure then s else let (v, s) := s.takeFree 48; s.count a v

/-- BINNING_DONE (R321, R327, R328): the pass goes on to its tiles, or is dropped. -/
def doBinningDone (s : State) (q : Nat) (entries : List Nat) (verts : Nat) : State :=
  match (s.ring q).fetched.find? (fun d => !d.isDone) with
  | none => s
  | some d =>
    if s.ringType q = 1 ∧ d.opcode = 1 ∧ d.phase = .running ∧ !d.binned ∧ s.holds q d.idx then
      let w := s.jobWho q d.secure
      let (s, h, f) := s.engineRead w (d.f 0x20 8) 64
      let s := s.noteFault q d.idx f
      let t := (leAt h 0 2 + 31) / 32 * ((leAt h 2 2 + 31) / 32)
      let n := tileListBytes t entries verts (s.passOutputs w (d.f 0x20 8) h)
      let (s, f) := s.engineWrite w (d.f 0x28 8) (shaderBytes q d.idx 0 (min n (d.f 0x30 4)))
      let s := s.noteFault q d.idx f
      let s := if entries.sum = 0 then s else s.perf d.secure (gfxB + Reg.GFX_PRIMS)
      let s := s.modDesc q d.idx fun d => { d with binned := true }
      if d.f 0x30 4 < n then s.endWith q d.idx stDropped (min (n - d.f 0x30 4) 0xFFFFFFFF) else s
    else s

/-! ## What a job leaves in memory -/

/-- The rows of an attachment plane: address and length of each. -/
def planeRows (a pitch bytes h : Nat) : List (Nat × Nat) := (List.range h).map fun r => (a + r * pitch, bytes)

/-- Rows written with the bytes a function gives by position; the first refused access is noted. -/
def State.writeRows (s : State) (q idx : Nat) (w : Who) (rows : List (Nat × Nat)) (f : Nat → Nat → List Byte) : State :=
  s.each rows fun s r => let (s, x) := s.engineWrite w r.1 (f r.1 r.2); s.noteFault q idx x

/-- Rows read; the first refused or poisoned access is noted. -/
def State.readRows (s : State) (q idx : Nat) (w : Who) (rows : List (Nat × Nat)) : State :=
  s.each rows fun s r => let (s, _, x) := s.engineRead w r.1 r.2; s.noteFault q idx x

/-- A clear word repeated over a row: exact for format 0x0B, whose components are the clear value's (R322). -/
def clearRow (clear : Nat) (n : Nat) : List Byte :=
  let c := fun k => bitsOf clear (16 * k) 16
  ((List.range (n / 8)).flatMap fun _ => natLE 2 (c 2) ++ natLE 2 (c 1) ++ natLE 2 (c 0) ++ natLE 2 (c 3))

/-- The attachments of a pass after its tile phase (R321, R322): loaded ones are read, stored ones written with what the
shaders produced; a pass without draws stores what it loaded or the clear value. -/
def State.storePass (s : State) (q : Nat) (d : Desc) : State :=
  let w := s.jobWho q d.secure
  let a := d.f 0x20 8
  let (s, h, f) := s.engineRead w a 64
  let (s, at_, g) := s.engineRead w (a + 64) (32 * min (byteAt h 5) 8)
  let s := (s.noteFault q d.idx f).noteFault q d.idx g
  let wd := leAt h 0 2
  let ht := leAt h 2 2
  let smp := byteAt h 4
  let draws := decide (leAt h 8 4 ≠ 0)
  let free := fun (x n : Nat) => shaderBytes q d.idx x n
  let s := s.each (List.range (min (byteAt h 5) 8)) fun s n =>
    let r := at_.drop (32 * n)
    let addr := leAt r 0 8
    let pitch := leAt r 8 4
    let b := packedBytes (byteAt r 0x0C)
    let plane := fun (base k : Nat) => planeRows (base + k * pitch * ht) pitch (wd * b) ht
    let all := (List.range smp).flatMap (plane addr)
    let s := if byteAt r 0x0D = 0 then s.readRows q d.idx w all else s
    let what : Option (Nat → Nat → List Byte) :=
      if draws || decide (byteAt r 0x0D = 2) then some free
      else if byteAt r 0x0D = 1 then (if byteAt r 0x0C = 0x0B then some fun _ n => clearRow (leAt r 0x10 8) n else some free)
      else none
    match byteAt r 0x0E with
    | 0 => (match what with | some f => s.writeRows q d.idx w all f | none => s)
    | 2 => s.writeRows q d.idx w (plane (leAt r 0x18 8) 0) free
    | _ => s
  let fl := byteAt h 6
  if bitSet fl 0 && bitSet fl 3 && (draws || bitSet fl 1 || bitSet fl 2) then
    let df := byteAt h 7
    let rows := (List.range smp).flatMap fun k => planeRows (leAt h 0x18 8 + k * leAt h 0x20 4 * ht) (leAt h 0x20 4) (wd * (if df = 0 then 2 else 4)) ht
    let s := s.writeRows q d.idx w rows free
    if df = 3 then
      s.writeRows q d.idx w ((List.range smp).flatMap fun k => planeRows (leAt h 0x28 8 + k * leAt h 0x24 4 * ht) (leAt h 0x24 4) wd ht) free
    else s
  else s

/-- Bytes of one mip chain of an image (R329). -/
def chainBytes (r : List Byte) : Nat :=
  let f := byteAt r 1
  let bl := compressed f
  let b := if bl then (if f = 0x25 then 8 else 16) else if f ≤ 0x0B then packedBytes f else if f = 0x20 then 1 else if f = 0x21 ∨ f = 0x22 then 2 else if f = 0x23 then 4 else 16
  let up := fun (n m : Nat) => (n + m - 1) / m * m
  (List.range (byteAt r 3)).foldl (fun acc n =>
    let wd := max 1 (leAt r 4 2 / 2 ^ n)
    let ht := max 1 (leAt r 6 2 / 2 ^ n)
    let dp := if byteAt r 2 = 2 then max 1 (leAt r 8 2 / 2 ^ n) else 1
    let rows := if bl then (ht + 3) / 4 else ht
    let pitch := if n = 0 then leAt r 0x0C 4 else up ((if bl then (wd + 3) / 4 else wd) * b) 64
    up acc 256 + (if dp = 1 then pitch * rows else dp * up (pitch * rows) 256)) 0

/-- The bytes a writable resource covers: start and length. -/
def resourceSpan (r : List Byte) : Nat × Nat :=
  if byteAt r 0 = 1 then (leAt r 8 8, leAt r 4 4)
  else
    let layers := if byteAt r 2 = 2 then 1 else if 3 ≤ byteAt r 2 then leAt r 8 2 else 1
    (leAt r 0x10 8, (layers - 1) * leAt r 0x18 4 + chainBytes r * byteAt r 0x0A)

/-- Memory that the shaders of one stage may have written: the resources its entry binds for writing, and its scratch
memory. Rests on log entry 14 (DESIGN CHOICE), log entry 82 (DESIGN CHOICE). -/
def State.stageWrites (s : State) (q idx : Nat) (w : Who) (cont entry table : Nat) : State :=
  let h := (s.engineRead w cont 64).2.1
  let e := (s.engineRead w (cont + leAt h 0x14 4 + 32 * entry) 32).2.1
  s.each (List.range (leAt e 0x1A 2)) fun s k =>
    let b := (s.engineRead w (cont + leAt h 0x18 4 + 8 * (leAt e 0x18 2 + k)) 8).2.1
    if byteAt b 0 = 2 ∨ byteAt b 0 = 4 then
      let (a, n) := resourceSpan (s.engineRead w (table + 32 * leAt b 2 2) 32).2.1
      s.quietWrite w a (shaderBytes q idx a n)
    else s

/-- Rests on log entry 82 (DESIGN CHOICE). -/
def State.scratchWrites (s : State) (q idx : Nat) (w : Who) (a n : Nat) : State := s.quietWrite w a (shaderBytes q idx a (n * 32 * 64 * 16))

/-- The writes of a job's shaders. Rests on log entry 14 (DESIGN CHOICE), log entry 82 (DESIGN CHOICE). -/
def State.shaderWrites (s : State) (q : Nat) (d : Desc) : State :=
  let w := s.jobWho q d.secure
  let a := d.f 0x20 8
  if d.opcode = 1 then
    let h := (s.engineRead w a 64).2.1
    s.each (List.range (leAt h 8 4)) fun s k =>
      let r := (s.engineRead w (a + leAt h 0x0C 4 + 32 * k) 32).2.1
      let st := (s.engineRead w (leAt r 0 8) 256).2.1
      let s := s.scratchWrites q d.idx w (leAt st 0x28 8) (leAt st 0x30 4)
      if bitSet (leAt st 0x0A 2) 0 then s.stageWrites q d.idx w (leAt st 0x10 8) (byteAt st 9) (leAt st 0x20 8) else s
  else
    let st := (s.engineRead w a 64).2.1
    (s.scratchWrites q d.idx w (leAt st 0x18 8) (leAt st 0x20 4)).stageWrites q d.idx w (leAt st 0 8) (byteAt st 8) (leAt st 0x10 8)

/-- The counters of a job's work on its core groups. Rests on log entry 84 (DESIGN CHOICE). -/
def State.jobPerf (s : State) (q : Nat) (d : Desc) : State :=
  if d.secure then s
  else
    let groups := s.held q d.idx
    let s := s.each [Reg.GFX_PIXELS, Reg.GFX_L2_HITS, Reg.GFX_L2_MISSES, Reg.GFX_TEX_PROBES] fun s a => s.perf false (gfxB + a)
    s.each ((List.range 16).filter fun n => groups.contains (n / 4)) fun s n =>
      (s.perf false (coreB n + Reg.GFX_CORE_BUSY)).perf false (coreB n + Reg.GFX_CORE_WAVE_INSTR)

/-- SHADER_FAULT (R320, R336, R349): the running job ends with the offset in its container's code. -/
def doShaderFault (s : State) (q off : Nat) : State :=
  match (s.ring q).fetched.find? (fun d => decide (d.phase = .running)) with
  | some d => if s.ringType q = 1 then (s.jobPerf q d).shaderWrites q d |>.endWith q d.idx 0x84 off else s
  | none => s

/-! ## CONTEXT and TIMESTAMP (R319, R342) -/

/-- CONTEXT. -/
def doContext (s : State) (q : Nat) : State :=
  match s.nextOp q 1 3 with
  | none => s
  | some d =>
    if !s.isFirst q d.idx then s
    else if (s.ring q).fetched.any Desc.saved ∧ d.f 0x28 8 ≠ (s.ring q).saveArea then (s.finish q d.idx stNotPermitted 0x28).select
    else ((s.modRing q fun r => { r with saveArea := d.f 0x28 8 }).finish q d.idx stOk 0).select

/-- The timebase written at an address of device DRAM as the instance; a refused write completes FAULT. -/
def State.stampDram (s : State) (q : Nat) (d : Desc) : State :=
  let (s, f) := s.engineWrite (s.jobWho q false) (d.f 0x28 8) (natLE 8 s.now)
  match f with
  | some a => (s.finish q d.idx stFault (faultDetail a)).select
  | none => (s.finish q d.idx stOk 0).select

/-- GFX TIMESTAMP. -/
def doGfxTimestamp (s : State) (q : Nat) : State :=
  match s.nextOp q 1 4 with
  | some d => if s.isFirst q d.idx then s.stampDram q d else s
  | none => s

def execRender (q : Fin 256) (s : State) : Host.Outcome State Fault Refusal := .next (settle s (doRender s q.val))
def execDispatch (q : Fin 256) (s : State) : Host.Outcome State Fault Refusal := .next (settle s (doDispatch s q.val))
def execBinningDone (q : Fin 256) (entries : List Nat) (verts : Word) (s : State) : Host.Outcome State Fault Refusal := .next (settle s (doBinningDone s q.val entries verts.toNat))
def execShaderFault (q : Fin 256) (off : Word) (s : State) : Host.Outcome State Fault Refusal := .next (settle s (doShaderFault s q.val off.toNat))
def execContext (q : Fin 256) (s : State) : Host.Outcome State Fault Refusal := .next (settle s (doContext s q.val))
def execGfxTimestamp (q : Fin 256) (s : State) : Host.Outcome State Fault Refusal := .next (settle s (doGfxTimestamp s q.val))

end Sys2Proof.Machine
end

