-- ==== Sys2Proof/Machine/Copy.lean ====
section
/-!
DEFINITION. The copy engines (R346 to R348), what read completions from a host bring them (R127), and the end of the work of
GFX and CPY descriptors (R160, R349).
-/
namespace Sys2Proof.Machine

/-! ## Where a copy reads and writes (R346, R347) -/

/-- LOCS of an opcode. -/
def copyLocs (d : Desc) : Nat := if d.opcode = 4 then d.b 0x23 else d.b 0x20
def srcDram (d : Desc) : Bool := bitSet (copyLocs d) 0
def dstDram (d : Desc) : Bool := bitSet (copyLocs d) 1

/-- Bytes of a source row of CONVERT. -/
def convRow (f w : Nat) : Nat := if f = 0x15 ∨ f = 0x16 then 4 * ((w + 1) / 2) else if f = 0x10 ∨ f = 0x11 then w else w * packedBytes f

/-- The source as addresses and lengths, in the order in which its bytes are taken. -/
def srcSegs (d : Desc) : List (Nat × Nat) :=
  match d.opcode with
  | 1 => [(d.f 0x28 8, d.f 0x24 4)]
  | 3 => (List.range (d.f 0x22 2)).map fun r => (d.f 0x28 8 + r * d.f 0x38 4, d.f 0x24 4)
  | 4 =>
    let f := d.b 0x20
    let w := d.f 0x24 2
    let h := d.f 0x26 2
    let rows := fun (a n b : Nat) => (List.range n).map fun r => (a + r * d.f 0x38 4, b)
    rows (d.f 0x28 8) h (convRow f w) ++
      (if f = 0x10 ∨ f = 0x11 then rows (d.f 0x28 8 + d.f 0x38 4 * h) ((h + 1) / 2) (2 * ((w + 1) / 2)) else [])
  | _ => []

/-- The destination in the same way. -/
def dstSegs (d : Desc) : List (Nat × Nat) :=
  match d.opcode with
  | 1 => [(d.f 0x30 8, d.f 0x24 4)]
  | 2 => [(d.f 0x30 8, d.f 0x24 4)]
  | 3 => (List.range (d.f 0x22 2)).map fun r => (d.f 0x30 8 + r * d.f 0x3C 4, d.f 0x24 4)
  | 4 => (List.range (d.f 0x26 2)).map fun r => (d.f 0x30 8 + r * d.f 0x3C 4, d.f 0x24 2 * packedBytes (d.b 0x21))
  | _ => []

def segsLen (l : List (Nat × Nat)) : Nat := (l.map Prod.snd).sum

/-- The address of byte `pos` of some segments, and how many bytes of its segment follow it. -/
def segAt : List (Nat × Nat) → Nat → Nat × Nat
  | [], _ => (0, 0)
  | (a, n) :: l, pos => if pos < n then (a + pos, n - pos) else segAt l (pos - n)

/-! ## What a copy writes -/

/-- A pixel of a CONVERT source (R347): the colour of format 0x0A has no constant and is a free value (log entry 12).
Rests on log entry 12 (DESIGN CHOICE). -/
def convPixel (d : Desc) (src : List Byte) (x y : Nat) : Pixel :=
  let f := d.b 0x20
  let w := d.f 0x24 2
  let h := d.f 0x26 2
  let row := convRow f w
  let yuv := fun (l cb cr : Nat) =>
    let e := expand10 8
    let (r, g, b) := yuvToRgb (bitsOf (d.b 0x22) 0 1) (bitsOf (d.b 0x22) 1 1) (e l) (e cb) (e cr)
    pixel10 r g b 255
  if f = 0x10 ∨ f = 0x11 then
    let c := h * row + y / 2 * (2 * ((w + 1) / 2)) + 2 * (x / 2)
    let a := byteAt src c
    let b := byteAt src (c + 1)
    yuv (byteAt src (y * row + x)) (if f = 0x10 then a else b) (if f = 0x10 then b else a)
  else if f = 0x15 ∨ f = 0x16 then
    let o := y * row + 4 * (x / 2)
    if f = 0x15 then yuv (byteAt src (o + 2 * (x % 2))) (byteAt src (o + 1)) (byteAt src (o + 3))
    else yuv (byteAt src (o + 1 + 2 * (x % 2))) (byteAt src o) (byteAt src (o + 2))
  else
    let b := packedBytes f
    decodeRgb f (leAt src (y * row + x * b) b) (if f = 0x0A then Config.colourStage 4 0 0 0 % 2 ^ 24 else 0)

/-- The bytes a copy writes, in the order of its destination. -/
def copyBytes (d : Desc) (src : List Byte) : List Byte :=
  match d.opcode with
  | 2 => (List.range (d.f 0x24 4)).map fun j => BitVec.ofNat 8 (d.f 0x28 8 / 2 ^ (8 * ((d.f 0x30 8 + j) % 8)))
  | 4 => (List.range (d.f 0x26 2)).flatMap fun y => (List.range (d.f 0x24 2)).flatMap fun x =>
      natLE (packedBytes (d.b 0x21)) (encodeRgb (d.b 0x21) (convPixel d src x y))
  | _ => src

/-- The destination of a copy written; CPY_n_BYTES counts. -/
def State.copyOut (s : State) (q : Nat) (d : Desc) (src : List Byte) : State :=
  let bytes := copyBytes d src
  let w := s.jobWho q d.secure
  let fn := (s.ringOwner q).map Prod.fst |>.getD 0
  let (s, _) := (dstSegs d).foldl (fun (s, rest) g =>
    let bs := rest.take g.2
    let s := if dstDram d then (let (s, f) := s.engineWrite w g.1 bs; s.noteFault q d.idx f) else s.hostWrite (s.fnPort fn) g.1 bs
    (s, rest.drop g.2)) (s, bytes)
  let s := match s.copyOf q d.idx with
    | some n => if s.secureCopy then s else s.count (cpyB n + Reg.CPY_BYTES) bytes.length
    | none => s
  s.modDesc q d.idx fun d => { d with binned := true }

/-- The work of a copy that an engine holds starts: a source in device DRAM is read whole and written; from a host the data
arrives with read completions. -/
def State.startCopy (s : State) (q : Nat) (d : Desc) : State :=
  let s := s.modDesc q d.idx fun d => { d with phase := .running, binned := false, got := [] }
  if d.opcode = 2 then s.copyOut q d []
  else if srcDram d then
    let w := s.jobWho q d.secure
    let (s, bs) := (srcSegs d).foldl (fun (s, acc) g =>
      let (s, x, f) := s.engineRead w g.1 g.2
      (s.noteFault q d.idx f, acc ++ x)) (s, [])
    s.copyOut q d bs
  else s

def doCopyOp (s : State) (q op : Nat) : State := match s.startOn q 2 op with | some d => s.startCopy q d | none => s

/-- Source and destination formats of CONVERT (R347). -/
def convSrc (f : Nat) : Bool := (decide (1 ≤ f) && decide (f ≤ 0x0B)) || f = 0x10 || f = 0x11 || f = 0x15 || f = 0x16
def convDst (f : Nat) : Bool := (decide (1 ≤ f) && decide (f ≤ 9)) || f = 0x0B

/-- CONVERT: a bad parameter completes BAD_PARAMS with its offset. Rests on log entry 83 (DESIGN CHOICE). -/
def doConvert (s : State) (q : Nat) : State :=
  match s.startOn q 2 4 with
  | none => s
  | some d =>
    let l := [(0x20, !convSrc (d.b 0x20)), (0x21, !convDst (d.b 0x21)), (0x24, decide (d.f 0x24 2 = 0)), (0x26, decide (d.f 0x26 2 = 0))]
    match l.find? Prod.snd with
    | some (off, _) => s.endWith q d.idx 0x80 off
    | none => s.startCopy q d

/-- CPY TIMESTAMP (R346): to device DRAM or to the host, once earlier descriptors have completed. -/
def doCpyTimestamp (s : State) (q : Nat) : State :=
  match s.nextOp q 2 5 with
  | none => s
  | some d =>
    if !s.isFirst q d.idx then s
    else if dstDram d then s.stampDram q d
    else
      let fn := (s.ringOwner q).map Prod.fst |>.getD 0
      ((s.hostWrite (s.fnPort fn) (d.f 0x28 8) (natLE 8 s.now)).finish q d.idx stOk 0).select

/-! ## Reads from a host (R127, R348) -/

/-- An error of a host read in the issuing function's AER registers (R127). -/
def State.aer (s : State) (fn : Nat) : State := s.modFn fn fun c => { c with aerErrors := c.aerErrors + 1 }

/-- Data of the next read of a copy's source, or, without data, the zeros that stand for a read up to the next 4,096-byte
boundary (log entry 36). Rests on log entry 36 (DESIGN CHOICE). -/
def State.copyIn (s : State) (q : Nat) (data : List Byte) (ok : Bool) : State :=
  match (s.ring q).fetched.find? (fun d => decide (d.phase = .running)) with
  | none => s
  | some d =>
    if s.ringType q ≠ 2 ∨ d.opcode = 2 ∨ srcDram d || d.binned then s
    else
      let total := segsLen (srcSegs d)
      let pos := d.got.length
      let (a, room) := segAt (srcSegs d) pos
      let n := min room (4096 - a % 4096)
      let bs := if ok then data.take (total - pos) else natLE (if data = [] then n else min data.length (total - pos)) 0
      let s := if ok then s else (s.noteFault q d.idx (some a)).aer ((s.ringOwner q).map Prod.fst |>.getD 0)
      let got := d.got ++ bs
      let s := s.modDesc q d.idx fun d => { d with got := got }
      if total ≤ got.length then s.copyOut q d got else s

/-! ## The end of GFX and CPY work (R160, R349) -/

/-- What the engine reports beside what the model found. -/
def State.noteEnd (s : State) (q idx : Nat) (e : WorkEnd) : State :=
  match e with
  | .ok => s
  | .fault a => s.noteFault q idx (some a.toNat)
  | .status st dt => if s.ringType q = 1 ∧ 0x81 ≤ st.toNat ∧ st.toNat ≤ 0x84 then
      s.modDesc q idx fun d => { d with outcomes := d.outcomes ++ [(st.toNat, dt.toNat)] } else s

/-- DESCRIPTOR_COMPLETE: the work of the ring's running GFX or CPY descriptor ends. -/
def doDescriptorComplete (s : State) (q : Nat) (e : WorkEnd) : State :=
  match (s.ring q).fetched.find? (fun d => decide (d.phase = .running)) with
  | none => s
  | some d =>
    if !s.holds q d.idx then s
    else if s.ringType q = 1 ∧ (d.opcode = 2 ∨ d.binned) then
      let s := s.jobPerf q d
      let s := if d.opcode = 1 then s.storePass q d else s
      ((s.shaderWrites q d).noteEnd q d.idx e).endWork q d.idx
    else if s.ringType q = 2 ∧ d.binned then (s.noteEnd q d.idx e).endWork q d.idx
    else s

def execCopy (q : Fin 256) (s : State) : Host.Outcome State Fault Refusal := .next (settle s (doCopyOp s q.val 1))
def execFill (q : Fin 256) (s : State) : Host.Outcome State Fault Refusal := .next (settle s (doCopyOp s q.val 2))
def execCopy2d (q : Fin 256) (s : State) : Host.Outcome State Fault Refusal := .next (settle s (doCopyOp s q.val 3))
def execConvert (q : Fin 256) (s : State) : Host.Outcome State Fault Refusal := .next (settle s (doConvert s q.val))
def execCpyTimestamp (q : Fin 256) (s : State) : Host.Outcome State Fault Refusal := .next (settle s (doCpyTimestamp s q.val))
def execDescriptorComplete (q : Fin 256) (e : WorkEnd) (s : State) : Host.Outcome State Fault Refusal := .next (settle s (doDescriptorComplete s q.val e))

end Sys2Proof.Machine
end

