-- ==== Sys2Proof/Machine/Commit.lean ====
section
/-!
DEFINITION. Commits (R239 to R254): the descriptors of COMMIT rings, taking a commit inside and outside its window, applies of head
and layer frames, moves (R219), commit ring bindings (R246), and EXPECT (R243, R496).
-/
namespace Sys2Proof.Machine

/-! ## Status codes (R244) -/

def stDeferred : Nat := 0x80
def stRefused : Nat := 0x82
def stMismatch : Nat := 0x84
def stTooLate : Nat := 0x85
def stMoveRefused : Nat := 0x86

/-! ## Applies (R99, R244, R256) -/

/-- A commit that a latch or an idle apply takes completes (R244). -/
def State.endCommit (s : State) (c : Option (Nat × Nat)) : State :=
  match c with
  | none => s
  | some (q, idx) =>
    match s.desc q idx with
    | some d => if d.deferred = 0 then s.finish q idx stOk 0 else s.finish q idx stDeferred d.deferred
    | none => s
def State.refuseCommit (s : State) (c : Option (Nat × Nat)) (reason : Nat) : State :=
  match c with
  | some (q, idx) => s.finish q idx stRefused reason
  | none => s

/-- The instance that made a commit. -/
def State.commitInst (s : State) (c : Option (Nat × Nat)) : Option Nat := c.bind fun c => s.ringInst c.1

/-- The armed apply of layer k: refused, or active with its event and counter. -/
def State.applyLayer (s : State) (k : Nat) : State :=
  let b := layerBase k
  let c := (s.layer k).commit
  if !s.armed b then s
  else
    match s.layerCheck k with
    | some (reason, off) => ((s.refuseApply b reason off).modLayer k fun x => { x with commit := none, skip := false }).refuseCommit c reason
    | none =>
      let s := (((s.applyFrame b).count (b + Reg.LAYER_COMMITS) 1).raise b Reg.LAYER_EVENT_APPLIED).modLayer k fun x => { x with commit := none, skip := false }
      s.endCommit c

/-- The armed apply of head h's frame. -/
def State.applyHead (s : State) (h : Nat) : State :=
  let b := headBase h
  let x := s.head h
  if !s.armed b then s
  else
    match s.headCheck h with
    | some (reason, off) =>
      (((s.refuseApply b reason off).modHead h fun x => { x with commitBg := none, commitGamma := none, skip := false }).refuseCommit x.commitBg reason).refuseCommit
        x.commitGamma reason
    | none =>
      (((s.applyFrame b).modHead h fun x => { x with commitBg := none, commitGamma := none, skip := false }).endCommit x.commitBg).endCommit x.commitGamma

/-! ## Moves (R217 to R219) -/

/-- Layers that count against a head: on it, or with a move to it pending. -/
def State.crowd (s : State) (h k : Nat) : Nat :=
  ((List.range 64).filter fun j => decide (j ≠ k) && (decide (s.layerHead j = h) ||
    (match (s.layer j).move with | some m => decide (m.target = h) | none => false))).length

/-- The conditions of a move of layer k to a target (15: none). -/
def State.mayMove (s : State) (k t : Nat) : Bool :=
  decide (t = 15) || (decide (t < 8) && bitSet (s.p.layer k).headMask t && decide (s.crowd t k < 16) &&
    s.rateOk k (s.lstate k false) t && (!s.armed (layerBase k) || s.rateOk k (s.lstate k true) t))

/-- A MOVE commit that ends outside its ring's own turn: replaced, withdrawn, done or refused. -/
def State.endMove (s : State) (by_ : Option (Nat × Nat)) (st : Nat) : State :=
  match by_ with
  | some (q, idx) => s.finish q idx st 0
  | none => s

/-- The layer leaves its head; a move that unassigns ends here. -/
def State.leave (s : State) (k : Nat) : State :=
  match (s.layer k).move with
  | none => s
  | some m =>
    let s := (s.put (layerBase k) Reg.LAYER_ID_HEAD 15).assignLook
    if m.target = 15 then ((s.modLayer k fun x => { x with move := none }).moveLook k).endMove m.by_ stOk
    else s.modLayer k fun x => { x with move := some { m with left := true, leftAt := some s.now } }

/-- A request to move layer k, its conditions already met. -/
def State.request (s : State) (k t : Nat) (by_ : Option (Nat × Nat)) : State :=
  let x := s.layer k
  match x.move with
  | some m =>
    if m.left then
      let old := x.nextMove
      let s := (s.modLayer k fun x => { x with nextMove := some { target := t, by_ := by_ } }).moveLook k
      match old with | some o => s.endMove o.by_ stSuperseded | none => s
    else
      let s := s.modLayer k fun x => { x with move := none }
      let s := s.endMove m.by_ stSuperseded
      if t = s.layerHead k then (s.moveLook k).endMove by_ stOk
      else (s.modLayer k fun x => { x with move := some { target := t, by_ := by_ } }).moveLook k
  | none =>
    if t = s.layerHead k then s.endMove by_ stOk
    else (s.modLayer k fun x => { x with move := some { target := t, left := decide (s.layerHead k = 15), by_ := by_ } }).moveLook k

/-- The layer joins its target; a request that waited starts as a new move (R219), a commit aborted after the leave completes
(R254). -/
def State.join (s : State) (k : Nat) : State :=
  let x := s.layer k
  match x.move with
  | none => s
  | some m =>
    let s := ((s.put (layerBase k) Reg.LAYER_ID_HEAD m.target).assignLook).raise (layerBase k) Reg.LAYER_EVENT_MOVE_DONE
    let s := (s.modLayer k fun x => { x with move := none, nextMove := none, aborted := [] }).moveLook k
    let s := s.each x.aborted fun s a => s.finish a.1 a.2 stAborted 0
    let s := if x.aborted.any fun a => decide (m.by_ = some a) then s else s.endMove m.by_ stOk
    match x.nextMove with
    | none => s
    | some n =>
      if s.mayMove k n.target then s.request k n.target n.by_
      else match n.by_ with
        | some _ => s.endMove n.by_ stMoveRefused
        | none => s.accessErr (layerBase k) 0x08 0x06

/-- Leaves and joins at heads that do not scan out (R102, R219). -/
def State.idleMove (s : State) (k : Nat) : State :=
  let s := match (s.layer k).move with
    | some m => if !m.left ∧ !s.scans (s.layerHead k) then s.leave k else s
    | none => s
  match (s.layer k).move with
  | some m => if m.left ∧ !s.scans m.target then s.join k else s
  | none => s

/-! ## Writing a commit's fields (R239, R241, R242) -/

/-- Fields that are reserved on the graphic layers (R256). -/
def graphicReserved (f : Fld) : Bool :=
  (decide (0x60 ≤ f.off) && decide (f.off ≤ 0x6C)) || (decide (f.off = 0x70) && decide (f.lo = 16)) || decide (f.off = 0x74) ||
    (decide (0x7C ≤ f.off) && decide (f.off ≤ 0x88)) || (decide (f.off = 0x44) && decide (4 ≤ f.lo)) || decide (0x800 ≤ f.off)

/-- The RWB fields of a layer frame in a range of offsets, without those reserved for its kind. -/
def layerFields (k lo hi : Nat) : List Fld :=
  ((FrameKind.layer.rows.filter fun r => decide (r.ty = .rwb)).flatMap rowMembers).filter fun f =>
    decide (lo ≤ f.off) && decide (f.off < hi) && (isVideo k || !graphicReserved f)

/-- Fields written from the image of the registers from offset `lo` on. -/
def State.putImage (s : State) (base : Nat) (fs : List Fld) (lo : Nat) (data : List Byte) : State :=
  s.each fs fun s f => s.put base f (bitsOf (leAt data (f.off - lo) 4) f.lo f.w)

/-- The gamma words of a head frame in register order, from a 6,144-byte image. -/
def gammaFields : List Fld :=
  ((FrameKind.head.rows.filter fun r => decide (r.ty = .rwb)).flatMap rowMembers).filter fun f => decide (0x1000 ≤ f.off) && decide (f.off < 0x2800)

/-- The shadow fields of a layer commit written: STATE, FLIP, COEFF. -/
def State.writeLayerFields (s : State) (k : Nat) (d : Desc) (data : List Byte) : State :=
  let b := layerBase k
  let start := fun (s : State) => if s.armed b then s else s.revertShadow b
  match d.opcode with
  | 1 => s.putImage b (layerFields k 0x40 0x8C) 0x40 data
  | 2 => (start s).each (if isVideo k then [0, 1, 2] else [0]) fun s n =>
      let a := d.f (0x28 + 8 * n) 8
      (s.put (b + 8 * n) Reg.LAYER_PLANE_LO_ADDR (a / 256)).put (b + 8 * n) Reg.LAYER_PLANE_HI_ADDR (a / 2 ^ 32)
  | _ => ((start s).putImage b (layerFields k 0x800 0xC00) 0x800 data).putImage b (layerFields k 0xC00 0xF00) 0xC00 (data.drop 1024)

/-- The shadow fields of a HEAD or GAMMA commit written. -/
def State.writeHeadFields (s : State) (h : Nat) (d : Desc) (data : List Byte) : State :=
  let b := headBase h
  if d.opcode = 4 then s.put b Reg.HEAD_BG_RGB (d.f 0x24 4)
  else
    let part := fun (s : State) (lo : Nat) => s.putImage b (gammaFields.filter fun f => decide (lo ≤ f.off) && decide (f.off < lo + 0x800)) lo (data.drop (lo - 0x1000))
    ((part (part (part s 0x1000) 0x1800) 0x2000)).put b Reg.HEAD_OUTSTAGE_GAMMA_EN (bitsOf (d.b 0x21) 1 1)

/-! ## Taking a commit (R250, R251, R254) -/

/-- A layer commit is taken: written, armed, and any earlier one superseded. -/
def State.takeLayer (s : State) (q : Nat) (d : Desc) (k : Nat) (data : List Byte) (why : Nat) : State :=
  let old := (s.layer k).commit
  let s := (s.writeLayerFields k d data).armFrame (layerBase k)
  let s := s.modLayer k fun x => { x with commit := some (q, d.idx), disable := false, skip := false }
  let s := s.modDesc q d.idx fun d => { d with phase := .armed, deferred := why, got := [] }
  match old with
  | some (a, b) => (s.raise (layerBase k) Reg.LAYER_EVENT_SUPERSEDED).finish a b stSuperseded 0
  | none => s

/-- A HEAD or GAMMA commit is taken; it supersedes an earlier one of its kind. -/
def State.takeHead (s : State) (q : Nat) (d : Desc) (h : Nat) (data : List Byte) (why : Nat) : State :=
  let bg := decide (d.opcode = 4)
  let old := if bg then (s.head h).commitBg else (s.head h).commitGamma
  let s := (s.writeHeadFields h d data).armFrame (headBase h)
  let s := s.modHead h fun x => if bg then { x with commitBg := some (q, d.idx), skip := false } else { x with commitGamma := some (q, d.idx), skip := false }
  let s := s.modDesc q d.idx fun d => { d with phase := .armed, deferred := why, got := [] }
  match old with
  | some (a, b) => s.finish a b stSuperseded 0
  | none => s

/-- The events and counters of a deferral: of head h, and of layer k where it is one (R250, R251). -/
def State.flagDeferred (s : State) (h : Nat) (k : Option Nat) (why : Nat) : State :=
  let b := headBase h
  let s := if why = 1 then (s.count (b + Reg.HEAD_LATE_COMMIT) 1).raise b Reg.HEAD_COMP_EVENT_LATE_COMMIT
    else (s.count (b + Reg.HEAD_MISSED_WINDOW) 1).raise b Reg.HEAD_COMP_EVENT_MISSED_WINDOW
  match k with
  | some k => s.raise (layerBase k) (if why = 1 then Reg.LAYER_EVENT_LATE_COMMIT else Reg.LAYER_EVENT_MISSED_WINDOW)
  | none => s

/-- The COMMIT_DEFERRED record of a commit of ring q (R167). -/
def State.deferRecord (s : State) (q h : Nat) (k : Option Nat) (why : Nat) : State :=
  match s.ringInst q with
  | some i => s.eventRecord i 2 (natLE 1 h ++ natLE 1 (k.getD 0xFF) ++ natLE 1 why ++ natLE 5 0 ++ natLE 8 (s.frameNo h + 2))
  | none => s

/-- The started lines whose rows a change from the speculated state of layer k to the state in `trial` touches. -/
def State.touched (s trial : State) (h k : Nat) : List Nat :=
  let old := s.rowsOf h (s.lstate k (s.willApply k))
  let new := s.rowsOf h (trial.lstate k true)
  s.startedLines h fun y => inRows old y || inRows new y

/-- A commit whose fields are at hand: `k` its layer, or none for the head frame of h. -/
def State.takeCommit (s : State) (q : Nat) (d : Desc) (h : Nat) (k : Option Nat) (data : List Byte) : State :=
  let take := fun (s : State) (why : Nat) => match k with
    | some k => s.takeLayer q d k data why
    | none => s.takeHead q d h data why
  let moving := match k with | some k => (s.layer k).move.isSome | none => false
  if moving || !s.scans h then take s 0
  else if (s.head h).latched then
    let why := if d.deferred = 1 then 1 else 2
    (take ((s.flagDeferred h k why).deferRecord q h k why) why)
  else
    let l := match k with
      | some k => s.touched (s.writeLayerFields k d data) h k
      | none => if d.opcode = 4 then s.startedLines h fun _ => true else []
    if s.fitsBefore h l then (take s 0).recompose h l
    else
      let s := s.modDesc q d.idx fun d => { d with phase := .held, got := data, deferred := 1 }
      let s := match k with | some k => s.put (layerBase k) Reg.LAYER_STATUS_HELD 1 | none => s
      (s.flagDeferred h k 1).deferRecord q h k 1

/-- The layer or head of a commit descriptor that is taken: head number, and the layer if it is one. -/
def State.commitPlace (s : State) (d : Desc) : Nat × Option Nat :=
  if d.opcode ≤ 3 then (s.layerHead (d.b 0x20), some (d.b 0x20)) else (d.b 0x20, none)

/-- Held commits of head h are written and armed right after its latch; what waited behind one in its ring counts as late (R251). -/
def State.releaseHeld (s : State) (h : Nat) : State :=
  s.each (List.range 256) fun s q =>
    if s.ringType q ≠ 3 then s
    else match (s.ring q).fetched.find? fun d => decide (d.phase = .held) && decide (d.opcode ≠ 6) with
      | none => s
      | some d =>
        let (h', k) := s.commitPlace d
        if h' ≠ h then s
        else
          let s := match k with | some k => (s.put (layerBase k) Reg.LAYER_STATUS_HELD 0).takeLayer q d k d.got 1 | none => s.takeHead q d h d.got 1
          s.modRing q fun r => { r with fetched := r.fetched.map fun e => if e.phase = .waiting ∨ e.phase = .ready then { e with deferred := 1 } else e }

/-! ## Descriptors (R239, R240) -/

/-- The next descriptor of a COMMIT ring of the given opcode: an earlier one that is read or held keeps it back. -/
def State.commitNext (s : State) (q op : Nat) : Option Desc :=
  match s.nextOp q 3 op with
  | some d =>
    if ((s.ring q).fetched.takeWhile fun e => decide (e.idx ≠ d.idx)).any fun e => decide (e.phase = .running) || decide (e.phase = .held)
      then none else some d
  | none => none

/-- NOT_PERMITTED with the offset of the field that names what the instance does not own. -/
def State.deny (s : State) (q idx : Nat) : State := s.finish q idx stNotPermitted 0x20

def State.ownsLayer (s : State) (q k : Nat) : Bool := decide (k < 64) && (match s.ringInst q with | some i => decide (s.layerOwner k = i) | none => false)
/-- Whether the instance owns a head in use and its OWNER_WRITABLE gives it a field. -/
def State.ownsHead (s : State) (q h bit : Nat) : Bool :=
  decide (h < 8) && s.p.headUsed h && (match s.ringInst q with | some i => decide ((s.p.head h).owner = i) | none => false) && bitSet (s.p.head h).ownerWritable bit

/-- Whether the binding lets ring q carry a HEAD or GAMMA commit of head h (R246). -/
def State.bound (s : State) (q h : Nat) : Bool := let r := s.rd (headBase h) Reg.HEAD_CRING_RING; decide (r = 0xFF) || decide (r = q)

/-- The read of a state block or a table starts. -/
def State.startRead (s : State) (q idx : Nat) : State := s.modDesc q idx fun d => { d with phase := .running }

def doState (s : State) (q : Nat) : State :=
  match s.commitNext q 1 with
  | some d => if s.ownsLayer q (d.b 0x20) then s.startRead q d.idx else s.deny q d.idx
  | none => s

def doFlip (s : State) (q : Nat) : State :=
  match s.commitNext q 2 with
  | some d =>
    if s.ownsLayer q (d.b 0x20) then s.takeCommit q d (s.layerHead (d.b 0x20)) (some (d.b 0x20)) [] else s.deny q d.idx
  | none => s

def doCoeff (s : State) (q : Nat) : State :=
  match s.commitNext q 3 with
  | some d => if s.ownsLayer q (d.b 0x20) then s.startRead q d.idx else s.deny q d.idx
  | none => s

def doHead (s : State) (q : Nat) : State :=
  match s.commitNext q 4 with
  | some d =>
    if s.ownsHead q (d.b 0x20) 0 && s.bound q (d.b 0x20) then s.takeCommit q d (d.b 0x20) none [] else s.deny q d.idx
  | none => s

def doGamma (s : State) (q : Nat) : State :=
  match s.commitNext q 7 with
  | some d => if s.ownsHead q (d.b 0x20) 2 && s.bound q (d.b 0x20) then s.startRead q d.idx else s.deny q d.idx
  | none => s

/-- MOVE (R219, R239). -/
def doMove (s : State) (q : Nat) : State :=
  match s.commitNext q 5 with
  | none => s
  | some d =>
    let k := d.b 0x20
    let t := if d.b 0x21 = 0xFF then 15 else d.b 0x21
    if !(s.ownsLayer q k && bitSet (s.p.layer k).flags 2) then s.deny q d.idx
    else if (8 ≤ t ∧ t ≠ 15) ∨ !s.mayMove k t then s.finish q d.idx stMoveRefused 0
    else
      let s := (s.modDesc q d.idx fun d => { d with phase := .armed }).modLayer k fun x => { x with disable := false }
      (s.request k t (some (q, d.idx))).idleMove k

/-- BIND (R246): once every earlier descriptor of the ring has completed. -/
def doBind (s : State) (q : Nat) : State :=
  match s.commitNext q 8 with
  | none => s
  | some d =>
    if !s.ownsHead q (d.b 0x20) 1 then s.deny q d.idx
    else if s.isFirst q d.idx then
      (s.put (headBase (d.b 0x20)) Reg.HEAD_CRING_RING (if bitSet (d.b 0x21) 0 then 0xFF else q)).finish q d.idx stOk 0
    else s

/-! ## EXPECT (R243, R495 to R497) -/

/-- Whether the first line of a region of frame f has left its head's line store. -/
def State.regionPast (s : State) (g : GuardRec) (f : Nat) : Bool :=
  decide (f < s.frameNo g.head) || (decide (f = s.frameNo g.head) && decide (g.y < (s.head g.head).sentLines))

def insertExpect (e : Expect) : List Expect → List Expect
  | [] => [e]
  | x :: l => if e.frame ≤ x.frame then e :: x :: l else x :: insertExpect e l

/-- An EXPECT is taken by its unit: it replaces an entry of its frame; with four entries queued its ring holds it. -/
def State.takeExpect (s : State) (q : Nat) (d : Desc) (g : GuardRec) : State :=
  let f := d.f 0x28 8
  let u := g.cvu
  let x := s.unit u
  if s.regionPast g f then s.finish q d.idx stTooLate 0
  else
    let e : Expect := { frame := f, value := d.f 0x30 8, q := q, idx := d.idx }
    match x.expects.find? fun o => decide (o.frame = f) with
    | some o =>
      let s := (s.modUnit u fun x => { x with expects := insertExpect e (x.expects.filter fun o => decide (o.frame ≠ f)) }).queueLook u
      (s.modDesc q d.idx fun d => { d with phase := .armed }).finish o.q o.idx stSuperseded 0
    | none =>
      if 4 ≤ x.expects.length then s.modDesc q d.idx fun d => { d with phase := .held }
      else ((s.modUnit u fun x => { x with expects := insertExpect e x.expects }).queueLook u).modDesc q d.idx fun d => { d with phase := .armed }

def doExpect (s : State) (q : Nat) : State :=
  match s.commitNext q 6 with
  | none => s
  | some d =>
    match s.p.region (d.b 0x20) with
    | some g => if s.ringInst q = some g.owner then s.takeExpect q d g else s.deny q d.idx
    | none => s.deny q d.idx

/-- Held EXPECTs of a unit try again once an entry is free. -/
def State.retryExpects (s : State) (u : Nat) : State :=
  s.each (List.range 256) fun s q =>
    if s.ringType q ≠ 3 then s
    else match (s.ring q).fetched.find? fun d => decide (d.phase = .held) with
      | some d =>
        if d.opcode = 6 then
          match s.p.region (d.b 0x20) with
          | some g => if g.cvu = u then s.takeExpect q d g else s
          | none => s
        else s
      | none => s

/-! ## Reads of commits (R241, R242) -/

/-- Bytes that a commit reads. -/
def commitLen (op : Nat) : Nat := if op = 1 then 128 else if op = 3 then 1792 else 6144

/-- COMMIT_READ_DONE: the read returns and the commit is taken, or it completes FAULT and the shadow stays. A block in device DRAM is
read as the instance (R19). -/
def doCommitReadDone (s : State) (q : Nat) (data : List Byte) (st : ReadStatus) : State :=
  if s.ringType q ≠ 3 then s
  else match (s.ring q).fetched.find? fun d => decide (d.phase = .running) with
  | none => s
  | some d =>
    let a := d.f 0x28 8
    let n := commitLen d.opcode
    let w := s.jobWho q false
    let dram := bitSet (d.b 0x21) 0
    let got : Option (List Byte) := if dram then (match s.dramGet w a n with | .ok bs => some bs | _ => none)
      else (match st with | .ok => if data.length = n then some data else none | _ => none)
    match got with
    | some bs =>
      let (h, k) := s.commitPlace d
      s.takeCommit q d h k bs
    | none =>
      let s := if dram then (if s.dramGet w a n = .refused then s.refuse w a n else s)
        else s.modFn ((s.ringOwner q).map Prod.fst |>.getD 0) fun c => { c with aerErrors := c.aerErrors + 1 }
      s.finish q d.idx stFault (faultDetail a)

/-! ## The manager's writes and ARM (R219, R245, R246, R250, R251) -/

/-- LAYER_ASSIGN (R5, R74, R219). -/
def State.layerAssignNow (s : State) (k v : Nat) : State :=
  let b := layerBase k
  let t := v % 16
  if 8 ≤ t ∧ t ≠ 15 then s.accessErr b 0x08 0x05
  else if s.rplBusy ∨ !s.mayMove k t then s.accessErr b 0x08 0x06
  else ((s.put b Reg.LAYER_ASSIGN_TARGET t).request k t none).idleMove k

def doLayerAssign (s : State) (k v : Nat) : State := s.mgrReach (off := layerBase k + 0x08) fun s => s.layerAssignNow k v

/-- Whether an owner is out of the way: none, ABSENT or QUIESCED. -/
def State.ownerIdle (s : State) (o : Nat) : Bool := decide (64 ≤ o) || decide (s.instState o = absent) || decide (s.instState o = quiesced)

/-- CRING_WRITE (R74, R246). -/
def State.cringNow (s : State) (h v : Nat) : State :=
  let b := headBase h
  let r := v % 256
  let rec_ := s.p.head h
  let names := decide (r = 0xFF) || (decide (s.ringInst r = some rec_.owner) && decide (s.ringType r = 3) && s.p.headUsed h)
  if s.rplBusy ∨ !names ∨ (bitSet rec_.ownerWritable 1 ∧ !s.ownerIdle rec_.owner) then s.accessErr b 0x1C 0x06
  else s.put b Reg.HEAD_CRING_RING r

def doCringWrite (s : State) (h v : Nat) : State := s.mgrReach (off := headBase h + 0x1C) fun s => s.cringNow h v

/-- The manager sets ARM of a layer or of a head frame (R98, R250, R251): after the latch, or where recomposition cannot finish in
time, the apply waits for the following latch with ERR[LATE]. -/
def State.managerArm (s : State) (h : Nat) (k : Option Nat) : State :=
  let b := match k with | some k => layerBase k | none => headBase h
  let moving := match k with | some k => (s.layer k).move.isSome | none => false
  let l := match k with
    | some k => s.touched s h k
    | none => if s.rd b Reg.HEAD_BG_RGB ≠ s.rda b Reg.HEAD_BG_RGB then s.startedLines h fun _ => true else []
  let was := s.armed b
  let s := s.armFrame b
  if moving || !s.scans h || was then s
  else if (s.head h).latched then (s.flagDeferred h k 2).raiseErr b Reg.ERR_LATE
  else if s.fitsBefore h l then s.recompose h l
  else
    let s := match k with | some k => s.modLayer k fun x => { x with skip := true } | none => s.modHead h fun x => { x with skip := true }
    (s.flagDeferred h k 1).raiseErr b Reg.ERR_LATE

def execState (q : Fin 256) (s : State) : Host.Outcome State Fault Refusal := .next (settle s (doState s q.val))
def execFlip (q : Fin 256) (s : State) : Host.Outcome State Fault Refusal := .next (settle s (doFlip s q.val))
def execCoeff (q : Fin 256) (s : State) : Host.Outcome State Fault Refusal := .next (settle s (doCoeff s q.val))
def execHead (q : Fin 256) (s : State) : Host.Outcome State Fault Refusal := .next (settle s (doHead s q.val))
def execMove (q : Fin 256) (s : State) : Host.Outcome State Fault Refusal := .next (settle s (doMove s q.val))
def execExpect (q : Fin 256) (s : State) : Host.Outcome State Fault Refusal := .next (settle s (doExpect s q.val))
def execGamma (q : Fin 256) (s : State) : Host.Outcome State Fault Refusal := .next (settle s (doGamma s q.val))
def execBind (q : Fin 256) (s : State) : Host.Outcome State Fault Refusal := .next (settle s (doBind s q.val))
/-- Rests on log entry 5 (DESIGN CHOICE). -/
def execCommitReadDone (q : Fin 256) (data : List Byte) (st : ReadStatus) (s : State) : Host.Outcome State Fault Refusal := .next (settle s (doCommitReadDone s q.val data st))
def execLayerAssign (k : Fin 64) (v : Word) (s : State) : Host.Outcome State Fault Refusal := .next (settle s (doLayerAssign s k.val v.toNat))
def execCringWrite (h : Fin 8) (v : Word) (s : State) : Host.Outcome State Fault Refusal := .next (settle s (doCringWrite s h.val v.toNat))

end Sys2Proof.Machine
end

