-- ==== Sys2Proof/Machine/Structure.lean ====
section
/-!
DEFINITION. What a Ringplan loads into heads, layers and check-value units, at an apply or part by part at a head's latch (R72, R96,
R220, R247, R248, R267, R495, R510), and the suspension of check-value units (R499).
-/
namespace Sys2Proof.Machine

/-! ## Check-value units (R490, R495, R499) -/

/-- The head of a unit's stream: a region's, or ARG for a composition. -/
def State.unitHead (s : State) (u : Nat) : Option Nat :=
  match s.p.cvuRec u with
  | some r => if r.snoop = 1 then (s.p.region r.arg).map GuardRec.head else if r.snoop = 2 then some r.arg else none
  | none => none
/-- A region unit in expected-value mode. -/
def State.expectMode (s : State) (u : Nat) : Bool :=
  match s.p.cvuRec u with
  | some r => decide (r.snoop = 1) && (match s.p.region r.arg with | some g => decide (g.mode = 0) | none => false)
  | none => false
/-- A unit that compares its own intervals with a reference. -/
def State.refMode (s : State) (u : Nat) : Bool :=
  match s.p.cvuRec u with
  | some r => (decide (r.snoop = 1) && !s.expectMode u) || ((decide (r.snoop = 2) || decide (r.snoop = 6)) && bitSet r.flags 6)
  | none => false

def State.unitState (s : State) (u : Nat) : Nat := s.rd (cvuB u) Reg.CVU_STATUS_STATE
def cvuOff : Nat := 0
def cvuWaiting : Nat := 1
def cvuActive : Nat := 2
def cvuSuspended : Nat := 3

/-- The state in which a unit works (R495). -/
def State.unitStart (s : State) (u : Nat) : State :=
  (s.put (cvuB u) Reg.CVU_STATUS_STATE (if s.expectMode u then cvuWaiting else cvuActive)).modUnit u fun x =>
    { x with v := 0, p := 0, running := false, lastSeq := none, lastAt := s.now }

/-- Whether the state of head h suspends a unit (R499). -/
def State.suspends (s : State) (h u : Nat) : Bool :=
  let c := s.content h
  decide (s.rd (headBase h) Reg.HEAD_STATE_LINK = 0) || decide (c = 5) || decide (c = 6) || (s.expectMode u && decide (c = 4))

/-- Units of head h follow its link and content. -/
def State.suspendLook (s : State) (h : Nat) : State :=
  s.each ((List.range 64).filter fun u => decide (s.unitHead u = some h)) fun s u =>
    let st := s.unitState u
    if st = cvuOff then s
    else if s.suspends h u then s.put (cvuB u) Reg.CVU_STATUS_STATE cvuSuspended
    else if st = cvuSuspended then s.unitStart u
    else s

/-- A unit's queued EXPECTs end with a status (R510). -/
def State.endExpects (s : State) (u st : Nat) : State :=
  let l := (s.unit u).expects
  let s := (s.modUnit u fun x => { x with expects := [] }).queueLook u
  s.each l fun s e => s.finish e.q e.idx st 0

/-- A unit takes its record: registers, reference and state; without a record it is OFF. -/
def State.loadUnit (s : State) (u : Nat) : State :=
  let b := cvuB u
  match s.p.cvuRec u with
  | none => ((s.endExpects u stAborted).resetRange b 0x100).setUnit u {}
  | some r =>
    let s := s.endExpects u stSuperseded
    let s := s.each [(Reg.CVU_ID_OWNER, r.owner), (Reg.CVU_ID_ARG, r.arg), (Reg.CVU_ID_SNOOP, r.snoop), (Reg.CVU_CFG_WIDTH, r.width),
        (Reg.CVU_CFG_REFIN, bitsOf r.flags 0 1), (Reg.CVU_CFG_REFOUT, bitsOf r.flags 1 1), (Reg.CVU_CFG_FOLD_HEAD, bitsOf r.flags 2 1),
        (Reg.CVU_CFG_FOLD_UNIT, bitsOf r.flags 3 1), (Reg.CVU_CFG_FOLD_ADDR, bitsOf r.flags 4 1), (Reg.CVU_CFG_FOLD_SEQ, bitsOf r.flags 5 1),
        (Reg.CVU_CFG_COMPARE, bitsOf r.flags 6 1), (Reg.CVU_CFG_REF_MODE, (s.refMode u).toNat)] fun s e => s.put b e.1 e.2
    let s := (((s.putWide (b + Reg.CVU_POLY) r.poly).putWide (b + Reg.CVU_INIT) r.init).putWide (b + Reg.CVU_XOROUT) r.xorout).putWide (b + Reg.CVU_REF) r.ref
    let s := s.put b Reg.CVU_STATUS_RUN 0
    if r.snoop = 0 then s.put b Reg.CVU_STATUS_STATE cvuOff else s.unitStart u

/-- The records of a unit in an image: its own and its region's. -/
def Plan.unitPart (p : Plan) (u : Nat) : Option CvuRec × Option GuardRec :=
  let r := p.cvuRec u
  (r, r.bind fun r => if r.snoop = 1 then p.region r.arg else none)

/-! ## Heads (R247, R248, R308) -/

/-- Λ as resolved. -/
def HeadRec.latch (r : HeadRec) : Nat := if r.latchLine = 0xFFFF then r.vActive else r.latchLine
/-- The lead in force. -/
def Plan.leadOf (p : Plan) (h : Nat) : Nat :=
  let r := p.head h
  if r.hActive = 0 then 0 else min r.lead (p.lineStore.getD h 0 * 1024 / (4 * r.hActive))
/-- The number of speculative lines. -/
def Plan.specOf (p : Plan) (h : Nat) : Nat := p.leadOf h - ((p.head h).vTotal - (p.head h).latch)
/-- The nominal frame period in ns. -/
def HeadRec.period (r : HeadRec) : Nat := roundDiv (r.vTotal * r.hTotal * 1000000) r.pixelKhz

/-- Whether a head carries a guarded region. -/
def Plan.guards (p : Plan) (h : Nat) : Bool := p.guarded.any fun g => decide (g.head = h)

/-- The register fields that a head's records load. -/
def Plan.headFields (p : Plan) (h : Nat) : List (Fld × Nat) :=
  let r := p.head h
  [(Reg.HEAD_LOST_HOLD_MS, r.lostHoldMs), (Reg.HEAD_H_H_ACTIVE, r.hActive), (Reg.HEAD_H_H_TOTAL, r.hTotal), (Reg.HEAD_V_V_ACTIVE, r.vActive),
    (Reg.HEAD_V_V_TOTAL, r.vTotal), (Reg.HEAD_HSYNC_HS_START, r.hsStart), (Reg.HEAD_HSYNC_HS_END, r.hsEnd), (Reg.HEAD_VSYNC_VS_START, r.vsStart),
    (Reg.HEAD_VSYNC_VS_END, r.vsEnd), (Reg.HEAD_PIXEL_PIXEL_KHZ, r.pixelKhz), (Reg.HEAD_LATCH_LINE, r.latch),
    (Reg.HEAD_COMP_STATUS_LEAD, p.leadOf h), (Reg.HEAD_COMP_STATUS_SPEC_LINES, p.specOf h)]

/-- A head's registers take what its records change (log entry 50). Rests on log entry 50 (DESIGN CHOICE). -/
def State.loadHead (s : State) (old new : Plan) (h : Nat) : State :=
  let b := headBase h
  let pairs := (old.headFields h).zip (new.headFields h)
  let s := s.each (pairs.filter fun e => decide (e.1.2 ≠ e.2.2)) fun s e => s.put b e.2.1 e.2.2
  let bg := (new.head h).background
  let s := if (old.head h).background % 2 ^ 24 ≠ bg % 2 ^ 24 then s.putBoth b Reg.HEAD_BG_RGB bg else s
  let kind := fun (p : Plan) => (decide ((p.head h).portType = 3), p.guards h)
  if kind old ≠ kind new ∧ new.headUsed h then
    (s.put (outB h) Reg.OUT_CFG_BPC (if (new.head h).portType = 3 ∧ !new.guards h then 1 else 2)).put (outB h) Reg.OUT_CFG_DSC_MODE (if new.guards h then 0 else 1)
  else s

/-- Whether a change of a head's record makes it retrain (R267). -/
def retrains (a b : HeadRec) : Bool :=
  decide (a.hActive ≠ b.hActive) || decide (a.hTotal ≠ b.hTotal) || decide (a.vActive ≠ b.vActive) || decide (a.vTotal ≠ b.vTotal) ||
    decide (a.hsStart ≠ b.hsStart) || decide (a.hsEnd ≠ b.hsEnd) || decide (a.vsStart ≠ b.vsStart) || decide (a.vsEnd ≠ b.vsEnd) ||
    decide (a.pixelKhz ≠ b.pixelKhz) || decide (a.portType ≠ b.portType) || decide (a.lanes ≠ b.lanes) || decide (a.linkRate ≠ b.linkRate)

/-! ## Layers (R220, R256) -/

/-- The scaling step and the initial phase of the centre-aligned formula (R228). -/
def centreStep (src dst : Nat) : Nat := roundDiv (src * 2 ^ 20) dst
def centreInit (src dst : Nat) : Nat := ofSigned 28 (((centreStep src dst : Nat) : Int) - 2 ^ 20 |>.shiftRight 1)

/-- The defaults with which a capture-fed layer is enabled (R220). -/
def State.captureDefaults (s : State) (p : Plan) (k : Nat) : State :=
  let l := p.layer k
  match p.capRec l.capture with
  | none => s
  | some c =>
    let r := p.head l.head
    s.each [(Reg.LAYER_CFG_ENABLE, 1), (Reg.LAYER_CFG_Z, 0), (Reg.LAYER_CFG_BLEND, 0), (Reg.LAYER_CFG_PLANE_ALPHA, 255),
      (Reg.LAYER_COLOUR_PRIMARIES, r.colour % 16), (Reg.LAYER_COLOUR_TRANSFER, r.colour / 16), (Reg.LAYER_COLOUR_MATRIX, 0), (Reg.LAYER_COLOUR_RANGE, 0),
      (Reg.LAYER_SRC_POS_X, 0), (Reg.LAYER_SRC_POS_Y, 0), (Reg.LAYER_SRC_SIZE_W, c.width), (Reg.LAYER_SRC_SIZE_H, c.height),
      (Reg.LAYER_DST_POS_X, 0), (Reg.LAYER_DST_POS_Y, 0), (Reg.LAYER_DST_SIZE_W, r.hActive), (Reg.LAYER_DST_SIZE_H, r.vActive),
      (Reg.LAYER_HSTEP_STEP, centreStep c.width r.hActive), (Reg.LAYER_VSTEP_STEP, centreStep c.height r.vActive),
      (Reg.LAYER_HINIT_INIT, centreInit c.width r.hActive), (Reg.LAYER_VINIT_INIT, centreInit c.height r.vActive)] fun s e =>
        s.putBoth (layerBase k) e.1 e.2

/-- The capture route of a layer in an image. -/
def Plan.route (p : Plan) (k : Nat) : Option CapRec := if bitSet (p.layer k).flags 0 then p.capRec (p.layer k).capture else none

/-- A layer's head number as its registers hold it. -/
def headField (h : Nat) : Nat := if h < 8 then h else 15

/-- A layer's registers take what its record changes; `first` at an apply that resets it, where the layer stands on its head at once. -/
def State.loadLayer (s : State) (old new : Plan) (first : Bool) (k : Nat) : State :=
  let b := layerBase k
  let a := old.layer k
  let r := new.layer k
  let s := ((s.put b Reg.LAYER_ID_OWNER r.owner).put b Reg.LAYER_ID_CAPTURE_FED (bitsOf r.flags 0 1)).put b Reg.LAYER_ID_CAPTURE (if bitSet r.flags 0 then r.capture else 0)
  let s := if first || decide (bitsOf a.flags 1 1 ≠ bitsOf r.flags 1 1) then s.putBoth b Reg.LAYER_CFG_INPUT (bitsOf r.flags 1 1) else s
  let s := if first then (s.put b Reg.LAYER_ID_HEAD (headField r.head)).put b Reg.LAYER_ASSIGN_TARGET (headField r.head)
    else if a.head ≠ r.head then ((s.put b Reg.LAYER_ASSIGN_TARGET (headField r.head)).request k (headField r.head) none).idleMove k
    else s
  if (new.route k).isSome ∧ (first ∨ old.route k ≠ new.route k) then s.captureDefaults new k else s

/-- A layer whose values an image changes. -/
def layerChanges (old new : Plan) (k : Nat) : Bool := decide (old.layer k ≠ new.layer k) || decide (old.route k ≠ new.route k)
def headChanges (old new : Plan) (h : Nat) : Bool :=
  decide (old.head h ≠ new.head h) || decide (old.lineStore.getD h 0 ≠ new.lineStore.getD h 0)

/-- The layers of a list take their part. -/
def State.takeLayers (s : State) (old new : Plan) (ks : List Nat) : State :=
  let s := s.setPlan fun q => { q with layers := q.layers.map fun r => if ks.contains r.layer then new.layer r.layer else r }
  s.each ks fun s k =>
    let s := if layerChanges old new k then s.loadLayer old new false k else s
    s.modLayer k fun x => { x with planTaken := true }

/-! ## The part of a head (R72, R267, R510) -/

/-- Head h, the layers on it and the units of its regions take their part of an apply; true where the head retrains. -/
def State.takeHeadPart (s : State) (h : Nat) : State × Bool :=
  match s.partDue h with
  | none => (s, false)
  | some new =>
    let old := s.p
    let s := s.setPlan fun q =>
      { q with
        heads := q.heads.map fun r => if r.head = h then new.head h else r
        lineStore := (List.range 8).map fun n => if n = h then new.lineStore.getD n 0 else q.lineStore.getD n 0
        guarded := q.guarded.filter (fun g => decide (g.head ≠ h)) ++ new.guarded.filter (fun g => decide (g.head = h)) }
    let s := s.loadHead old new h
    let s := s.takeLayers old new ((List.range 64).filter fun k => decide (s.layerHead k = h) && !(s.layer k).planTaken)
    let here := fun (p : Plan) (u : Nat) => match (p.unitPart u) with
      | (some r, g) => decide (r.snoop = 2 ∧ r.arg = h) || (match g with | some g => decide (g.head = h) | none => false)
      | _ => false
    let us := (List.range 64).filter fun u => (here old u || here new u) && decide (old.unitPart u ≠ new.unitPart u)
    let s := s.setPlan fun q => { q with cvus := q.cvus.filter (fun r => !us.contains r.unit) ++ new.cvus.filter (fun r => us.contains r.unit) }
    let s := (s.each us fun s u => s.loadUnit u).suspendLook h
    let s := (s.modHead h fun x => { x with planTaken := true }).partTaken h
    let s := if s.boot.parts % 256 = 0 then
        s.takeLayers old new ((List.range 64).filter fun k => !(s.layer k).planTaken)
      else s
    (s.assignLook, retrains (old.head h) (new.head h))

end Sys2Proof.Machine
end

