-- ==== Sys2Proof/Machine/Cvu.lean ====
section
/-!
DEFINITION. What a check-value unit computes and compares (R491 to R500): the fold block, the values V and P, the end of an
interval in expected-value mode and in reference mode.
-/
namespace Sys2Proof.Machine

/-- The record of a unit; the empty record for one without. -/
def State.cvuOf (s : State) (u : Nat) : CvuRec := (s.p.cvuRec u).getD {}

/-- The region of a region unit. -/
def State.unitRegion (s : State) (u : Nat) : Option GuardRec :=
  let r := s.cvuOf u
  if r.snoop = 1 then s.p.region r.arg else none

/-- INDEX of a unit's fault record (R504). -/
def State.unitIndex (s : State) (u : Nat) : Nat := u + 256 * (match s.unitRegion u with | some g => g.region | none => 0xFF)

/-- The fold block of an interval; nothing where no fold flag is set (R493). -/
def State.foldBlock (s : State) (u seq : Nat) : List Byte :=
  let r := s.cvuOf u
  let on := fun (b v : Nat) => if bitSet r.flags b then v else 0
  if bitsOf r.flags 2 4 = 0 then []
  else
    let (x, y) := match s.unitRegion u with | some g => (g.x, g.y) | none => (0, 0)
    natLE 1 (on 2 ((s.unitHead u).getD 0)) ++ natLE 1 (on 3 u) ++ natLE 2 0 ++ natLE 2 (on 4 x) ++ natLE 2 (on 4 y) ++ natLE 8 (on 5 seq)

/-- Whether a unit takes words: it has a stream and is not SUSPENDED. -/
def State.unitRuns (s : State) (u : Nat) : Bool := decide (s.unitState u = cvuWaiting) || decide (s.unitState u = cvuActive)

/-- An interval begins: V absorbs the fold block (R492). -/
def State.cvuBegin (s : State) (u seq : Nat) : State :=
  let r := s.cvuOf u
  let init := r.init % 2 ^ r.width
  s.modUnit u fun x => { x with v := crcRun r.width r.poly (bitSet r.flags 0) init (s.foldBlock u seq), p := init, running := true }

/-- Bytes absorbed into V and P (R492). -/
def State.cvuBytes (s : State) (u : Nat) (bs : List Byte) : State :=
  let r := s.cvuOf u
  let run := fun (c : Nat) => crcRun r.width r.poly (bitSet r.flags 0) c bs
  if (s.unit u).running then s.modUnit u fun x => { x with v := run x.v, p := run x.p } else s

/-- Words absorbed, each as four bytes, bits [7:0] first. -/
def State.cvuWords (s : State) (u : Nat) (ws : List Nat) : State := s.cvuBytes u (ws.flatMap (natLE 4))

/-- A comparison that failed: its source, and of an injected one its SUPPRESS_STOP. -/
structure CvuFail where
  src : Nat
  injected : Option Bool := none

/-- The event of a source. -/
def cvuEvent (src : Nat) : Fld :=
  if src = srcMismatch then Reg.CVU_EVENT_MISMATCH else if src = srcNoExpect then Reg.CVU_EVENT_NO_EXPECT
  else if src = srcMissing then Reg.CVU_EVENT_MISSING else if src = srcSequence then Reg.CVU_EVENT_SEQUENCE
  else Reg.CVU_EVENT_COMPARATOR

/-- The outcome of a compared interval: RUN, the records in ascending source order, the threshold of R500.
Rests on log entry 101 (DESIGN CHOICE). -/
def State.cvuOutcome (s : State) (u seq value expected : Nat) (fails : List CvuFail) : State :=
  let b := cvuB u
  let s := s.modUnit u fun x => { x with lastAt := s.now }
  if fails.isEmpty then (s.put b Reg.CVU_STATUS_RUN 0).put b Reg.CVU_STATUS_LAST_MATCH 1
  else
    let s := (s.put b Reg.CVU_STATUS_LAST_MATCH 0).incSat b Reg.CVU_STATUS_RUN
    let s := if fails.any fun f => decide (f.src ≠ srcNoExpect) then s.count (b + Reg.CVU_MISMATCHES) 1 else s
    let limit := s.rd snB Reg.SN_CFG_MISMATCH_STOP
    let stop := decide (limit ≠ 0) && decide (limit ≤ s.rd b Reg.CVU_STATUS_RUN)
    s.each fails fun s f => (s.raise b (cvuEvent f.src)).fault f.src
      { index := s.unitIndex u, seq := seq, value := value, expected := expected, injected := f.injected.isSome
        suppress := f.injected.getD false, stop := stop }

/-- A comparison by two comparators, which `agree` or not (R498), with the injections of R508: what failed.
Rests on log entry 101 (DESIGN CHOICE). -/
def State.cvuCompare (s : State) (u found expected : Nat) (agree : Bool) : State × Nat × List CvuFail :=
  let x := s.unit u
  let expected := if x.invert.isSome then expected ^^^ 1 else expected
  let s := (s.modUnit u fun x => { x with invert := none, disagree := none }).count (cvuB u + Reg.CVU_COMPARES) 1
  let fails : List CvuFail := match x.disagree with
    | some b => [{ src := srcComparator, injected := some b }]
    | none => if !agree then [{ src := srcComparator }] else if found = expected then [] else [{ src := srcMismatch, injected := x.invert }]
  (s, expected, fails)

/-- Queue entries of earlier frames and of this frame leave the queue. -/
def State.takeExpects (s : State) (u seq : Nat) : State × List Expect × List Expect :=
  let l := (s.unit u).expects
  ((s.modUnit u fun x => { x with expects := x.expects.filter fun e => decide (seq < e.frame) }).queueLook u,
    l.filter fun e => decide (e.frame < seq), l.filter fun e => decide (e.frame = seq))

/-- The end of an interval in expected-value mode (R496). Rests on log entry 101 (DESIGN CHOICE). -/
def State.expectEnd (s : State) (u seq v : Nat) (agree : Bool) : State :=
  let w := (s.cvuOf u).width
  let (s, early, now) := s.takeExpects u seq
  let s := s.each early fun s e => s.finish e.q e.idx stTooLate 0
  match now with
  | [] =>
    if s.unitState u = cvuWaiting then s
    else s.cvuOutcome u seq v 0 [{ src := srcNoExpect }]
  | e :: _ =>
    let s := s.put (cvuB u) Reg.CVU_STATUS_STATE cvuActive
    let (s, exp, fails) := s.cvuCompare u v (e.value % 2 ^ w) agree
    let s := s.cvuOutcome u seq v exp fails
    s.finish e.q e.idx (if fails.isEmpty then stOk else stMismatch) 0

/-- The end of an interval in reference mode (R497): an EXPECT sets REF from its frame on; `tag` says that the stream's head
is the unit's. Rests on log entry 101 (DESIGN CHOICE). -/
def State.refEnd (s : State) (u seq p : Nat) (tag agree : Bool) : State :=
  let w := (s.cvuOf u).width
  let (s, early, now) := s.takeExpects u seq
  let s := s.each (early ++ now) fun s e => s.putWide (cvuB u + Reg.CVU_REF) (e.value % 2 ^ w)
  let s := s.each early fun s e => s.finish e.q e.idx stTooLate 0
  let gap := match (s.unit u).lastSeq with | some n => decide (seq ≠ n + 1) | none => false
  let (s, exp, fails) := s.cvuCompare u p (s.wideAt (cvuB u + Reg.CVU_REF)) agree
  let all := (fails.filter fun f => decide (f.src < srcSequence)) ++ (if gap || !tag then [{ src := srcSequence }] else []) ++
    fails.filter fun f => decide (srcSequence < f.src)
  let s := (s.modUnit u fun x => { x with lastSeq := some seq }).cvuOutcome u seq p exp all
  s.each now fun s e => s.finish e.q e.idx (if fails.isEmpty then stOk else stMismatch) 0

/-- An interval ends: its values, DONE, and the comparison of the unit's mode. -/
def State.cvuEndAs (s : State) (u seq : Nat) (tag agree : Bool) : State :=
  let r := s.cvuOf u
  let x := s.unit u
  let b := cvuB u
  if !x.running then s
  else
    let v := crcEnd r.width (bitSet r.flags 1) r.xorout x.v
    let p := crcEnd r.width (bitSet r.flags 1) r.xorout x.p
    let s := s.modUnit u fun x => { x with running := false }
    let s := ((s.putWide (b + Reg.CVU_LAST) (v + 2 ^ 64 * seq)).putWide (b + Reg.CVU_LAST_P) p).raise b Reg.CVU_EVENT_DONE
    if s.expectMode u then (s.expectEnd u seq v agree).retryExpects u
    else if s.refMode u then (s.refEnd u seq p tag agree).retryExpects u
    else s

/-- The end of an interval whose tags are the stream's own. -/
def State.cvuEnd (s : State) (u seq : Nat) : State := s.cvuEndAs u seq true true

/-- The units of a stream. -/
def State.unitsOf (s : State) (f : CvuRec → Bool) : List Nat := ((s.p.cvus.filter f).map CvuRec.unit).filter fun u => decide (u < 64)

/-- Pixels of line y of head h reach the check streams of its regions and of its composition (R237, R269, R491). -/
def State.snoopLine (s : State) (h y : Nat) (px : List Nat) : State :=
  let f := s.frameNo h
  let us := s.unitsOf fun r => (decide (r.snoop = 1) && (match s.p.region r.arg with
    | some g => decide (g.head = h) && decide (g.y ≤ y) && decide (y < g.y + g.h) | none => false)) || (decide (r.snoop = 2) && decide (r.arg = h))
  s.each (us.filter s.unitRuns) fun s u =>
    let (y0, n, ws) := match s.unitRegion u with | some g => (g.y, g.h, (px.drop g.x).take g.w) | none => (0, s.vActive h, px)
    let s := if y = y0 then s.cvuBegin u f else s
    let s := s.cvuWords u ws
    if y + 1 = y0 + n then s.cvuEnd u f else s

end Sys2Proof.Machine
end

