-- ==== Sys2Proof/Machine/AudioGraph.lean ====
section
/-!
DEFINITION. Calliope's graph (R427 to R447): binary32 samples, node words, streams, chimes, and one sample of every node.
-/
namespace Sys2Proof.Machine

/-! ## Samples in IEEE binary32 (R434) -/

def f32Special (w : Nat) : Bool := decide (bitsOf w 23 8 = 255)

/-- The value of a finite sample in units of 2^-149. -/
def f32Int (w : Nat) : Int :=
  let e := bitsOf w 23 8
  let m := bitsOf w 0 23
  let v : Nat := if e = 0 then m else (2 ^ 23 + m) * 2 ^ (e - 1)
  if bitSet w 31 then -(v : Int) else v

/-- n / 2^sh to the nearest integer, ties to even. -/
def roundEven (n sh : Nat) : Nat :=
  let q := n / 2 ^ sh
  let r := 2 * (n % 2 ^ sh)
  if 2 ^ sh < r ∨ (r = 2 ^ sh ∧ q % 2 = 1) then q + 1 else q

/-- The sample nearest to n units of 2^-149, ties to even. -/
def f32Of (n : Int) : Nat :=
  let sign := if n < 0 then 2 ^ 31 else 0
  let m := n.natAbs
  if m < 2 ^ 23 then sign + m
  else
    let sh := Nat.log2 m - 23
    let q := roundEven m sh
    let (q, sh) := if q = 2 ^ 24 then (2 ^ 23, sh + 1) else (q, sh)
    if 254 ≤ sh then sign + 255 * 2 ^ 23 else sign + (sh + 1) * 2 ^ 23 + (q - 2 ^ 23)

/-- A signed integer of b bits as a sample, ±1.0 being full scale. -/
def f32OfInt (b : Nat) (i : Int) : Nat := f32Of (i * 2 ^ (149 - (b - 1)))

/-- The sum of two finite samples; two negative zeros stay negative. -/
def f32Add (a b : Nat) : Nat :=
  if a = 2 ^ 31 ∧ b = 2 ^ 31 then 2 ^ 31 else f32Of (f32Int a + f32Int b)

/-- A sample clamped to ±1.0. -/
def f32Clamp (w : Nat) : Nat :=
  if bitsOf w 0 31 ≤ 0x3F800000 then w else bitsOf w 31 1 * 2 ^ 31 + 0x3F800000

def f32Nan (w : Nat) : Bool := f32Special w && decide (bitsOf w 0 23 ≠ 0)

/-- k free sample words. -/
def State.freeWords (s : State) : Nat → State × List Nat
  | 0 => (s, [])
  | k + 1 => let (v, s) := s.takeFree 32; let (s, l) := s.freeWords k; (s, v :: l)

/-- A sample clamped and rounded to b bits, as a 32-bit two's complement word: full scale gives the largest number; a
tie may go either way, and so may what is not a number (log entry 13). Rests on log entry 13 (DESIGN CHOICE). -/
def State.f32Round (s : State) (b w : Nat) : State × Nat :=
  if f32Nan w then let (v, s) := s.takeFree b; (s, ofSigned 32 (signedOf b v))
  else
    let c := f32Int (f32Clamp w)
    let n := c.natAbs * 2 ^ (b - 1)
    let q := n / 2 ^ 149
    let r := 2 * (n % 2 ^ 149)
    let (up, s) := if r = 2 ^ 149 then s.takeFree 1 else (if 2 ^ 149 < r then 1 else 0, s)
    let v : Int := if c < 0 then -((q + up : Nat) : Int) else (min (q + up) (2 ^ (b - 1) - 1) : Nat)
    (s, ofSigned 32 v)

def State.f32Rounds (s : State) (b : Nat) : List Nat → State × List Nat
  | [] => (s, [])
  | w :: ws => let (s, v) := s.f32Round b w; let (s, l) := s.f32Rounds b ws; (s, v :: l)

/-- Samples clamped to ±1.0; what is not a number gives free values. -/
def State.clampOut (s : State) (ws : List Nat) : State × List Nat :=
  if ws.any f32Nan then let (s, l) := s.freeWords ws.length; (s, l.map f32Clamp) else (s, ws.map f32Clamp)

/-! ## The section and its words (R427, R428, R453) -/

def State.audio (s : State) : AudioRec := s.p.audio.getD {}
def State.nodeB (n : Nat) : Nat := calB + 16 * n
def AudioRec.ticksMs (a : AudioRec) : Nat := if a.rate = 1 then 96 else 48
/-- Samples of a period. -/
def AudioRec.samples (a : AudioRec) : Nat := 16 * a.period

/-- Bytes k on of PARAM. -/
def NodeRec.par (r : NodeRec) (k n : Nat) : Nat := leAt r.param k n

/-- The chime-path flag. -/
def NodeRec.chime (r : NodeRec) : Bool := bitSet r.flags 0

/-- The endpoint node types, and the output endpoints among them. -/
def isEndpoint (t : Nat) : Bool := decide (1 ≤ t) && decide (t ≤ 8)
def isOutput (t : Nat) : Bool := t = 2 || t = 5 || t = 7 || t = 8

/-- The words CTRL, PARAM and AUX of a node as its record gives them. -/
def NodeRec.words (r : NodeRec) : List Nat :=
  match r.typ with
  | 0x10 => [r.par 0 2 + 2 ^ 16 * (r.par 2 1 % 4), 0, 0]
  | 0x11 => [r.par 0 1 % 16, 0, 0]
  | 0x12 => [r.par 0 2, r.par 2 2, 0]
  | 0x14 => [r.par 0 2, 0, 0]
  | 0x15 => [r.par 0 2, r.par 2 2, 0]
  | 0x17 => [r.par 0 2 % 1024, r.par 2 2, 0]
  | 0x19 => [2 * (r.par 0 1 % 4), r.par 4 4 % 2 ^ 18, r.par 8 2]
  | _ => [0, 0, 0]

/-- The bits of the words that a type uses. -/
def wordMasks (t : Nat) : List Nat :=
  if isEndpoint t then [1, 0, 0]
  else match t with
    | 0x10 => [0x3FFFF, 0, 0]
    | 0x11 => [0xF, 0, 0]
    | 0x12 => [0x1FFFF, 0xFFFF, 0]
    | 0x13 => [1, 0, 0]
    | 0x14 => [0xFFFF, 0, 0]
    | 0x15 => [0xFFFF, 0xFFFF, 0]
    | 0x17 => [0x3FF, 0xFFFF, 0]
    | 0x19 => [7, 0x3FFFF, 0xFFFF]
    | _ => [0, 0, 0]

def wordFld (w : Nat) : Fld := if w = 0 then Reg.CAL_NODE_CTRL_WORD else if w = 1 then Reg.CAL_NODE_PARAM_WORD else Reg.CAL_NODE_AUX_WORD

/-- Shadow and active word w of a node. -/
def State.nodeSh (s : State) (n w : Nat) : Nat := s.rd (calB + 16 * n) (wordFld w)
def State.nodeAct (s : State) (n w : Nat) : Nat := s.rda (calB + 16 * n) (wordFld w)

/-- The route field of a node: the bits of CTRL that route (R436). -/
def routeMask (t : Nat) : Nat := match t with | 0x10 => 0xFFFF | 0x11 => 0xF | 0x13 => 1 | 0x14 => 0xFFFF | _ => 0

/-- Whether a node's route field, or a sink's source in MODE 1, differs between shadow and program. -/
def State.routeDiffers (s : State) (r : NodeRec) : Bool :=
  decide (s.nodeSh r.node 0 % (routeMask r.typ + 1) ≠ s.nodeAct r.node 0 % (routeMask r.typ + 1))
def State.sinkDiffers (s : State) (n : Nat) : Bool :=
  decide (s.rd (calB + 4 * n) Reg.CAL_LEGACY_MUX_SOURCE ≠ s.rda (calB + 4 * n) Reg.CAL_LEGACY_MUX_SOURCE)

/-- A shadow write to a route field starts a compilation (R436). -/
def State.startCompile (s : State) : State := (s.put calB Reg.CAL_STATUS_COMPILING 1).put calB Reg.CAL_STATUS_COMPILED 0

/-- A node word's shadow written: bits the type does not use stay 0. -/
def State.writeNode (s : State) (r : NodeRec) (w v : Nat) : State :=
  let s := s.put (calB + 16 * r.node) (wordFld w) (v &&& ((wordMasks r.typ).getD w 0))
  if w = 0 ∧ routeMask r.typ ≠ 0 then s.startCompile else s

/-! ## Ports, codecs and the holders of chimes -/

def State.calPort (s : State) (p : Nat) : Nat := s.rd (calB + 16 * p) Reg.CAL_PORT_STATUS_STATE
def AudioRec.portRec (a : AudioRec) (p : Nat) : Option PortRec := a.ports.find? fun r => decide (r.port = p)
def hsB (j : Nat) : Nat := calB + 0x40 * j
/-- A microphone accessory on codec j: one of the 4-pole types. -/
def State.hasMic (s : State) (j : Nat) : Bool := let t := s.rd (hsB j) Reg.CAL_HS_STATUS_TYPE; t = 2 || t = 3

/-- The chime holders (R48 FLAGS bit 0), and the one of sink n in MODE 1 (R427 LEGACY_CHIME). -/
def State.holders (s : State) : List Nat := (s.p.insts.filter fun r => bitSet r.flags 0).map InstRec.inst
def State.sinkHolder (s : State) (n : Nat) : Option Nat :=
  let c := bitsOf s.audio.legacyChime (2 * n) 2
  if 4 ≤ n ∨ (c ≠ 1 ∧ c ≠ 2) then none
  else ((s.p.insts.filter fun r => bitSet r.flags 0 && decide (r.port + 1 = c)).map InstRec.inst).head?

/-- The chime player and mix of a holder (R442). -/
def State.chimeNode (s : State) (i t : Nat) : Option NodeRec := s.audio.nodes.find? fun r => decide (r.typ = t) && decide (r.owner = i)

/-- The chime outputs of every holder in ascending port order: holder, key of the output, port, channels. -/
def State.chimeOuts (s : State) : List (Nat × Nat × Nat × Nat) :=
  if s.audio.mode = 1 then
    (List.range 4).filterMap fun n => (s.sinkHolder n).map fun i => (i, 512 + n, n, 2)
  else
    let l := s.audio.nodes.filter fun r => decide (r.typ = 2) && r.chime
    (List.range 6).flatMap fun p => (List.range 16).flatMap fun slot =>
      (l.filter fun r => decide (r.par 0 1 = p) && decide (r.par 1 1 = slot)).map fun r => (r.owner, r.node, p, r.channels)

/-! ## Streams (R439 to R441) -/

def bytesOfFmt (f : Nat) : Nat := if f = 0 then 2 else 4
/-- The stream's node. -/
def State.streamNode (s : State) (m t : Nat) : Option NodeRec := s.audio.nodes.find? fun r => decide (r.typ = t) && decide (r.par 0 1 = m)
def State.streamState (s : State) (m : Nat) : Nat := s.rd (calB + 4 * m) Reg.CAL_STREAM_STATUS_STATE
def State.setStreamState (s : State) (m st : Nat) : State := s.put (calB + 4 * m) Reg.CAL_STREAM_STATUS_STATE st
def streamIdle : Nat := 0
def streamStarting : Nat := 1
def streamRunning : Nat := 2
def streamStarved : Nat := 3

def State.chansOf (s : State) (m : Nat) (play : Bool) : Nat := ((s.streamNode m (if play then 6 else 7)).map NodeRec.channels).getD 0

/-- Frames of the queue whose data is here, counted from the next one. -/
def framesHere (ch : Nat) : List AudBuf → Nat
  | [] => 0
  | b :: bs =>
    let n := b.data.length / max 1 (ch * bytesOfFmt b.fmt)
    if b.frames ≤ n then (b.frames - b.pos) + framesHere ch bs else n - b.pos

/-- The status of a buffer that ends (R162, R441). -/
def bufStatus (b : AudBuf) : Nat × Nat :=
  match b.bad with
  | some a => (stFault, faultDetail a)
  | none => if 0 < b.xrun then (0x80, b.xrun) else (stOk, 0)

/-- Buffers whose last frame has been used complete, and a stream whose last buffer had END stops (R439, R441).
Rests on log entry 92 (DESIGN CHOICE). -/
def State.endBufs (s : State) (m : Nat) : List AudBuf → State
  | [] => s
  | b :: bs =>
    if b.pos < b.frames then s
    else
      let s := (s.modStream m fun x => { x with queue := bs }).streamLook m
      let (st, dt) := bufStatus b
      let s := s.finish b.q b.idx st dt
      if bs = [] ∧ b.last then (s.setStream m {}).setStreamState m streamIdle else s.endBufs m bs

/-- Data of a buffer in device DRAM read up to `want` frames ahead of the next one (R440). -/
def State.fetchDram (s : State) (m want : Nat) : State :=
  let ch := s.chansOf m true
  let rec go : List AudBuf → Nat → State → List AudBuf × State
    | [], _, s => ([], s)
    | b :: bs, n, s =>
      let size := max 1 (ch * bytesOfFmt b.fmt)
      let upto := min b.frames (b.pos + n)
      let here := b.data.length / size
      let (b, s) := if !b.dram ∨ upto ≤ here then (b, s)
        else
          let a := b.addr + here * size
          let len := (upto - here) * size
          let who := Who.fn ((s.ringOwner b.q).map Prod.fst |>.getD 0)
          match s.dramGet who a len with
          | .ok bs => ({ b with data := b.data ++ bs }, s)
          | .refused => ({ b with data := b.data ++ natLE len 0, bad := some (b.bad.getD a) }, s.refuse who a len)
          | .poisoned => ({ b with data := b.data ++ natLE len 0, bad := some (b.bad.getD a) }, s)
      let (bs, s) := go bs (n - (upto - b.pos)) s
      (b :: bs, s)
  let (l, s) := go (s.stream m).queue want s
  s.modStream m fun x => { x with queue := l }

/-- A sample of a buffer's format as binary32. -/
def sampleOf (fmt w : Nat) : Nat :=
  match fmt with
  | 0 => f32OfInt 16 (signedOf 16 w)
  | 1 => f32OfInt 24 (signedOf 24 w)
  | 2 => f32OfInt 32 (signedOf 32 w)
  | _ => w

/-- A frame lost by a stream: silence for playback, a discarded sample for recording (R441). -/
def State.streamLost (s : State) (m : Nat) : State :=
  let s := (s.count (calB + Reg.CAL_STREAM_XRUN + 16 * m) 1).raise calB Reg.CAL_EVENT_XRUN
  let s := s.setStreamState m streamStarved
  match (s.stream m).queue with
  | [] => s.modStream m fun x => { x with silence := x.silence + 1 }
  | b :: bs =>
    if b.pos < b.frames then s.modStream m fun x => { x with queue := { b with xrun := b.xrun + 1 } :: bs }
    else s.modStream m fun x => { x with silence := x.silence + 1 }

/-- The next frame of a playing stream. -/
def State.streamFrame (s : State) (r : NodeRec) : State × List Nat :=
  let m := r.par 0 1
  let silence := List.replicate r.channels 0
  if s.streamState m ≠ streamRunning ∧ s.streamState m ≠ streamStarved then (s, silence)
  else match (s.stream m).queue with
    | [] => (s.streamLost m, silence)
    | b :: bs =>
      let w := bytesOfFmt b.fmt
      if framesHere r.channels (b :: bs) = 0 then (s.streamLost m, silence)
      else
        let at_ := fun c => (b.pos * r.channels + c) * w
        let out := (List.range r.channels).map fun c => sampleOf b.fmt (leAt b.data (at_ c) w)
        let l := { b with pos := b.pos + 1 } :: bs
        let s := (s.modStream m fun x => { x with queue := l }).setStreamState m streamRunning
        (s.endBufs m l, if b.bad.isSome then silence else out)

/-- A frame a recording stream takes (R440). -/
def State.streamTake (s : State) (r : NodeRec) (ws : List Nat) : State :=
  let m := r.par 0 1
  if s.streamState m ≠ streamRunning ∧ s.streamState m ≠ streamStarved then s
  else
    let l := (s.stream m).queue
    match l.find? fun b => decide (b.pos < b.frames) with
    | none => s.streamLost m
    | some b =>
      let (s, vs) := if b.fmt = 3 then (s, ws) else s.f32Rounds (if b.fmt = 0 then 16 else if b.fmt = 1 then 24 else 32) ws
      let bytes := vs.flatMap fun v => natLE (bytesOfFmt b.fmt) v
      let f := fun (e : AudBuf) => if e.q = b.q ∧ e.idx = b.idx then { e with pos := e.pos + 1, data := e.data ++ bytes } else e
      (s.modStream m fun x => { x with queue := l.map f }).setStreamState m streamRunning

/-! ## Chimes (R443, R444) -/

/-- Clip c of the section. -/
def State.clip (s : State) (c : Nat) : ClipRec := s.audio.clips.getD c {}

/-- A clip's descriptor completes; a clip whose descriptor has gone just ends. -/
def State.clipDone (s : State) (c : ClipRun) (status : Nat) : State := if c.q < 256 then s.finish c.q c.idx status 0 else s

/-- CLIP of the player of holder i. -/
def State.clipLook (s : State) (i : Nat) : State :=
  match s.chimeNode i 0x1A with
  | some r => s.put (calB + 16 * r.node) Reg.CAL_NODE_STATUS_WORD (match (s.chimeOf i).playing with | some c => c.clip | none => 0xFF)
  | none => s

/-- Ticks of a 0.5 ms fade. -/
def State.fadeTicks (s : State) : Nat := s.audio.ticksMs / 2

/-- One sample of a player: its clip, or a free value during a fade. -/
def State.chimeFrame (s : State) (i channels : Nat) : State × List Nat :=
  let x := s.chimeOf i
  let clip := fun (c : ClipRun) => s.clip c.clip
  let (s, out) := if 0 < x.fade then s.freeWords channels
    else match x.playing with
      | none => (s, List.replicate channels 0)
      | some c =>
        let r := clip c
        let at_ := fun k => 2 * (c.pos * r.channels + k)
        if r.channels ≠ channels then s.freeWords channels
        else if r.frames ≤ c.pos then (s, List.replicate channels 0)
        else (s, (List.range channels).map fun k => f32OfInt 16 (signedOf 16 (leAt r.samples (at_ k) 2)))
  let go := fun (c : ClipRun) =>
    let r := clip c
    { c with pos := if r.loop = 1 ∧ r.frames ≤ c.pos + 1 then 0 else min (c.pos + 1) r.frames }
  (s.modChimeOf i fun x => { x with fade := x.fade - 1, playing := x.playing.map go }, out)

/-- The attack and release times of a holder's ducking, in ticks. -/
def State.duckTicks (s : State) (i : Nat) : Nat × Nat :=
  match s.chimeNode i 0x1B with
  | some r => (r.par 4 1 * s.audio.ticksMs, r.par 6 2 * s.audio.ticksMs)
  | none => (0, 0)

/-- The reduction of a holder's mix moves by one tick: in over the attack time, back over the release time (R444). -/
def State.duckStep (s : State) (i : Nat) : State :=
  let (a, r) := s.duckTicks i
  let full := max 1 a * max 1 r
  s.modChimeOf i fun x => { x with duck := if x.playing.isSome then min full (x.duck + max 1 r) else x.duck - max 1 a }

/-- A chime mix: while its player is silent and nothing is ducked, a mix of two inputs passes the other one; anything else
is a free value (log entry 13). -/
def State.chimeMix (s : State) (i channels : Nat) (ins : List (List Nat)) : State × List Nat :=
  let x := s.chimeOf i
  if x.playing = none ∧ x.fade = 0 ∧ x.duck = 0 ∧ ins.length = 2 then (s, ins.getD 1 []) else s.freeWords channels

/-! ## One sample of the graph (R423, R430, R434) -/

def outOf (m : KMap (List Nat)) (k : Nat) : List Nat := KMap.get (fun _ => []) m k

/-- The inputs of a node. -/
def State.inputsOf (s : State) (out : KMap (List Nat)) (r : NodeRec) : List (List Nat) :=
  (List.range r.inputs).map fun j =>
    match s.audio.edges.find? fun e => decide (e.dst = r.node) && decide (e.input = j) with
    | some e => outOf out e.src
    | none => List.replicate r.channels 0

def State.ramping (s : State) (n : Nat) : Bool := decide (0 < KMap.get (fun _ => 0) s.aud.ramps n)

/-- The sum of the enabled inputs of a mixer: exact for none, one and two finite ones (log entry 13).
Rests on log entry 13 (DESIGN CHOICE). -/
def State.mix (s : State) (channels auto : Nat) (ins : List (List Nat)) : State × List Nat :=
  match ins with
  | [] => (s, List.replicate channels 0)
  | [a] => (s, a)
  | [a, b] => if auto = 0 && !(a ++ b).any f32Special then (s, List.zipWith f32Add a b) else s.freeWords channels
  | _ => s.freeWords channels

/-- What an output endpoint carries: crossfading or ramping it is a free value, muted silence; clamped, and for a TDM port
rounded to its sample width (R434, R437). Rests on log entry 13 (DESIGN CHOICE), log entry 95 (DESIGN CHOICE). -/
def State.endpoint (s : State) (r : NodeRec) (ws : List Nat) : State × List Nat :=
  let (s, ws) := if s.aud.xfadeNodes.contains r.node || s.ramping r.node then s.freeWords r.channels
    else if bitSet (s.nodeAct r.node 0) 0 then (s, List.replicate r.channels 0) else (s, ws)
  match r.typ with
  | 2 => s.f32Rounds (((s.audio.portRec (r.par 0 1)).map PortRec.sampleBits).getD 16) ws
  | 7 => (s, ws)
  | _ => s.clampOut ws

/-- LINK reads ACTIVE (R260). -/
def linkUp : Nat := 2

/-- What leaves at an endpoint: nothing at a port that does not run or a link that is not ACTIVE, silence at a codec
without accessory (R299, R426, R448). -/
def State.leaves (s : State) (r : NodeRec) (ws : List Nat) : List Nat :=
  match r.typ with
  | 2 => if s.calPort (r.par 0 1) = 1 then ws else []
  | 5 => if s.rd (hsB (r.par 0 1)) Reg.CAL_HS_STATUS_PRESENT = 1 then ws else List.replicate r.channels 0
  | 8 => if s.rd (headBase (r.par 0 1)) Reg.HEAD_STATE_LINK = linkUp then ws else []
  | _ => ws

/-- The words a hardware input brings for a node. -/
def inWords (ins : List (Nat × List Word)) (k ch : Nat) : List Nat :=
  let ws : List Word := match ins.find? fun (e : Nat × List Word) => decide (e.1 = k) with | some e => e.2 | none => []
  (ws.map BitVec.toNat ++ List.replicate ch 0).take ch

/-- One node (R434). Rests on log entry 13 (DESIGN CHOICE). -/
def State.evalNode (s : State) (ins : List (Nat × List Word)) (out : KMap (List Nat)) (r : NodeRec) : State × List Nat :=
  let xs := s.inputsOf out r
  let x0 := xs.headD []
  let silence := List.replicate r.channels 0
  let ctrl := s.nodeAct r.node 0
  let source := fun (s : State) (ws : List Nat) =>
    if s.ramping r.node then s.freeWords r.channels else if bitSet ctrl 0 then (s, silence) else (s, ws)
  match r.typ with
  | 0x01 => source s (if s.calPort (r.par 0 1) = 1 then inWords ins r.node r.channels else silence)
  | 0x03 => source s (inWords ins r.node r.channels)
  | 0x04 => source s (if s.hasMic (r.par 0 1) then inWords ins r.node r.channels else silence)
  | 0x06 => source s (outOf out r.node)
  | 0x02 => s.endpoint r x0
  | 0x05 => s.endpoint r x0
  | 0x07 => s.endpoint r x0
  | 0x08 => s.endpoint r x0
  | 0x10 => s.mix r.channels (bitsOf ctrl 16 2) (((List.range xs.length).filter fun j => bitSet ctrl j).map fun j => xs.getD j [])
  | 0x11 => (s, if ctrl % 16 = 15 then silence else xs.getD (ctrl % 16) silence)
  | 0x12 => if s.ramping r.node then s.freeWords r.channels else if bitSet ctrl 16 then (s, silence)
      else if ctrl % 65536 = 0 then (s, x0) else s.freeWords r.channels
  | 0x13 => if bitSet ctrl 0 then (s, x0) else s.freeWords r.channels
  | 0x14 =>
    let past := (KMap.get (fun _ => []) s.aud.past r.node : List (List Nat))
    let line := (x0 :: past).take (r.par 2 2 + 1)
    ({ s with aud := { s.aud with past := KMap.set (fun _ => []) s.aud.past r.node line } }, line.getD ctrl silence)
  | 0x17 => if s.ramping r.node then s.freeWords r.channels else if ctrl = 0 then (s, x0)
      else if ctrl = 1000 then (s, xs.getD 1 silence) else s.freeWords r.channels
  | 0x18 => (s, x0)
  | 0x19 => if bitSet ctrl 0 then s.freeWords r.channels else (s, silence)
  | 0x1A => s.chimeFrame r.owner r.channels
  | 0x1B => s.chimeMix r.owner r.channels xs
  | _ => s.freeWords r.channels

/-- The source of a sink of MODE 1 (R447). -/
def State.legacySource (s : State) (ins : List (Nat × List Word)) (out : KMap (List Nat)) (code : Nat) : State × List Nat :=
  if code = 0 then (s, [0, 0])
  else if code ≤ 16 then
    (s, match s.streamNode (code - 1) 6 with | some r => ((outOf out r.node) ++ [0, 0]).take 2 | none => [0, 0])
  else if code = 26 then s.freeWords 2
  else
    let on := if code ≤ 20 then decide (s.calPort (code - 17) = 1) else if code = 21 then s.hasMic 0 else true
    (s, if on then inWords ins (512 + code) 2 else [0, 0])

/-- A sink of MODE 1: its source, through the holder's chime mix where one is named. -/
def State.legacySink (s : State) (ins : List (Nat × List Word)) (out : KMap (List Nat)) (n : Nat) : State × List Nat :=
  let (s, ws) := s.legacySource ins out (s.rda (calB + 4 * n) Reg.CAL_LEGACY_MUX_SOURCE)
  let (s, ws) := match s.sinkHolder n with
    | some i => s.chimeMix i 2 [[], ws]
    | none => (s, ws)
  let (s, ws) := if s.aud.xfadeNodes.contains (512 + n) then s.freeWords 2 else (s, ws)
  if n < 4 then
    let (s, vs) := s.f32Rounds (((s.audio.portRec n).map PortRec.sampleBits).getD 16) ws
    (s, if s.calPort n = 1 then vs else [])
  else
    let (s, vs) := s.clampOut ws
    (s, if n = 4 then (if s.rd (hsB 0) Reg.CAL_HS_STATUS_PRESENT = 1 then vs else [0, 0])
      else if s.rd (headBase (n - 5)) Reg.HEAD_STATE_LINK = linkUp then vs else [])

/-- Every node and sink once: streams first, then the schedule, the sinks of MODE 1, and the recording streams. -/
def State.graphTick (s : State) (ins : List (Nat × List Word)) : State :=
  let put := fun (m : KMap (List Nat)) (k : Nat) (v : List Nat) => KMap.set (fun _ => []) m k v
  let a := s.audio
  let (s, out) := (a.nodes.filter fun r => decide (r.typ = 6)).foldl (fun (s, out) r =>
    let (s, ws) := s.streamFrame r
    (s, put out r.node ws)) (s, ([] : KMap (List Nat)))
  let (s, out) := a.sched.foldl (fun (s, out) e =>
    match s.p.nodeRec e.node with
    | some r => let (s, ws) := s.evalNode ins out r; (s, put out r.node (s.leaves r ws))
    | none => (s, out)) (s, out)
  let (s, out) := if a.mode = 1 then
      let s := s.each s.holders fun s i => (s.chimeFrame i 0).1
      (List.range 9).foldl (fun (s, out) n => let (s, ws) := s.legacySink ins out n; (s, put out (512 + n) ws)) (s, out)
    else (s, out)
  let s := s.each (a.nodes.filter fun r => decide (r.typ = 7)) fun s r =>
    if a.mode = 1 then
      let (s, ws) := s.legacySource ins out (r.par 0 1 + 1)
      s.streamTake r ws
    else s.streamTake r (outOf out r.node)
  let s := s.each s.holders State.duckStep
  let ramps : KMap Nat := s.aud.ramps.filterMap fun (e : Nat × Nat) => if e.2 ≤ 1 then none else some (e.1, e.2 - 1)
  { s with aud := { s.aud with out := out, ramps := ramps } }

/-! ## What a route change reaches (R437) -/

/-- The nodes that some nodes feed, `n` steps along the edges. Rests on log entry 95 (DESIGN CHOICE). -/
def downstream (edges : List EdgeRec) : Nat → List Nat → List Nat
  | 0, l => l
  | n + 1, l => downstream edges n (l ++ ((edges.filter fun e => l.contains e.src && !l.contains e.dst).map EdgeRec.dst).eraseDups)

/-- The output endpoints downstream of some nodes. Rests on log entry 95 (DESIGN CHOICE). -/
def AudioRec.reached (a : AudioRec) (l : List Nat) : List Nat :=
  let d := downstream a.edges a.nodes.length l
  (a.nodes.filter fun r => isOutput r.typ && d.contains r.node).map NodeRec.node

end Sys2Proof.Machine
end

