-- ==== Sys2Proof/Machine/Audio.lean ====
section
/-!
DEFINITION. Calliope's commands (R422 to R453): samples, period boundaries, node words and compilation, the descriptors of
AUDIO rings, chimes, port clocks and headsets; and host reads that return data to copy and audio work (R127).
-/
namespace Sys2Proof.Machine

/-- Calliope runs: the image has a graph and the device is ON or in DOZE. -/
def State.calRuns (s : State) : Bool := s.p.audio.isSome && decide (s.rd picB Reg.PIC_STATE_STATE ≤ 1) && !s.parkedTo 5

/-- Calliope is idle in the sense of R102: none of its endpoints carries audio. -/
def State.calIdle (s : State) : Bool :=
  !s.calRuns || (!(List.range 6).any (fun p => decide (s.calPort p = 1)) && decide (s.audio.hsEnable = 0) &&
    !s.audio.nodes.any (fun r => r.typ = 3 || (r.typ = 8 && decide (s.rd (headBase (r.par 0 1)) Reg.HEAD_STATE_LINK = linkUp))))

/-! ## Check values of the chime path (R445, R491) -/

/-- The three units a holder's mix names. -/
def State.chimeUnits (s : State) (i : Nat) : List Nat :=
  match s.chimeNode i 0x1B with
  | some r => [r.par 1 1, r.par 2 1, r.par 3 1]
  | none => []

/-- The words of one sample enter the units of every holder; an injected error inverts bit 0 of copy B's first (R508). -/
def State.chimeWords (s : State) (readBack : List Nat) : State :=
  let outs := s.chimeOuts
  let split := outs.foldl (fun (acc : List (Nat × List Nat) × List Nat) (o : Nat × Nat × Nat × Nat) =>
    (acc.1 ++ [(o.1, acc.2.take o.2.2.2)], acc.2.drop o.2.2.2)) (([] : List (Nat × List Nat)), readBack)
  s.each s.holders fun s i =>
    match s.chimeUnits i with
    | [a, b, rb] =>
      let ws := (outs.filter fun o => decide (o.1 = i)).flatMap fun o => (outOf s.aud.out o.2.1)
      let rs := (split.1.filter fun (e : Nat × List Nat) => decide (e.1 = i)).flatMap Prod.snd
      let x := s.chimeOf i
      let hit := x.flip.isSome && !ws.isEmpty
      let bs := if hit then (match ws with | w :: l => (w ^^^ 1) :: l | [] => []) else ws
      let s := if hit then s.modChimeOf i fun x => { x with flip := none, injected := x.flip } else s
      ((s.cvuWords a ws).cvuWords b bs).cvuWords rb rs
    | _ => s

/-- The end of a period on every chime path: values, comparison, fault (R29, R445). -/
def State.chimeEnd (s : State) (seq : Nat) : State :=
  s.each s.holders fun s i =>
    match s.chimeUnits i with
    | [a, b, rb] =>
      let on := (s.unit a).running && (s.unit b).running && (s.unit rb).running
      let s := ((s.cvuEnd a seq).cvuEnd b seq).cvuEnd rb seq
      let v := fun u => s.wideAt (cvuB u + Reg.CVU_LAST) % 2 ^ 64
      let x := s.chimeOf i
      let bad := on && decide (v a ≠ v b ∨ v a ≠ v rb)
      let inj := on && x.injected.isSome && decide (v a ≠ v b) && decide (v a = v rb) && !x.fault
      let s := s.modChimeOf i fun x => { x with fault := false, injected := none }
      if bad || x.fault then
        (s.raise calB Reg.CAL_EVENT_CHIME_FAULT).fault srcChime
          { index := i, seq := seq, value := if bad then v a else 0, expected := if !bad then 0 else if v a ≠ v b then v b else v rb
            injected := inj, suppress := inj && x.injected.getD false }
      else s
    | _ => s

/-- A new period begins on every chime path. -/
def State.chimeBegin (s : State) (seq : Nat) : State :=
  s.each s.holders fun s i => s.each (s.chimeUnits i) fun s u => if s.unitRuns u then s.cvuBegin u seq else s

/-! ## Applies of the CAL_ frame (R98, R99, R436, R437, R453) -/

def wordOff (n w : Nat) : Nat := 0x1000 + 16 * n + 4 * w

/-- Nodes and sinks whose routing the shadow changes. -/
def State.routed (s : State) : List NodeRec := s.audio.nodes.filter s.routeDiffers
def State.routedSinks (s : State) : List Nat := (List.range 9).filter s.sinkDiffers

/-- Registers with a reserved encoding. -/
def State.calReserved (s : State) : List Nat :=
  (s.reservedShadow calB).toList ++ (s.audio.nodes.filterMap fun r =>
    let c := s.nodeSh r.node 0
    if (r.typ = 0x10 ∧ bitsOf c 16 2 = 3) ∨ (r.typ = 0x19 ∧ 2 ≤ bitsOf c 1 2) then some (wordOff r.node 0) else none)

/-- Which words of a node lie outside their range (R453). -/
def State.nodeRange (s : State) (r : NodeRec) : List Nat :=
  let c := s.nodeSh r.node 0
  let p := s.nodeSh r.node 1
  let a := s.nodeSh r.node 2
  let out := fun (lo hi : Int) (v : Nat) => decide (signedOf 16 v < lo) || decide (hi < signedOf 16 v)
  let (x, y, z) := match r.typ with
    | 0x10 => (decide (2 ^ r.inputs ≤ c % 65536), false, false)
    | 0x11 => (decide (r.inputs ≤ c % 16) && decide (c % 16 ≠ 15), false, false)
    | 0x12 => (out (-1200) 240 c, decide (1000 < p), false)
    | 0x14 => (decide (r.par 2 2 < c), false, false)
    | 0x15 => (out (-600) 0 c, decide (p = 0) || decide (5000 < p), false)
    | 0x17 => (decide (1000 < c), decide (1000 < p), false)
    | 0x19 => (false, decide (p < 200) || decide (200000 < p), out (-1200) 0 a)
    | _ => (false, false, false)
  (if x then [wordOff r.node 0] else []) ++ (if y then [wordOff r.node 1] else []) ++ (if z then [wordOff r.node 2] else [])

/-- The first failing check of an apply, in ascending order of REASON, with its register. -/
def State.calRefusal (s : State) (busy : Bool) : Option (Nat × Nat) :=
  let routes := (s.routed.map fun r => wordOff r.node 0) ++ s.routedSinks.map fun n => 0x200 + 4 * n
  match s.calReserved.min? with
  | some o => some (0x02, o)
  | none =>
    match (s.audio.nodes.flatMap s.nodeRange).min? with
    | some o => some (0x03, o)
    | none =>
      if busy then some (0x06, 0)
      else if routes ≠ [] ∧ !s.aud.fits then some (0x80, routes.min?.getD 0)
      else none

/-- Ring and index of every CONTROL and COEFF descriptor that waits for the apply.
Rests on log entry 93 (DESIGN CHOICE). -/
def State.calWaiters (s : State) : List (Nat × Nat) :=
  ((List.range 256).filter fun q => decide (s.ringType q = 4)).flatMap fun q =>
    ((s.ring q).fetched.filter fun d => (decide (d.opcode = 3) || decide (d.opcode = 4)) && decide (d.phase = .armed)).map fun d => (q, d.idx)

/-- Ticks of the ramp that a change of a node's words starts (R434, R453). -/
def State.rampOf (s : State) (r : NodeRec) : Nat :=
  let c := s.nodeSh r.node 0
  let o := s.nodeAct r.node 0
  let ms := s.audio.ticksMs
  if isEndpoint r.typ ∧ c ≠ o then ms
  else if (r.typ = 0x12 ∨ r.typ = 0x17) ∧ c ≠ o then s.nodeSh r.node 1 * ms
  else 0

/-- Affected endpoints start to crossfade: the swap of R437. Rests on log entry 95 (DESIGN CHOICE). -/
def State.swap (s : State) (ends : List Nat) : State :=
  let s := (s.count (calB + Reg.CAL_SWAPS) 1).put calB Reg.CAL_STATUS_STATE 2
  { s with aud := { s.aud with xfadeNodes := (s.aud.xfadeNodes ++ ends).eraseDups } }

/-- The shadow becomes active; ramps and, after a route change, the crossfade start; the waiting descriptors complete. -/
def State.calTake (s : State) : State :=
  let ends := s.audio.reached (s.routed.map NodeRec.node) ++ s.routedSinks.map fun n => 512 + n
  let swaps := decide (s.routed ≠ []) || decide (s.routedSinks ≠ [])
  let ramps := s.audio.nodes.foldl (fun (m : KMap Nat) r =>
    let t := s.rampOf r
    if t = 0 then m else KMap.set (fun _ => 0) m r.node t) s.aud.ramps
  let ws := s.calWaiters
  let s := State.applyFrame { s with aud := { s.aud with ramps := ramps } } calB
  let s := if swaps then s.swap ends else s
  s.each ws fun s w => s.finish w.1 w.2 stOk 0

/-- An armed apply of the frame is checked. A refusal ends the waiting descriptors; the spec gives their status no value (log
entry 93). Rests on log entry 93 (DESIGN CHOICE). -/
def State.calApply (s : State) (busy : Bool) : State :=
  match s.calRefusal busy with
  | none => s.calTake
  | some (reason, off) =>
    let ws := s.calWaiters
    (s.refuseApply calB reason off).each ws fun s w =>
      let (st, s) := s.takeFree 8
      let (dt, s) := s.takeFree 32
      s.finish w.1 w.2 st dt

/-- Whether the program for the shadow is ready for a boundary at t (R436). Rests on log entry 97 (DESIGN CHOICE). -/
def State.compiledFor (s : State) (t : Nat) : Bool :=
  decide (s.rd calB Reg.CAL_STATUS_COMPILING = 0) && (decide (s.routed = [] ∧ s.routedSinks = []) || decide (s.aud.compiledAt + 2000 ≤ t))

/-- The frame's part of a boundary at t: an ARM set in time and compiled is checked, any other waits and is LATE (R98).
Rests on log entry 97 (DESIGN CHOICE). -/
def State.calBoundary (s : State) (t : Nat) (busy : Bool) : State :=
  if !s.armed calB then s
  else if KMap.get (fun _ => 0) s.armAt calB + 2000 ≤ t ∧ s.compiledFor t then s.calApply busy
  else if busy then s.calApply true
  else s.raiseErr calB Reg.ERR_LATE

/-- IDLE_APPLY of the frame (R102). -/
def State.calIdleApply (s : State) : State :=
  if s.armed calB && s.calIdle && decide (s.rd calB Reg.CAL_STATUS_COMPILING = 0) then
    s.calApply ((s.partDue audioPart).isSome) else s

/-! ## The graph of an image (R427, R447, R450) -/

/-- Words of the frame at the values of a section where they differ from the section before. -/
def State.loadWords (s : State) (old new : AudioRec) (first : Bool) : State :=
  let s := if first ∨ old.xfade ≠ new.xfade then s.putBoth calB Reg.CAL_XFADE_T (50 * new.xfade) else s
  let coef := fun (a : AudioRec) (k : Nat) => (a.coefs.getD (k / 5) []).getD (k % 5) 0
  let s := s.each (List.range (5 * new.coefs.length)) fun s k =>
    if first ∨ coef old k ≠ coef new k then s.putBoth (calB + 4 * k) Reg.CAL_COEFF_WORD (coef new k) else s
  s.each new.nodes fun s r =>
    let was := match old.nodes.find? fun o => decide (o.node = r.node) with | some o => if o.typ = r.typ then o.words else [] | none => []
    let s := s.each [0, 1, 2] fun s w =>
      let v := r.words.getD w 0
      if first ∨ was.getD w (v + 1) ≠ v then s.putBoth (calB + 16 * r.node) (wordFld w) v else s
    if r.typ = 0x1A ∧ was = [] then s.put (calB + 16 * r.node) Reg.CAL_NODE_STATUS_WORD 0xFF else s

/-- The section of an image takes effect; where a graph ran before, its outputs crossfade. -/
def State.loadAudio (s : State) (first : Bool) (old new : Option AudioRec) : State :=
  let s := s.setPlan fun p => { p with audio := new }
  match new with
  | none => (s.put calB Reg.CAL_STATUS_STATE 0).each (List.range 6) fun s p => s.put (calB + 16 * p) Reg.CAL_PORT_STATUS_STATE 0
  | some a =>
    let o := old.getD {}
    let s := ((s.put calB Reg.CAL_STATUS_MODE a.mode).put calB Reg.CAL_STATUS_RATE96 a.rate).put calB Reg.CAL_STATUS_PERIOD a.period
    let famB := a.ports.any fun r => decide (r.family = 1)
    let s := (s.put calB Reg.CAL_STATUS_LOCK_A 1).put calB Reg.CAL_STATUS_LOCK_B famB.toNat
    let s := s.loadWords o a (first || old.isNone)
    let s := s.each (List.range 6) fun s p =>
      match a.portRec p with
      | some r => if o.portRec p = some r then s else s.put (calB + 16 * p) Reg.CAL_PORT_STATUS_STATE 1
      | none => s.put (calB + 16 * p) Reg.CAL_PORT_STATUS_STATE 0
    if first || old.isNone then s.put calB Reg.CAL_STATUS_STATE 1
    else
      let gone := fun (r : NodeRec) => !o.nodes.contains r || decide ((o.edges.filter fun e => decide (e.dst = r.node)) ≠
        a.edges.filter fun e => decide (e.dst = r.node))
      s.swap (a.reached ((a.nodes.filter gone).map NodeRec.node))

/-- The audio part of a structure-keeping apply (R72, R450). -/
def State.takeAudioPart (s : State) : State :=
  match s.partDue audioPart with
  | some p => (s.loadAudio false s.p.audio p.audio).partTaken audioPart
  | none => s

/-! ## Boundaries and samples -/

/-- Recorded data of the period is written to the buffers (R440). -/
def State.writeRecorded (s : State) (m : Nat) : State :=
  let ch := s.chansOf m false
  let s := s.each (s.stream m).queue fun s b =>
    if b.data.isEmpty then s
    else
      let a := b.addr + b.pos * ch * bytesOfFmt b.fmt - b.data.length
      let fn := (s.ringOwner b.q).map Prod.fst |>.getD 0
      let (s, bad) := match s.locWrite fn b.dram a b.data with
        | some t => (t, none)
        | none => (s.refuse (Who.fn fn) a b.data.length, some a)
      let f := fun (e : AudBuf) => if e.q = b.q ∧ e.idx = b.idx then
        { e with data := [], bad := match e.bad with | some x => some x | none => bad } else e
      s.modStream m fun x => { x with queue := x.queue.map f }
  s.endBufs m (s.stream m).queue

/-- Streams whose data is there start (R440). Rests on log entry 92 (DESIGN CHOICE). -/
def State.startStreams (s : State) : State :=
  let per := s.audio.samples
  s.each s.audio.nodes fun s r =>
    let m := r.par 0 1
    if r.typ = 6 then
      let s := if s.streamState m = streamStarting ∧ 2 * per ≤ framesHere r.channels (s.stream m).queue then s.setStreamState m streamRunning else s
      s.fetchDram m ((if s.streamState m = streamStarting then 2 else 3) * per)
    else if r.typ = 7 then
      if s.streamState m = streamStarting ∧ (s.stream m).queue ≠ [] then s.setStreamState m streamRunning else s
    else s

/-- A triggered clip starts; one that plays is replaced with a crossfade and completes (R443). -/
def State.startChimes (s : State) : State :=
  s.each s.holders fun s i =>
    match (s.chimeOf i).starting with
    | none => s
    | some c =>
      let s := match (s.chimeOf i).playing with
        | some old => (s.clipDone old stOk).modChimeOf i fun x => { x with fade := s.fadeTicks }
        | none => s
      (s.modChimeOf i fun x => { x with starting := none, playing := some c }).clipLook i

/-- PERIOD_BOUNDARY (R422): the period's values and records, the audio part of an apply, the frame's apply, and what starts. -/
def doPeriodBoundary (s : State) (t : Nat) : State :=
  let s := s.reach t
  if !s.calRuns then s
  else
    let seq := s.wideAt (calB + Reg.CAL_PERIODS)
    let s := (s.chimeEnd seq).count (calB + Reg.CAL_PERIODS) 1
    let (load, s) := s.takeFree 32
    let s := s.put calB Reg.CAL_LOAD_CORE_n load
    let s := s.each s.audio.nodes fun s r =>
      if r.typ = 7 then s.writeRecorded (r.par 0 1)
      else if r.typ = 0x18 then let (v, s) := s.takeFree 32; s.put (calB + 16 * r.node) Reg.CAL_NODE_STATUS_WORD v
      else s
    let s := s.calBoundary t (s.partDue audioPart).isSome
    let s := (s.takeAudioPart.startStreams).startChimes
    s.chimeBegin (s.wideAt (calB + Reg.CAL_PERIODS))

/-- SAMPLE_TICK (R423): one sample of the graph; a tick over its budget repeats the outputs of the last.
Rests on log entry 94 (DEDUCED). -/
def doSampleTick (s : State) (ins : List (Nat × List Word)) (readBack : List Word) (overC : Bool) : State :=
  if !s.calRuns then s
  else
    let last := s.aud.out
    let s := s.graphTick ins
    let s := if overC then
        let s := { s with aud := { s.aud with out := last } }
        let s := (s.count (calB + Reg.CAL_OVERLOADS) 1).raise calB Reg.CAL_EVENT_OVERLOAD
        s.each s.holders fun s i => s.modChimeOf i fun x => { x with fault := true }
      else s
    s.chimeWords (readBack.map BitVec.toNat)

/-! ## Node words (R436, R451) -/

/-- Whether the manager may write words of a node: its own, or those of a quiesced owner, and none of a chime path (R442, R451). -/
def State.mgrMayWrite (s : State) (r : NodeRec) : Bool := s.ownerIdle r.owner && !r.chime

/-- NODE_WORD_WRITE: word 0 CTRL, 1 PARAM, 2 AUX. -/
def State.nodeWordNow (s : State) (n w v : Nat) : State :=
  match s.p.nodeRec n with
  | some r => if s.mgrMayWrite r then (s.writeNode r w v).put calB Reg.CTRL_ARM 0 else s.accessErr calB (wordOff n w) 0x06
  | none => s

def doNodeWordWrite (s : State) (n w v : Nat) : State := s.mgrReach (off := calB + wordOff n w) fun s => s.nodeWordNow n w v

/-- COMPILED (R436). -/
def doCompiled (s : State) (fits : Bool) (t : Nat) : State :=
  let s := s.reach t
  if s.rd calB Reg.CAL_STATUS_COMPILING = 1 then
    let s := (s.put calB Reg.CAL_STATUS_COMPILING 0).put calB Reg.CAL_STATUS_COMPILED 1
    { s with aud := { s.aud with fits := fits, compiledAt := t } }
  else s

/-- SWAPPED: a crossfade ends (R437). -/
def doSwapped (s : State) : State :=
  if s.rd calB Reg.CAL_STATUS_STATE = 2 then
    let s := (s.put calB Reg.CAL_STATUS_STATE 1).raise calB Reg.CAL_EVENT_SWAPPED
    { s with aud := { s.aud with xfadeNodes := [] } }
  else s

/-! ## Descriptors (R439 to R443) -/

/-- A buffer queued for a stream the ring's instance owns. -/
def State.queueBuf (s : State) (q : Nat) (d : Desc) (typ : Nat) : State :=
  let m := d.b 0x20
  match s.streamNode m typ with
  | none => s.deny q d.idx
  | some r =>
    if s.ringInst q ≠ some r.owner then s.deny q d.idx
    else
      let x := s.stream m
      let b : AudBuf := { q := q, idx := d.idx, fmt := d.b 0x21, dram := bitSet (d.b 0x22) 0, last := bitSet (d.b 0x22) 1
                          frames := d.f 0x24 4, addr := d.f 0x28 8, xrun := x.silence }
      let s := s.modDesc q d.idx fun d => { d with phase := .armed }
      let s := (s.setStream m { x with queue := x.queue ++ [b], silence := 0 }).streamLook m
      let s := if s.streamState m = streamIdle then s.setStreamState m streamStarting else s
      let s := if typ = 6 then s.fetchDram m (2 * s.audio.samples) else s
      s.endBufs m (s.stream m).queue

def doPlay (s : State) (q : Nat) : State := match s.nextOp q 4 1 with | some d => s.queueBuf q d 6 | none => s
def doRecord (s : State) (q : Nat) : State := match s.nextOp q 4 2 with | some d => s.queueBuf q d 7 | none => s

/-- A node the ring's instance may control. -/
def State.ownNode (s : State) (q n : Nat) : Option NodeRec :=
  match s.p.nodeRec n with
  | some r => if s.ringInst q = some r.owner ∧ !r.chime then some r else none
  | none => none

def doControl (s : State) (q : Nat) : State :=
  match s.nextOp q 4 3 with
  | none => s
  | some d =>
    match s.ownNode q (d.f 0x20 2) with
    | none => s.deny q d.idx
    | some r => ((s.writeNode r (d.b 0x22) (d.f 0x24 4)).armFrame calB).modDesc q d.idx fun d => { d with phase := .armed }

/-- Bytes of the coefficients of a node. -/
def NodeRec.coefLen (r : NodeRec) : Nat := if r.typ = 0x13 then 20 * r.par 2 2 else 0

/-- Coefficients in the pending bank, and ARM. -/
def State.coefIn (s : State) (q idx : Nat) (r : NodeRec) (bs : List Byte) : State :=
  let s := s.each (List.range (bs.length / 4)) fun s k =>
    s.put (calB + 20 * r.par 0 2 + 4 * k) Reg.CAL_COEFF_WORD (leAt bs (4 * k) 4)
  (s.armFrame calB).modDesc q idx fun d => { d with phase := .armed }

def doAudioCoeff (s : State) (q : Nat) : State :=
  match s.nextOp q 4 4 with
  | none => s
  | some d =>
    match s.ownNode q (d.f 0x20 2) with
    | none => s.deny q d.idx
    | some r =>
      let a := d.f 0x28 8
      if r.coefLen = 0 then s.coefIn q d.idx r []
      else if bitSet (d.b 0x22) 0 then
        let who := Who.fn ((s.ringOwner q).map Prod.fst |>.getD 0)
        match s.dramGet who a r.coefLen with
        | .ok bs => s.coefIn q d.idx r bs
        | .refused => (s.refuse who a r.coefLen).finish q d.idx stFault (faultDetail a)
        | .poisoned => s.finish q d.idx stFault (faultDetail a)
      else s.modDesc q d.idx fun d => { d with phase := .running, got := [] }

/-- A clip waits; an older waiting one is displaced (R443). Rests on log entry 96 (DESIGN CHOICE). -/
def State.chimeWait (s : State) (i : Nat) (c : ClipRun) : State :=
  let s := match (s.chimeOf i).waiting with | some w => s.clipDone w 0x81 | none => s
  s.modChimeOf i fun x => { x with waiting := some c }

/-- A clip triggered on a holder's player. -/
def State.chimeTrigger (s : State) (i : Nat) (c : ClipRun) : State :=
  let x := s.chimeOf i
  let prio := fun (c : ClipRun) => (s.clip c.clip).priority
  let go := s.modChimeOf i fun x => { x with starting := some c }
  match x.starting, x.playing with
  | some st, _ => if prio st ≤ prio c then go.clipDone st stOk else s.chimeWait i c
  | none, some p => if prio p ≤ prio c then go else s.chimeWait i c
  | none, none => go

/-- Clip 0xFF: what plays or is about to play stops with a fade, and completes; one that waited follows.
Rests on log entry 96 (DESIGN CHOICE). -/
def State.chimeStop (s : State) (i : Nat) : State :=
  let x := s.chimeOf i
  let s := match x.playing with | some c => s.clipDone c stOk | none => s
  let s := match x.starting with | some c => s.clipDone c stOk | none => s
  (s.modChimeOf i fun y => { y with playing := none, starting := x.waiting, waiting := none
                                    fade := if x.playing.isSome then s.fadeTicks else y.fade }).clipLook i

def doChime (s : State) (q : Nat) : State :=
  match s.nextOp q 4 5 with
  | none => s
  | some d =>
    match s.ringInst q with
    | none => s.deny q d.idx
    | some i =>
      let c := d.b 0x20
      if (s.chimeNode i 0x1A).isNone then s.deny q d.idx
      else if c = 0xFF then (s.chimeStop i).finish q d.idx stOk 0
      else if s.audio.clips.length ≤ c then s.finish q d.idx stBad 0x20
      else (s.modDesc q d.idx fun d => { d with phase := .armed }).chimeTrigger i { clip := c, q := q, idx := d.idx }

/-- CHIME_CLIP_END: the clip that plays once ends and completes; the one that waits starts, unless a replacement is about to. -/
def doChimeClipEnd (s : State) (i : Nat) : State :=
  let x := s.chimeOf i
  match x.playing with
  | none => s
  | some c =>
    if (s.clip c.clip).loop = 1 then s
    else
      let s := if x.starting.isSome then s.modChimeOf i fun x => { x with playing := none }
        else s.modChimeOf i fun x => { x with playing := x.waiting, waiting := none }
      (s.clipLook i).clipDone c stOk

/-! ## Host reads (R127, R440) -/

/-- The playback buffer a read completion of ring q serves: the oldest that its stream wants two periods ahead, else the oldest
without all its data. -/
def State.hostBuf (s : State) (q : Nat) : Option (Nat × AudBuf) :=
  let all := (s.audio.nodes.filter fun r => decide (r.typ = 6)).flatMap fun r =>
    let m := r.par 0 1
    let want : Bool := decide (framesHere r.channels (s.stream m).queue < 3 * s.audio.samples)
    ((s.stream m).queue.filter fun b => decide (b.q = q) && !b.dram && decide (b.data.length < b.frames * r.channels * bytesOfFmt b.fmt)).map
      fun b => (m, want, b)
  let oldest := fun (l : List (Nat × Bool × AudBuf)) =>
    (s.ring q).fetched.findSome? fun d => l.find? fun e => decide (e.2.2.idx = d.idx)
  ((oldest (all.filter fun e => e.2.1)).or (oldest all)).map fun e => (e.1, e.2.2)

/-- Data of a read of AUDIO ring q: coefficients, or the next bytes of a playback buffer; without data silence and FAULT. -/
def State.audioIn (s : State) (q : Nat) (data : List Byte) (ok : Bool) : State :=
  let fn := (s.ringOwner q).map Prod.fst |>.getD 0
  match (s.ring q).fetched.find? fun d => decide (d.phase = .running) with
  | some d =>
    match s.ownNode q (d.f 0x20 2) with
    | none => s
    | some r =>
      if !ok then (s.aer fn).finish q d.idx stFault (faultDetail (d.f 0x28 8 + d.got.length))
      else
        let got := (d.got ++ data).take r.coefLen
        if got.length < r.coefLen then s.modDesc q d.idx fun d => { d with got := got } else s.coefIn q d.idx r got
  | none =>
    match s.hostBuf q with
    | none => s
    | some (m, b) =>
      let total := b.frames * s.chansOf m true * bytesOfFmt b.fmt
      let a := b.addr + b.data.length
      let room := min (total - b.data.length) (if ok ∨ data ≠ [] then data.length else 4096 - a % 4096)
      let bs := if ok then data.take room else natLE room 0
      let f := fun (e : AudBuf) => if e.q = q ∧ e.idx = b.idx then
        { e with data := e.data ++ bs, bad := if ok then e.bad else some (e.bad.getD a) } else e
      let s := s.modStream m fun x => { x with queue := x.queue.map f }
      if ok then s else s.aer fn

/-- HOST_READ_COMPLETION and HOST_READ_TIMEOUT: data for the oldest read of the ring's copy or audio work. -/
def doHostRead (s : State) (q : Nat) (data : List Byte) (st : ReadStatus) : State :=
  let ok := decide (st = .ok)
  if s.ringType q = 2 then s.copyIn q data ok else if s.ringType q = 4 then s.audioIn q data ok else s

def doHostTimeout (s : State) (q : Nat) : State :=
  if s.ringType q = 2 then s.copyIn q [] false else if s.ringType q = 4 then s.audioIn q [] false else s

/-! ## Ports and headsets (R426, R448, R449) -/

/-- Holders whose chimes leave through port p. -/
def State.chimeOnPort (s : State) (p : Nat) : List Nat := ((s.chimeOuts.filter fun o => decide (o.2.2.1 = p)).map Prod.fst).eraseDups

/-- PORT_CLOCK: a slave port loses its bit clock; on a chime path it is a fault of the period (R445). -/
def doPortClock (s : State) (p : Nat) : State :=
  if s.calPort p ≠ 1 then s
  else
    let s := s.each (s.chimeOnPort p) fun s i => s.modChimeOf i fun x => { x with fault := true }
    match s.audio.portRec p with
    | some r => if r.role = 1 then (s.put (calB + 16 * p) Reg.CAL_PORT_STATUS_STATE 2).raise calB Reg.CAL_EVENT_PORT_CLOCK else s
    | none => s

def doPortClockReturn (s : State) (p : Nat) : State :=
  if s.calPort p = 2 then s.put (calB + 16 * p) Reg.CAL_PORT_STATUS_STATE 1 else s

/-- Codec j is in use. -/
def State.hsUsed (s : State) (j : Nat) : Bool := bitSet s.audio.hsEnable j
def hsEvent (j : Nat) : Fld := if j = 0 then Reg.CAL_EVENT_HS_0 else Reg.CAL_EVENT_HS_1

/-- A field of CAL_HS_j_STATUS changes. -/
def State.hsPut (s : State) (j : Nat) (f : Fld) (v : Nat) : State :=
  if s.rd (hsB j) f = v then s else (s.put (hsB j) f v).raise calB (hsEvent j)

/-- An insertion: the codec will classify the accessory. -/
def State.headsetIn (s : State) (j : Nat) : State := if s.hsUsed j then s.hsPut j Reg.CAL_HS_STATUS_PRESENT 1 else s

def doHeadsetClassified (s : State) (j typ : Nat) (line : Bool) : State :=
  if s.hsUsed j ∧ s.rd (hsB j) Reg.CAL_HS_STATUS_PRESENT = 1 then
    (s.hsPut j Reg.CAL_HS_STATUS_TYPE typ).hsPut j Reg.CAL_HS_STATUS_LINE line.toNat else s

def doHeadsetRemove (s : State) (j : Nat) : State :=
  s.each [Reg.CAL_HS_STATUS_PRESENT, Reg.CAL_HS_STATUS_TYPE, Reg.CAL_HS_STATUS_LINE, Reg.CAL_HS_STATUS_BUTTON] fun s f => s.hsPut j f 0

/-- The button of a microphone line voltage by the thresholds, 5 mV a step. -/
def State.buttonOf (s : State) (j mv : Nat) : Nat :=
  let t := fun f => 5 * s.rd (hsB j) f
  if mv < t Reg.CAL_HS_BTN_A then 1 else if mv < t Reg.CAL_HS_BTN_B then 2 else if mv < t Reg.CAL_HS_BTN_C then 3
  else if mv < t Reg.CAL_HS_BTN_D then 4 else 0

def doButtonPress (s : State) (j mv : Nat) : State :=
  if s.hsUsed j && s.hasMic j then s.hsPut j Reg.CAL_HS_STATUS_BUTTON (s.buttonOf j mv) else s

def doButtonRelease (s : State) (j : Nat) : State := s.hsPut j Reg.CAL_HS_STATUS_BUTTON 0

/-! ## Commands -/

def execSampleTick (ins : List (Nat × List Word)) (readBack : List Word) (overC : Bool) (s : State) : Host.Outcome State Fault Refusal :=
  .next (settle s (doSampleTick s ins readBack overC))
def execPeriodBoundary (t : BitVec 64) (s : State) : Host.Outcome State Fault Refusal := .next (settle s (doPeriodBoundary s t.toNat))
def execNodeWordWrite (n : Fin 512) (word : Fin 3) (v : Word) (s : State) : Host.Outcome State Fault Refusal :=
  .next (settle s (doNodeWordWrite s n.val word.val v.toNat))
/-- Rests on log entry 3 (DESIGN CHOICE). -/
def execCompiled (fits : Bool) (t : BitVec 64) (s : State) : Host.Outcome State Fault Refusal := .next (settle s (doCompiled s fits t.toNat))
def execSwapped (s : State) : Host.Outcome State Fault Refusal := .next (settle s (doSwapped s))
def execPlay (q : Fin 256) (s : State) : Host.Outcome State Fault Refusal := .next (settle s (doPlay s q.val))
def execRecord (q : Fin 256) (s : State) : Host.Outcome State Fault Refusal := .next (settle s (doRecord s q.val))
def execControl (q : Fin 256) (s : State) : Host.Outcome State Fault Refusal := .next (settle s (doControl s q.val))
def execAudioCoeff (q : Fin 256) (s : State) : Host.Outcome State Fault Refusal := .next (settle s (doAudioCoeff s q.val))
def execChime (q : Fin 256) (s : State) : Host.Outcome State Fault Refusal := .next (settle s (doChime s q.val))
def execChimeClipEnd (i : Fin 64) (s : State) : Host.Outcome State Fault Refusal := .next (settle s (doChimeClipEnd s i.val))
def execPortClock (p : Fin 6) (s : State) : Host.Outcome State Fault Refusal := .next (settle s (doPortClock s p.val))
def execPortClockReturn (p : Fin 6) (s : State) : Host.Outcome State Fault Refusal := .next (settle s (doPortClockReturn s p.val))
def execHeadsetClassified (j : Fin 2) (typ : Fin 4) (line : Bool) (s : State) : Host.Outcome State Fault Refusal :=
  .next (settle s (doHeadsetClassified s j.val typ.val line))
def execHeadsetRemove (j : Fin 2) (s : State) : Host.Outcome State Fault Refusal := .next (settle s (doHeadsetRemove s j.val))
def execButtonPress (j : Fin 2) (mv : BitVec 16) (s : State) : Host.Outcome State Fault Refusal := .next (settle s (doButtonPress s j.val mv.toNat))
def execButtonRelease (j : Fin 2) (s : State) : Host.Outcome State Fault Refusal := .next (settle s (doButtonRelease s j.val))
/-- Rests on log entry 5 (DESIGN CHOICE). -/
def execHostReadCompletion (q : Fin 256) (data : List Byte) (st : ReadStatus) (s : State) : Host.Outcome State Fault Refusal :=
  .next (settle s (doHostRead s q.val data st))
def execHostReadTimeout (q : Fin 256) (s : State) : Host.Outcome State Fault Refusal := .next (settle s (doHostTimeout s q.val))

end Sys2Proof.Machine
end

