-- ==== Sys2Proof/Machine/Touch.lean ====
section
/-!
DEFINITION. Touch (R454 to R470): reading and checking reports, tracking contacts, hit-testing and delivery.
-/
namespace Sys2Proof.Machine

/-! ## A port (R458, R484) -/

def State.touchRec (s : State) (t : Nat) : TouchRec := (s.p.touchRec t).getD {}
def State.touchOn (s : State) (t : Nat) : Bool := decide (s.rd (tchPB t) Reg.TCHP_STATUS_STATE ≠ 0)
/-- TCH_t_STATUS[DOWN] follows the contacts. -/
def State.touchLook (s : State) (t : Nat) : State := s.put (tchPB t) Reg.TCHP_STATUS_DOWN (s.touch t).contacts.length
/-- The port's state between reports: AFTER_FAULT until a good report, else IDLE. -/
def State.touchIdle (s : State) (t : Nat) : State :=
  s.put (tchPB t) Reg.TCHP_STATUS_STATE (if (s.touch t).afterFault then 3 else 1)

/-- A contact discarded (R465, R466, R469). -/
def State.discardContact (s : State) (t : Nat) : State :=
  (s.count (tchPB t + Reg.TCHP_DISCARDS) 1).raise (tchPB t) Reg.TCHP_EVENT_DISCARD

/-! ## Mapping and geometry (R465 to R467) -/

/-- Raw coordinates to head pixels. -/
def touchMap (r : TouchRec) (x y : Nat) : Int × Int :=
  let m := fun (n : Nat) => (r.matrix.getD n 0 : Int)
  ((m 0 * x + m 1 * y + m 2) / 65536, (m 3 * x + m 4 * y + m 5) / 65536)

/-- One source coordinate of a layer: `flip`, first and size of the source rectangle, initial phase and step of the scaler. -/
def localCoord (video : Bool) (flip first size : Nat) (init : Int) (step : Nat) (u : Int) : Int × Bool :=
  let r : Int := if video then (init + u * step + 524288) / 1048576 else u
  let l : Int := if flip = 1 then (first : Int) + size - 1 - r else first + r
  (l, decide (l < first) || decide ((first : Int) + size ≤ l))

/-- The coordinates of a head pixel in a target, and whether it lies outside the source rectangle (R467). -/
def State.localPoint (s : State) (n : Snap) (target : Nat) (hx hy : Int) : Int × Int × Bool :=
  if target < 0x80 then
    let st := lstateOf n.rd target
    let v := isVideo target
    let (x, ox) := localCoord v st.hflip st.srcX st.srcW st.hinit st.hstep (hx - st.dstX)
    let (y, oy) := localCoord v st.vflip st.srcY st.srcH st.vinit st.vstep (hy - st.dstY)
    (x, y, ox || oy)
  else match s.p.region (target - 0x80) with
    | some g => (hx - g.x, hy - g.y, false)
    | none => (hx, hy, false)

/-- A layer of the frame on the glass takes a contact at a pixel. -/
def State.takesContact (s : State) (n : Snap) (x : SnapLayer) (hx hy : Int) : Bool :=
  let st := lstateOf n.rd x.layer
  decide (st.enable = 1) && decide (st.input = 1) && decide (0 < st.alpha) && s.contentShows n.content x.owner &&
    decide (st.dstX ≤ hx) && decide (hx < st.dstX + st.dstW) && decide (st.dstY ≤ hy) && decide (hy < st.dstY + st.dstH)

/-- The hit-test of a DOWN inside the active area: a guarded region, else the topmost layer that takes it (R26, R466). -/
def State.hitTest (s : State) (h : Nat) (hx hy : Int) : Option Nat :=
  match s.regionAt h hx.toNat hy.toNat with
  | some g => some (0x80 + g.region)
  | none =>
    let n := (s.head h).cur
    let order := (List.range 16).flatMap fun z => n.layers.filter fun x => decide ((lstateOf n.rd x.layer).z = z)
    (order.reverse.find? fun x => s.takesContact n x hx hy).map SnapLayer.layer

/-! ## Records (R469) -/

/-- One CONTACT record to the target's owner; without a RUNNING INPUT ring it is discarded and counted. -/
def State.contactRecord (s : State) (t : Nat) (c : Contact) (event press : Nat) (haptic : Bool) : State :=
  let o := s.targetOwner c.target
  let h := (s.touchRec t).head
  match s.inputRing o with
  | none => s.discardContact t
  | some q =>
    if s.ringState q ≠ running then s.discardContact t
    else
      let (x, y, outside) := s.localPoint (s.head h).cur c.target c.hx c.hy
      let bit := fun (b : Bool) (n : Nat) => if b then n else 0
      let flags := bit (decide (0x80 ≤ c.target)) 1 + bit outside 2 + bit haptic 4 + bit (decide (0 < (s.ring q).lost)) 8
      let payload := natLE 1 t ++ natLE 1 c.id ++ natLE 1 event ++ natLE 1 flags ++ natLE 1 c.target ++ natLE 1 h ++ natLE 2 press ++
        natLE 4 (ofSigned 32 x) ++ natLE 4 (ofSigned 32 y) ++ natLE 2 (ofSigned 16 c.hx) ++ natLE 2 (ofSigned 16 c.hy) ++ natLE 4 0 ++
        natLE 8 (s.frameNo h) ++ natLE 8 (s.touch t).attn
      let fits := s.canDeliver q
      let s := s.deliver q 1 payload false
      if fits then s.modRing q fun r => { r with lost := 0 } else s

/-- A contact that is down receives CANCEL; its later reports produce no records (R464, R462, R468). -/
def State.cancelContact (s : State) (t id : Nat) : State :=
  match (s.touch t).contacts.find? fun c => decide (c.id = id) with
  | none => s
  | some c =>
    if c.dead then s
    else
      let s := (s.contactRecord t c 4 0 false).count (tchPB t + Reg.TCHP_CANCELS) 1
      s.modTouch t fun x => { x with contacts := x.contacts.map fun c => if c.id = id then { c with dead := true } else c }

def State.cancelAll (s : State) (t : Nat) : State := s.each (s.touch t).contacts fun s c => s.cancelContact t c.id

/-- Contacts of head h whose layer the new frame no longer shows with its input enabled receive CANCEL (R468). -/
def State.cancelGone (s : State) (h : Nat) (new : Snap) : State :=
  s.each ((List.range 8).filter fun t => s.touchOn t && decide ((s.touchRec t).head = h)) fun s t =>
    s.each (s.touch t).contacts fun s c =>
      let gone := decide (c.target < 0x80) && !(new.layers.any fun x => decide (x.layer = c.target) &&
        decide (new.rd (layerBase c.target) Reg.LAYER_CFG_ENABLE = 1) && decide (new.rd (layerBase c.target) Reg.LAYER_CFG_INPUT = 1))
      if gone then s.cancelContact t c.id else s

/-! ## Reports (R456, R459 to R463) -/

/-- A field of a report: its descriptor and the record's first byte. -/
def touchField (r : TouchRec) (data : List Byte) (fd at_ : Nat) : Nat :=
  let o := at_ + fd % 256
  let w := if bitSet r.flags 0 then 256 * byteAt data o + byteAt data (o + 1) else leAt data o 2
  bitsOf w (bitsOf fd 8 4) (bitsOf fd 12 4 + 1)

/-- One contact of a report. -/
structure Touched where
  id : Nat
  tip : Bool
  x : Nat
  y : Nat
  press : Nat

/-- The length of a report: the byte at LEN_OFF, or REPORT_MAX. -/
def reportLen (r : TouchRec) (data : List Byte) : Nat := if r.lenOff = 0xFF then r.reportMax else byteAt data r.lenOff
def reportCount (r : TouchRec) (data : List Byte) : Nat := if r.countOff = 0xFF then r.maxContacts else byteAt data r.countOff

/-- The check value of a report agrees (R460). -/
def checkOk (r : TouchRec) (data : List Byte) : Bool :=
  let bs := data.take r.checkOff
  if r.check = 1 then decide (byteAt data r.checkOff = crcEnd 8 false 0xFF (crcRun 8 0x2F false 0xFF bs))
  else if r.check = 2 then
    let v := if bitSet r.flags 0 then 256 * byteAt data r.checkOff + byteAt data (r.checkOff + 1) else leAt data r.checkOff 2
    decide (v = crcEnd 16 false 0 (crcRun 16 0x1021 false 0xFFFF bs))
  else true

/-- The contacts of a report. -/
def reportContacts (r : TouchRec) (data : List Byte) : List Touched :=
  (List.range (reportCount r data)).map fun i =>
    let o := r.contactOff + i * r.contactSize
    { id := touchField r data r.fId o, tip := decide (touchField r data r.fTip o ≠ 0), x := touchField r data r.fX o
      y := touchField r data r.fY o, press := if r.fPress % 256 = 0xFF then 0 else touchField r data r.fPress o }

/-- The sequence counter of a report and its modulus. -/
def reportSeq (r : TouchRec) (data : List Byte) : Option (Nat × Nat) :=
  if r.fSeq % 256 = 0xFF then none else some (touchField r data r.fSeq 0, 2 ^ (bitsOf r.fSeq 12 4 + 1))

def noRepeats : List Nat → Bool
  | [] => true
  | a :: l => !l.contains a && noRepeats l

/-- Whether a report that was received whole is good (R461). -/
def reportGood (r : TouchRec) (last : Option Nat) (data : List Byte) : Bool :=
  let n := reportLen r data
  let c := reportCount r data
  let need := if r.check = 0 then 0 else r.checkOff + r.check
  decide (n ≤ r.reportMax) && decide (need ≤ n) && decide (c ≤ r.maxContacts) && decide (r.contactOff + c * r.contactSize ≤ n) &&
    checkOk r data && noRepeats ((reportContacts r data).map Touched.id) &&
    (match reportSeq r data, last with | some (v, m), some p => decide (v = (p + 1) % m) | _, _ => true)

/-- A bad report; the second in a row of a SAFETY port is a sequencing fault (R461, R462). -/
def State.badReport (s : State) (t : Nat) (bus injected : Bool) : State :=
  let b := tchPB t
  let s := (s.count (b + Reg.TCHP_BAD_REPORTS) 1).raise b Reg.TCHP_EVENT_BAD_REPORT
  let s := if bus then s.raise b Reg.TCHP_EVENT_BUS_ERR else s
  let s := s.modTouch t fun x => { x with badRun := x.badRun + 1 }
  if bitSet (s.touchRec t).flags 1 ∧ 2 ≤ (s.touch t).badRun then
    let s := (s.raise b Reg.TCHP_EVENT_SEQ_FAULT).raise tchB Reg.TCH_EVENT_SEQ_FAULT
    let s := s.fault srcTouchSeq { index := t, injected := injected, suppress := injected && (s.touch t).failQuiet }
    let s := (s.cancelAll t).modTouch t fun x => { x with badRun := 0, seq := none, afterFault := true }
    s.touchIdle t
  else s.touchIdle t

/-- A zone trigger that a report asks for: contact, zone place, channel, slot. -/
structure ZoneAsk where
  id : Nat
  channel : Nat
  slot : Nat

/-- Of the triggers of one report on one channel the one of highest priority is taken, the lowest identifier on a tie (R483). -/
def State.zoneWins (s : State) (l : List ZoneAsk) (z : ZoneAsk) : Bool :=
  let p := fun (z : ZoneAsk) => ((s.p.slotRec z.slot).getD {}).priority
  (l.filter fun y => decide (y.channel = z.channel)).all fun y => decide (p y < p z) || (decide (p y = p z) && decide (z.id ≤ y.id))

/-- What one contact of a report comes to: event, the contact, pressure, the trigger asked for. -/
structure ContactStep where
  event : Nat
  contact : Contact
  press : Nat
  ask : Option ZoneAsk

/-- The place of the first zone of a target that contains a point (R470). -/
def State.zoneAt (s : State) (target : Nat) (x y : Int) : Option Nat :=
  s.p.zones.findIdx? fun z => decide (z.target = target) && decide ((z.x : Int) ≤ x) && decide (x < (z.x : Int) + z.w) &&
    decide ((z.y : Int) ≤ y) && decide (y < (z.y : Int) + z.h)

/-- The trigger of a zone for a contact going down or up. -/
def State.zoneAsk (s : State) (c : Contact) (down : Bool) : Option ZoneAsk :=
  (c.zone.bind fun n => s.p.zones[n]?).bind fun z =>
    let sl := if down then z.slotDown else z.slotUp
    if sl = 0xFF then none else some { id := c.id, channel := z.channel, slot := sl }

/-- A DOWN: hit-tested, or discarded (R465, R466). -/
def State.contactDown (s : State) (t : Nat) (f : Touched) : State × ContactStep :=
  let r := s.touchRec t
  let h := r.head
  let (hx, hy) := touchMap r f.x f.y
  let link := s.rd (headBase h) Reg.HEAD_STATE_LINK
  let c := s.content h
  let inside := decide (0 ≤ hx) && decide (hx < s.hActive h) && decide (0 ≤ hy) && decide (hy < s.vActive h)
  let hit := if !inside || link = 0 || c = 5 || c = 6 then none else s.hitTest h hx hy
  let hit := hit.filter fun g => decide (s.instState (s.targetOwner g) = ready)
  match hit with
  | none => (s.discardContact t, { event := 0, contact := { id := f.id, dead := true, hx := hx, hy := hy }, press := 0, ask := none })
  | some g =>
    let (x, y, _) := s.localPoint (s.head h).cur g hx hy
    let k : Contact := { id := f.id, target := g, zone := s.zoneAt g x y, hx := hx, hy := hy }
    (s, { event := 1, contact := k, press := f.press, ask := s.zoneAsk k true })

/-- One reported contact: DOWN, MOVE, UP or nothing (R463). -/
def State.contactStep (s : State) (t : Nat) (f : Touched) : State × Option ContactStep :=
  match (s.touch t).contacts.find? fun c => decide (c.id = f.id) with
  | none => if f.tip then (let (s, e) := s.contactDown t f; (s, some e)) else (s, none)
  | some c =>
    let (hx, hy) := touchMap (s.touchRec t) f.x f.y
    let c := { c with hx := hx, hy := hy }
    if f.tip then (s, some { event := if c.dead then 0 else 2, contact := c, press := f.press, ask := none })
    else (s, some { event := 3, contact := c, press := f.press, ask := if c.dead then none else s.zoneAsk c false })

/-- The steps of a report: its contacts in order, then the contacts that are absent, which go up.
Rests on log entry 98 (DESIGN CHOICE). -/
def State.reportSteps (s : State) (t : Nat) (l : List Touched) : State × List ContactStep :=
  let absent := (s.touch t).contacts.filter fun c => !l.any fun f => decide (f.id = c.id)
  let (s, steps) := l.foldl (fun (a : State × List ContactStep) f =>
    let (s, e) := a.1.contactStep t f
    (s, a.2 ++ e.toList)) (s, [])
  (s, steps ++ absent.map fun c => { event := 3, contact := c, press := 0, ask := if c.dead then none else s.zoneAsk c false })

def insertContact (c : Contact) : List Contact → List Contact
  | [] => [c]
  | x :: l => if c.id < x.id then c :: x :: l else if c.id = x.id then c :: l else x :: insertContact c l

/-- The zone triggers of a report: the winner of each channel is taken, the others are dropped; with them the contacts whose effect
started. Rests on log entry 98 (DESIGN CHOICE). -/
def State.zoneTriggers (s : State) (asks : List ZoneAsk) : State × List Nat :=
  asks.foldl (fun (a : State × List Nat) z =>
    if a.1.zoneWins asks z then
      let (s, r) := a.1.hapTake z.channel z.slot
      (s, if r = hapStarted then z.id :: a.2 else a.2)
    else (a.1.hapDrop z.channel, a.2)) (s, [])

/-- A step's contact enters or leaves the port's list, and its record is written. -/
def State.deliverStep (s : State) (t : Nat) (started : List Nat) (e : ContactStep) : State :=
  let c := e.contact
  let s := s.modTouch t fun x =>
    { x with contacts := if e.event = 3 then x.contacts.filter (fun y => decide (y.id ≠ c.id)) else insertContact c x.contacts }
  if e.event = 0 ∨ c.dead then s else s.contactRecord t c e.event e.press (started.contains c.id)

/-- The part of a structure-keeping apply that a port takes at its next report: contacts down receive CANCEL (R72, R483). -/
def State.takeTouch (s : State) (t : Nat) : State :=
  match s.partDue (touchPart t) with
  | none => s
  | some p =>
    let s := (s.cancelAll t).modTouch t fun x => { x with seq := none, badRun := 0 }
    let s := s.setPlan fun q => { q with touch := q.touch.filter (fun r => decide (r.port ≠ t)) ++ p.touch.filter (fun r => decide (r.port = t)) }
    let r := s.touchRec t
    let s := (s.put (tchPB t) Reg.TCHP_STATUS_SAFETY (bitsOf r.flags 1 1)).put (tchPB t) Reg.TCHP_STATUS_HEAD r.head
    let s := s.each (List.range 6) fun s n => s.put (tchPB t + 4 * n) Reg.TCHP_MATRIX_COEF (ofSigned 32 (r.matrix.getD n 0))
    let s := s.partTaken (touchPart t)
    if s.boot.parts / 2 ^ 16 % 256 = 0 then s.setPlan fun q => { q with zones := p.zones } else s

/-- A whole report is received (R461 to R470). Rests on log entry 98 (DESIGN CHOICE). -/
def doTouchReport (s : State) (t : Nat) (data : List Byte) (nack : Bool) : State :=
  if !s.touchOn t then s
  else
    let s := s.takeTouch t
    let r := s.touchRec t
    let x := s.touch t
    let inj := decide (0 < x.failNext)
    if nack then s.badReport t true false
    else if inj then (s.modTouch t fun x => { x with failNext := x.failNext - 1 }).badReport t false true
    else if !reportGood r x.seq data then s.badReport t false false
    else
      let b := tchPB t
      let s := ((s.count (b + Reg.TCHP_REPORTS) 1).putWide (b + Reg.TCHP_LAST) x.attn).modTouch t fun x =>
        { x with badRun := 0, seq := (reportSeq r data).map Prod.fst, lastGood := s.now, afterFault := false }
      let (s, steps) := (s.touchIdle t).reportSteps t (reportContacts r data)
      let (s, started) := s.zoneTriggers (steps.filterMap ContactStep.ask)
      (s.each steps fun s e => s.deliverStep t started e).touchLook t

/-- Attention: a read begins (R456). -/
def State.touchAttn (s : State) (t : Nat) : State :=
  if s.touchOn t ∧ s.rd (tchPB t) Reg.TCHP_STATUS_STATE ≠ 2 ∧ !s.parkedTo 7 then
    (s.modTouch t fun x => { x with attn := s.now }).put (tchPB t) Reg.TCHP_STATUS_STATE 2
  else s

/-- CLOCK_STRETCH_TIMEOUT (R455, R461): on I2C, while a read runs. -/
def doClockStretch (s : State) (t : Nat) : State :=
  if s.touchOn t ∧ (s.touchRec t).bus = 0 ∧ s.rd (tchPB t) Reg.TCHP_STATUS_STATE = 2 then s.badReport t true false else s

/-- TOUCH_STALE (R464). -/
def doTouchStale (s : State) (t : Nat) : State :=
  if (s.touch t).contacts = [] then s
  else
    let s := s.reach ((s.touch t).lastGood + 1000000 * (s.touchRec t).staleMs)
    (s.cancelAll t).raise (tchPB t) Reg.TCHP_EVENT_STALE

def execTouchReport (t : Fin 8) (data : List Byte) (nack : Bool) (s : State) : Host.Outcome State Fault Refusal := .next (settle s (doTouchReport s t.val data nack))
def execClockStretchTimeout (t : Fin 8) (s : State) : Host.Outcome State Fault Refusal := .next (settle s (doClockStretch s t.val))
def execTouchStale (t : Fin 8) (s : State) : Host.Outcome State Fault Refusal := .next (settle s (doTouchStale s t.val))

end Sys2Proof.Machine
end

