-- ==== Sys2Proof/Machine/SafetyNet.lean ====
section
/-!
DEFINITION. The Safety Net's commands: ends of intervals and missing comparisons (R496 to R498), monitors and other sources
(R37, R489), the configuration compare (R502), stop and release (R505 to R507), injections (R508), flags (R503).
-/
namespace Sys2Proof.Machine

/-! ## Check-value units -/

/-- CVU_INTERVAL_END: an interval in progress ends with the tags its stream carries, seen by two comparators that agree or not
(R496 to R498). -/
def doCvuIntervalEnd (s : State) (u head seq : Nat) (agree : Bool) : State :=
  let mine := match s.unitHead u with | some h => decide (h = head) | none => true
  s.cvuEndAs u seq mine agree

/-- CVU_MISSING_TIMEOUT: an ACTIVE region or composition unit that compares has not compared for a frame period and 1 ms
(R498). Rests on log entry 101 (DESIGN CHOICE). -/
def doCvuMissing (s : State) (u t : Nat) : State :=
  let s := s.reach t
  match s.unitHead u with
  | none => s
  | some h =>
    let limit := s.rd (headBase h) Reg.HEAD_PERIOD_NS + 1000000
    if s.unitState u = cvuActive && (s.expectMode u || s.refMode u) && decide ((s.unit u).lastAt + limit ≤ t) then
      ((s.modUnit u fun x => { x with lastAt := t }).raise (cvuB u) Reg.CVU_EVENT_MISSING).fault srcMissing { index := s.unitIndex u }
    else s

/-! ## Monitors, lockstep, scrub, configuration compare -/

/-- An injection armed for a source and index, and the state without it: its SUPPRESS_STOP.
Rests on log entry 103 (DESIGN CHOICE). -/
def State.takeArmed (s : State) (src idx : Nat) : Option Bool × State :=
  match s.sn.armed.find? fun e => decide (e.1 = src) && decide (e.2.1 = idx) with
  | none => (none, s)
  | some e => (some (bitSet e.2.2 1), { s with sn := { s.sn with armed := s.sn.armed.filter fun a => decide (a ≠ e) } })

/-- RM_LOCKSTEP_FAIL (R37): reported; amendments, applies of new images and sleep entries wait for the restart. -/
def doRmLockstepFail (s : State) : State :=
  let s := s.fault srcRmLockstep {}
  { s with boot := { s.boot with rmDown := true } }

/-- RINGMASTER_RESTART (R37): the records made meanwhile are staged (R582). -/
def doRingmasterRestart (s : State) : State :=
  if !s.boot.rmDown then s
  else
    let l := s.boot.staged
    let s := { s with boot := { s.boot with rmDown := false, staged := [] } }
    let s := s.clearPersist srcRmLockstep 0xFFFF
    s.each l State.stageRec

/-- SRAM_SCRUB: the array group is read (R33); one wrong bit is corrected, two are a double-bit error (R489). -/
def doSramScrub (s : State) (group errs : Nat) : State :=
  let (inj, s) := s.takeArmed srcSramUe group
  let s := match inj with
    | some q => s.fault srcSramUe { index := group, injected := true, suppress := q }
    | none => s
  if errs = 2 then s.fault srcSramUe { index := group } else s

/-- CONFIG_COMPARE_PASS (R502): every difference between the two copies, injected ones included. -/
def doConfigComparePass (s : State) (diff : Option (Fin 7)) : State :=
  let s := s.each (List.range 7) fun s g =>
    let (inj, s) := s.takeArmed srcConfig g
    match inj with
    | some q => s.fault srcConfig { index := g, injected := true, suppress := q }
    | none => s
  match diff with
  | some g => s.fault srcConfig { index := g.val }
  | none => s

/-- PERSIST_CONDITION_END: the condition of a clock, rail, temperature, configuration or read-back source ends (R489). -/
def doPersistEnd (s : State) (src idx : Nat) : State :=
  if [srcClock, srcVoltage, srcTemp, srcConfig, srcFaultPin].contains src then
    let s := if src = srcTemp then { s with pwr := { s.pwr with trips := s.pwr.trips.filter fun n => decide (n ≠ idx) } } else s
    s.clearPersist src idx
  else s

/-! ## Stop and release (R505 to R507) -/

/-- A release: refused while a source persists; else a stop ends and RUN of every unit returns to 0. -/
def State.release (s : State) : State × Bool :=
  if s.rd snB Reg.SN_PERSIST_PERSIST ≠ 0 then (s.raise snB Reg.SN_EVENT_RELEASE_REFUSED, false)
  else if s.rd snB Reg.SN_STATUS_STOPPED = 1 then
    let s := (s.put snB Reg.SN_STATUS_STOPPED 0).raise snB Reg.SN_EVENT_RELEASED
    (s.each (List.range 64) fun s u => s.put (cvuB u) Reg.CVU_STATUS_RUN 0, true)
  else (s, true)

def doSnStop (s : State) : State := s.mgrReach (off := snB + 0x0C) State.stopOutputs
def doSnRelease (s : State) : State := s.mgrReach (off := snB + 0x0C) fun s => s.release.1

/-- SN_REQ of a class S instance (R506). -/
def State.snReach (s : State) (i : Nat) : Bool := s.answers (fnOfInst i) && decide (s.p.cls i = 1)
def doSnReqStop (s : State) (i : Nat) : State :=
  if s.snReach i then s.stopOutputs.put (winBase i) Reg.SN_REQ_RESULT_RESULT 1 else s
def doSnReqRelease (s : State) (i : Nat) : State :=
  if s.snReach i then
    let (s, ok) := s.release
    s.put (winBase i) Reg.SN_REQ_RESULT_RESULT (if ok then 1 else 2)
  else s

/-! ## Injection and flags (R503, R508, R509) -/

def injectable : List Nat := [0x01, 0x02, 0x05, 0x06, 0x07, 0x08, 0x0A, 0x0E, 0x0F, 0x10, 0x11, 0x12, 0x13, 0x18]

/-- The injection: what a detection path finds at once is reported, the rest waits in its path.
Rests on log entry 103 (DESIGN CHOICE). -/
def State.inject (s : State) (src idx flags : Nat) : State :=
  let quiet := bitSet flags 1
  let now := fun (i : Nat) => s.fault src { index := i, injected := true, suppress := quiet }
  let addr := s.rd snB Reg.SN_INJECT_ADDR_LO_ADDR * 64 + s.rd snB Reg.SN_INJECT_ADDR_HI_ADDR * 2 ^ 32
  let armed := s.sn.armed.filter fun e => decide ((e.1, e.2.1) ≠ (src, idx))
  if src = 0x05 ∨ src = 0x06 ∨ src = 0x18 then now 0xFFFF
  else if src = 0x07 ∨ src = 0x08 then now idx
  else if src = 0x0A then s.modUnit idx fun x => { x with invert := some quiet }
  else if src = 0x0E then s.modUnit idx fun x => { x with disagree := some quiet }
  else if src = 0x10 then s.modChimeOf idx fun x => { x with flip := some quiet }
  else if src = 0x11 then s.modHapOf idx fun x => { x with injected := some quiet }
  else if src = 0x12 then s.modTouch idx fun x => { x with failNext := 2, failQuiet := quiet }
  else { s with sn := { s.sn with armed := armed ++ [(src, idx, flags)], injAddr := if src = 0x02 then addr else s.sn.injAddr } }

/-- A write of SN_INJECT: its fields, a reserved SOURCE left as it is (R5; `named`: the write covers it), and with GO the injection they
name. -/
def State.writeInject (s : State) (v : Nat) (named : Bool := true) : State :=
  let src := bitsOf v 0 5
  let flags := bitsOf v 16 2
  let s := if !named then s else if injectable.contains src then s.put snB Reg.SN_INJECT_SOURCE src else s.accessErr snB 0x20 0x05
  let s := s.each [(Reg.SN_INJECT_INDEX, bitsOf v 8 8), (Reg.SN_INJECT_SINGLE, flags % 2), (Reg.SN_INJECT_SUPPRESS_STOP, flags / 2)] fun s e =>
    s.put snB e.1 e.2
  if bitSet v 31 then
    let s := s.count (snB + Reg.SN_INJECTIONS) 1
    let src := s.rd snB Reg.SN_INJECT_SOURCE
    if injectable.contains src then s.inject src (bitsOf v 8 8) flags else s
  else s

def doSnInject (s : State) (v : Nat) : State := s.mgrReach (off := snB + 0x20) fun s => s.writeInject v

/-- FAULT_FLAGS_CLEAR: bits written 1 clear; a source that persists sets its bit again (R93, R503). -/
def State.faultFlagsNow (s : State) (v : Nat) : State :=
  let f := s.rd snB Reg.SN_FAULT_FLAGS_FLAGS
  s.put snB Reg.SN_FAULT_FLAGS_FLAGS ((f ^^^ (f &&& v)) ||| s.rd snB Reg.SN_PERSIST_PERSIST)

def doFaultFlagsClear (s : State) (v : Nat) : State := s.mgrReach (off := snB + 0x18) fun s => s.faultFlagsNow v

/-! ## Commands -/

def execCvuIntervalEnd (u : Fin 64) (tagHead : BitVec 8) (tagSeq : BitVec 64) (agree : Bool) (s : State) : Host.Outcome State Fault Refusal :=
  .next (settle s (doCvuIntervalEnd s u.val tagHead.toNat tagSeq.toNat agree))
def execCvuMissingTimeout (u : Fin 64) (t : BitVec 64) (s : State) : Host.Outcome State Fault Refusal :=
  .next (settle s (doCvuMissing s u.val t.toNat))
def execClockMonitorTrip (domain : Byte) (s : State) : Host.Outcome State Fault Refusal :=
  .next (settle s (s.fault srcClock { index := domain.toNat }))
def execVoltageMonitorTrip (rail : Byte) (s : State) : Host.Outcome State Fault Refusal :=
  .next (settle s (s.fault srcVoltage { index := rail.toNat }))
def execFaultPinMismatch (s : State) : Host.Outcome State Fault Refusal := .next (settle s (s.fault srcFaultPin {}))
def execAonWatchdogExpire (s : State) : Host.Outcome State Fault Refusal := .next (settle s (s.fault srcAonWatchdog {}))
def execRmLockstepFail (s : State) : Host.Outcome State Fault Refusal := .next (settle s (doRmLockstepFail s))
def execRingmasterRestart (s : State) : Host.Outcome State Fault Refusal := .next (settle s (doRingmasterRestart s))
def execSramScrub (group : Byte) (errs : Fin 3) (s : State) : Host.Outcome State Fault Refusal :=
  .next (settle s (doSramScrub s group.toNat errs.val))
def execConfigComparePass (diff : Option (Fin 7)) (s : State) : Host.Outcome State Fault Refusal :=
  .next (settle s (doConfigComparePass s diff))
def execPersistConditionEnd (source : Fin 32) (index : BitVec 16) (s : State) : Host.Outcome State Fault Refusal :=
  .next (settle s (doPersistEnd s source.val index.toNat))
def execSnStop (s : State) : Host.Outcome State Fault Refusal := .next (settle s (doSnStop s))
def execSnRelease (s : State) : Host.Outcome State Fault Refusal := .next (settle s (doSnRelease s))
def execSnReqStop (i : Fin 64) (s : State) : Host.Outcome State Fault Refusal := .next (settle s (doSnReqStop s i.val))
def execSnReqRelease (i : Fin 64) (s : State) : Host.Outcome State Fault Refusal := .next (settle s (doSnReqRelease s i.val))
def execSnInject (v : Word) (s : State) : Host.Outcome State Fault Refusal := .next (settle s (doSnInject s v.toNat))
def execFaultFlagsClear (v : Word) (s : State) : Host.Outcome State Fault Refusal := .next (settle s (doFaultFlagsClear s v.toNat))

end Sys2Proof.Machine
end

