-- ==== Sys2Proof/Machine/Bellows.lean ====
section
/-!
DEFINITION. The Bellows (R30 to R32, R534 to R546): the safe setting, the decision and its application at round starts, the BLW_
applies, ageing, the shares and power values of an image; and the start of a round.
-/
namespace Sys2Proof.Machine

/-! ## Operating points (R534, R544) -/

def pointMhz (n : Nat) : Nat := [600, 900, 1200, 1500, 1800].getD n 600
def railMaxGfx : Nat := 950
def railMaxCore : Nat := 900

/-- Voltages with the guardbands in force, in mV. -/
def State.pointMvNow (s : State) (n : Nat) : Nat := s.fuses.pointMv.getD n 0 + 5 * s.rd blwB Reg.BLW_VOLT_G_GFX
def State.coreMvNow (s : State) : Nat := min railMaxCore (s.fuses.coreMv + 5 * s.rd blwB Reg.BLW_VOLT_G_CORE)

def State.retired (s : State) (n : Nat) : Bool := bitSet (s.rd blwB Reg.BLW_AGE_RETIRED) n

/-- BLW_POINT_n as fused and with the guardband; a point above the rail maximum is retired (R544). -/
def State.pointsLook (s : State) : State :=
  s.each (List.range 5) fun s n =>
    let mv := s.pointMvNow n
    let s := (s.put (blwB + 4 * n) Reg.BLW_POINT_MHZ (pointMhz n)).put (blwB + 4 * n) Reg.BLW_POINT_MV mv
    if railMaxGfx < mv ∧ !s.retired n then
      ((s.put blwB Reg.BLW_AGE_RETIRED (setBit (s.rd blwB Reg.BLW_AGE_RETIRED) n true)).put (blwB + 4 * n) Reg.BLW_POINT_RETIRED 1).raise
        blwB Reg.BLW_EVENT_POINT_RETIRED
    else s

/-- The highest point that is not retired. -/
def State.topPoint (s : State) : Nat := ((List.range 5).filter fun n => !s.retired n).foldl max 0

/-- The shader clock set to a point; what ran is charged at the old clock first. -/
def State.setPoint (s : State) (n : Nat) : State :=
  ((s.chargeAll).put blwB Reg.BLW_STATUS_POINT n).put gfxB Reg.GFX_CLOCK_MHZ (pointMhz n)

/-! ## The safe setting (R32, R540) -/

/-- A bypass event: shader clock at point 0, compositor clock at 600 MHz, no boost. -/
def State.bypass (s : State) : State :=
  let s := (s.setPoint 0).put blwB Reg.BLW_STATUS_BOOST 0
  let s := ((s.put blwB Reg.BLW_STATUS_SAFE 1).count (blwB + Reg.BLW_BYPASSES) 1).raise blwB Reg.BLW_EVENT_BYPASS
  { s with pwr := { s.pwr with safeRounds := 1, nextBoost := false } }

/-- Whether the safe setting holds for the round that starts. -/
def State.staysSafe (s : State) : Bool := decide (0 < s.pwr.safeRounds) || s.pwr.warn || decide (s.pwr.trips ≠ [])

/-! ## Applying a decision (R30 step 4, R31, R538, R539) -/

def State.applyDecision (s : State) : State :=
  let x := s.pwr
  let cut := decide (x.nextGfx < 1000) && decide (s.rd carB Reg.CAR_BUDGET_GFX_PM = 1000)
  let s := (s.put carB Reg.CAR_BUDGET_GFX_PM x.nextGfx).put carB Reg.CAR_BUDGET_CPY_PM x.nextCpy
  let s := if cut then s.raise blwB Reg.BLW_EVENT_BUDGET_CUT else s
  if s.staysSafe then { s with pwr := { s.pwr with safeRounds := s.pwr.safeRounds - 1 } }
  else
    let s := s.put blwB Reg.BLW_STATUS_SAFE 0
    let late := x.raising && !x.confirmed
    let s := if late then s.raise blwB Reg.BLW_EVENT_VOLT_LATE else s
    let cur := s.rd blwB Reg.BLW_STATUS_POINT
    let s := if late ∧ cur < x.nextPoint then s.setPoint cur else s.setPoint x.nextPoint
    s.put blwB Reg.BLW_STATUS_BOOST (x.nextBoost && !late).toNat

/-! ## The decision (R535 to R538, R545) -/

/-- Temperatures of the measurement in BLW_SENSOR_n and BLW_TEMP: signed °C. -/
def hottest (l : List (BitVec 8)) : Int × Nat :=
  (l.zipIdx).foldl (fun (m : Int × Nat) (e : BitVec 8 × Nat) => if m.1 < e.1.toInt then (e.1.toInt, e.2) else m) ((l.headD 0).toInt, 0)

def State.takeTemps (s : State) (m : Measure) : State :=
  let s := s.each (List.range 32) fun s n =>
    (s.put (blwB + 4 * n) Reg.BLW_SENSOR_TEMP (m.temps.getD n 0).toNat).put (blwB + 4 * n) Reg.BLW_SENSOR_PEAK (m.peaks.getD n 0).toNat
  let h := hottest m.temps
  (s.put blwB Reg.BLW_TEMP_TEMP (ofSigned 8 h.1)).put blwB Reg.BLW_TEMP_SENSOR h.2

/-- The thermal ceiling (R537). -/
def State.thermalStep (s : State) (hot : Int) : State :=
  let t := (s.rda blwB Reg.BLW_THERMAL_T_THROTTLE : Int)
  let x := s.pwr
  let s : State := if t < hot then
      let s := { s with pwr := { x with thermal := x.thermal - 1, coolRounds := 0 } }
      if 0 < x.thermal then s.raise blwB Reg.BLW_EVENT_THROTTLE else s
    else if hot < t - 5 then
      if x.coolRounds = 9 then { s with pwr := { x with thermal := min 4 (x.thermal + 1), coolRounds := 0 } }
      else { s with pwr := { x with coolRounds := x.coolRounds + 1 } }
    else { s with pwr := { x with coolRounds := 0 } }
  let on := decide (s.pwr.thermal < 4)
  let s := s.put blwB Reg.BLW_STATUS_THROTTLE on.toNat
  if on then s.count (blwB + Reg.BLW_THROTTLE_ROUNDS) 1 else s

/-- Guardbands raised by replicas below their threshold: 0 VDD_GFX, 1 VDD_CORE; after two rounds more the ceiling falls (R545). -/
def State.replicaStep (s : State) (low : List Nat) : State :=
  let s := if low.contains 0 then s.put blwB Reg.BLW_VOLT_G_GFX (s.rd blwB Reg.BLW_VOLT_G_GFX + 2) else s
  let s := if low.contains 1 then s.put blwB Reg.BLW_VOLT_G_CORE (s.rd blwB Reg.BLW_VOLT_G_CORE + 2) else s
  if low = [] then { s with pwr := { s.pwr with replicaFail := 0 } }
  else
    let x := s.pwr
    let s := if x.replicaFail = 2 then { s with pwr := { x with replicaFail := 1, ageCeiling := x.ageCeiling - 1 } }
      else { s with pwr := { x with replicaFail := x.replicaFail + 1 } }
    s.pointsLook

/-- The ceiling of R537. -/
def State.ceiling (s : State) : Nat := min (min s.topPoint (s.rda blwB Reg.BLW_CEILING_POINT)) (min s.pwr.thermal s.pwr.ageCeiling)

/-- X(n) of R536. -/
def budgetX (cap other full : Nat) : Nat := if full = 0 then 1000 else min 1000 (1000 * (cap - other) / full)

/-- The floor of R190 of an engine. -/
def State.budgetFloor (s : State) (gfx : Bool) : Nat := s.classB gfx + s.classSum gfx 1

/-- Point, graphics budget, and whether point 0 was forced (R536). -/
def State.choose (s : State) (m : Measure) : Nat × Nat × Bool :=
  let cap := s.rda blwB Reg.BLW_CAP_MW
  let fl := s.budgetFloor true
  let x := fun n => budgetX cap m.otherMw (m.fullMw.getD n 0)
  let l := (List.range (s.ceiling + 1)).filter fun n => !s.retired n && decide (fl ≤ x n)
  match l.foldl (fun (b : Option Nat) n => match b with
    | none => some n
    | some k => if pointMhz k * x k < pointMhz n * x n then some n else some k) none with
  | some n => (n, x n, false)
  | none => (0, fl, true)

/-- Instances with a deadline job on claimed core groups that is expected to end between D and T (R202). -/
def State.boostWanted (s : State) : List Nat :=
  ((List.range 256).filterMap fun q =>
    if s.ringType q ≠ 1 then none
    else match (s.ring q).fetched.find? fun d => decide (d.phase = .running) with
      | none => none
      | some d =>
        let n := (groupList.filter fun g => match (s.engine g).holder with | .job p i _ => decide (p = q) && decide (i = d.idx) | _ => false).length
        let left := s.rd (carB + 4 * q) Reg.CAR_RING_EST_EST * 1000000 - d.cycles
        let fin := if n = 0 ∨ s.shaderMhz = 0 then 0 else s.now + left / s.shaderMhz / n
        let dl := s.deadlineOf true d
        if n ≠ 0 ∧ s.deadlineLive true q d ∧ dl ≤ fin ∧ fin < dl + s.preemptNs true then s.ringInst q else none).eraseDups

/-- The Bellows decides for the next round (R30 steps 1 to 3). Rests on log entry 105 (DESIGN CHOICE). -/
def State.decideRound (s : State) (m : Measure) : State :=
  let s := s.takeTemps m
  let hot := (hottest m.temps).1
  let full := m.fullMw.getD (s.rd blwB Reg.BLW_STATUS_POINT) 0
  let est := m.otherMw + full * s.rd carB Reg.CAR_BUDGET_GFX_PM / 1000
  let s := (s.put blwB Reg.BLW_POWER_ESTIMATE (min (est / 10) 65535)).put blwB Reg.BLW_POWER_MEASURED m.measured10mw
  let s := (s.count (blwB + Reg.BLW_ENERGY) m.energyMj).thermalStep hot
  let s := (s.replicaStep m.lowSlack)
  let s := { s with sn := { s.sn with outside := m.outside } }
  let (n, x, forced) := s.choose m
  let round := s.now / 1000000
  let fresh := s.boostWanted.filter fun i => match KMap.find s.pwr.boostAt i with | some r => decide (r + 4 ≤ round) | none => true
  let boost := !forced && decide (n < s.ceiling) && !s.retired (n + 1) && decide (m.boostMw ≤ s.rda blwB Reg.BLW_CAP_MW) &&
    decide (hot < (s.rda blwB Reg.BLW_THERMAL_T_THROTTLE : Int) - 5) && decide (fresh ≠ [])
  let s := if boost then
      let s := s.count (blwB + Reg.BLW_BOOSTS) 1
      { s with pwr := { s.pwr with boostAt := fresh.foldl (fun l i => KMap.insert l i round) s.pwr.boostAt } }
    else s
  let n := if boost then n + 1 else n
  let gfxMv := max (s.pointMvNow n) (s.pointMvNow (s.rd blwB Reg.BLW_STATUS_POINT))
  let raising := decide (s.rd blwB Reg.BLW_VOLT_GFX < gfxMv / 5) || decide (s.rd blwB Reg.BLW_VOLT_CORE < s.coreMvNow / 5)
  let s := (s.put blwB Reg.BLW_VOLT_GFX (gfxMv / 5)).put blwB Reg.BLW_VOLT_CORE (s.coreMvNow / 5)
  { s with pwr := { s.pwr with nextPoint := n, nextGfx := x, nextCpy := if forced then s.budgetFloor false else 1000
                               nextBoost := boost, raising := raising, confirmed := !raising } }

/-! ## Applies of the BLW_ frame (R541, R549) -/

/-- The first failing check of a BLW_ apply. Rests on log entry 105 (DESIGN CHOICE). -/
def State.blwCheck (s : State) : Option (Nat × Nat) :=
  let cap := s.rd blwB Reg.BLW_CAP_MW
  let t := s.rd blwB Reg.BLW_THERMAL_T_THROTTLE
  if 4 < s.rd blwB Reg.BLW_CEILING_POINT then some (0x02, 0x10)
  else if t < 85 ∨ 115 < t then some (0x03, 0x14)
  else if cap < s.p.power.capMinMw ∨ s.p.power.capMaxMw < cap then some (0x04, 0x0C)
  else if s.rplBusy then some (0x06, 0x0C)
  else none

/-- Whether the shadow asks for a clock or voltage change. -/
def State.blwAsks (s : State) : Bool :=
  decide (s.rd blwB Reg.BLW_CAP_MW ≠ s.rda blwB Reg.BLW_CAP_MW) || decide (s.rd blwB Reg.BLW_CEILING_POINT ≠ s.rda blwB Reg.BLW_CEILING_POINT)

/-- The checks and the apply themselves. -/
def State.blwNow (s : State) : State :=
  if !s.armed blwB then s
  else match s.blwCheck with
    | some (reason, off) => s.refuseApply blwB reason off
    | none => s.applyFrame blwB

/-- A deferred apply that is no longer held, or has been withdrawn, ends HELD_SECURE. -/
def State.blwRelease (s : State) : State :=
  if s.sec.heldReqs = [] ∨ (s.clockHeld ∧ s.armed blwB) then s
  else State.put { s with sec := { s.sec with heldReqs := [] } } blwB Reg.BLW_STATUS_HELD_SECURE 0

/-- The frame's part of a round start: deferred while the secure world holds a core group or a copy engine (R412, R541). -/
def State.blwRound (s : State) : State :=
  let s := s.blwRelease
  if s.armed blwB ∧ s.blwAsks ∧ s.clockHeld ∧ KMap.get (fun _ => 0) s.armAt blwB + 50000 ≤ s.now then
    (if s.sec.heldReqs = [] then s.deferRequest 0 0 else s)
  else s.roundApply blwB s.blwCheck

/-! ## Shares, reservations and power of an image (R72, R75) -/

/-- Values of an image where they differ from the image before. -/
def State.loadShares (s : State) (old new : Plan) (first : Bool) : State :=
  let v := fun (p : Plan) (i : Nat) => let r := (p.inst i).getD {}; [r.gfxShare, r.cpyShare, r.dramRes]
  let s := s.each (List.range 64) fun s i =>
    s.each ([Reg.CAR_INST_SHARE_GFX, Reg.CAR_INST_SHARE_CPY, Reg.CAR_INST_DRAM_RES_MBS].zip ((v old i).zip (v new i))) fun s e =>
      if first ∨ e.2.1 ≠ e.2.2 then s.putBoth (carB + 64 * i) e.1 e.2.2 else s
  let s := if first ∨ old.power.capMw ≠ new.power.capMw then s.putBoth blwB Reg.BLW_CAP_MW new.power.capMw else s
  if first ∨ old.power.rankPdUs ≠ new.power.rankPdUs then s.put dmcB Reg.DMC_LP_PD_US new.power.rankPdUs else s

/-- The part of a structure-keeping apply that a round start takes (R72). -/
def State.takeRoundPart (s : State) : State :=
  match s.partDue roundPart with
  | none => s
  | some p =>
    let s := s.loadShares s.p p false
    let shares := fun (r : InstRec) => match p.inst r.inst with
      | some n => { r with gfxShare := n.gfxShare, gfxMax := n.gfxMax, cpyShare := n.cpyShare, cpyMax := n.cpyMax, dramRes := n.dramRes, dramMax := n.dramMax }
      | none => r
    let s := s.setPlan fun o => { o with power := p.power, insts := o.insts.map shares
                                         glob := { o.glob with bTestPm := p.glob.bTestPm, bDramPm := p.glob.bDramPm, bCopyPm := p.glob.bCopyPm } }
    s.partTaken roundPart

/-! ## The start of a round -/

/-- The device runs rounds: a Ringplan is applied and the state is ON or DOZE. Rests on log entry 106 (DESIGN CHOICE). -/
def State.roundsRun (s : State) : Bool := s.applied && !s.pwr.off && decide (s.rd picB Reg.PIC_STATE_STATE ≤ 1)

/-- The timebase reaches t; the whole milliseconds that pass count for the state in force (R544, R548), and outside ON and DOZE the
alarm counts them down (R525). Rests on log entry 106 (DESIGN CHOICE), log entry 108 (DESIGN CHOICE). -/
def State.passTo (s : State) (t : Nat) : State :=
  let n := t / 1000000 - s.now / 1000000
  let st := s.rd picB Reg.PIC_STATE_STATE
  let s := (s.reach t).count (picB + Reg.PIC_TIME + 16 * st) n
  if st ≤ 1 then { s with pwr := { s.pwr with poweredMs := s.pwr.poweredMs + n } }
  else s.put picB Reg.PIC_ALARM_MS (s.rd picB Reg.PIC_ALARM_MS - n)

/-- The next whole millisecond. -/
def State.nextMs (s : State) : Nat := (s.now / 1000000 + 1) * 1000000

/-- A round starts (R30) in a device that runs rounds. `m` is what was measured in the round that ends. -/
def State.roundBody (s : State) (m : Measure) : State :=
  if !s.roundsRun then s
  else
    let s := (((s.chargeAll).applyDecision.blwRound).takeRoundPart).carouselRound
    (s.refillBudgets.decideRound m).select

/-- VOLTAGE_CONFIRMED (R539). -/
def doVoltageConfirmed (s : State) : State := { s with pwr := { s.pwr with confirmed := true } }

/-! ## Ageing (R544, R546) -/

def State.replanNow (s : State) : State := { s with pwr := { s.pwr with replanning := true } }

def doReplan (s : State) : State := s.mgrReach (off := blwB + 0x34) fun s => s.replanNow

/-- REPLAN_DUE: 24 h of powered time after the last re-plan; during the first phase of a sleep entry it waits (R547). -/
def doReplanDue (s : State) : State :=
  if s.pwr.planMs + 86400000 ≤ s.pwr.poweredMs ∧ s.rd picB Reg.PIC_STATE_ENTRY ≠ 1 then { s with pwr := { s.pwr with replanning := true } } else s

/-- The word of a register made of fields, low to high. -/
def State.wordOf (s : State) (a : Nat) (fs : List Fld) : Nat := fs.foldl (fun n f => n + 2 ^ f.lo * s.rd a f) 0
def State.voltWord (s : State) : Nat := s.wordOf blwB [Reg.BLW_VOLT_CORE, Reg.BLW_VOLT_GFX, Reg.BLW_VOLT_G_CORE, Reg.BLW_VOLT_G_GFX]
def State.ageWord (s : State) : Nat := s.wordOf blwB [Reg.BLW_AGE_D_GFX, Reg.BLW_AGE_D_CORE, Reg.BLW_AGE_RETIRED]

/-- The guardband that a measured degradation of d (0.1 %) asks for with sensitivity k, in 5 mV (R544). -/
def guardband (k d : Nat) : Nat := 2 + (k * d + 49) / 50

/-- A re-plan ends: guardbands, retired points, and the record of R546. -/
def State.replanTake (s : State) (dGfx dCore : Nat) : State :=
  let g := max (s.rd blwB Reg.BLW_VOLT_G_GFX) (max s.pwr.gGfx (guardband s.fuses.gfxSens dGfx))
  let c := max (s.rd blwB Reg.BLW_VOLT_G_CORE) (max s.pwr.gCore (guardband s.fuses.coreSens dCore))
  let s := s.each [(Reg.BLW_AGE_D_GFX, dGfx), (Reg.BLW_AGE_D_CORE, dCore), (Reg.BLW_VOLT_G_GFX, g), (Reg.BLW_VOLT_G_CORE, c)] fun s e => s.put blwB e.1 e.2
  let s := s.pointsLook
  let s := if railMaxCore < s.fuses.coreMv + 5 * c then s.raise blwB Reg.BLW_EVENT_AGEING_LIMIT else s
  let s := { s with pwr := { s.pwr with replanning := false, planMs := s.pwr.poweredMs, gGfx := g, gCore := c, ageCeiling := 4, replicaFail := 0 } }
  let hours := s.pwr.poweredMs / 3600000
  let r : LogRec := { kind := 0x06, data := natLE 4 s.voltWord ++ natLE 4 s.ageWord ++ natLE 4 hours }
  ((s.stage r).stageAon r).raise blwB Reg.BLW_EVENT_REPLAN_DONE

/-- Rests on log entry 112 (DESIGN CHOICE). -/
def doReplanDone (s : State) (dGfx dCore : Nat) : State := if s.pwr.replanning then s.replanTake dGfx dCore else s

/-! ## Bypass events and the 32 kHz clock (R32, R36, R540) -/

/-- SENSOR_TRIP: reported as TEMP, and the safe setting. -/
def doSensorTrip (s : State) (n : Nat) : State :=
  let s := { s with pwr := { s.pwr with trips := n :: s.pwr.trips.filter fun k => decide (k ≠ n) } }
  (s.fault srcTemp { index := n }).bypass

/-- XTAL32K_STOP: the always-on domain runs from the RC oscillator; outside ON and DOZE the register shows it from the next
wake (R547). -/
def doXtalStop (s : State) : State :=
  let s := s.stage { kind := 0x09 }
  if s.rd picB Reg.PIC_STATE_STATE ≤ 1 then s.put picB Reg.PIC_STATE_RC_32K 1 else { s with pwr := { s.pwr with rc32k := true } }

def execVoltageConfirmed (s : State) : Host.Outcome State Fault Refusal := .next (settle s (doVoltageConfirmed s))
def execReplan (s : State) : Host.Outcome State Fault Refusal := .next (settle s (doReplan s))
def execReplanDue (s : State) : Host.Outcome State Fault Refusal := .next (settle s (doReplanDue s))
def execReplanDone (dGfx dCore : BitVec 10) (s : State) : Host.Outcome State Fault Refusal := .next (settle s (doReplanDone s dGfx.toNat dCore.toNat))
def execSensorTrip (n : Fin 32) (s : State) : Host.Outcome State Fault Refusal := .next (settle s (doSensorTrip s n.val))
def execCapOvershoot (s : State) : Host.Outcome State Fault Refusal := .next (settle s s.bypass)
def execXtal32kStop (s : State) : Host.Outcome State Fault Refusal := .next (settle s (doXtalStop s))
def execHeldRequestRelease (s : State) : Host.Outcome State Fault Refusal := .next (settle s (doHeldRequestRelease s State.blwNow))

end Sys2Proof.Machine
end

