-- ==== Sys2Proof/Machine/Capture.lean ====
section
/-!
DEFINITION. Capture ports (R300 to R306): packets, whole and discarded frames, the three buffers, stall, and the capture check streams
(R491).
-/
namespace Sys2Proof.Machine

def capOff : Nat := 0
def capWaiting : Nat := 1
def capRunning : Nat := 2
def capStalled : Nat := 3

def State.capState (s : State) (c : Nat) : Nat := s.rd (capB c) Reg.CAP_STATUS_STATE
def State.capRec (s : State) (c : Nat) : CapRec := (s.p.capRec c).getD {}

/-- The units that snoop a capture port. Rests on log entry 102 (DESIGN CHOICE). -/
def State.capUnits (s : State) (c : Nat) : List Nat := (s.unitsOf fun r => decide (r.snoop = 6) && decide (r.arg = c)).filter s.unitRuns

/-- The frame in progress is discarded and its buffer freed (R303). Rests on log entry 80 (DESIGN CHOICE). -/
def State.discardFrame (s : State) (c : Nat) : State :=
  if (s.cap c).inFrame then
    let s := s.modCap c fun x => { x with inFrame := false, lines := 0 }
    (s.count (capB c + Reg.CAP_BAD_FRAMES) 1).raise (capB c) Reg.CAP_EVENT_FRAME_BAD
  else s

/-- CSI_FRAME_START; a frame start before a frame end discards the frame in progress. -/
def doCsiStart (s : State) (c n : Nat) : State :=
  if s.capState c = capOff then s
  else
    let s := s.discardFrame c
    let s := s.modCap c fun x => { x with inFrame := true, lines := 0, frameNo := n, bufs := x.bufs.filter fun e => decide (e.1 / 8192 ≠ x.writing) }
    let seq := s.wideAt (capB c + Reg.CAP_FRAMES) + 1
    s.each (s.capUnits c) fun s u => s.cvuBegin u seq

/-- Bytes of a line of a data type as it arrives. -/
def lineBytes (dt w : Nat) : Nat := if dt = 0x1F then 5 * w / 2 else if dt = 0x24 then 3 * w else 2 * w

/-- The samples of four components packed in five bytes: the high eight bits of each, then their low bits.
Rests on log entry 79 (PRESUMED). -/
def unpack10 (bs : List Byte) : List Nat :=
  (List.range (bs.length / 5)).flatMap fun g => (List.range 4).map fun i => 4 * byteAt bs (5 * g + i) + bitsOf (byteAt bs (5 * g + 4)) (2 * i) 2

/-- A line as it is stored (R301): YUV422 10-bit as the luma row and then the chroma row of P210, the others as they arrive.
Rests on log entry 41 (DESIGN CHOICE), log entry 79 (PRESUMED). -/
def storedLine (dt : Nat) (bs : List Byte) : List Byte :=
  if dt = 0x1F then
    let l := unpack10 bs
    let pick := fun (f : Nat → Bool) => ((List.range l.length).filter f).flatMap fun i => natLE 2 (64 * l.getD i 0)
    pick (fun i => decide (i % 2 = 1)) ++ pick (fun i => decide (i % 2 = 0))
  else bs

/-- CSI_LINE_PACKET: packets of another virtual channel or data type are dropped without error (R300).
Rests on log entry 102 (DESIGN CHOICE). -/
def doCsiLine (s : State) (c dt vc : Nat) (data : List Byte) (bad : Bool) : State :=
  let r := s.capRec c
  if s.capState c = capOff ∨ dt ≠ r.dataType ∨ vc ≠ r.vc then s
  else
    let s := if bad then (s.count (capB c + Reg.CAP_PKT_ERR) 1).raise (capB c) Reg.CAP_EVENT_PKT_ERR else s
    let x := s.cap c
    if !x.inFrame then s
    else if bad || decide (data.length ≠ lineBytes dt r.width) || decide (r.height ≤ x.lines) then s.discardFrame c
    else
      let s := s.modCap c fun x => { x with lines := x.lines + 1, bufs := KMap.set (fun _ => []) x.bufs (8192 * x.writing + x.lines) (storedLine dt data) }
      s.each (s.capUnits c) fun s u => s.cvuBytes u data

/-- Lines composed before a latch that show a capture-fed layer of port c no longer show what that latch will take (R253). -/
def State.staleLines (s : State) (c : Nat) : State :=
  let ks := (List.range 64).filter fun k => decide (s.rd (layerBase k) Reg.LAYER_ID_CAPTURE_FED = 1) && decide (s.rd (layerBase k) Reg.LAYER_ID_CAPTURE = c)
  s.each (ks.filter fun k => decide (s.layerHead k < 8)) fun s k =>
    let h := s.layerHead k
    let rows := s.rowsOf h (s.lstate k (s.willApply k))
    let mark := fun (e : Nat × LineRec) => if e.2.spec && inRows rows (e.1 % 8192) then (e.1, { e.2 with used := 255 :: e.2.used }) else e
    s.modHead h fun x => { x with store := x.store.map mark }

/-- The buffer that the port writes next: neither on the glass nor the newest. -/
def State.freeBuf (s : State) (c newest : Nat) : Nat :=
  ((List.range 3).find? fun b => decide (b ≠ newest) && decide ((s.cap c).glassBuf ≠ some b)).getD 0

/-- A frame completes and becomes the newest (R302, R304). -/
def State.frameDone (s : State) (c : Nat) : State :=
  let b := capB c
  let x := s.cap c
  let s := s.count (b + Reg.CAP_FRAMES) 1
  let s := s.putWide (b + Reg.CAP_LAST_FRAME) (s.now % 2 ^ 64 + 2 ^ 64 * x.frameNo)
  let s := if x.fresh then s.count (b + Reg.CAP_UNSHOWN) 1 else s
  let s := s.put b Reg.CAP_STATUS_NEWEST x.writing
  let s := if s.capState c = capStalled then (s.raise b Reg.CAP_EVENT_RESUMED).clearPersist srcCapture c else s
  let s := s.put b Reg.CAP_STATUS_STATE capRunning
  let next := s.freeBuf c x.writing
  let s := s.modCap c fun x => { x with inFrame := false, lines := 0, fresh := true, lastDone := s.now, writing := next }
  let s := s.staleLines c
  s.each (s.capUnits c) fun s u => s.cvuEnd u (s.wideAt (b + Reg.CAP_FRAMES))

/-- CSI_FRAME_END. -/
def doCsiEnd (s : State) (c t : Nat) : State :=
  let s := s.reach t
  if !(s.cap c).inFrame then s
  else if (s.cap c).lines ≠ (s.capRec c).height then s.discardFrame c
  else s.frameDone c

/-- OVERFLOW (R303). -/
def doOverflow (s : State) (c : Nat) : State :=
  if s.capState c = capOff then s else (s.raise (capB c) Reg.CAP_EVENT_OVERFLOW).discardFrame c

/-- STALL (R304): no frame has completed for CAP_s_STALL[MS]. Rests on log entry 80 (DESIGN CHOICE). -/
def doStall (s : State) (c : Nat) : State :=
  if s.capState c = capWaiting ∨ s.capState c = capRunning then
    let s := s.reach ((s.cap c).lastDone + s.rd (capB c) Reg.CAP_STALL_MS * 1000000)
    ((s.put (capB c) Reg.CAP_STATUS_STATE capStalled).raise (capB c) Reg.CAP_EVENT_STALL).fault srcCapture { index := c }
  else s

/-- A port takes its record; without one it is powered down (R300, R305). -/
def State.loadCapture (s : State) (c : Nat) : State :=
  let b := capB c
  match s.p.capRec c with
  | none => (((s.put b Reg.CAP_STATUS_STATE capOff).put b Reg.CAP_STATUS_LANES 0).setCap c {}).clearPersist srcCapture c
  | some r => (((s.put b Reg.CAP_STATUS_STATE capWaiting).put b Reg.CAP_STATUS_LANES r.lanes).setCap c { lastDone := s.now }).clearPersist srcCapture c

def execCsiFrameStart (c : Fin 4) (frame : BitVec 16) (s : State) : Host.Outcome State Fault Refusal := .next (settle s (doCsiStart s c.val frame.toNat))
def execCsiLinePacket (c : Fin 4) (dt : BitVec 6) (vc : Fin 16) (data : List Byte) (bad : Bool) (s : State) : Host.Outcome State Fault Refusal :=
  .next (settle s (doCsiLine s c.val dt.toNat vc.val data bad))
def execCsiFrameEnd (c : Fin 4) (t : BitVec 64) (s : State) : Host.Outcome State Fault Refusal := .next (settle s (doCsiEnd s c.val t.toNat))
def execOverflow (c : Fin 4) (s : State) : Host.Outcome State Fault Refusal := .next (settle s (doOverflow s c.val))
def execStall (c : Fin 4) (s : State) : Host.Outcome State Fault Refusal := .next (settle s (doStall s c.val))

end Sys2Proof.Machine
end

