-- ==== Sys2Proof/Machine/Image.lean ====
section
/-!
DEFINITION. The bytes of a Ringplan image: header, directory, the records of every section (R39 to R57, R427 to R432, R457 to R459,
R470, R473, R474, R490), and the fallback images it decodes to (R56, R57).
-/
namespace Sys2Proof.Machine

/-! ## Sections (R41, R44) -/

def sGlobal : Nat := 0x01
def sInstances : Nat := 0x02
def sHeads : Nat := 0x03
def sLayers : Nat := 0x04
def sLinestore : Nat := 0x05
def sGuarded : Nat := 0x06
def sCapture : Nat := 0x07
def sTouch : Nat := 0x08
def sHaptic : Nat := 0x09
def sAudio : Nat := 0x0A
def sCvu : Nat := 0x0B
def sPower : Nat := 0x0C
def sSafety : Nat := 0x0D
def sFallback : Nat := 0x0E
def sSignature : Nat := 0xFF

/-- A directory entry. -/
structure Sect where
  typ : Nat
  sver : Nat
  off : Nat
  len : Nat
  crc : Nat
  deriving DecidableEq, Repr

/-- The entries of the directory (R41). -/
def dirOf (img : List Byte) : List Sect :=
  (List.range (leAt img 0x18 2)).map fun n =>
    let a := 64 + 16 * n
    { typ := leAt img a 2, sver := leAt img (a + 2) 2, off := leAt img (a + 4) 4, len := leAt img (a + 8) 4, crc := leAt img (a + 12) 4 }

def slice (l : List Byte) (off n : Nat) : List Byte := (l.drop off).take n
def Sect.body (e : Sect) (img : List Byte) : List Byte := slice img e.off e.len
/-- The body of a section, empty where the image has none. -/
def sectBody (img : List Byte) (t : Nat) : List Byte := (((dirOf img).find? fun e => decide (e.typ = t)).map fun e => e.body img).getD []
def hasSect (img : List Byte) (t : Nat) : Bool := (dirOf img).any fun e => decide (e.typ = t)

def allZero (l : List Byte) : Bool := l.all fun b => decide (b = 0)
def zeroAt (l : List Byte) (off n : Nat) : Bool := allZero (slice l off n)

/-! ## Record tables (R45) -/

/-- Record size, least and greatest count, and the reserved bytes of a record. -/
structure TableForm where
  size : Nat
  lo : Nat
  hi : Nat
  res : List (Nat × Nat)

def tableForm (t : Nat) : Option TableForm :=
  match t with
  | 0x01 => some ⟨32, 1, 1, [(9, 1), (17, 15)]⟩
  | 0x02 => some ⟨32, 1, 64, [(6, 2), (28, 4)]⟩
  | 0x03 => some ⟨48, 8, 8, [(34, 2), (40, 8)]⟩
  | 0x04 => some ⟨16, 64, 64, [(12, 4)]⟩
  | 0x05 => some ⟨16, 1, 1, []⟩
  | 0x06 => some ⟨24, 0, 64, [(13, 11)]⟩
  | 0x07 => some ⟨16, 0, 4, [(12, 4)]⟩
  | 0x0B => some ⟨48, 0, 64, [(6, 2), (40, 8)]⟩
  | 0x0C => some ⟨32, 1, 1, [(21, 11)]⟩
  | 0x0D => some ⟨16, 1, 1, [(5, 11)]⟩
  | _ => none

/-- `n` records of `size` bytes at `off`. -/
def rowsAt (l : List Byte) (off n size : Nat) : List (List Byte) := (List.range n).map fun i => slice l (off + size * i) size
/-- The records of a record table. -/
def tableRows (b : List Byte) : List (List Byte) := rowsAt b 8 (leAt b 0 2) (leAt b 2 2)

/-- A table of a TOUCH, HAPTIC or AUDIO body: where it starts, its count, its record size and reserved bytes. -/
structure SubTable where
  off : Nat
  n : Nat
  size : Nat
  res : List (Nat × Nat) := []

def SubTable.rows (t : SubTable) (b : List Byte) : List (List Byte) := rowsAt b t.off t.n t.size
def SubTable.endAt (t : SubTable) : Nat := t.off + t.n * t.size

def touchTables (b : List Byte) : List SubTable :=
  [⟨leAt b 4 4, byteAt b 0, 64, [(33, 1), (60, 4)]⟩, ⟨leAt b 8 4, leAt b 2 2, 16, [(14, 2)]⟩]
def hapticTables (b : List Byte) : List SubTable :=
  [⟨leAt b 4 4, byteAt b 0, 32, [(26, 6)]⟩, ⟨leAt b 8 4, byteAt b 1, 32, [(4, 4)]⟩]
def audioTables (b : List Byte) : List SubTable :=
  [⟨leAt b 0x0C 4, leAt b 4 2, 32, [(7, 1)]⟩, ⟨leAt b 0x10 4, leAt b 6 2, 8, [(5, 3)]⟩, ⟨leAt b 0x14 4, leAt b 8 2, 4, []⟩,
   ⟨leAt b 0x18 4, byteAt b 0x0A, 16, [(12, 4)]⟩, ⟨leAt b 0x1C 4, leAt b 0x20 2, 20, []⟩, ⟨leAt b 0x24 4, byteAt b 0x0B, 16, [(11, 5)]⟩]

/-- Header length of such a body and its reserved bytes. -/
def subHeader (t : Nat) : Option (Nat × List (Nat × Nat)) :=
  if t = sTouch then some (16, [(1, 1), (12, 4)]) else if t = sHaptic then some (16, [(2, 2), (12, 4)])
  else if t = sAudio then some (64, [(0x22, 2), (0x2B, 21)]) else none
def subTables (t : Nat) (b : List Byte) : List SubTable :=
  if t = sTouch then touchTables b else if t = sHaptic then hapticTables b else if t = sAudio then audioTables b else []

/-- Tables in ascending order of offset, each behind the one before. -/
def subTablesApart : Nat → List SubTable → Bool
  | _, [] => true
  | lo, t :: ts => decide (lo ≤ t.off) && subTablesApart t.endAt ts

/-- Tables start at multiples of 16, lie inside the body behind the header, and do not overlap (R427, R457, R473). -/
def subTablesOk (hdr : Nat) (b : List Byte) (ts : List SubTable) : Bool :=
  let used := (ts.filter fun t => decide (0 < t.n)).mergeSort fun x y => decide (x.off ≤ y.off)
  decide (hdr ≤ b.length) && ts.all (fun t => decide (t.off % 16 = 0) && decide (t.endAt ≤ b.length)) && subTablesApart hdr used

/-- Whether the bytes of a body outside sorted ranges are zero from `pos` on (R39: padding).
Rests on log entry 45 (DESIGN CHOICE). -/
def gapsZero (b : List Byte) : Nat → List (Nat × Nat) → Bool
  | pos, [] => allZero (b.drop pos)
  | pos, r :: rs => zeroAt b pos (r.1 - pos) && gapsZero b (max pos (r.1 + r.2)) rs

/-- Header, tables and clip samples of a TOUCH, HAPTIC or AUDIO body, by offset. -/
def subRanges (t hdr : Nat) (b : List Byte) : List (Nat × Nat) :=
  let clips := if t = sAudio then ((audioTables b).getLast?.elim [] fun u => u.rows b).map fun r => (leAt r 0 4, 2 * leAt r 4 4 * byteAt r 8) else []
  ((0, hdr) :: ((subTables t b).filter fun u => decide (0 < u.n)).map (fun u => (u.off, u.n * u.size)) ++ clips).mergeSort fun x y => decide (x.1 ≤ y.1)

/-- The bytes of PARAM that a node type names (R428). -/
def paramUsed (t : Nat) : List Nat :=
  match t with
  | 0x01 | 0x02 => [0, 1]
  | 0x03 | 0x04 | 0x05 | 0x06 | 0x07 | 0x08 | 0x11 => [0]
  | 0x10 => [0, 1, 2]
  | 0x12 | 0x13 | 0x14 | 0x15 | 0x17 => [0, 1, 2, 3]
  | 0x16 => [0, 4, 5, 6, 7, 8, 9, 10, 11]
  | 0x19 => [0, 4, 5, 6, 7, 8, 9]
  | 0x1B => [0, 1, 2, 3, 4, 6, 7]
  | _ => []

/-! ## Records -/

def globalRec (r : List Byte) : GlobalRec :=
  { portMode := byteAt r 0, managerPort := byteAt r 1, dramGib := byteAt r 2, dramRanks := byteAt r 3, dramRate := leAt r 4 2, l2Policy := byteAt r 6
    l2SecureWays := byteAt r 7, fetchPolicy := byteAt r 8, bTestPm := leAt r 10 2, bDramPm := leAt r 12 2, bCopyPm := leAt r 14 2, patrolHours := byteAt r 16 }
def instRec (r : List Byte) : InstRec :=
  { inst := byteAt r 0, port := byteAt r 1, cls := byteAt r 2, flags := byteAt r 3, rings := byteAt r 4, vectors := byteAt r 5, gfxShare := leAt r 8 2
    gfxMax := leAt r 10 2, cpyShare := leAt r 12 2, cpyMax := leAt r 14 2, dramRes := leAt r 16 4, dramMax := leAt r 20 4, pageQuota := leAt r 24 4 }
def headRec (r : List Byte) : HeadRec :=
  { head := byteAt r 0, owner := byteAt r 1, portType := byteAt r 2, lanes := byteAt r 3, linkRate := byteAt r 4, lead := byteAt r 5, colour := byteAt r 6
    ownerWritable := byteAt r 7, hActive := leAt r 8 2, hTotal := leAt r 10 2, vActive := leAt r 12 2, vTotal := leAt r 14 2, pixelKhz := leAt r 16 4
    hsStart := leAt r 20 2, hsEnd := leAt r 22 2, vsStart := leAt r 24 2, vsEnd := leAt r 26 2, latchLine := leAt r 28 2, lostAction := byteAt r 30
    lostImage := byteAt r 31, lostHoldMs := leAt r 32 2, background := leAt r 36 4 }
def layerRec (r : List Byte) : LayerRec :=
  { layer := byteAt r 0, owner := byteAt r 1, head := byteAt r 2, flags := byteAt r 3, capture := byteAt r 4, maxBpp := byteAt r 5
    maxWidth := leAt r 6 2, maxHeight := leAt r 8 2, headMask := leAt r 10 2 }
def guardRec (r : List Byte) : GuardRec :=
  { region := byteAt r 0, head := byteAt r 1, owner := byteAt r 2, cvu := byteAt r 3, x := leAt r 4 2, y := leAt r 6 2, w := leAt r 8 2, h := leAt r 10 2, mode := byteAt r 12 }
def capRec (r : List Byte) : CapRec :=
  { port := byteAt r 0, lanes := byteAt r 1, laneMbps := leAt r 2 2, dataType := byteAt r 4, vc := byteAt r 5, layer := byteAt r 6, owner := byteAt r 7
    width := leAt r 8 2, height := leAt r 10 2 }
def powerRec (r : List Byte) : PowerRec :=
  { capMw := leAt r 0 4, capMinMw := leAt r 4 4, capMaxMw := leAt r 8 4, dozeMs := leAt r 12 2, rankPdUs := leAt r 14 2, retainMask := leAt r 16 4, wakeMask := byteAt r 20 }
def safetyRec (r : List Byte) : SafetyRec :=
  { profile := byteAt r 0, testSlices := byteAt r 1, ecc := byteAt r 2, cfgCompareMs := byteAt r 3, faultHeads := byteAt r 4 }
def cvuRecOf (r : List Byte) : CvuRec :=
  { unit := byteAt r 0, owner := byteAt r 1, snoop := byteAt r 2, arg := byteAt r 3, width := byteAt r 4, flags := byteAt r 5, poly := leAt r 8 8
    init := leAt r 16 8, xorout := leAt r 24 8, ref := leAt r 32 8 }
def touchRecOf (r : List Byte) : TouchRec :=
  { port := byteAt r 0, bus := byteAt r 1, head := byteAt r 2, flags := byteAt r 3, addr := byteAt r 4, owner := byteAt r 5, clkKhz := leAt r 6 2
    cmd := (slice r 8 (min (byteAt r 12) 4)).map BitVec.toNat, reportMax := byteAt r 13, lenOff := byteAt r 14, countOff := byteAt r 15, contactOff := byteAt r 16
    contactSize := byteAt r 17, maxContacts := byteAt r 18, check := byteAt r 19, fId := leAt r 20 2, fTip := leAt r 22 2, fX := leAt r 24 2, fY := leAt r 26 2
    fPress := leAt r 28 2, fSeq := leAt r 30 2, checkOff := byteAt r 32, staleMs := leAt r 34 2, matrix := (List.range 6).map fun n => signedOf 32 (leAt r (36 + 4 * n) 4) }
def zoneRec (r : List Byte) : ZoneRec :=
  { zone := leAt r 0 2, target := byteAt r 2, channel := byteAt r 3, x := leAt r 4 2, y := leAt r 6 2, w := leAt r 8 2, h := leAt r 10 2
    slotDown := byteAt r 12, slotUp := byteAt r 13 }
def hapRecOf (r : List Byte) : HapRec :=
  { channel := byteAt r 0, owner := byteAt r 1, flags := byteAt r 2, odCycles := byteAt r 3, ratedMv := leAt r 4 2, overdriveMv := leAt r 6 2, bridgeMv := leAt r 8 2
    fNom := leAt r 10 2, sweepPct := byteAt r 12, brakeMax := byteAt r 13, bemfRatedMv := leAt r 14 2, rMin := leAt r 16 2, rMax := leAt r 18 2, iMaxMa := leAt r 20 2
    vsScale := leAt r 22 2, isScale := leAt r 24 2 }
def slotRecOf (r : List Byte) : SlotRec :=
  { slot := byteAt r 0, priority := byteAt r 1, segments := byteAt r 2, flags := byteAt r 3
    segs := (List.range (min (byteAt r 2) 6)).map fun n => (leAt r (8 + 4 * n) 2, leAt r (10 + 4 * n) 2) }
def nodeRecOf (r : List Byte) : NodeRec :=
  { node := leAt r 0 2, typ := byteAt r 2, channels := byteAt r 3, owner := byteAt r 4, inputs := byteAt r 5, flags := byteAt r 6, param := slice r 8 24 }
def edgeRec (r : List Byte) : EdgeRec := { src := leAt r 0 2, dst := leAt r 2 2, input := byteAt r 4 }
def schedRec (r : List Byte) : SchedRec := { node := leAt r 0 2, step := byteAt r 2, core := byteAt r 3 }
def portRecOf (r : List Byte) : PortRec :=
  { port := byteAt r 0, format := byteAt r 1, role := byteAt r 2, family := byteAt r 3, rate := leAt r 4 4, slots := byteAt r 8, slotBits := byteAt r 9
    sampleBits := byteAt r 10, dir := byteAt r 11 }
/-- A clip with its samples out of the body. -/
def clipRec (b r : List Byte) : ClipRec :=
  { frames := leAt r 4 4, channels := byteAt r 8, priority := byteAt r 9, loop := byteAt r 10, samples := slice b (leAt r 0 4) (2 * leAt r 4 4 * byteAt r 8) }

def audioRec (b : List Byte) : AudioRec :=
  let rows := fun (n : Nat) => ((audioTables b).drop n).head?.elim [] fun t => t.rows b
  { mode := byteAt b 0, rate := byteAt b 1, period := byteAt b 2, xfade := byteAt b 3, hsEnable := leAt b 0x28 2, legacyChime := byteAt b 0x2A
    nodes := (rows 0).map nodeRecOf, edges := (rows 1).map edgeRec, sched := (rows 2).map schedRec, ports := (rows 3).map portRecOf
    coefs := (rows 4).map fun r => (List.range 5).map fun n => leAt r (4 * n) 4
    clips := (rows 5).map (clipRec b) }

/-! ## Fallback images (R56, R57) -/

/-- The entries of FALLBACK: offset, length, width, height, format. -/
structure FbEntry where
  off : Nat
  len : Nat
  width : Nat
  height : Nat
  format : Nat

def fbCount (b : List Byte) : Nat := leAt b 0 4
def fbEntries (b : List Byte) : List FbEntry :=
  (rowsAt b 8 (min (fbCount b) 16) 16).map fun r => ⟨leAt r 0 4, leAt r 4 4, leAt r 8 2, leAt r 10 2, byteAt r 12⟩

/-- The pixels of RLE8 pairs from column x on: none where a run is 0 or crosses the end of a line. -/
def rlePairs (palette : List Nat) (width : Nat) : Nat → List Byte → Option (List Nat)
  | _, [] => some []
  | _, [_] => none
  | x, n :: i :: rest =>
    if n.toNat = 0 ∨ width < x + n.toNat then none
    else (rlePairs palette width ((x + n.toNat) % max width 1) rest).map fun l => List.replicate n.toNat (palette.getD i.toNat 0) ++ l

/-- A decoded image, or none where it breaks R56. -/
def fbDecode (b : List Byte) (e : FbEntry) : Option FallbackImg :=
  if e.format ≠ 1 ∨ b.length < e.off + e.len ∨ e.len < 1024 then none
  else
    let d := slice b e.off e.len
    let palette := (List.range 256).map fun n => leAt d (4 * n) 4
    match rlePairs palette e.width 0 (d.drop 1024) with
    | some px => if px.length = e.width * e.height then some { width := e.width, height := e.height, pixels := px } else none
    | none => none

/-! ## The image -/

/-- The records of a table, each read by `f`. -/
def readTable {α : Type} (img : List Byte) (t : Nat) (f : List Byte → α) : List α := (tableRows (sectBody img t)).map f
def readSub {α : Type} (img : List Byte) (t n : Nat) (f : List Byte → α) : List α :=
  let b := sectBody img t
  ((subTables t b).drop n).head?.elim [] fun u => (u.rows b).map f

/-- The plan that an image spells. -/
def parsePlan (img : List Byte) : Plan :=
  { image := img, version := leAt img 0x0C 4, glob := ((readTable img sGlobal globalRec).head?).getD {}, insts := readTable img sInstances instRec
    heads := readTable img sHeads headRec, layers := readTable img sLayers layerRec
    lineStore := (List.range 8).map fun h => leAt (sectBody img sLinestore) (8 + 2 * h) 2
    guarded := readTable img sGuarded guardRec, caps := readTable img sCapture capRec, power := ((readTable img sPower powerRec).head?).getD {}
    safety := ((readTable img sSafety safetyRec).head?).getD {}, fallback := (fbEntries (sectBody img sFallback)).filterMap (fbDecode (sectBody img sFallback))
    touch := readSub img sTouch 0 touchRecOf, zones := readSub img sTouch 1 zoneRec, haps := readSub img sHaptic 0 hapRecOf
    slots := readSub img sHaptic 1 slotRecOf, audio := if hasSect img sAudio then some (audioRec (sectBody img sAudio)) else none
    cvus := readTable img sCvu cvuRecOf }

end Sys2Proof.Machine
end

