-- ==== Sys2Proof/Machine/Ringplan.lean ====
section
/-!
DEFINITION. The validation of a Ringplan image: the order of R60, the directory rules of R39 to R45, and the admission checks of
R58, R59, R433, R442, R447, R471, R474, R494 and R607.
-/
namespace Sys2Proof.Machine

/-- What validation reports (R68, R69). -/
structure Verdict where
  reason : Nat := 0
  sect : Nat := 0
  sub : Nat := 0
  rec_ : Nat := 0xFFFF
  deriving DecidableEq, Repr

/-- A failed check. -/
def no (c : Bool) (v : Verdict) : Option Verdict := if c then some v else none

/-! ## Steps 1 to 3 (R39 to R45, R60) -/

def lengthFails (img : List Byte) (limit : Nat) : Bool :=
  let n := leAt img 8 4
  decide (n % 16 ≠ 0) || decide (n < 1936) || decide (16773120 < n) || decide (limit < n) || decide (img.length < n)

/-- Rests on log entry 45 (DESIGN CHOICE). -/
def headerFails (img : List Byte) : Bool :=
  decide (leAt img 0 4 ≠ 0x4E4C5052) || decide (leAt img 4 2 ≠ 1) || decide (leAt img 6 2 ≠ 64) || decide (leAt img 0x34 4 ≠ crc32c (img.take 0x34))

/-- The section types of R44. -/
def sectTypes : List Nat := [1, 2, 3, 4, 5, 6, 7, 8, 9, 0xA, 0xB, 0xC, 0xD, 0xE, 0xFF]
def requiredTypes : List Nat := [1, 2, 3, 4, 5, 0xC, 0xD, 0xFF]

/-- Directory entries from the end `pos` of what lies before, with the types seen. -/
def entriesFail (img : List Byte) (total : Nat) : Nat → List Nat → List Sect → Option Verdict
  | _, _, [] => none
  | pos, seen, e :: es =>
    if !sectTypes.contains e.typ then some { reason := 3 }
    else if seen.contains e.typ || decide (e.sver ≠ 1) || decide (e.off % 16 ≠ 0) || decide (e.off < pos) || decide (total < e.off + e.len) ||
        !zeroAt img pos (e.off - pos) then some { reason := 3, sect := e.typ }
    else entriesFail img total (e.off + e.len) (e.typ :: seen) es

/-- The first record with a reserved byte that is not zero. -/
def reservedRow (res : List (Nat × Nat)) (rows : List (List Byte)) : Option Nat :=
  rows.findIdx? fun r => res.any fun e => !zeroAt r e.1 e.2

/-- A node record with a reserved byte of PARAM that is not zero. Rests on log entry 45 (DESIGN CHOICE). -/
def paramFails (b : List Byte) : Option Nat :=
  match audioTables b with
  | t :: _ =>
    if t.endAt ≤ b.length then
      (t.rows b).findIdx? fun r =>
        let used := paramUsed (byteAt r 2)
        (List.range 24).any fun k => !used.contains k && decide (byteAt r (8 + k) ≠ 0)
    else none
  | [] => none

/-- The form of one body: record tables under R45, reserved bytes under R39. Rests on log entry 45 (DESIGN CHOICE). -/
def bodyFails (e : Sect) (b : List Byte) : Option Verdict :=
  let v : Verdict := { reason := 3, sect := e.typ }
  match tableForm e.typ, subHeader e.typ with
  | some f, _ =>
    let n := leAt b 0 2
    no (decide (b.length < 8) || decide (leAt b 2 2 ≠ f.size) || !zeroAt b 4 4 || decide (n < f.lo) || decide (f.hi < n) || decide (b.length ≠ 8 + n * f.size)) v <|>
      ((reservedRow f.res (tableRows b)).map fun i => { v with rec_ := i })
  | none, some (hdr, res) =>
    no ((res.any fun r => !zeroAt b r.1 r.2) || (subTablesOk hdr b (subTables e.typ b) && !gapsZero b 0 (subRanges e.typ hdr b))) v <|>
      (((subTables e.typ b).findSome? fun t => if t.endAt ≤ b.length then reservedRow t.res (t.rows b) else none).map fun i => { v with rec_ := i }) <|>
      (if e.typ = sAudio then (paramFails b).map fun i => { v with rec_ := i } else none)
  | none, none =>
    if e.typ = sFallback then
      no (!zeroAt b 4 4) v <|>
        ((reservedRow [(13, 3)] ((rowsAt b 8 (min (fbCount b) 16) 16).filter fun r => decide (r.length = 16))).map fun i => { v with rec_ := i })
    else none

def directoryFails (img : List Byte) : Option Verdict :=
  let total := leAt img 8 4
  let n := leAt img 0x18 2
  let d := dirOf img
  let last := d.getLast?
  no (!zeroAt img 0x1A 2 || !zeroAt img 0x38 8 || decide (4 ≤ byteAt img 0x13) || decide (leAt img 0x1C 4 ≠ 64) || decide (n < 8) || decide (15 < n) ||
      decide (total < 64 + 16 * n)) { reason := 3 } <|>
    entriesFail img total (64 + 16 * n) [] d <|>
    no (match last with
      | some e => decide (e.typ ≠ sSignature) || decide (e.len ≠ 96) || decide (e.off + 96 ≠ total) || decide (e.crc ≠ 0)
      | none => true) { reason := 3, sect := sSignature } <|>
    no (requiredTypes.any fun t => !d.any fun e => decide (e.typ = t)) { reason := 3 } <|>
    d.findSome? fun e => bodyFails e (e.body img)

/-! ## Steps 4 to 8 (R42, R43, R60, R61, R65) -/

def crcFails (img : List Byte) : Option Verdict :=
  (dirOf img).findSome? fun e => if e.typ ≠ sSignature ∧ crc32c (e.body img) ≠ e.crc then some { reason := 4, sect := e.typ } else none

/-- The seal of a slot agrees with the image (R61). -/
def sealOk (sealRec : List Byte) (code total hcrc : Nat) : Bool :=
  decide (leAt sealRec 0 4 = code) && decide (leAt sealRec 4 4 = total) && decide (leAt sealRec 8 4 = hcrc) && decide (leAt sealRec 12 4 = crc32c (sealRec.take 12))

/-- Rests on log entry 11 (DESIGN CHOICE). -/
def State.signatureFails (s : State) (img : List Byte) : Bool :=
  let k := leAt img 0x30 4
  let off := (((dirOf img).getLast?).map Sect.off).getD 0
  decide (4 < k) || !s.fuses.keys.contains k || !Config.signatureOk k (img.take off) (slice img off 96)

def State.compatFails (s : State) (img : List Byte) : Bool :=
  let grade := s.rd devB Reg.DEV_ID_GRADE
  decide (leAt img 0x10 2 ≠ 0x8840) || decide (s.rd devB Reg.DEV_ID_STEPPING < byteAt img 0x12) ||
    !(decide (1 ≤ grade) && bitSet (byteAt img 0x13) (grade - 1)) || decide (s.rd devB Reg.DEV_FW_VERSION_VERSION < leAt img 0x14 4)

/-- Rests on log entry 45 (DESIGN CHOICE). -/
def State.rollbackFails (s : State) (img : List Byte) : Bool :=
  let v := leAt img 0x0C 4
  decide (v < s.fuses.rplFloor) || decide (v = 0) || decide (v = 0xFFFFFFFF)

/-! ## Admission (R58, R607) -/

/-- The records of section t that break a rule of their own. Rests on log entry 45 (DESIGN CHOICE). -/
def badRows {α : Type} (t : Nat) (l : List α) (bad : Nat → α → Bool) : List (Nat × Nat) :=
  l.zipIdx.filterMap fun (e : α × Nat) => if bad e.2 e.1 then some (t, e.2) else none
/-- A failure of section t that concerns no single record. -/
def badAll (t : Nat) (c : Bool) : List (Nat × Nat) := if c then [(t, 0xFFFF)] else []

/-- The first failure of a subcode: sections in directory order, records in their order.
Rests on log entry 46 (DESIGN CHOICE). -/
def firstFail (dir : List Sect) (sub : Nat) (l : List (Nat × Nat)) : Option Verdict :=
  (dir.findSome? fun d => l.find? fun e => decide (e.1 = d.typ)).map fun (e : Nat × Nat) => { reason := 9, sect := e.1, sub := sub, rec_ := e.2 }

/-- Whether no earlier element has the same key. -/
def isNew {α : Type} (l : List α) (i : Nat) (f : α → Nat) (v : Nat) : Bool := (l.take i).all fun e => decide (f e ≠ v)
def within (lo hi v : Nat) : Bool := decide (lo ≤ v) && decide (v ≤ hi)
def sumOf {α : Type} (l : List α) (f : α → Nat) : Nat := l.foldl (fun n e => n + f e) 0

def adm01 (s : State) (p : Plan) : List (Nat × Nat) :=
  let g := p.glob
  badRows sGlobal [g] (fun _ g => decide (g.portMode ≠ s.fuses.laneMode) || decide (1 < g.managerPort) || ! [8, 16, 24, 32, 48, 64].contains g.dramGib ||
    !within 1 2 g.dramRanks || (decide (g.managerPort = 1) && decide (g.portMode ≠ 1)) || !within 3200 8533 g.dramRate || decide (1 < g.l2Policy) ||
    decide (1 < g.fetchPolicy) || !(if g.l2Policy = 0 then within 1 8 g.l2SecureWays else decide (g.l2SecureWays = 0)) || !within 1 24 g.patrolHours) ++
  badRows sInstances p.insts fun i r => decide (63 < r.inst) || (p.insts.take i).any (fun e => decide (r.inst ≤ e.inst)) || decide (1 < r.port) || decide (4 ≤ r.flags) ||
    (decide (r.port = 1) && decide (g.portMode ≠ 1)) || !within 1 3 r.cls

def adm02 (p : Plan) : List (Nat × Nat) :=
  let ports := 1 + p.glob.portMode
  badRows sInstances p.insts (fun _ r => !within 1 16 r.rings || !within 1 32 r.vectors) ++
  badAll sInstances (decide (256 - 8 * ports < sumOf p.insts InstRec.rings) || decide (2048 - 32 * ports < sumOf p.insts InstRec.vectors))

def adm03 (p : Plan) : List (Nat × Nat) :=
  badRows sInstances p.insts fun i r => bitSet r.flags 0 &&
    (decide (r.cls ≠ 1) || (p.insts.take i).any fun e => bitSet e.flags 0 && decide (e.port = r.port))

def adm04 (p : Plan) : List (Nat × Nat) :=
  badRows sInstances p.insts (fun _ r => decide (r.gfxMax < r.gfxShare) || decide (r.cpyMax < r.cpyShare) || decide (r.dramMax < r.dramRes) ||
    decide (1000 < r.gfxMax) || decide (1000 < r.cpyMax)) ++
  badAll sInstances (decide (1000 < sumOf p.insts InstRec.gfxShare + p.glob.bTestPm) || decide (1000 < sumOf p.insts InstRec.cpyShare + p.glob.bCopyPm))

/-- Rests on log entry 46 (DESIGN CHOICE). -/
def adm05 (p : Plan) : List (Nat × Nat) :=
  let bad := fun (o : Nat) => !p.has o
  let orNone := fun (o : Nat) => decide (o ≠ 0xFF) && bad o
  badRows sHeads p.heads (fun _ r => decide (r.portType ≠ 0) && orNone r.owner) ++ badRows sLayers p.layers (fun _ r => orNone r.owner) ++
  badRows sGuarded p.guarded (fun _ r => bad r.owner) ++ badRows sCapture p.caps (fun _ r => bad r.owner) ++
  badRows sTouch p.touch (fun _ r => bad r.owner) ++ badRows sHaptic p.haps (fun _ r => bad r.owner) ++ badRows sCvu p.cvus (fun _ r => bad r.owner)

/-- The link-rate codes of a port type (R283). -/
def rateOk (pt code : Nat) : Bool :=
  if pt = 1 then within 1 6 code else if pt = 2 then within 1 4 code || within 7 10 code else within 1 45 code
/-- The timing relations of R265. -/
def timingOk (r : HeadRec) : Bool :=
  decide (r.hActive % 2 = 0) && within 64 8192 r.hActive && within 64 8192 r.vActive && decide (r.hActive < r.hsStart) && decide (r.hsStart < r.hsEnd) &&
    decide (r.hsEnd < r.hTotal) && decide (r.hActive + 32 ≤ r.hTotal) && decide (r.vActive ≤ r.vsStart) && decide (r.vsStart < r.vsEnd) &&
    decide (r.vsEnd < r.vTotal) && decide (r.vTotal ≤ 8191) && decide (r.vActive + 4 ≤ r.vTotal) &&
    (decide (r.latchLine = 0xFFFF) || decide (r.latchLine < r.vTotal)) && within 25000 2400000 r.pixelKhz

def adm06 (p : Plan) : List (Nat × Nat) :=
  badRows sHeads p.heads (fun h r => decide (r.head ≠ h) ||
    (if r.portType = 0 then decide (r ≠ { head := r.head })
    else decide (3 < r.portType) || (decide (r.portType = 3) && decide (3 < h)) || ! [1, 2, 4].contains r.lanes || !rateOk r.portType r.linkRate ||
      decide (1 < r.colour % 16) || decide (2 < r.colour / 16) || decide (1 < r.lostAction) || decide (60000 < r.lostHoldMs) || decide (8 ≤ r.ownerWritable) || !timingOk r)) ++
  badAll sHeads (decide (10000000 < sumOf p.heads HeadRec.pixelKhz))

def adm07 (p : Plan) : List (Nat × Nat) :=
  badRows sLayers p.layers (fun k r => decide (r.layer ≠ k) || (decide (7 < r.head) && decide (r.head ≠ 0xFF)) || decide (8 ≤ r.flags) || decide (256 ≤ r.headMask) ||
    decide (8 < r.maxBpp) || (decide (r.maxBpp = 0) && decide (r.owner ≠ 0xFF)) ||
    (decide (r.head ≤ 7) && decide (16 ≤ ((p.layers.take k).filter fun e => decide (e.head = r.head)).length)) ||
    (if bitSet r.flags 0 then decide (15 < k) || !p.caps.any (fun c => decide (c.port = r.capture) && decide (c.layer = k)) else decide (r.capture ≠ 0xFF))) ++
  badRows sCapture p.caps fun i c => decide (3 < c.port) || !isNew p.caps i CapRec.port c.port || ! [1, 2, 4].contains c.lanes || !within 80 2500 c.laneMbps ||
    ! [0x1E, 0x1F, 0x22, 0x24].contains c.dataType || decide (15 < c.vc) || decide (15 < c.layer) ||
    !p.layers.any fun l => decide (l.layer = c.layer) && bitSet l.flags 0 && decide (l.capture = c.port)

def adm08 (p : Plan) : List (Nat × Nat) :=
  let used := fun (h : Nat) => p.headUsed h
  badRows sHeads p.heads (fun _ r => decide (r.portType ≠ 0) && !within 8 64 r.lead) ++
  badRows sLinestore p.lineStore (fun h n => (decide (h = 0) && decide (6144 < sumOf p.lineStore id)) ||
    (used h && decide (n * 1024 < (p.head h).lead * (p.head h).hActive * 4)))

/-- The fetch need of a head: bytes of a frame of its layers (R59). -/
def Plan.frameBytes (p : Plan) (h : Nat) : Nat :=
  sumOf (p.layers.filter fun l => decide (l.head = h) || bitSet l.headMask h) fun l => l.maxWidth * l.maxHeight * l.maxBpp
/-- A sum of fractions, numerator and denominator. -/
def addFrac (a b : Nat × Nat) : Nat × Nat := (a.1 * b.2 + b.1 * a.2, a.2 * b.2)
/-- Reservations of class S and P and head fetch needs, in MB/s, as a fraction (R34, R59). -/
def Plan.dramNeed (p : Plan) : Nat × Nat :=
  (p.heads.filter fun r => decide (r.portType ≠ 0)).foldl
    (fun n r => addFrac n (p.frameBytes r.head * r.pixelKhz, 1000 * max (r.hTotal * r.vTotal) 1))
    (sumOf (p.insts.filter fun r => decide (r.cls = 1) || decide (r.cls = 2)) InstRec.dramMax, 1)
/-- Rests on log entry 46 (DESIGN CHOICE). -/
def adm09 (p : Plan) : Option Verdict :=
  let n := p.dramNeed
  no (decide (96 * p.glob.dramRate * n.2 < 5 * n.1)) { reason := 9, sub := 9 }

/-- Two regions overlap. -/
def overlap (a b : GuardRec) : Bool :=
  decide (a.x < b.x + b.w) && decide (b.x < a.x + a.w) && decide (a.y < b.y + b.h) && decide (b.y < a.y + a.h)
def adm0A (p : Plan) : List (Nat × Nat) :=
  badRows sGuarded p.guarded fun i r =>
    let same := (p.guarded.take i).filter fun e => decide (e.head = r.head)
    let hd := p.head r.head
    decide (63 < r.region) || !isNew p.guarded i GuardRec.region r.region || decide (7 < r.head) || decide (1 < r.mode) || decide (r.w < 8) || decide (r.h < 8) ||
      decide (p.cls r.owner ≠ 1) || decide (hd.portType = 0) || decide (hd.hActive < r.x + r.w) || decide (hd.vActive < r.y + r.h) || decide (16 ≤ same.length) ||
      same.any (overlap r) || !p.cvus.any (fun c => decide (c.unit = r.cvu) && decide (c.snoop = 1) && decide (c.arg = r.region) && decide (c.owner = r.owner)) ||
      (decide (r.mode = 1) && !bitSet (((p.inst r.owner).map InstRec.flags).getD 0) 1)

def adm0B (p : Plan) : List (Nat × Nat) :=
  badRows sSafety [p.safety] (fun _ r => decide (1 < r.profile) || decide (1 < r.testSlices) || decide (1 < r.ecc) || !within 1 10 r.cfgCompareMs ||
    (decide (r.profile = 1) && (decide (r.testSlices = 0) || decide (r.ecc = 0)))) ++
  badRows sGlobal [p.glob] fun _ g => !(decide (10 ≤ g.bTestPm) || (decide (g.bTestPm = 0) && decide (p.safety.profile = 0))) || decide (g.bDramPm < 20) || decide (g.bCopyPm < 20)

/-- Rests on log entry 17 (DESIGN CHOICE). -/
def adm0C (img : List Byte) (p : Plan) : List (Nat × Nat) :=
  let b := sectBody img sFallback
  let es := fbEntries b
  let size := sumOf es fun e => 4 * e.width * e.height
  let n := if hasSect img sFallback then fbCount b else 0
  badRows sHeads p.heads (fun _ r => decide (r.portType ≠ 0) && decide (r.lostImage ≠ 0xFF) &&
    (decide (n ≤ r.lostImage) || (match (es.drop r.lostImage).head? with
      | some e => decide (r.hActive < e.width) || decide (r.vActive < e.height)
      | none => true))) ++
  (if hasSect img sFallback then
    badRows sFallback es (fun i e => decide (b.length < 24 + 16 * i) || (fbDecode b e).isNone) ++
    badAll sFallback (!within 1 16 (fbCount b) || (decide (0 < size) && decide (Config.firmwareBytes < size)))
  else [])

def adm0D (p : Plan) : List (Nat × Nat) :=
  badRows sPower [p.power] fun _ r => decide (r.capMinMw < 15000) || decide (r.capMw < r.capMinMw) || decide (r.capMaxMw < r.capMw) || decide (60000 < r.capMaxMw) ||
    decide (60000 < r.dozeMs) || !within 1 1000 r.rankPdUs || decide (128 ≤ r.wakeMask)

/-! ### Touch and haptics (R471, R474) -/

/-- The owner of a zone's target: of a layer, or of a region. -/
def Plan.targetOwner (p : Plan) (t : Nat) : Option Nat :=
  if t < 64 then (if (p.layer t).owner = 0xFF then none else some (p.layer t).owner)
  else if t < 128 then none else (p.region (t - 128)).map GuardRec.owner
/-- SHIFT + WIDTH of a field descriptor stays in 16 bits (R459). -/
def fieldOk (f : Nat) : Bool := decide (bitsOf f 8 4 + bitsOf f 12 4 + 1 ≤ 16)

def touchBad (p : Plan) (i : Nat) (r : TouchRec) (cmdLen : Nat) : Bool :=
  decide (7 < r.port) || !isNew p.touch i TouchRec.port r.port || decide (2 < r.bus) || decide (7 < r.head) || !p.headUsed r.head || !isNew p.touch i TouchRec.head r.head ||
    decide (32 ≤ r.flags) || (if r.bus = 2 then decide (r.addr ≠ 0) else decide (127 < r.addr)) ||
    !(if r.bus = 0 then within 100 1000 r.clkKhz else if r.bus = 1 then within 1 12500 r.clkKhz else within 1 25000 r.clkKhz) || decide (4 < cmdLen) ||
    !within 8 128 r.reportMax || !within 2 32 r.contactSize || !within 1 10 r.maxContacts || decide (2 < r.check) ||
    !(fieldOk r.fId && fieldOk r.fTip && fieldOk r.fX && fieldOk r.fY && fieldOk r.fPress && fieldOk r.fSeq) || !within 10 1000 r.staleMs ||
    (bitSet r.flags 1 && (decide (r.check = 0) || decide (r.fSeq % 256 = 0xFF)))
def zoneBad (p : Plan) (i : Nat) (z : ZoneRec) : Bool :=
  let slotBad := fun (n : Nat) => decide (n ≠ 0xFF) && decide (p.slots.length ≤ n)
  !isNew p.zones i ZoneRec.zone z.zone || slotBad z.slotDown || slotBad z.slotUp ||
    decide (32 ≤ ((p.zones.take i).filter fun e => decide (e.target = z.target)).length) ||
    (match p.targetOwner z.target with
    | none => true
    | some o => !p.haps.any fun h => decide (h.channel = z.channel) && decide (h.owner = o))
def hapBad (p : Plan) (i : Nat) (r : HapRec) : Bool :=
  decide (7 < r.channel) || !isNew p.haps i HapRec.channel r.channel || decide (1 < r.flags) || decide (4 < r.odCycles) || decide (r.overdriveMv < r.ratedMv) ||
    decide (r.bridgeMv < r.overdriveMv) || !within 500 5000 r.fNom || !within 5 30 r.sweepPct || !within 1 8 r.brakeMax
def slotBad (row : List Byte) : Bool :=
  let n := byteAt row 2
  decide (127 < byteAt row 0) || decide (7 < byteAt row 1) || !within 1 6 n || decide (3 < byteAt row 3) ||
    (List.range 6).any fun k =>
      if k < n then decide (1000 < leAt row (8 + 4 * k) 2) || !within 1 1000 (leAt row (10 + 4 * k) 2) else decide (leAt row (8 + 4 * k) 4 ≠ 0)

def touchFails (img : List Byte) (p : Plan) : List (Nat × Nat) :=
  if !hasSect img sTouch then [] else
  let b := sectBody img sTouch
  if decide (8 < byteAt b 0) || decide (512 < leAt b 2 2) || !subTablesOk 16 b (touchTables b) then [(sTouch, 0xFFFF)]
  else badRows sTouch (p.touch.zip (readSub img sTouch 0 fun r => byteAt r 12)) (fun i r => touchBad p i r.1 r.2) ++ badRows sTouch p.zones (zoneBad p)
def hapticFails (img : List Byte) (p : Plan) : List (Nat × Nat) :=
  if !hasSect img sHaptic then [] else
  let b := sectBody img sHaptic
  if decide (8 < byteAt b 0) || decide (128 < byteAt b 1) || !subTablesOk 16 b (hapticTables b) then [(sHaptic, 0xFFFF)]
  else badRows sHaptic p.haps (hapBad p) ++ badRows sHaptic (readSub img sHaptic 1 id) fun _ r => slotBad r

/-! ### Check-value units (R494) -/

/-- What the three units of a chime holder share: width, generator, initial and final values, reflection and folds. -/
def CvuRec.params (r : CvuRec) : List Nat := [r.width, r.poly, r.init, r.xorout, r.flags % 64]
def cvuBad (p : Plan) (i : Nat) (u : CvuRec) : Bool :=
  let chime := fun (e : CvuRec) => within 3 5 e.snoop && decide (e.arg = u.arg)
  (p.cvus.take i).any (fun e => decide (u.unit ≤ e.unit)) || decide (63 < u.unit) || decide (6 < u.snoop) || !within 8 64 u.width || decide (u.poly % 2 = 0) ||
    decide (128 ≤ u.flags) || [u.poly, u.init, u.xorout, u.ref].any (fun v => decide (2 ^ u.width ≤ v)) ||
    (match u.snoop with
    | 0 => decide (u.arg ≠ 0)
    | 1 => (match p.region u.arg with
      | some g => decide (g.cvu ≠ u.unit) || decide (g.owner ≠ u.owner)
      | none => true)
    | 2 => decide (7 < u.arg) || !p.headUsed u.arg || decide ((p.head u.arg).owner ≠ u.owner)
    | 6 => (p.capRec u.arg).isNone
    | _ => !bitSet (((p.inst u.arg).map InstRec.flags).getD 0) 0 || bitSet u.flags 3 || bitSet u.flags 6 ||
      (p.cvus.take i).any (fun e => chime e && decide (e.params ≠ u.params))) ||
    (decide (u.snoop ≠ 0) && (p.cvus.take i).any fun e => decide (e.snoop = u.snoop) && decide (e.arg = u.arg))

/-! ### Audio (R433, R442, R447) -/

/-- INPUTS that a type may have (R428). -/
def inputsOk (t n : Nat) : Bool :=
  match t with
  | 0x01 | 0x03 | 0x04 | 0x06 | 0x19 | 0x1A => decide (n = 0)
  | 0x02 | 0x05 | 0x07 | 0x08 | 0x12 | 0x13 | 0x14 | 0x15 | 0x16 | 0x18 => decide (n = 1)
  | 0x17 => decide (n = 2)
  | 0x10 | 0x1B => within 2 16 n
  | 0x11 => within 2 8 n
  | _ => false

/-- A 16-bit value in 0.1 dB from -1,200 to the given bound (R453). -/
def gainOk (lo hi : Int) (v : Nat) : Bool := decide (lo ≤ signedOf 16 v) && decide (signedOf 16 v ≤ hi)

/-- A port of master role and family A at the graph rate: it connects directly (R426). Rests on log entry 47 (DEDUCED). -/
def AudioRec.direct (a : AudioRec) (port : Nat) : Bool :=
  match a.portRec port with
  | some r => decide (r.role = 0) && decide (r.family = 0) && decide (r.rate = 1000 * a.ticksMs)
  | none => false

/-- A parameter out of its range (R428, R453). -/
def paramBad (a : AudioRec) (r : NodeRec) : Bool :=
  match r.typ with
  | 0x01 | 0x02 => decide (5 < r.par 0 1) || (match a.portRec (r.par 0 1) with
    | some p => decide (p.slots < r.par 1 1 + r.channels)
    | none => false)
  | 0x03 => decide (8 < r.par 0 1 + r.channels)
  | 0x04 | 0x05 => decide (1 < r.par 0 1)
  | 0x06 | 0x07 => decide (127 < r.par 0 1)
  | 0x08 => decide (7 < r.par 0 1)
  | 0x10 => decide (2 ^ r.inputs ≤ r.par 0 2) || decide (2 < r.par 2 1)
  | 0x11 => decide (r.inputs ≤ r.par 0 1) && decide (r.par 0 1 ≠ 15)
  | 0x12 => !gainOk (-1200) 240 (r.par 0 2) || decide (1000 < r.par 2 2)
  | 0x13 => !within 1 32 (r.par 2 2) || decide (512 < r.par 0 2 + r.par 2 2)
  | 0x14 => decide (r.par 2 2 < r.par 0 2) || decide (100 * a.ticksMs < r.par 2 2)
  | 0x15 => !gainOk (-600) 0 (r.par 0 2) || !within 1 5000 (r.par 2 2)
  | 0x16 => decide (1 < r.par 0 1)
  | 0x17 => decide (1000 < r.par 0 2) || decide (1000 < r.par 2 2)
  | 0x19 => decide (1 < r.par 0 1) || !within 200 200000 (r.par 4 4) || !gainOk (-1200) 0 (r.par 8 2)
  | 0x1B => decide (60 < r.par 0 1)
  | _ => false

def AudioRec.node (a : AudioRec) (n : Nat) : Option NodeRec := a.nodes.find? fun r => decide (r.node = n)
/-- The source of an input of a node. -/
def AudioRec.source (a : AudioRec) (n input : Nat) : Option NodeRec :=
  ((a.edges.find? fun e => decide (e.dst = n) && decide (e.input = input)).map EdgeRec.src).bind a.node
/-- The nodes an output feeds. -/
def AudioRec.feeds (a : AudioRec) (n : Nat) : List NodeRec := (a.edges.filter fun e => decide (e.src = n)).filterMap fun e => a.node e.dst

/-- Nodes downstream of a list, itself included, within k edges. -/
def AudioRec.below (a : AudioRec) : Nat → List Nat → List Nat
  | 0, l => l
  | k + 1, l =>
    let more := ((l.flatMap fun n => (a.feeds n).map NodeRec.node).filter fun n => !l.contains n).eraseDups
    if more.isEmpty then l else a.below k (l ++ more)

/-- Stream nodes and BIQUAD sections that an earlier node has. -/
def sharesBad (a : AudioRec) (i : Nat) (r : NodeRec) : Bool :=
  let sec := fun (e : NodeRec) => (e.par 0 2, e.par 0 2 + e.par 2 2)
  (a.nodes.take i).any fun e =>
    (within 6 7 r.typ && within 6 7 e.typ && decide (e.par 0 1 = r.par 0 1)) ||
      (decide (r.typ = 0x13) && decide (e.typ = 0x13) && decide ((sec e).1 < (sec r).2) && decide ((sec r).1 < (sec e).2))

/-- Connections of ports (R426), and in MODE 0 the inputs that must each have an edge (R429).
Rests on log entry 47 (DEDUCED). -/
def linksBad (a : AudioRec) (r : NodeRec) : Bool :=
  a.mode = 0 &&
    ((List.range r.inputs).any (fun k => (a.source r.node k).isNone) ||
      (decide (r.typ = 1) && !a.direct (r.par 0 1) && (a.feeds r.node).any fun e => decide (e.typ ≠ 0x16)) ||
      (decide (r.typ = 2) && !a.direct (r.par 0 1) && decide (((a.source r.node 0).map NodeRec.typ) ≠ some 0x16)))

/-- A chime holder of the plan. -/
def Plan.holder (p : Plan) (i : Nat) : Bool := bitSet (((p.inst i).map InstRec.flags).getD 0) 0

/-- Rules of R442 on one node. -/
def chimeBad (p : Plan) (a : AudioRec) (i : Nat) (r : NodeRec) : Bool :=
  if r.typ = 0x1A then !p.holder r.owner || !r.chime || (a.nodes.take i).any (fun e => decide (e.typ = 0x1A) && decide (e.owner = r.owner))
  else if r.typ = 0x1B then
    let unit := fun (k snoop : Nat) => p.cvus.any fun c => decide (c.unit = r.par k 1) && decide (c.owner = r.owner) && decide (c.snoop = snoop) && decide (c.arg = r.owner)
    let down := ((a.below a.nodes.length [r.node]).filterMap a.node).filter fun e => decide (e.node ≠ r.node)
    !p.holder r.owner || !r.chime || (a.nodes.take i).any (fun e => decide (e.typ = 0x1B) && decide (e.owner = r.owner)) || !(unit 1 3 && unit 2 4 && unit 3 5) ||
      (a.mode = 0 && ((match a.source r.node 0 with
        | some e => decide (e.typ ≠ 0x1A) || decide (e.owner ≠ r.owner)
        | none => true) ||
        down.any fun e => !e.chime || decide (e.owner ≠ r.owner) || (isOutput e.typ && !(decide (e.typ = 2) && a.direct (e.par 0 1)))))
  else false

/-- Rests on log entry 47 (DEDUCED). -/
def nodeBad (p : Plan) (a : AudioRec) (i : Nat) (r : NodeRec) : Bool :=
  decide (511 < r.node) || !isNew a.nodes i NodeRec.node r.node || !inputsOk r.typ r.inputs || !within 1 8 r.channels || (decide (r.owner ≠ 0xFF) && !p.has r.owner) ||
    decide (1 < r.flags) || paramBad a r || sharesBad a i r || linksBad a r || chimeBad p a i r ||
    (a.mode = 1 && ! [6, 7, 0x1A, 0x1B].contains r.typ)

def edgeBad (a : AudioRec) (i : Nat) (e : EdgeRec) : Bool :=
  match a.node e.src, a.node e.dst with
  | some x, some y => decide (y.inputs ≤ e.input) || decide (x.channels ≠ y.channels) || (a.edges.take i).any fun f => decide (f.dst = e.dst) && decide (f.input = e.input)
  | _, _ => true

/-- Entry i of the schedule comes after what it needs (R430). Rests on log entry 47 (DEDUCED). -/
def schedBad (a : AudioRec) (i : Nat) (e : SchedRec) : Bool :=
  (a.node e.node).isNone || !isNew a.sched i SchedRec.node e.node || decide (15 < e.step) || decide (3 < e.core) ||
    (match (a.sched.take i).getLast? with
    | some f => decide (16 * e.step + e.core < 16 * f.step + f.core)
    | none => false) ||
    (a.edges.filter fun d => decide (d.dst = e.node)).any fun d =>
      !(a.sched.take i).any fun f => decide (f.node = d.src) && (decide (f.step < e.step) || (decide (f.step = e.step) && decide (f.core = e.core)))

def portBad (a : AudioRec) (i : Nat) (r : PortRec) : Bool :=
  decide (5 < r.port) || !isNew a.ports i PortRec.port r.port || decide (3 < r.format) || decide (1 < r.role) || decide (1 < r.family) || !within 8000 192000 r.rate ||
    !within 2 16 r.slots || ! [16, 24, 32].contains r.slotBits || !within 1 r.slotBits r.sampleBits || decide (3 < r.dir)

/-- Cost of a node in cycles per tick (R428). -/
def nodeCost (r : NodeRec) : Nat :=
  match r.typ with
  | 0x03 => 6
  | 0x10 => 2 + 3 * r.inputs
  | 0x11 => 2
  | 0x13 => 6 * r.par 2 2
  | 0x14 | 0x17 => 8
  | 0x15 => 12
  | 0x16 => 64
  | 0x19 | 0x1A => 10
  | 0x1B => 4 + 3 * r.inputs
  | _ => 4
def AudioRec.costOf (a : AudioRec) (n : Nat) : Nat := ((a.node n).map nodeCost).getD 0

/-- Cycles of a tick: the largest core of each step, the barriers between steps, and half the largest set one route change crossfades (R423).
Rests on log entry 47 (DEDUCED). -/
def AudioRec.cycles2 (a : AudioRec) : Nat :=
  let steps := (a.sched.map SchedRec.step).eraseDups
  let core := fun (st c : Nat) => sumOf (a.sched.filter fun e => decide (e.step = st) && decide (e.core = c)) fun e => a.costOf e.node
  let run := sumOf steps fun st => ((List.range 4).map (core st)).foldl max 0
  let sets := (a.nodes.filter fun r => decide (routeMask r.typ ≠ 0)).map fun r => sumOf (a.below a.nodes.length [r.node]) a.costOf
  2 * (run + 20 * (steps.length - 1)) + sets.foldl max 0

/-- Whether the program breaks the budget of R423: 90 % of 16,666 or 8,333 cycles. -/
def AudioRec.overBudget (a : AudioRec) : Bool := decide (9 * (if a.rate = 1 then 8333 else 16666) * 2 < 10 * a.cycles2)

/-- The selector of LEGACY_CHIME for sink n. -/
def AudioRec.legacy (a : AudioRec) (n : Nat) : Nat := bitsOf a.legacyChime (2 * n) 2

def audioHeaderBad (b : List Byte) (p : Plan) (a : AudioRec) : Bool :=
  decide (1 < a.mode) || decide (1 < a.rate) || !within 1 16 a.period || !within 1 100 a.xfade || decide (512 < leAt b 4 2) || decide (2048 < leAt b 6 2) ||
    decide (leAt b 8 2 ≠ (if a.mode = 0 then leAt b 4 2 else 0)) || decide (6 < byteAt b 0x0A) || decide (32 < byteAt b 0x0B) || decide (512 < leAt b 0x20 2) ||
    decide (4 ≤ a.hsEnable) || !subTablesOk 64 b (audioTables b) ||
    (if a.mode = 0 then decide (a.legacyChime ≠ 0)
    else decide (a.rate ≠ 0) || decide (a.period ≠ 3) || (List.range 4).any fun n =>
      let v := a.legacy n
      decide (v = 3) || (decide (v ≠ 0) && (!a.direct n || !p.insts.any fun r => bitSet r.flags 0 && decide (r.port = v - 1))))

/-- Rests on log entry 47 (DEDUCED). -/
def audioFails (img : List Byte) (p : Plan) : List (Nat × Nat) :=
  match p.audio with
  | none => []
  | some a =>
    let b := sectBody img sAudio
    let hs := (p.insts.filter fun r => bitSet r.flags 0).map InstRec.inst
    if audioHeaderBad b p a then [(sAudio, 0xFFFF)]
    else
      badRows sAudio a.nodes (nodeBad p a) ++ (if a.mode = 0 then badRows sAudio a.edges (edgeBad a) ++ badRows sAudio a.sched (schedBad a) else []) ++
      badRows sAudio a.ports (portBad a) ++
      badRows sAudio ((audioTables b).getLast?.elim [] fun t => t.rows b) (fun _ r =>
        decide (1 < byteAt r 10) || !within 1 8 (byteAt r 8) || decide (b.length < leAt r 0 4 + 2 * leAt r 4 4 * byteAt r 8)) ++
      badAll sAudio ((a.mode = 0 && a.overBudget) || hs.any fun i => [0x1A, 0x1B].any fun t => !a.nodes.any fun r => decide (r.typ = t) && decide (r.owner = i))

/-- Rests on log entry 45 (DESIGN CHOICE), log entry 46 (DESIGN CHOICE). -/
def adm0E (img : List Byte) (p : Plan) : List (Nat × Nat) :=
  touchFails img p ++ hapticFails img p ++ audioFails img p ++ badRows sCvu p.cvus (cvuBad p)

def adm0F (s : State) (p : Plan) : List (Nat × Nat) :=
  badRows sGlobal [p.glob] fun _ g => decide (g.dramGib ≠ s.rd dmcB Reg.DMC_STATUS_INSTALLED_GIB) || decide (g.dramRanks ≠ 1 + s.rd dmcB Reg.DMC_STATUS_TWO_RANKS)

/-- The first admission check that fails (R58). -/
def admission (s : State) (img : List Byte) (p : Plan) : Option Verdict :=
  let f := firstFail (dirOf img)
  f 0x01 (adm01 s p) <|> f 0x02 (adm02 p) <|> f 0x03 (adm03 p) <|> f 0x04 (adm04 p) <|> f 0x05 (adm05 p) <|> f 0x06 (adm06 p) <|> f 0x07 (adm07 p) <|>
    f 0x08 (adm08 p) <|> adm09 p <|> f 0x0A (adm0A p) <|> f 0x0B (adm0B p) <|> f 0x0C (adm0C img p) <|> f 0x0D (adm0D p) <|> f 0x0E (adm0E img p) <|>
    f 0x0F (adm0F s p)

/-! ## The whole order (R60) -/

/-- Validation of an image of at most `limit` bytes, with the seal record of its slot or none for a push. -/
def validate (s : State) (raw : List Byte) (limit : Nat) (sealRec : Option (List Byte)) : Verdict :=
  let img := raw.take (leAt raw 8 4)
  (no (lengthFails raw limit) { reason := 1 } <|> no (headerFails img) { reason := 2 } <|> directoryFails img <|> crcFails img <|>
    no (match sealRec with
      | some b => !sealOk b 0x5EA10001 (leAt img 8 4) (leAt img 0x34 4)
      | none => false) { reason := 5 } <|>
    no (s.signatureFails img) { reason := 6 } <|> no (s.compatFails img) { reason := 7 } <|> no (s.rollbackFails img) { reason := 8 } <|>
    admission s img (parsePlan img)).getD {}

end Sys2Proof.Machine
end

