-- ==== Sys2Proof/Machine/Ports.lean ====
section
/-!
DEFINITION. Link states and output ports (R260 to R263, R282 to R299): content modes, link training, hot plug, AUX and DCS requests,
the DSI start, HDCP and panel self-refresh.
-/
namespace Sys2Proof.Machine

def linkOff : Nat := 0
def linkTraining : Nat := 1
def linkActive : Nat := 2
def linkNoSink : Nat := 3
def linkSelfRefresh : Nat := 4

def State.link (s : State) (h : Nat) : Nat := s.rd (headBase h) Reg.HEAD_STATE_LINK
/-- PORT_TYPE of a head: 0 none, 1 DP, 2 eDP, 3 DSI (R49). -/
def State.portType (s : State) (h : Nat) : Nat := (s.p.head h).portType
def State.isDsi (s : State) (h : Nat) : Bool := decide (s.portType h = 3)

/-! ## Content modes (R261, R262, R281) -/

/-- The first of the modes that apply (R262). -/
def State.contentMode (s : State) (h : Nat) : Nat :=
  let x := s.head h
  if x.faulted then (if bitSet s.p.safety.faultHeads h then 5 else 4)
  else if x.structBlank then 6
  else match x.hostMode with | .live => 0 | .hold => 1 | .fallback => 2 | .blank => 3

def State.setContent (s : State) (h c : Nat) : State :=
  if s.content h = c then s
  else (((s.put (headBase h) Reg.HEAD_STATE_CONTENT c).raise (headBase h) Reg.HEAD_EVENT_CONTENT_CHANGE)).suspendLook h

/-- The head shows the mode that applies now. -/
def State.contentLook (s : State) (h : Nat) : State := s.setContent h (s.contentMode h)

/-- A head that scans out enters its fault mode at the start of its next line (R281, R505); the frame on the glass with it.
Rests on log entry 104 (DESIGN CHOICE). -/
def State.enterFault (s : State) (h : Nat) : State :=
  if s.rd snB Reg.SN_STATUS_STOPPED = 1 ∧ s.scans h ∧ !(s.head h).faulted then
    let s := (s.modHead h fun x => { x with faulted := true }).contentLook h
    s.modHead h fun x => { x with cur := { x.cur with content := s.content h } }
  else s

/-! ## HDCP (R298) -/

/-- Authentication starts while a request stands on a trained DP link and the secure core runs; else none. -/
def State.hdcpBegin (s : State) (h : Nat) : State :=
  let on := decide (s.portType h = 1) && decide (s.link h = linkActive) && decide (s.rd (outB h) Reg.OUT_HDCP_REQUEST ≠ 0) &&
    decide (s.rd secB Reg.SEC_STATE_STATE = 1) && decide (s.rd secB Reg.SEC_STATE_DEBUG_SECURE = 0)
  s.setHdcp h (if on then 1 else 0)

/-! ## Link state (R260) -/

/-- Whether the audio graph has an output for head h (R299, R428). -/
def State.dpOut (s : State) (h : Nat) : Bool :=
  (s.p.audio.getD {}).nodes.any fun n => decide (n.typ = 8) && decide (byteAt n.param 0 = h)

/-- Audio SDPs are sent while the DP link is ACTIVE and the graph has an output for the head (R299). -/
def State.audioLook (s : State) (h : Nat) : State :=
  s.put (outB h) Reg.OUT_STATUS_AUDIO (if s.portType h = 1 ∧ s.link h = linkActive ∧ s.dpOut h then 1 else 0)

/-- A head's link state and cause. Leaving ACTIVE ends HDCP; outside ACTIVE and SELF_REFRESH no link is trained.
Rests on log entry 77 (DESIGN CHOICE). -/
def State.setLink (s : State) (h l cause : Nat) : State :=
  let b := headBase h
  let s := s.put b Reg.HEAD_STATE_CAUSE cause
  if s.link h = l then s
  else
    let s := (s.put b Reg.HEAD_STATE_LINK l).raise b Reg.HEAD_EVENT_LINK_CHANGE
    let s := if l = linkActive ∨ l = linkNoSink then s.modHead h fun x => { x with settled := true } else s
    let s := if l = linkActive ∨ l = linkSelfRefresh then s
      else ((((s.setHdcp h 0).put (outB h) Reg.OUT_STATUS_RATE 0).put (outB h) Reg.OUT_STATUS_LANES 0).put (outB h) Reg.OUT_STATUS_DSC 0).put (outB h) Reg.OUT_STATUS_PSR 0
    (s.audioLook h).suspendLook h

/-! ## AUX and DCS requests (R289) -/

/-- Whether the port can carry the request of OUT_h_AUX_REQ: its link is up in the sense of the port's kind, and the operation is one of
that kind. Rests on log entry 77 (DESIGN CHOICE). -/
def State.auxAble (s : State) (h : Nat) : Bool :=
  let op := s.rd (outB h) Reg.OUT_AUX_REQ_OP
  decide (s.link h ≠ linkOff) && (if s.isDsi h then decide (4 ≤ op) else decide (op ≤ 3) && decide (s.rd (outB h) Reg.OUT_STATUS_HPD = 1))

/-- A request ends. -/
def State.auxEnd (s : State) (h result count : Nat) : State :=
  let b := outB h
  ((((s.put b Reg.OUT_AUX_STATUS_BUSY 0).put b Reg.OUT_AUX_STATUS_RESULT result).put b Reg.OUT_AUX_STATUS_COUNT count).modOut h fun x =>
    { x with auxWaiting := false, auxRetries := 0 }).raise b Reg.OUT_EVENT_AUX_DONE

/-- A request starts, or ends with RESULT 3. Rests on log entry 77 (DESIGN CHOICE). -/
def State.auxStart (s : State) (h : Nat) : State :=
  if s.auxAble h then s.modOut h fun x => { x with auxWaiting := false, auxRetries := 0 } else s.auxEnd h 3 0

/-- A request made during TRAINING starts once training has ended. -/
def State.auxRelease (s : State) (h : Nat) : State := if (s.out h).auxWaiting ∧ s.link h ≠ linkTraining then s.auxStart h else s

/-- OUT_h_CMD[AUX_GO]. -/
def State.auxCommand (s : State) (h : Nat) : State :=
  let b := outB h
  if s.rd b Reg.OUT_AUX_STATUS_BUSY = 1 then s
  else
    let s := s.put b Reg.OUT_AUX_STATUS_BUSY 1
    if s.link h = linkTraining then s.modOut h fun x => { x with auxWaiting := true } else s.auxStart h

def doAuxGo (s : State) (h : Nat) : State := s.mgrReach (off := outB h + 0x10) fun s => s.auxCommand h

/-- Read data in the data registers, first byte in bits [7:0] of word 0. -/
def State.putAuxData (s : State) (h : Nat) (bs : List Byte) : State :=
  s.each (List.range ((bs.length + 3) / 4)) fun s n => s.put (outB h + 4 * n) Reg.OUT_AUX_DATA_DATA (leNat ((bs.drop (4 * n)).take 4))

/-- A reply: ACK, NACK, or a DEFER that is retried up to 7 times. -/
def doAuxReply (s : State) (h : Nat) (r : AuxReply) (data : List Byte) : State :=
  let b := outB h
  if s.rd b Reg.OUT_AUX_STATUS_BUSY = 0 ∨ (s.out h).auxWaiting then s
  else
    let op := s.rd b Reg.OUT_AUX_REQ_OP
    let len := s.rd b Reg.OUT_AUX_REQ_LEN + 1
    match r with
    | .ack =>
      if op = 0 ∨ op = 2 ∨ op = 6 then
        let bs := data.take len
        (s.putAuxData h bs).auxEnd h 0 bs.length
      else s.auxEnd h 0 len
    | .nack => s.auxEnd h 1 0
    | .deferred => if (s.out h).auxRetries < 7 then s.modOut h fun x => { x with auxRetries := x.auxRetries + 1 } else s.auxEnd h 2 0

def doAuxTimeout (s : State) (h : Nat) : State :=
  if s.rd (outB h) Reg.OUT_AUX_STATUS_BUSY = 0 ∨ (s.out h).auxWaiting then s else s.auxEnd h 2 0

/-! ## What fits (R283, R284, R296, R297) -/

/-- The rate of a code in Mbit/s per lane. -/
def rateMbps (c : Nat) : Nat := [0, 1620, 2700, 5400, 8100, 10000, 13500, 2160, 2430, 3240, 4320].getD c 0
/-- The codes of a port type. -/
def rateCodes (typ : Nat) : List Nat := if typ = 1 then [1, 2, 3, 4, 5, 6] else [1, 2, 3, 4, 7, 8, 9, 10]
def is132 (c : Nat) : Bool := decide (c = 5) || decide (c = 6)

/-- P of a rate in 1/330000 Mbit/s: 0.8 for 8b/10b, times 0.976 with FEC, 128/132 for 128b/132b. FEC is on where an 8b/10b stream is
compressed (R290, R292). -/
def rateP (c : Nat) (dsc : Bool) : Nat := rateMbps c * (if is132 c then 320000 else if dsc then 257664 else 264000)

/-- Sixteenths of a bit per pixel: 3 × BPC, or DSC_BPP. -/
def bppOfPort (bpc dscBpp : Nat) (dsc : Bool) : Nat := if dsc then dscBpp else 16 * 3 * (6 + 2 * bpc)

/-- The DSC slice count: the smallest of 1, 2, 4, 8 with slices of at most 2,560 pixels that the sink supports. -/
def dscSlices (hActive counts : Nat) : Option Nat :=
  [(1, 0), (2, 1), (4, 2), (8, 3)].find? (fun e => decide (hActive ≤ 2560 * e.1) && bitSet counts e.2) |>.map Prod.fst

/-- Whether a stream fits a rate code and lane count. -/
def State.fits (s : State) (h c lanes : Nat) (dsc : Bool) : Bool :=
  let b := outB h
  let bpc := s.rd b Reg.OUT_CFG_BPC
  decide (s.rd (headBase h) Reg.HEAD_PIXEL_PIXEL_KHZ * bppOfPort bpc (s.rd b Reg.OUT_CFG_DSC_BPP) dsc * 100 * 330000 ≤ 97 * 16 * lanes * rateP c dsc * 1000)

/-- Whether the sink takes a compressed stream of the port: DSC at 8 or 10 bits with a slice count it supports.
Rests on log entry 76 (DESIGN CHOICE). -/
def State.sinkDsc (s : State) (h : Nat) : Bool :=
  let k := (s.out h).sink
  let bpc := s.rd (outB h) Reg.OUT_CFG_BPC
  k.dsc && (decide (bpc = 1) || decide (bpc = 2)) && (dscSlices (s.hActive h) k.dscCounts).isSome

/-- A pair of a search: rate code, lanes, compressed. -/
abbrev Pair := Nat × Nat × Bool

/-- Whether pair a is tried before pair b: more lanes × P, then more lanes. -/
def tryFirst (a b : Pair) : Bool :=
  let f := fun (x : Pair) => x.2.1 * rateP x.1 x.2.2
  decide (f b < f a) || (decide (f a = f b) && decide (b.2.1 ≤ a.2.1))
def insertPair (x : Pair) : List Pair → List Pair
  | [] => [x]
  | y :: l => if tryFirst x y then x :: y :: l else y :: insertPair x l

/-- The fitting pairs of one pass in the order of R285. -/
def State.passPairs (s : State) (h : Nat) (dsc : Bool) : List Pair :=
  let r := s.p.head h
  let k := (s.out h).sink
  let codes := (rateCodes r.portType).filter fun c => decide (rateMbps c ≤ rateMbps r.linkRate) && decide (rateMbps c ≤ rateMbps k.maxRate)
  let lanes := [4, 2, 1].filter fun n => decide (n ≤ r.lanes) && decide (n ≤ k.maxLanes)
  let all : List Pair := codes.flatMap fun c => lanes.map fun n => (c, n, dsc)
  (all.filter fun x => s.fits h x.1 x.2.1 dsc).foldr insertPair []

/-- Every pair of a search: uncompressed first, compressed as DSC_MODE allows. -/
def State.searchPairs (s : State) (h : Nat) : List Pair :=
  let m := s.rd (outB h) Reg.OUT_CFG_DSC_MODE
  (if m = 2 then [] else s.passPairs h false) ++ (if m ≠ 0 ∧ s.sinkDsc h then s.passPairs h true else [])

/-! ## Training (R285 to R288) -/

/-- A search begins: the configuration is taken (R310); with no pair that fits nothing is tried.
Rests on log entry 76 (DESIGN CHOICE). -/
def State.startSearch (s : State) (h : Nat) : State :=
  let s := (s.modHead h fun x => { x with lastPixel := none }).modOut h fun x => { x with bpc := s.rd (outB h) Reg.OUT_CFG_BPC, retryAt := none }
  match s.searchPairs h with
  | [] => ((s.modOut h fun x => { x with search := [], current := none }).setLink h linkNoSink 3).auxRelease h
  | p :: l => (s.modOut h fun x => { x with search := l, current := some p }).setLink h linkTraining 0

/-- The DSI start of R296. -/
def State.dsiFits (s : State) (h : Nat) (dsc : Bool) : Bool :=
  let r := s.p.head h
  let b := outB h
  decide (11 * s.rd (headBase h) Reg.HEAD_PIXEL_PIXEL_KHZ * bppOfPort (s.rd b Reg.OUT_CFG_BPC) (s.rd b Reg.OUT_CFG_DSC_BPP) dsc ≤
    10 * 16 * r.lanes * r.linkRate * 100 * 1000)

/-- Whether a DSI stream is sent compressed; none where it does not fit. -/
def State.dsiMode (s : State) (h : Nat) : Option Bool :=
  let b := outB h
  let m := s.rd b Reg.OUT_CFG_DSC_MODE
  let bpc := s.rd b Reg.OUT_CFG_BPC
  let can := decide (s.rd b Reg.OUT_CFG_DSI_PANEL_DSC = 1) && (decide (bpc = 1) || decide (bpc = 2)) && s.dsiFits h true
  if m = 2 then (if can then some true else none)
  else if s.dsiFits h false then some false
  else if m = 1 ∧ can then some true
  else none

/-- The start sequence of a DSI port: exit_sleep_mode is sent, once the ready pin allows it. -/
def State.dsiStart (s : State) (h : Nat) : State :=
  let b := outB h
  let s := (s.modHead h fun x => { x with lastPixel := none }).modOut h fun x =>
    { x with bpc := s.rd b Reg.OUT_CFG_BPC, dsiWait := false, dsiFrame := false, current := none }
  let s := s.put b Reg.OUT_STATUS_SINK_DSC (s.rd b Reg.OUT_CFG_DSI_PANEL_DSC)
  match s.dsiMode h with
  | none => (s.setLink h linkNoSink 3).auxRelease h
  | some dsc =>
    if s.rd b Reg.OUT_CFG_DSI_READY_PIN = 1 ∧ !(s.out h).hpdIn then (s.setLink h linkNoSink 4).auxRelease h
    else (s.modOut h fun x => { x with dsiWait := true, dcs := x.dcs ++ [0x11], current := some (0, (s.p.head h).lanes, dsc) }).setLink h linkTraining 0

/-- The first checks of a port on leaving OFF or on RETRAIN. -/
def State.startPort (s : State) (h : Nat) : State :=
  if s.isDsi h then s.dsiStart h
  else if (s.out h).hpdIn then s.startSearch h
  else s.setLink h linkNoSink 1

/-- A trained link: its parameters and what follows. -/
def State.trained (s : State) (h : Nat) (p : Pair) : State :=
  let b := outB h
  let s := s.setLink h linkActive 0
  let s := ((s.put b Reg.OUT_STATUS_RATE p.1).put b Reg.OUT_STATUS_LANES p.2.1).put b Reg.OUT_STATUS_DSC p.2.2.toNat
  (s.hdcpBegin h).auxRelease h

def doTrainAttempt (s : State) (h : Nat) (ok : Bool) : State :=
  let x := s.out h
  if s.link h ≠ linkTraining ∨ s.isDsi h then s
  else match x.current with
    | none => s
    | some p =>
      if ok then ((s.modOut h fun x => { x with search := [] }).trained h p).raise (outB h) Reg.OUT_EVENT_TRAINED
      else match x.search with
        | n :: l => s.modOut h fun x => { x with search := l, current := some n }
        | [] =>
          let s := s.modOut h fun x => { x with current := none, retryAt := some (s.now + 2000000000) }
          let s := (s.setLink h linkNoSink 2).count (outB h + Reg.OUT_TRAIN_FAILS) 1
          (s.raise (outB h) Reg.OUT_EVENT_TRAIN_FAIL).auxRelease h

/-- TRAIN_RETRY (R286). -/
def doTrainRetry (s : State) (h : Nat) : State :=
  match (s.out h).retryAt with
  | some t =>
    if s.link h = linkNoSink ∧ s.rd (headBase h) Reg.HEAD_STATE_CAUSE = 2 ∧ (s.out h).hpdIn then (s.reach t).startSearch h else s
  | none => s

/-! ## Panel self-refresh (R293, R294) -/

/-- Started lines of the next frame that are not in the line store are composed. -/
def State.fillStore (s : State) (h : Nat) : State :=
  s.each (s.startedLines h fun _ => true) fun s y =>
    if (s.lineAt h (s.frameNo h + 1) y).isSome then s
    else if (s.head h).latched then s.composeLatched h (s.frameNo h + 1) y (s.head h).next
    else s.composeSpec h y

/-- SELF_REFRESH ends: the link is ACTIVE again, from the next frame on. -/
def State.exitPsr (s : State) (h : Nat) : State :=
  if s.link h ≠ linkSelfRefresh then s
  else
    let s := ((s.setLink h linkActive 0).put (outB h) Reg.OUT_STATUS_PSR 0).raise (outB h) Reg.OUT_EVENT_PSR_EXIT
    (s.modHead h fun x => { x with quiet := 0, uncarried := true, psrNext := (0, 0), psrCur := (0, 0) }).fillStore h

/-! ## Hot plug (R287, R288) -/

/-- Whether the port reads DP_HPD_h as a sink's: not before a Ringplan (R9), nor while powered down.
Rests on log entry 77 (DESIGN CHOICE). -/
def State.hpdRead (s : State) (h : Nat) : Bool := s.applied && decide (s.link h ≠ linkOff)

/-- HPD_PLUG: the level of the pin, and what the sink reports. -/
def doHpdPlug (s : State) (h : Nat) (c : SinkCaps) : State :=
  if (s.out h).hpdIn then s
  else
    let s := s.modOut h fun x => { x with hpdIn := true, sink :=
      { maxLanes := c.maxLanes.val, maxRate := c.maxRate.val, dsc := c.dsc, dscCounts := c.dscCounts.val, psr := c.psr.val } }
    if !s.hpdRead h then s
    else if s.isDsi h then
      if s.rd (outB h) Reg.OUT_CFG_DSI_READY_PIN = 1 then
        let s := s.put (outB h) Reg.OUT_STATUS_HPD 1
        if s.link h = linkNoSink ∧ s.rd (headBase h) Reg.HEAD_STATE_CAUSE = 4 then s.dsiStart h else s
      else s
    else
      let s := ((s.put (outB h) Reg.OUT_STATUS_HPD 1).put (outB h) Reg.OUT_STATUS_SINK_DSC c.dsc.toNat).raise (outB h) Reg.OUT_EVENT_PLUG
      s.startSearch h

/-- HPD_UNPLUG. -/
def doHpdUnplug (s : State) (h : Nat) : State :=
  if !(s.out h).hpdIn then s
  else
    let s := s.modOut h fun x => { x with hpdIn := false, sink := {} }
    if !s.hpdRead h then s
    else if s.isDsi h then s.put (outB h) Reg.OUT_STATUS_HPD 0
    else
      let s := (s.exitPsr h).modOut h fun x => { x with search := [], current := none, retryAt := none }
      let s := ((s.put (outB h) Reg.OUT_STATUS_HPD 0).put (outB h) Reg.OUT_STATUS_SINK_DSC 0).setLink h linkNoSink 1
      (s.raise (outB h) Reg.OUT_EVENT_UNPLUG).auxRelease h

/-- HPD_IRQ: whether the sink's status shows the link lost, and whether it carries an HDCP request. -/
def doHpdIrq (s : State) (h : Nat) (lost cpIrq : Bool) : State :=
  if !s.hpdRead h || s.isDsi h || !(s.out h).hpdIn then s
  else
    let s := s.exitPsr h
    if s.link h ≠ linkActive then s.raise (outB h) Reg.OUT_EVENT_IRQ_HPD
    else if lost then ((s.startSearch h).count (outB h + Reg.OUT_LINK_LOSS) 1).raise (outB h) Reg.OUT_EVENT_LINK_LOST
    else if cpIrq then s
    else s.raise (outB h) Reg.OUT_EVENT_IRQ_HPD

/-- OUT_h_CMD[RETRAIN] (R311). -/
def State.retrainCommand (s : State) (h : Nat) : State :=
  if s.link h = linkOff then s
  else if s.isDsi h then s.dsiStart h
  else if !(s.out h).hpdIn then s
  else (s.exitPsr h).startSearch h

def doRetrain (s : State) (h : Nat) : State := s.mgrReach (off := outB h + 0x10) fun s => s.retrainCommand h

/-- DSI_SLEEP_EXIT_WAIT_END: the video stream starts; ACTIVE follows its first frame. -/
def doDsiWaitEnd (s : State) (h : Nat) : State :=
  if (s.out h).dsiWait then s.modOut h fun x => { x with dsiWait := false, dsiFrame := true } else s

/-- The first frame of a DSI stream: set_display_on, and ACTIVE. -/
def State.dsiShown (s : State) (h : Nat) : State :=
  let x := s.out h
  if x.dsiFrame then
    let s := s.modOut h fun x => { x with dsiFrame := false, dcs := x.dcs ++ [0x29] }
    match x.current with | some p => s.trained h p | none => s
  else s

/-- HDCP_AUTH_DONE: an authentication ends, or is lost. -/
def doHdcpAuth (s : State) (h : Nat) (ok typ1 : Bool) : State :=
  let st := s.rd (outB h) Reg.OUT_STATUS_HDCP
  if st = 0 ∨ st = 4 ∨ 4 < st then s
  else if ok then (if st = 1 then s.setHdcp h (if typ1 ∧ s.rd (outB h) Reg.OUT_HDCP_REQUEST = 2 then 3 else 2) else s)
  else s.setHdcp h 4

/-- HDCP_REAUTH: 2 s after a failure while the request stands. -/
def doHdcpReauth (s : State) (h : Nat) : State :=
  let st := s.rd (outB h) Reg.OUT_STATUS_HDCP
  if st = 0 ∨ st = 4 then s.hdcpBegin h else s

def execTrainAttemptDone (h : Fin 8) (ok : Bool) (s : State) : Host.Outcome State Fault Refusal := .next (settle s (doTrainAttempt s h.val ok))
def execTrainRetry (h : Fin 8) (s : State) : Host.Outcome State Fault Refusal := .next (settle s (doTrainRetry s h.val))
def execHpdIrq (h : Fin 8) (lost cpIrq : Bool) (s : State) : Host.Outcome State Fault Refusal := .next (settle s (doHpdIrq s h.val lost cpIrq))
def execHpdUnplug (h : Fin 8) (s : State) : Host.Outcome State Fault Refusal := .next (settle s (doHpdUnplug s h.val))
def execRetrain (h : Fin 8) (s : State) : Host.Outcome State Fault Refusal := .next (settle s (doRetrain s h.val))
def execAuxGo (h : Fin 8) (s : State) : Host.Outcome State Fault Refusal := .next (settle s (doAuxGo s h.val))
def execAuxReply (h : Fin 8) (r : AuxReply) (data : List Byte) (s : State) : Host.Outcome State Fault Refusal := .next (settle s (doAuxReply s h.val r data))
def execAuxTimeout (h : Fin 8) (s : State) : Host.Outcome State Fault Refusal := .next (settle s (doAuxTimeout s h.val))
def execDsiSleepExitWaitEnd (h : Fin 8) (s : State) : Host.Outcome State Fault Refusal := .next (settle s (doDsiWaitEnd s h.val))
def execHdcpAuthDone (h : Fin 8) (ok typ1 : Bool) (s : State) : Host.Outcome State Fault Refusal := .next (settle s (doHdcpAuth s h.val ok typ1))
def execHdcpReauth (h : Fin 8) (s : State) : Host.Outcome State Fault Refusal := .next (settle s (doHdcpReauth s h.val))

end Sys2Proof.Machine
end

