-- ==== Sys2Proof/Machine/Latch.lean ====
section
/-!
DEFINITION. The latch of a head (R102, R169, R219, R250 to R254, R267, R278 to R281, R294, R405) and the pages that its frames pin
(R398).
-/
namespace Sys2Proof.Machine

/-! ## Pages a frame references (R175, R398) -/

/-- The pages of the planes of a layer's state: first page and count. -/
def planePages (st : LState) (n : Nat) : Nat × Nat :=
  let rows := st.srcY + st.srcH
  let rows := if n ≠ 0 ∧ halfHigh st.format then (rows + 1) / 2 else rows
  let a := st.plane n
  (a / 4096, (a + st.pitch n * rows + 4095) / 4096 - a / 4096)

/-- The pages of a frame's state. -/
def State.framePages (s : State) (n : Snap) : List (Nat × Nat) :=
  ((n.layers.map (s.view n)).filter fun v => decide (v.st.enable = 1) && v.cap.isNone).flatMap fun v =>
    (List.range (planesOf v.st.format)).map (planePages v.st)

/-- A holder's references replaced. -/
def State.setPins (s : State) (holder : Nat) (l : List (Nat × Nat)) : State :=
  { s with pins := (s.pins.filter fun r => decide (r.1 ≠ holder)) ++ l.map fun r => (holder, r.1, r.2) }
def glassHolder (h : Nat) : Nat := 0x2000 + h
def latchHolder (h : Nat) : Nat := 0x2100 + h

/-! ## Protection (R405) -/

/-- Layer k's protection in the state now active, and whether its substitute is due. -/
def State.protect (s : State) (h k : Nat) : State :=
  let st := s.lstate k false
  let planes := st.planes.take (planesOf st.format)
  match s.protectors k st with
  | [] =>
    match (s.layer k).protection with
    | some (_, old) => if old = planes then s.modLayer k fun x => { x with substituted := true }
        else s.modLayer k fun x => { x with protection := none, substituted := false }
    | none => s.modLayer k fun x => { x with substituted := false }
  | w :: ws =>
    match s.substOf h k st with
    | some c => s.modLayer k fun x => { x with protection := some (c, planes), substituted := true }
    | none => s.modLayer k fun x => { x with protection := some ((((w :: ws).map GrantWin.subst).headD 0), planes), substituted := false }

/-! ## Deadlines (R169) -/

/-- Work in a ring whose target is the latch of frame f of head h has its target passed.
Rests on log entry 63 (DESIGN CHOICE). -/
def State.passTargets (s : State) (h f : Nat) : State :=
  let due := fun (d : Desc) => decide (d.target = some f) && decide (d.dlHead = h) && d.passed.isNone
  s.each (List.range 256) fun s q =>
    if (s.ring q).fetched.any due then
      s.modRing q fun r => { r with fetched := r.fetched.map fun d => if due d then { d with passed := some s.now } else d }
    else s

/-! ## The host-lost timer at a latch (R278, R280) -/

/-- The hold has run out: the head turns to its lost action. -/
def State.holdLook (s : State) (h : Nat) : State :=
  let x := s.head h
  let expired := x.holdOver || (match x.holdEnd with | some t => decide (t ≤ s.now) | none => false)
  if decide (x.hostMode = .hold) && expired then
    let r := s.p.head h
    let m : HostMode := if r.lostAction = 1 ∧ r.lostImage ≠ 0xFF then .fallback else .blank
    (s.modHead h fun x => { x with hostMode := m, holdEnd := none, holdOver := false }).raise (headBase h) Reg.HEAD_EVENT_HOLD_EXPIRED
  else s

/-- The head is its owner's again. -/
def State.hostBack (s : State) (h : Nat) : State := s.modHead h fun x => { x with hostMode := .live, holdEnd := none, holdOver := false }

/-! ## What a latch applies -/

/-- What a latch does to the layers and the head: the instances whose commits and moves it takes, and the layers whose shadow it
makes active. -/
structure Taken where
  insts : List Nat := []
  layers : List Nat := []
  moved : List Nat := []
  background : Bool := false

def noteInst (l : List Nat) (i : Option Nat) : List Nat :=
  match i with | some i => if l.contains i then l else l ++ [i] | none => l

/-- Layers whose move joins head h now, at its first latch after the leave (R219), and those that leave it. -/
def State.joiners (s : State) (h : Nat) : List Nat :=
  (List.range 64).filter fun k => match (s.layer k).move with | some m => m.left && decide (m.target = h) && decide (m.leftAt ≠ some s.now) | none => false
def State.leavers (s : State) (h : Nat) : List Nat :=
  (s.layersOn h).filter fun k => match (s.layer k).move with | some m => !m.left | none => false

/-- One layer's apply at a latch; an ARM that waits for the next latch stays (R251). -/
def State.latchLayer (e : State × Taken) (k : Nat) : State × Taken :=
  let (s, t) := e
  if !s.armed (layerBase k) then e
  else if (s.layer k).skip then (s.modLayer k fun x => { x with skip := false }, t)
  else
    let ok := (s.layerCheck k).isNone
    let i := s.commitInst (s.layer k).commit
    (s.applyLayer k, if ok then { t with layers := t.layers ++ [k], insts := noteInst t.insts i } else t)

/-- The head frame's apply at a latch. -/
def State.latchHead (e : State × Taken) (h : Nat) : State × Taken :=
  let (s, t) := e
  let b := headBase h
  if !s.armed b then e
  else if (s.head h).skip then (s.modHead h fun x => { x with skip := false }, t)
  else
    let x := s.head h
    let ok := (s.headCheck h).isNone
    let bg := decide (s.rd b Reg.HEAD_BG_RGB ≠ s.rda b Reg.HEAD_BG_RGB)
    (s.applyHead h, if ok then
      { t with background := bg, insts := noteInst (noteInst t.insts (s.commitInst x.commitBg)) (s.commitInst x.commitGamma) } else t)

/-- The instance that made a move. -/
def State.moveInst (s : State) (k : Nat) : Option Nat := (s.layer k).move.bind fun m => s.commitInst m.by_

/-- Layers of lost instances are disabled (R174, R278), not during a hold (R175); each instance gets its record. -/
def State.latchDisables (s : State) (h : Nat) : State :=
  if decide ((s.head h).hostMode = .hold) then s
  else
    let ks := (s.layersOn h).filter fun k => (s.layer k).disable
    let s := s.each ks State.disableLayer
    let mask := fun (i : Nat) => (ks.filter fun k => decide (s.layerOwner k = i)).foldl (fun m k => setBit m k true) 0
    s.each ((ks.map s.layerOwner).eraseDups.filter fun i => decide (i < 64)) fun s i => s.layersDisabled i (mask i)

/-- Capture-fed layers of the head take the newest complete frame (R220, R302). -/
def State.latchCaptures (s : State) (h : Nat) : State :=
  s.each ((s.layersOn h).filter fun k => decide (s.rd (layerBase k) Reg.LAYER_ID_CAPTURE_FED = 1)) fun s k =>
    let c := s.rd (layerBase k) Reg.LAYER_ID_CAPTURE
    if (s.cap c).fresh then s.modCap c fun x => { x with glassBuf := some (s.rd (capB c) Reg.CAP_STATUS_NEWEST), fresh := false } else s

/-- The rows a layer shows on head h, from the active state; none where it is elsewhere. -/
def State.shownRows (s : State) (h k : Nat) : Nat × Nat := if s.layerHead k = h then s.rowsOf h (s.lstate k false) else (0, 0)

/-- What a layer shows beside its rows: its active fields, its substitute, its capture buffer. -/
def State.shownState (s : State) (h k : Nat) : List (KMap Nat × Option (Nat × List Nat) × Bool × Option Nat) :=
  if s.layerHead k ≠ h then []
  else
    let fed := decide (s.rd (layerBase k) Reg.LAYER_ID_CAPTURE_FED = 1)
    [(entriesOf s.act (layerBase k), (s.layer k).protection, (s.layer k).substituted,
      if fed then (s.cap (s.rd (layerBase k) Reg.LAYER_ID_CAPTURE)).glassBuf else none)]

/-- The changes from the state before a latch: each layer with its old and new rows, and the head. -/
def State.latchChanges (s pre : State) (h : Nat) (t : Taken) : List (Nat × (Nat × Nat) × (Nat × Nat)) :=
  let whole := (0, s.vActive h)
  let fedBy := fun (k : Nat) => decide (pre.rd (layerBase k) Reg.LAYER_ID_CAPTURE_FED = 1) && (pre.cap (pre.rd (layerBase k) Reg.LAYER_ID_CAPTURE)).fresh
  let ks := (List.range 64).filter fun k => decide (pre.shownState h k ≠ s.shownState h k)
  let byShadow := t.layers.map fun k => (k, pre.shownRows h k, s.shownRows h k)
  let others := (ks.filter fun k => !t.layers.contains k && !fedBy k).map fun k => (128 + k, pre.shownRows h k, s.shownRows h k)
  let bg := if t.background then [(64, whole, whole)]
    else if decide (pre.rda (headBase h) Reg.HEAD_BG_RGB ≠ s.rda (headBase h) Reg.HEAD_BG_RGB) || decide (pre.hActive h ≠ s.hActive h) then [(192, whole, whole)]
    else []
  byShadow ++ others ++ bg

/-! ## Self-refresh at a latch (R293, R294) -/

/-- The conditions of R293 that do not count frames. -/
def State.psrAble (s : State) (h : Nat) (n : Snap) : Bool :=
  let b := outB h
  decide (s.portType h = 2) && decide (s.rd b Reg.OUT_CFG_PSR_EN = 1) && decide ((s.out h).sink.psr ≠ 0) &&
    (decide (s.link h = linkActive) || decide (s.link h = linkSelfRefresh)) && decide (s.content h = 0) &&
    !((n.layers.map (s.view n)).any fun v => decide (v.st.enable = 1) && (n.layers.any fun x => decide (x.layer = v.layer) && x.cap.isSome)) &&
    !((List.range 8).any fun g => decide (bitsOf (s.head g).sync 0 2 = 2) && decide (bitsOf (s.head g).sync 2 3 = h) && s.scans g) &&
    !bitSet (s.head h).sync 7 && !(decide (s.p.safety.profile = 1) && s.p.guards h)

/-- A change at a latch in SELF_REFRESH: a selective update of its rows with PSR2, the end of SELF_REFRESH with PSR1.
Rests on log entry 78 (DESIGN CHOICE). -/
def State.psrChange (s : State) (h : Nat) (changes : List (Nat × (Nat × Nat) × (Nat × Nat))) (any : Bool) : State :=
  if s.link h ≠ linkSelfRefresh then s
  else if !s.psrAble h (s.head h).next then s.exitPsr h
  else if !any then s
  else if s.rd (outB h) Reg.OUT_STATUS_PSR = 1 then s.exitPsr h
  else
    let rows := (changes.flatMap fun c => [c.2.1, c.2.2]).filter fun r => decide (r.1 < r.2)
    let lo := rows.foldl (fun m r => min m r.1) (s.vActive h)
    let hi := rows.foldl (fun m r => max m r.2) 0
    if lo < hi then
      let s := s.modHead h fun x => { x with psrNext := (lo, hi) }
      s.each (s.startedLines h fun y => inRows (lo, hi) y) fun s y =>
        if (s.lineAt h (s.frameNo h + 1) y).isSome then s else s.composeLatched h (s.frameNo h + 1) y (s.head h).next
    else s

/-! ## The latch -/

/-- The head's part of an apply (R72); in a structure-changing one, a head whose owner or timing changes blanks for a frame first
(R73). -/
def State.latchPart (s : State) (h : Nat) : State × Bool :=
  if bitSet s.boot.blanking h ∧ !(s.head h).structBlank then (s.modHead h fun x => { x with structBlank := true }, false)
  else
    let s := { s with boot := { s.boot with blanking := setBit s.boot.blanking h false } }
    (s.modHead h fun x => { x with structBlank := false }).takeHeadPart h

/-- A latch in FAULT_HOLD applies nothing (R261, R281). -/
def State.latchNothing (s : State) (h : Nat) : State :=
  (s.modHead h fun x => { x with next := { x.cur with content := 4 }, changed := false }).confirmLines h []

/-- A latch that applies what is due. -/
def State.latchApply (s : State) (h : Nat) : State :=
  let pre := s
  let owner := (s.p.head h).owner
  let joins := s.joiners h
  let leaves := s.leavers h
  let insts := (joins ++ leaves).foldl (fun l k => noteInst l (s.moveInst k)) []
  let ownJoin := joins.any fun k => decide (s.layerOwner k = owner)
  let s := s.each joins State.join
  let (s, t) := State.latchHead (s, { insts := insts }) h
  let (s, t) := ((s.layersOn h).filter fun k => !leaves.contains k).foldl State.latchLayer (s, t)
  let (s, retrain) := s.latchPart h
  let s := s.each leaves State.leave
  let s := s.latchDisables h
  let s := s.latchCaptures h
  let ownCommit := t.insts.contains owner && decide ((s.head h).hostMode ≠ .live) &&
    ((t.layers.any fun k => pre.commitInst (pre.layer k).commit = some owner) || pre.commitInst (pre.head h).commitBg = some owner ||
      pre.commitInst (pre.head h).commitGamma = some owner)
  let s := if ownCommit || ownJoin then s.hostBack h else s
  let s := (s.contentLook h).each (s.layersOn h) fun s k => s.protect h k
  let next := s.snap h [] false
  let changes := s.latchChanges pre h t
  let any := !changes.isEmpty || pre.headWillApply h
  let s := (s.modHead h fun x => { x with next := next, changed := any }).setPins (latchHolder h) (s.framePages next)
  let s := s.confirmLines h changes
  let s := s.psrChange h changes any
  let s := s.each t.insts fun s i => s.eventRecord i 1 (natLE 1 h ++ natLE 7 0 ++ natLE 8 (s.frameNo h + 1))
  let s := if retrain then
      let n := roundDiv (s.vTotal h * s.rd (headBase h) Reg.HEAD_H_H_TOTAL * 1000000) (s.rd (headBase h) Reg.HEAD_PIXEL_PIXEL_KHZ)
      ((s.put (headBase h) Reg.HEAD_PERIOD_NS n).exitPsr h).startPort h
    else s
  s.releaseHeld h

/-- LATCH (R250). -/
def doLatch (s : State) (h t : Nat) : State :=
  let s := s.reach t
  if !s.scans h || (s.head h).latched then s
  else
    let s := s.enterFault h
    let s := if s.rd snB Reg.SN_STATUS_STOPPED = 0 then s.modHead h fun x => { x with faulted := false } else s
    let s := (s.putWide (headBase h + Reg.HEAD_LATCH_TIME) s.now).modHead h fun x => { x with latched := true }
    let s := (s.passTargets h (s.frameNo h + 1)).holdLook h
    let s := s.contentLook h
    if s.content h = 4 then s.latchNothing h else s.latchApply h

/-- HOLD_TIMER_EXPIRE (R278): the head acts at its next latch. -/
def doHoldExpire (s : State) (h : Nat) : State :=
  let x := s.head h
  match x.holdEnd with
  | some t => if decide (x.hostMode = .hold) then (s.reach t).modHead h fun x => { x with holdOver := true } else s
  | none => s

def execLatch (h : Fin 8) (t : BitVec 64) (s : State) : Host.Outcome State Fault Refusal := .next (settle s (doLatch s h.val t.toNat))
def execHoldTimerExpire (h : Fin 8) (s : State) : Host.Outcome State Fault Refusal := .next (settle s (doHoldExpire s h.val))

end Sys2Proof.Machine
end

