-- ==== Sys2Proof/Machine/Scan.lean ====
section
/-!
DEFINITION. Scan-out (R263, R264, R268 to R275, R293): leaving OFF and returning to it, the start of a frame, genlock, lines as they
become due, underrun and the output stage.
-/
namespace Sys2Proof.Machine

/-! ## Output stage (R274, R275) -/

/-- Element of the Bayer table. -/
def bayer (r c : Nat) : Nat := [0, 8, 2, 10, 12, 4, 14, 6, 3, 11, 1, 9, 15, 7, 13, 5].getD (4 * (r % 4) + c % 4) 0

/-- An entry of a gamma table in a frame's state: channel 0 red, 1 green, 2 blue. -/
def gammaAt (n : Snap) (h ch v : Nat) : Nat :=
  let a := headBase h + 4 * (v / 2)
  let f := fun (e o : Fld) => n.rd a (if v % 2 = 0 then e else o)
  match ch with
  | 0 => f Reg.HEAD_GAMMA_R_ENTRY_EVEN Reg.HEAD_GAMMA_R_ENTRY_ODD
  | 1 => f Reg.HEAD_GAMMA_G_ENTRY_EVEN Reg.HEAD_GAMMA_G_ENTRY_ODD
  | _ => f Reg.HEAD_GAMMA_B_ENTRY_EVEN Reg.HEAD_GAMMA_B_ENTRY_ODD

/-- One component at a port depth of b bits. -/
def stageComp (gammaEn : Bool) (gamma : Nat → Nat) (dither f2 b x y v10 : Nat) : Nat :=
  let v12 := if gammaEn then gamma v10 else v10 * 4 + v10 / 2 ^ 8
  if dither = 0 then v12 / 2 ^ (12 - b)
  else
    let m := bayer (y + f2) (x + 2 * f2)
    min (2 ^ b - 1) ((v12 + m * 2 ^ (12 - b) / 16) / 2 ^ (12 - b))

/-- A pixel on the pins, its components in fields of 12 bits; inside a guarded region without gamma and dither (R275). -/
def State.stagePixel (s : State) (h : Nat) (n : Snap) (x y px : Nat) : Nat :=
  let guarded := (s.regionAt h x y).isSome
  let en := !guarded && decide (n.rd (headBase h) Reg.HEAD_OUTSTAGE_GAMMA_EN = 1)
  let dither := if guarded then 0 else n.rd (headBase h) Reg.HEAD_OUTSTAGE_DITHER
  let f2 := if dither = 2 then s.frameNo h else 0
  let b := 6 + 2 * (s.out h).bpc
  let c := fun (ch v : Nat) => stageComp en (gammaAt n h ch) dither f2 b x y v
  c 0 (red10 px) * 2 ^ 24 + c 1 (green10 px) * 2 ^ 12 + c 2 (blue10 px)

/-! ## VSYNC_OUT (R273) -/

/-- The head that drives VSYNC_OUT. -/
def State.vsyncHead (s : State) : Option Nat := (List.range 8).find? fun h => bitSet (s.head h).sync 7
def State.vsyncLook (s : State) : State := if s.vsyncHead.isSome then s else { s with vsyncOut := false }

/-! ## Genlock (R270 to R272) -/

/-- HEAD_h_SYNC as a word. -/
def State.syncWord (s : State) (h : Nat) : Nat :=
  let g := s.rd (headBase h)
  g Reg.HEAD_SYNC_SOURCE + 4 * g Reg.HEAD_SYNC_REF_HEAD + 32 * g Reg.HEAD_SYNC_RATIO + 128 * g Reg.HEAD_SYNC_DRIVE_OUT +
    256 * g Reg.HEAD_SYNC_IN_POL + 65536 * g Reg.HEAD_SYNC_OFFSET

/-- The nominal frame period in ns. Rests on log entry 74 (DESIGN CHOICE). -/
def State.nominal (s : State) (h : Nat) : Nat :=
  roundDiv (s.vTotal h * s.rd (headBase h) Reg.HEAD_H_H_TOTAL * 1000000) (max 1 (s.rd (headBase h) Reg.HEAD_PIXEL_PIXEL_KHZ))

/-- Lock is lost. -/
def State.loseLock (s : State) (h : Nat) : State :=
  let b := headBase h
  let s := s.modHead h fun x => { x with lockFrames := 0 }
  if s.rd b Reg.HEAD_STATE_LOCKED = 1 then
    ((s.put b Reg.HEAD_STATE_LOCKED 0).count (b + Reg.HEAD_LOCK_LOSS) 1).raise b Reg.HEAD_EVENT_LOCK_LOST
  else s

/-- A reference event at time t for head h: the rate is trimmed within ±1,000 ppm of the nominal rate × 1/m.
Rests on log entry 74 (DESIGN CHOICE). -/
def State.refEvent (s : State) (h t : Nat) : State :=
  let x := s.head h
  let m := bitsOf x.sync 5 2 + 1
  match x.refTime with
  | none => s.modHead h fun x => { x with refTime := some t }
  | some r =>
    let p := t - r
    let n := s.nominal h
    let s := s.modHead h fun x => { x with refTime := some t, refPeriod := p }
    s.put (headBase h) Reg.HEAD_PERIOD_NS (max (n - n / 1000) (min (n + n / 1000) (p / m)))

/-- Heads that follow VSYNC_IN, or a valid reference head. -/
def State.followers (s : State) (src g : Nat) : List Nat :=
  (List.range 8).filter fun h => s.scans h && decide (bitsOf (s.head h).sync 0 2 = src) && (decide (src = 1) || decide (bitsOf (s.head h).sync 2 3 = g))

/-- The phase of line 0 of head h against its reference (R271, R272). -/
def State.phaseLook (s : State) (h : Nat) : State :=
  let x := s.head h
  match x.refTime with
  | none => s
  | some r =>
    let m := bitsOf x.sync 5 2 + 1
    let n := s.nominal h
    let p := x.refPeriod / m
    if bitsOf x.sync 0 2 = 0 ∨ p = 0 then s
    else
      let want := r + s.linesNs h (bitsOf x.sync 16 13)
      let d := (((s.now : Int) - want) % p).toNat
      let err := min d (p - d)
      let near := decide (dist p n * 1000 ≤ n)
      if near && decide (err ≤ s.linesNs h 1) then
        let s := s.modHead h fun x => { x with lockFrames := x.lockFrames + 1 }
        if 8 ≤ (s.head h).lockFrames ∧ s.rd (headBase h) Reg.HEAD_STATE_LOCKED = 0 then
          (s.put (headBase h) Reg.HEAD_STATE_LOCKED 1).raise (headBase h) Reg.HEAD_EVENT_LOCKED
        else s
      else if s.linesNs h 2 < err then s.loseLock h
      else s.modHead h fun x => { x with lockFrames := 0 }

/-- HEAD_h_SYNC takes effect at line 0 (R270): a new reference starts without lock, and a head without one runs at its nominal rate.
Rests on log entry 74 (DESIGN CHOICE). -/
def State.takeSync (s : State) (h : Nat) : State :=
  let w := s.syncWord h
  let old := (s.head h).sync
  let s := if w % 128 = old % 128 ∧ w / 256 = old / 256 then s
    else
      let s := (s.modHead h fun x => { x with refTime := none, refPeriod := 0, lockFrames := 0 }).put (headBase h) Reg.HEAD_STATE_LOCKED 0
      if w % 4 = 0 then s.put (headBase h) Reg.HEAD_PERIOD_NS (s.nominal h) else s
  (s.modHead h fun x => { x with sync := w }).vsyncLook

/-- VSYNC_IN_EDGE. -/
def doVsyncIn (s : State) (t : Nat) : State := let s := s.reach t; s.each (s.followers 1 0) fun s h => s.refEvent h t

/-- GENLOCK_REF_MISSING (R272): the head free-runs at its last trimmed rate. -/
def doRefMissing (s : State) (h : Nat) : State :=
  if bitsOf (s.head h).sync 0 2 = 0 then s else (s.loseLock h).modHead h fun x => { x with refTime := none, refPeriod := 0 }

/-- Line 0 of head h: a reference event for its followers while it may be a reference, and the start of VSYNC_OUT's pulse. -/
def State.lineZero (s : State) (h : Nat) : State :=
  let s := if bitsOf (s.head h).sync 0 2 ≤ 1 then s.each (s.followers 2 h) fun s g => s.refEvent g s.now else s
  if s.vsyncHead = some h then { s with vsyncOut := true } else s

/-! ## Layers on the glass -/

/-- ON_GLASS and COVERED of the layers of head h: `old` is the frame that ends, `new` the one that starts. -/
def State.glassLook (s : State) (h : Nat) (old new : Snap) : State :=
  let f := s.frameNo h
  let recs := ((s.head h).store.filter fun e => decide (e.1 / 8192 = f)).map Prod.snd
  let on := fun (n : Snap) (k : Nat) => (n.layers.any fun x => decide (x.layer = k)) && decide (n.rd (layerBase k) Reg.LAYER_CFG_ENABLE = 1)
  let s := s.each (old.layers.map SnapLayer.layer) fun s k =>
    let covered := on old k && (recs.any fun r => r.skipped.any fun e => decide (e.1 = k)) && !(recs.any fun r => r.fetched.contains k)
    (s.put (layerBase k) Reg.LAYER_STATUS_COVERED covered.toNat).put (layerBase k) Reg.LAYER_STATUS_ON_GLASS 0
  s.each (new.layers.map SnapLayer.layer) fun s k => s.put (layerBase k) Reg.LAYER_STATUS_ON_GLASS (on new k).toNat

/-! ## Leaving OFF and returning to it (R102, R263) -/

/-- The head stops scanning out: its port is powered down, and what waited for its latch takes effect (R102).
Rests on log entry 75 (DESIGN CHOICE). -/
def State.headOff (s : State) (h : Nat) : State :=
  let s := (s.cancelGone h {}).glassLook h (s.head h).cur {}
  let s := s.setLink h linkOff 0
  let s := (s.put (outB h) Reg.OUT_STATUS_HPD 0).put (outB h) Reg.OUT_STATUS_SINK_DSC 0
  let s := if (s.out h).auxWaiting then s.auxStart h else s
  let s := s.modOut h fun x => { x with search := [], current := none, retryAt := none, dsiWait := false, dsiFrame := false, dcs := [] }
  let s := s.modHead h fun x => { x with latched := false, store := [], composed := 0, sentLines := 0, cur := {}, next := {}, sync := 0, refTime := none
                                         refPeriod := 0, lockFrames := 0, locking := false, lastPixel := none, quiet := 0, uncarried := false, faulted := false
                                         skip := false }
  let s := ((s.put (headBase h) Reg.HEAD_STATE_LOCKED 0).setPins (glassHolder h) []).setPins (latchHolder h) []
  let s := (s.contentLook h).vsyncLook
  let s := s.releaseHeld h
  let s := s.each ((List.range 64).filter fun k => (s.layer k).move.isSome) State.idleMove
  let s := (s.applyHead h).each (s.layersOn h) fun s k => s.applyLayer k
  let gone := (s.layersOn h).filter fun k => (s.layer k).disable
  let s := s.each gone State.disableLayer
  let owners := gone.map s.layerOwner
  let mask := fun (i : Nat) => ((gone.zip owners).filter fun (e : Nat × Nat) => decide (e.2 = i)).foldl (fun m e => setBit m e.1 true) 0
  let s := s.modHead h fun x => { x with structBlank := false }
  let s := (State.takeHeadPart { s with boot := { s.boot with blanking := setBit s.boot.blanking h false } } h).1
  s.each (owners.eraseDups.filter fun i => decide (i < 64)) fun s i => s.layersDisabled i (mask i)

/-- HEAD_PLL_LOCK: timing starts at line 0 of frame 0, which shows the state that was applied; the port starts. -/
def doPllLock (s : State) (h : Nat) : State :=
  if !(s.head h).locking || !s.p.headUsed h then s
  else
    let s := (s.latchCaptures h).each (s.layersOn h) fun s k => s.protect h k
    let s := ((s.putWide (headBase h + Reg.HEAD_FRAME) 0).put (headBase h) Reg.HEAD_POS_LINE 0).put (headBase h) Reg.HEAD_POS_FRAME_LO 0
    let s := s.put (headBase h) Reg.HEAD_PERIOD_NS (s.nominal h)
    let n := s.snap h [] false
    let s := s.modHead h fun x => { x with locking := false, frameStart := s.now, latched := false, composed := 0, sentLines := 0, store := [], cur := n, next := n
                                           lastPixel := none, quiet := 0, changed := false, sync := s.syncWord h }
    let s := (s.setPins (glassHolder h) (s.framePages n)).glassLook h {} n
    let s := if s.isDsi h then s else (s.put (outB h) Reg.OUT_STATUS_HPD (s.out h).hpdIn.toNat).put (outB h) Reg.OUT_STATUS_SINK_DSC (s.out h).sink.dsc.toNat
    let s := s.each (List.range (min (s.lead h) (s.vActive h))) fun s y => s.composeLatched h 0 y n
    ((s.startPort h).lineZero h).enterFault h

/-! ## Frames (R264, R293) -/

/-- Entry to SELF_REFRESH after PSR_FRAMES frames that met the conditions. -/
def State.psrCount (s : State) (h : Nat) : State :=
  let x := s.head h
  if !s.psrAble h x.cur then
    (s.exitPsr h).modHead h fun x => { x with quiet := 0 }
  else if x.changed then s.modHead h fun x => { x with quiet := 0 }
  else
    let n := s.rd (outB h) Reg.OUT_CFG_PSR_FRAMES
    let s := s.modHead h fun x => { x with quiet := x.quiet + 1 }
    if s.link h = linkActive ∧ n ≤ (s.head h).quiet then
      (s.setLink h linkSelfRefresh 0).put (outB h) Reg.OUT_STATUS_PSR (s.out h).sink.psr
    else s

/-- FRAME_START: the latched frame reaches the glass. Outside ON the head goes OFF instead.
Rests on log entry 75 (DESIGN CHOICE). -/
def doFrameStart (s : State) (h t : Nat) : State :=
  let s := s.reach t
  if !s.scans h then s
  else if s.rd picB Reg.PIC_STATE_STATE ≠ 0 ∨ s.parkedTo 7 then s.headOff h
  else
    let s := s.enterFault h
    let x := s.head h
    let new := if x.latched then x.next else x.cur
    let s := (s.cancelGone h new).glassLook h x.cur new
    let f := s.frameNo h + 1
    let s := (s.putWide (headBase h + Reg.HEAD_FRAME) f).put (headBase h) Reg.HEAD_POS_LINE 0
    let s := s.put (headBase h) Reg.HEAD_POS_FRAME_LO f
    let s := s.modHead h fun x => { x with frameStart := s.now, cur := new, composed := 0, sentLines := 0, latched := false, uncarried := false
                                           changed := x.latched && x.changed, psrCur := x.psrNext, psrNext := (0, 0)
                                           glassLatch := if x.latched then s.wideAt (headBase h + Reg.HEAD_LATCH_TIME) else x.glassLatch
                                           store := x.store.filter fun e => decide (lineKey f 0 ≤ e.1) }
    let s := (s.setPins (glassHolder h) (s.framePages new)).takeSync h
    let s := ((s.phaseLook h).lineZero h).dsiShown h
    s.psrCount h

/-! ## Lines (R265, R268, R269) -/

/-- LINE_DUE. Rests on log entry 72 (DESIGN CHOICE), log entry 104 (DESIGN CHOICE). -/
def doLineDue (s : State) (h y t : Nat) : State :=
  let s := s.reach t
  if !s.scans h ∨ s.vActive h ≤ y then s
  else
    let s := s.enterFault h
    let s := (s.modHead h fun x => { x with sentLines := y + 1 }).put (headBase h) Reg.HEAD_POS_LINE y
    let s := if 0 < y ∧ s.vsyncHead = some h then { s with vsyncOut := false } else s
    let x := s.head h
    if x.uncarried ∨ (s.link h = linkSelfRefresh ∧ !inRows x.psrCur y) then s
    else
      let bg := background (x.cur.rd (headBase h) Reg.HEAD_BG_RGB)
      let w := s.hActive h
      let line := match s.lineAt h (s.frameNo h) y with | some r => if r.spec then none else some r.pixels | none => none
      let s := match line with
        | none => if s.content h = 5 ∨ s.content h = 6 then s
            else (s.count (headBase h + Reg.HEAD_UNDERRUN) 1).raise (headBase h) Reg.HEAD_EVENT_UNDERRUN
        | some _ => s
      let px := if s.content h = 5 ∨ s.content h = 6 then List.replicate w bg
        else line.getD (List.replicate w (x.lastPixel.getD bg))
      let s := s.modHead h fun x => { x with lastPixel := px.getLast? }
      let s := if s.link h = linkActive ∨ s.link h = linkSelfRefresh ∨ (s.out h).dsiFrame then
          s.modOut h fun o => { o with sent := (List.range w).map fun i => s.stagePixel h x.cur i y (px.getD i 0) }
        else s
      s.snoopLine h y px

def execFrameStart (h : Fin 8) (t : BitVec 64) (s : State) : Host.Outcome State Fault Refusal := .next (settle s (doFrameStart s h.val t.toNat))
def execLineDue (h : Fin 8) (line : BitVec 16) (t : BitVec 64) (s : State) : Host.Outcome State Fault Refusal := .next (settle s (doLineDue s h.val line.toNat t.toNat))
def execHeadPllLock (h : Fin 8) (s : State) : Host.Outcome State Fault Refusal := .next (settle s (doPllLock s h.val))
def execVsyncInEdge (t : BitVec 64) (s : State) : Host.Outcome State Fault Refusal := .next (settle s (doVsyncIn s t.toNat))
def execGenlockRefMissing (h : Fin 8) (s : State) : Host.Outcome State Fault Refusal := .next (settle s (doRefMissing s h.val))

end Sys2Proof.Machine
end

