-- ==== Sys2Proof/Machine/Apply.lean ====
section
/-!
DEFINITION. Applying a Ringplan (R4, R12, R71 to R73, R117, R148, R172, R220, R300, R456, R472, R495): what an image changes, who must
be quiesced for it, what takes effect at once and which parts wait for a block's own boundary.
-/
namespace Sys2Proof.Machine

/-! ## What images own (R71, R73) -/

/-- The stream of a stream node. -/
def NodeRec.streamOf (r : NodeRec) : Option Nat := if r.typ = 6 ∨ r.typ = 7 then some (r.par 0 1) else none

/-- Everything with an owner in an image: kind, number, owner. -/
def Plan.owned (p : Plan) : List (Nat × Nat × Nat) :=
  ((p.heads.filter fun r => decide (r.portType ≠ 0)).map fun r => (0, r.head, r.owner)) ++ (p.layers.map fun r => (1, r.layer, r.owner)) ++
  (p.guarded.map fun r => (2, r.region, r.owner)) ++ (p.caps.map fun r => (3, r.port, r.owner)) ++ (p.touch.map fun r => (4, r.port, r.owner)) ++
  (p.haps.map fun r => (5, r.channel, r.owner)) ++
  ((p.audio.getD {}).nodes.filterMap fun r => r.streamOf.map fun m => (6, m, r.owner)) ++ p.cvus.map fun r => (7, r.unit, r.owner)

/-- Two lists with the same elements. -/
def sameSet {α : Type} [BEq α] (a b : List α) : Bool := a.all b.contains && b.all a.contains
/-- Instance, port and class of every record. -/
def Plan.defined (p : Plan) : List (Nat × Nat × Nat) := p.insts.map fun r => (r.inst, r.port, r.cls)

/-- A structure-keeping image (R71). Rests on log entry 49 (DESIGN CHOICE). -/
def structureKeeping (old new : Plan) : Bool := sameSet old.defined new.defined && sameSet old.owned new.owned

/-- What instance i has in an image. -/
def Plan.partOf (p : Plan) (i : Nat) : List (Nat × Nat × Nat) :=
  (p.defined.filter fun e => decide (e.1 = i)) ++ p.owned.filter fun e => decide (e.2.2 = i)
/-- The instances of the applied image whose ownership changes or which the new image removes (R73).
Rests on log entry 49 (DESIGN CHOICE). -/
def affected (old new : Plan) : List Nat := (old.insts.map InstRec.inst).filter fun i => !sameSet (old.partOf i) (new.partOf i)

/-- Whether the image may be applied now: a structure change needs every affected instance quiesced (R73), and the manager's port
stays (R120). Rests on log entry 49 (DESIGN CHOICE). -/
def State.mayApply (s : State) (new : Plan) : Bool :=
  if s.applied then
    decide (new.glob.managerPort = s.p.glob.managerPort) &&
      (structureKeeping s.p new || (affected s.p new).all fun i => decide (s.instState i = quiesced))
  else decide (new.glob.managerPort = 0)

/-! ## Rings follow their functions (R148) -/

/-- The ring that holds, under a new set of instances, what ring q holds now; none where its slot is gone. -/
def State.ringMoves (s : State) (insts : List InstRec) (q : Nat) : Option Nat :=
  if q < 8 * s.ports then some q
  else match s.ringOwner q with
    | some (fn, n) => ((ringTable (8 * s.ports) insts).find? fun e => decide (e.2.inst + 2 = fn) && decide (n < e.2.rings)).map fun e => e.1 + n
    | none => none

/-- Entries of a map under new keys. -/
def remapKeys {α : Type} (m : KMap α) (f : Nat → Option Nat) : KMap α :=
  m.foldl (fun (l : KMap α) e => match f e.1 with | some k => KMap.insert l k e.2 | none => l) []

/-- The key of a value in the ring frames under the new numbering, `unit` keys to an address. -/
def ringKey (f : Nat → Option Nat) (unit k : Nat) : Option Nat :=
  let a := k / unit
  let d := ringBase 1 - ringBase 0
  if ringBase 0 ≤ a ∧ a < ringBase 256 then (f ((a - ringBase 0) / d)).map fun q => (ringBase q + (a - ringBase 0) % d) * unit + k % unit else some k

def movePair (f : Nat → Option Nat) (e : Nat × Nat) : Option (Nat × Nat) := (f e.1).map fun q => (q, e.2)
def Move.ringMoves (f : Nat → Option Nat) (m : Move) : Move := { m with by_ := m.by_.bind (movePair f) }
def ClipRun.ringMoves (f : Nat → Option Nat) (c : ClipRun) : ClipRun := { c with q := if c.q < 256 then (f c.q).getD 256 else c.q }
def Holder.ringMoves (f : Nat → Option Nat) : Holder → Holder
  | .job q idx sec => match f q with
    | some r => .job r idx sec
    | none => .idle
  | h => h

/-- Every reference to a ring follows the new numbering. Rests on log entry 48 (DESIGN CHOICE). -/
def State.moveRings (s : State) (f : Nat → Option Nat) : State :=
  let v := fun {α : Type} (m : KMap α) (g : α → α) => m.map fun (e : Nat × α) => (e.1, g e.2)
  { s with
    regs := remapKeys s.regs (ringKey f 32), act := remapKeys s.act (ringKey f 32), wide := remapKeys s.wide (ringKey f 1)
    armAt := remapKeys s.armAt (ringKey f 1), rings := remapKeys s.rings f
    layers := v s.layers fun x => { x with
      commit := x.commit.bind (movePair f), move := x.move.map (Move.ringMoves f), nextMove := x.nextMove.map (Move.ringMoves f)
      aborted := x.aborted.filterMap (movePair f) }
    heads := v s.heads fun x => { x with commitBg := x.commitBg.bind (movePair f), commitGamma := x.commitGamma.bind (movePair f) }
    engines := v s.engines fun x => { x with holder := x.holder.ringMoves f, incoming := x.incoming.map (Holder.ringMoves f) }
    streams := v s.streams fun x => { x with queue := x.queue.filterMap fun b => (f b.q).map fun q => { b with q := q } }
    chimes := v s.chimes fun x => { x with
      playing := x.playing.map (ClipRun.ringMoves f), starting := x.starting.map (ClipRun.ringMoves f), waiting := x.waiting.map (ClipRun.ringMoves f) }
    cvu := v s.cvu fun x => { x with expects := x.expects.filterMap fun e => (f e.q).map fun q => { e with q := q } }
    insts := v s.insts fun x => { x with turnGfx := (f x.turnGfx).getD 0, turnCpy := (f x.turnCpy).getD 0 } }

/-! ## Instances of an image (R148, R172, R180) -/

def State.loadInst (s : State) (r : InstRec) : State :=
  let b := instBase r.inst
  s.each [(Reg.INST_ID_INSTANCE, r.inst), (Reg.INST_ID_CLASS, r.cls), (Reg.INST_ID_PORT, r.port), (Reg.INST_ID_CHIME, bitsOf r.flags 0 1),
    (Reg.INST_ID_RINGS, r.rings), (Reg.INST_ID_VECTORS, r.vectors)] fun s e => s.put b e.1 e.2

/-- A removed instance leaves nothing: its pages are scrubbed before anyone else has them (R73). -/
def State.removeInst (s : State) (i : Nat) : State :=
  let s := (s.voidWindows i).clearInst i
  let s := s.each (s.pagesOwned (16 + i)) fun s p => s.releasePage p true 0
  let s := ((s.resetRange (instBase i) 0x100).resetRange (winBase i) 0x10000).setInst i {}
  s.setFn (fnOfInst i) {}

/-- An instance that enters the structure: READY, or QUIESCED with HOST_LOST while its function is not enabled (R119, R172). -/
def State.enterInst (s : State) (i : Nat) : State :=
  if s.hostThere i then s.setInstState i ready else (s.setInstState i quiesced).put (instBase i) Reg.INST_STATUS_HOST_LOST 1

/-- The manager's and the ports' registers (R117, R120). -/
def State.loadPorts (s : State) (p : Plan) : State :=
  let m := p.glob.managerPort
  let n := fun (port : Nat) => (p.insts.filter fun r => decide (r.port = port)).length
  let s := ((s.put pciB Reg.PCI_PORT_CFG_MANAGER_PORT m).put pciB Reg.PCI_PORT_CFG_VFS_A (n 0)).put pciB Reg.PCI_PORT_CFG_VFS_B (n 1)
  (s.put pciB Reg.PCI_PORT_A_STATUS_MANAGER (1 - m)).put pciB Reg.PCI_PORT_B_STATUS_MANAGER m

/-- The instances of an image replace those in force; shares stay until a round start (R72). -/
def State.adoptInsts (s : State) (new : Plan) : State :=
  let old := s.p
  let gone := (old.insts.map InstRec.inst).filter fun i => !new.has i
  let lost := (List.range 256).filter fun q => (s.ringOwner q).isSome && (s.ringMoves new.insts q).isNone
  let s := s.each gone State.removeInst
  let s := s.each lost fun s q =>
    let s := s.each (s.ring q).fetched fun s d => s.abortDesc q d
    (s.setRing q {}).resetRange (ringBase q) (ringBase 1 - ringBase 0)
  let s := s.moveRings (s.ringMoves new.insts)
  let keep := fun (r : InstRec) => match old.inst r.inst with
    | some o => { r with gfxShare := o.gfxShare, gfxMax := o.gfxMax, cpyShare := o.cpyShare, cpyMax := o.cpyMax, dramRes := o.dramRes, dramMax := o.dramMax }
    | none => r
  let s := s.setPlan fun p => { p with insts := new.insts.map keep }
  let s := s.loadPorts new
  let s := s.each new.insts State.loadInst
  s.each (new.insts.filter fun r => !old.has r.inst) fun s r => s.enterInst r.inst

/-! ## Policies that take effect at once -/

def State.loadPolicy (s : State) (p : Plan) : State :=
  let g := p.glob
  s.each [(gfxB, Reg.GFX_L2_POLICY, g.l2Policy), (gfxB, Reg.GFX_L2_SECURE_WAYS, g.l2SecureWays), (dmcB, Reg.DMC_STATUS_ECC_ON, p.safety.ecc),
    (dmcB, Reg.DMC_PATROL_HOURS, g.patrolHours), (dmcB, Reg.DMC_PATROL_ENABLE, p.safety.ecc)] fun s e => s.put e.1 e.2.1 e.2.2

/-- Whether an image changes what a round start takes. -/
def roundChanges (old new : Plan) : Bool :=
  let v := fun (p : Plan) => p.insts.map fun r => [r.inst, r.gfxShare, r.gfxMax, r.cpyShare, r.cpyMax, r.dramRes, r.dramMax]
  decide (v old ≠ v new) || decide (old.power ≠ new.power) || decide (old.glob.bTestPm ≠ new.glob.bTestPm) || decide (old.glob.bDramPm ≠ new.glob.bDramPm) ||
    decide (old.glob.bCopyPm ≠ new.glob.bCopyPm)

/-! ## Heads -/

/-- The head of a unit's stream in an image. -/
def Plan.unitHead (p : Plan) (u : Nat) : Option Nat :=
  match p.unitPart u with
  | (some r, g) => if r.snoop = 2 then some r.arg else g.map GuardRec.head
  | _ => none
def unitChanges (old new : Plan) (u : Nat) : Bool := decide (old.unitPart u ≠ new.unitPart u)

/-- Whether an image changes something that head h takes at its latch: its records, layers on it, its regions and units.
Rests on log entry 50 (DESIGN CHOICE). -/
def State.headDue (s : State) (old new : Plan) (h : Nat) : Bool :=
  headChanges old new h || decide ((old.guarded.filter fun g => decide (g.head = h)) ≠ new.guarded.filter fun g => decide (g.head = h)) ||
    ((List.range 64).any fun k => layerChanges old new k && (decide (s.layerHead k = h) || decide ((new.layer k).head = h))) ||
    (List.range 64).any fun u => unitChanges old new u && (decide (old.unitHead u = some h) || decide (new.unitHead u = some h))

/-- A head that is in use and off starts (R263). -/
def State.startHead (s : State) (h : Nat) : State :=
  if s.p.headUsed h && !s.scans h && decide (s.rd picB Reg.PIC_STATE_STATE = 0) then s.modHead h fun x => { x with locking := true } else s

/-- Which heads have reached ACTIVE or NO_SINK since the apply began (R12): those that carry on undisturbed, and no other.
Rests on log entry 50 (DESIGN CHOICE). -/
def State.settleHeads (s : State) (old new : Plan) : State :=
  s.each (List.range 8) fun s h =>
    let l := s.link h
    let on := decide (l = linkActive) || decide (l = linkNoSink) || decide (l = linkSelfRefresh)
    s.modHead h fun x => { x with settled := on && s.scans h && !retrains (old.head h) (new.head h) }

/-! ## The parts of an apply -/

/-- Capture ports, fallback images, and units that no head carries change at once. -/
def State.loadRest (s : State) (old new : Plan) : State :=
  let ports := (List.range 4).filter fun c => decide (old.capRec c ≠ new.capRec c)
  let us := (List.range 64).filter fun u => unitChanges old new u && (old.unitHead u).isNone && (new.unitHead u).isNone
  let s := s.setPlan fun p => { p with caps := new.caps, fallback := new.fallback, safety := new.safety
                                       cvus := p.cvus.filter (fun r => !us.contains r.unit) ++ new.cvus.filter (fun r => us.contains r.unit) }
  (s.each ports State.loadCapture).each us State.loadUnit

/-- Bits of the parts that wait: heads, round, audio, touch ports and haptic channels that an image changes. -/
def State.dueParts (s : State) (old new : Plan) : List Nat :=
  ((List.range 8).filter fun h => s.headDue old new h) ++ (if roundChanges old new then [roundPart] else []) ++
  (if old.audio ≠ new.audio then [audioPart] else []) ++
  (((List.range 8).filter fun t => decide (old.touchRec t ≠ new.touchRec t)).map touchPart) ++
  ((List.range 8).filter fun a => decide (old.hapRec a ≠ new.hapRec a)).map hapPart

/-- A touch port takes its part at once: it is started or powered down (R456). -/
def State.takeTouchNow (s : State) (t : Nat) : State :=
  let s := s.takeTouch t
  let st := if (s.p.touchRec t).isSome then 1 else 0
  let s := s.put tchB Reg.TCH_STATUS_POWERED (setBit (s.rd tchB Reg.TCH_STATUS_POWERED) t (decide (st ≠ 0)))
  if s.rd (tchPB t) Reg.TCHP_STATUS_STATE = 0 ∨ st = 0 then s.put (tchPB t) Reg.TCHP_STATUS_STATE st else s

/-- A haptic channel at rest takes its part and calibrates; without a record it is powered down (R476, R479). -/
def State.takeHapNow (s : State) (a : Nat) : State :=
  let s := s.takeHap a
  if (s.p.hapRec a).isSome then s.startCalibration a hapCalibrating
  else ((s.put (hapChB a) Reg.HAPCH_STATUS_STATE hapOff).setHapOf a {})

/-- Parts whose block has no boundary to wait for. Rests on log entry 50 (DESIGN CHOICE). -/
def State.takeAtOnce (s : State) (old : Plan) (first : Bool) : State :=
  let s := s.each (List.range 8) fun s h => if (s.partDue h).isSome && !s.scans h then ((s.takeHeadPart h).1).startHead h else s
  let s := if (s.partDue roundPart).isSome && (first || !s.roundsRun) then s.takeRoundPart else s
  let s := if (s.partDue audioPart).isSome && (first || s.calIdle || old.audio.isNone) then
      match s.partDue audioPart with
      | some p => (s.loadAudio (first || old.audio.isNone) s.p.audio p.audio).partTaken audioPart
      | none => s
    else s
  let s := s.each (List.range 8) fun s t =>
    if (s.partDue (touchPart t)).isSome && ((old.touchRec t).isNone || ((s.boot.taking.getD {}).touchRec t).isNone) then s.takeTouchNow t else s
  s.each (List.range 8) fun s a =>
    let st := s.hapState a
    if (s.partDue (hapPart a)).isSome && (decide (st = hapOff) || decide (st = hapReadySt)) then s.takeHapNow a else s

/-- Eight heads that are not in use. -/
def unusedHeads : List HeadRec := (List.range 8).map fun h => { head := h }

/-- The first image: instances, ports, shares and layers as it gives them. -/
def State.applyFirst (s : State) (new : Plan) : State :=
  let p : Plan := { glob := new.glob, insts := new.insts, heads := unusedHeads, layers := new.layers, power := new.power }
  let s := State.loadPorts { s with plan := some p } new
  let s := s.each new.insts fun s r => (s.loadInst r).enterInst r.inst
  let s := (s.loadShares {} new true).each (List.range 64) fun s k => s.loadLayer {} new true k
  if s.ports = 2 then ((s.put (instBase 64) Reg.INST_ID_PF 1).put (instBase 64) Reg.INST_ID_RINGS 8).put (instBase 64) Reg.INST_ID_VECTORS 32 else s

def partBits (l : List Nat) : Nat := l.foldl (fun m b => setBit m b true) 0

/-- The parts of an image marked, with the heads, layers and blanks that wait. -/
def State.markParts (s : State) (old new : Plan) (first : Bool) : State :=
  let due := if first then (s.dueParts { heads := unusedHeads, layers := new.layers } new).filter fun b => decide (b ≠ roundPart) else s.dueParts old new
  let blanks := if first || structureKeeping old new then [] else (List.range 8).filter fun h => s.scans h && new.headUsed h &&
    (decide ((old.head h).owner ≠ (new.head h).owner) || retrains (old.head h) (new.head h))
  let s := { s with boot := { s.boot with taking := some new, parts := partBits due, blanking := partBits blanks } }
  let s := s.each (due.filter fun b => decide (b < 8)) fun s h => s.modHead h fun x => { x with planTaken := false }
  s.each ((List.range 64).filter fun k => !first && layerChanges old new k) fun s k => s.modLayer k fun x => { x with planTaken := false }

/-- What follows once no head, touch port or haptic channel has a part left. -/
def State.takeShared (s : State) (old new : Plan) : State :=
  let s := if s.boot.parts % 256 = 0 then s.takeLayers old new ((List.range 64).filter fun k => !(s.layer k).planTaken) else s
  let s := if s.boot.parts / 2 ^ 16 % 256 = 0 then s.setPlan fun p => { p with zones := new.zones } else s
  if s.boot.parts / 2 ^ 24 = 0 then s.setPlan fun p => { p with slots := new.slots } else s

/-- Everything of the image but the shares of class B, which wait for the round. Rests on log entry 48 (DESIGN CHOICE). -/
def keepShares (o n : GlobalRec) : GlobalRec := { n with bTestPm := o.bTestPm, bDramPm := o.bDramPm, bCopyPm := o.bCopyPm }

/-- The apply of a validated image begins: what has no boundary takes effect, the other parts are marked (R72, R73).
Rests on log entry 48 (DESIGN CHOICE). -/
def State.beginApply (s : State) (new : Plan) : State :=
  let first := !s.applied
  let old := s.p
  let s := if first then s.applyFirst new else s.adoptInsts new
  let s := s.settleHeads old new
  let s := s.setPlan fun p => { p with glob := keepShares p.glob new.glob }
  let s := ((s.loadPolicy new).loadRest old new).markParts old new first
  let s := s.each ((List.range 8).filter fun h => old.headUsed h && !new.headUsed h) fun s h => if s.scans h then s.headOff h else s
  let s := (s.takeAtOnce old first).takeShared old new
  (s.each (List.range 8) State.startHead).assignLook.partsLook

/-- The apply has ended: the image in force and where it came from. Rests on log entry 48 (DESIGN CHOICE). -/
def State.endApply (s : State) (source : Nat) : State :=
  (((s.put rplB Reg.RPL_STATE_SOURCE source).put rplB Reg.RPL_ACTIVE_VERSION_VERSION s.p.version).put rplB Reg.RPL_STATE_STATE 3).lostLook

end Sys2Proof.Machine
end

