-- ==== Sys2Proof/Machine/Push.lean ====
section
/-!
DEFINITION. Pushes and stores (R43, R61 to R70, R74, R116, R120, R552 to R554): the Ringplan block's operations, the firmware push,
and the steps of a store.
-/
namespace Sys2Proof.Machine

/-! ## Flash slots (R61, R63, R553) -/

/-- Where two copies of something lie in flash: the slot written first and the slot that boots first, the length of a body, the code of
the seal. -/
structure SlotPair where
  back : Nat
  front : Nat
  len : Nat
  code : Nat

def rplSlots : SlotPair := ⟨0x02000000, 0x01000000, 0xFFF000, 0x5EA10001⟩
def fwSlots : SlotPair := ⟨0x00800000, 0x00400000, 0x3FF000, 0x5EA10002⟩

/-- The seal record of an image whose header CRC is given. -/
def sealOf (code total hcrc : Nat) : List Byte :=
  let b := natLE 4 code ++ natLE 4 total ++ natLE 4 hcrc
  b ++ natLE 4 (crc32c b)

/-- Step n of R63 ends: what it leaves in flash. Rests on log entry 51 (DESIGN CHOICE). -/
def State.storeStep (s : State) (m : SlotPair) (n : Nat) (img sealRec : List Byte) : State :=
  let base := if n ≤ 4 then m.back else m.front
  match n with
  | 1 | 5 => s.flashErase (base + m.len) 4096
  | 2 | 6 => (s.flashErase base m.len).flashProgram base img
  | 4 | 8 => s.flashProgram (base + m.len) sealRec
  | _ => s

/-- A step that erases and programs is cut short: the body is erased (R64). Rests on log entry 51 (DESIGN CHOICE). -/
def State.storeCut (s : State) (m : SlotPair) (n : Nat) : State :=
  if n = 2 then s.flashErase m.back m.len else if n = 6 then s.flashErase m.front m.len else s

/-- Whether the slot that boots first holds an image under a valid seal. -/
def State.frontHolds (s : State) (m : SlotPair) (img : List Byte) (hcrc : Nat) : Bool :=
  decide (s.flashBytes m.front img.length = img) && sealOk (s.flashBytes (m.front + m.len) 16) m.code img.length hcrc

def State.inhibited (s : State) : Bool := decide (s.rd picB Reg.PIC_STATE_INHIBIT = 1)

/-! ## The firmware bundle (R552, R553) -/

/-- Rests on log entry 52 (DESIGN CHOICE). -/
def fwLengthFails (b : List Byte) (limit : Nat) : Bool :=
  let n := leAt b 8 4
  decide (n % 16 ≠ 0) || decide (n < 160) || decide (4190208 < n) || decide (limit < n) || decide (b.length < n)
/-- Rests on log entry 52 (DESIGN CHOICE). -/
def fwHeaderFails (b : List Byte) : Bool :=
  decide (leAt b 0 4 ≠ 0x57464B57) || decide (leAt b 4 2 ≠ 1) || decide (leAt b 6 2 ≠ 64) || decide (leAt b 0x3C 4 ≠ crc32c (b.take 0x3C)) ||
    decide (2 ≤ byteAt b 0x13) || !zeroAt b 0x24 24

/-- The reason code of a bundle, 0 where it passes; a push has no seal. Rests on log entry 11 (DESIGN CHOICE). -/
def State.fwCheck (s : State) (raw : List Byte) (limit : Nat) (sealRec : Option (List Byte)) : Nat :=
  let n := leAt raw 8 4
  let b := raw.take n
  if fwLengthFails raw limit then 1
  else if fwHeaderFails b then 2
  else if (match sealRec with
    | some r => !sealOk r 0x5EA10002 n (leAt b 0x3C 4)
    | none => false) then 5
  else if !Config.signatureOk 0 (b.take (n - 96)) (b.drop (n - 96)) then 6
  else if leAt b 0x10 2 ≠ 0x8840 ∨ s.rd devB Reg.DEV_ID_STEPPING < byteAt b 0x12 then 7
  else if leAt b 0x0C 4 < s.fuses.fwFloor then 8
  else 0

/-- A verified bundle starts (R553, R554). -/
def State.startFirmware (s : State) (raw : List Byte) (source : Nat) : State :=
  let b := raw.take (leAt raw 8 4)
  let s := ((s.put devB Reg.DEV_FW_VERSION_VERSION (leAt b 0x0C 4)).put devB Reg.DEV_BOOT_STATUS_RELEASE (byteAt b 0x13)).put devB Reg.DEV_BOOT_STATUS_FW_SOURCE source
  State.clearPersist { s with boot := { s.boot with fw := b } } srcBoot 6

/-! ## Ringplan operations (R60 to R70) -/

def bootDone : Nat := 1
def bootAwaitingFw : Nat := 2
def bootAwaitingStructure : Nat := 3
def State.bootState (s : State) : Nat := s.rd devB Reg.DEV_BOOT_STATUS_STATE

/-- The block takes Ringplan operations: not while the boot runs, waits for firmware, has failed or limps, nor while the Ringmaster
restarts (R37, R530, R554, R556, R557). Rests on log entry 53 (DESIGN CHOICE). -/
def State.takesPushes (s : State) : Bool :=
  (decide (s.bootState = bootDone) || decide (s.bootState = bootAwaitingStructure)) && !s.boot.rmDown && !s.pwr.off

def State.setRpl (s : State) (x : PushX) : State := { s with rpl := x }

/-- The result of an operation (R68, R69). -/
def State.putVerdict (s : State) (v : Verdict) : State :=
  (((s.put rplB Reg.RPL_RESULT_REASON v.reason).put rplB Reg.RPL_RESULT_SECTION v.sect).put rplB Reg.RPL_RESULT_SUBCODE v.sub).put
    rplB Reg.RPL_RESULT_LOC_RECORD v.rec_

/-- An operation finishes: DONE and the manager's interrupt, at every end (R70). -/
def State.rplFinish (s : State) (v : Verdict) : State :=
  let x := s.rpl
  let s := ((s.putVerdict v).setRpl {}).put rplB Reg.RPL_PUSH_STATUS_BUSY 0
  let s := s.put rplB Reg.RPL_STATE_STATE (if s.applied then 3 else 0)
  let version := if x.op = 5 then s.p.version else leAt x.image 0x0C 4
  let res := v.reason + 2 ^ 8 * v.sect + 2 ^ 24 * v.sub
  let d := natLE 4 (s.rd rplB Reg.RPL_PUSH_CMD_OP) ++ natLE 4 res ++ natLE 4 version ++ natLE 4 (s.rd rplB Reg.RPL_STATE_SOURCE)
  let s := s.stage { kind := 0x04, data := d }
  (s.put rplB Reg.RPL_PUSH_STATUS_DONE 1).mgrIrq

/-- A write of the manager to a frame that R86 leaves open reaches its block while the function answers (R134). -/
def State.mgrAny (s : State) (act : State → State) : State := if s.answers 0 then act s else s

/-- GO with an operation (R70). -/
def State.rplGoNow (s : State) (op : Nat) : State :=
  if s.rd rplB Reg.RPL_PUSH_STATUS_BUSY = 1 then s.put rplB Reg.RPL_RESULT_REASON 0x0B
  else
    let s := s.put rplB Reg.RPL_PUSH_CMD_OP op
    let n := s.rd rplB Reg.RPL_PUSH_LEN_LEN
    if !s.takesPushes then s.rplFinish { reason := 0x0A }
    else if op = 5 then (s.setRpl { phase := .check, op := op }).put rplB Reg.RPL_PUSH_STATUS_BUSY 1
    else if n < 1936 ∨ 16773120 < n then s.rplFinish { reason := 1 }
    else (s.setRpl { phase := .dma, op := op }).put rplB Reg.RPL_PUSH_STATUS_BUSY 1

def doRplGo (s : State) (op : Nat) : State := s.mgrAny fun s => s.rplGoNow op

/-- RPL_DMA_DONE (R70): the copy is checked as it is; its verdict waits for the end of the validation.
Rests on log entry 54 (DEDUCED). -/
def doRplDma (s : State) (data : List Byte) (st : ReadStatus) : State :=
  if s.rpl.phase ≠ .dma then s
  else if st ≠ .ok then s.rplFinish { reason := 0x0C }
  else
    let v := validate s data (s.rd rplB Reg.RPL_PUSH_LEN_LEN) none
    let img := data.take (leAt data 8 4)
    ((s.putVerdict v).setRpl { s.rpl with phase := .check, image := img, reason := v.reason, plan := if v.reason = 0 then some (parsePlan img) else none }).put
      rplB Reg.RPL_STATE_STATE 1

def State.verdict (s : State) : Verdict :=
  { reason := s.rd rplB Reg.RPL_RESULT_REASON, sect := s.rd rplB Reg.RPL_RESULT_SECTION, sub := s.rd rplB Reg.RPL_RESULT_SUBCODE, rec_ := s.rd rplB Reg.RPL_RESULT_LOC_RECORD }

/-- RAISE_FLOOR (R65). Rests on log entry 52 (DESIGN CHOICE). -/
def State.raiseRplFloor (s : State) : State :=
  let p := s.p
  if s.inhibited then s.rplFinish { reason := 0x0D }
  else if s.applied ∧ s.fuses.rplFloor < p.version ∧ s.frontHolds rplSlots p.image (leAt p.image 0x34 4) then
    (State.put { s with fuses := { s.fuses with rplFloor := p.version } } rplB Reg.RPL_FLOOR_FLOOR p.version).rplFinish {}
  else s.rplFinish { reason := 0x0A }

/-- A store begins, unless the write inhibit is active (R63, R64). -/
def State.rplStore (s : State) : State :=
  if s.inhibited then s.rplFinish { reason := 0x0D }
  else (s.setRpl { s.rpl with phase := .storing 1 }).put rplB Reg.RPL_STATE_STATE 4

/-- A Ringplan applies for the first time since the cold start (R550, R556). -/
def State.structureDone (s : State) : State :=
  let s := ((s.put devB Reg.DEV_BOOT_STATUS_STATE bootDone).clearPersist srcBoot 8).readyFns
  if s.rd devB Reg.DEV_BOOT_STATUS_STEP < 9 then s.put devB Reg.DEV_BOOT_STATUS_STEP 9 else s

/-- RPL_OPERATION_DONE: the stage in progress ends (R70): validation, the apply once every part is taken, or the store.
Rests on log entry 53 (DESIGN CHOICE). -/
def doRplDone (s : State) : State :=
  match s.rpl.phase with
  | .check =>
    if s.rpl.op = 5 then s.raiseRplFloor
    else if s.rpl.reason ≠ 0 then s.rplFinish s.verdict
    else if s.rpl.op = 1 then s.rplFinish {}
    else if s.rpl.op = 3 then s.rplStore
    else match s.rpl.plan with
      | some p =>
        if s.mayApply p then
          (State.setRpl (s.put rplB Reg.RPL_STATE_STATE 2) { s.rpl with phase := .applying }).beginApply p
        else s.rplFinish { reason := 0x0A }
      | none => s.rplFinish { reason := 0x0A }
  | .applying =>
    if s.boot.parts ≠ 0 then s
    else
      let s := (s.endApply 3).structureDone
      if s.rpl.op = 4 then s.rplStore else s.rplFinish {}
  | .storing n => if n = 9 then s.rplFinish {} else s
  | _ => s

/-! ## The firmware push (R554) -/

def State.setFwp (s : State) (x : PushX) : State := { s with fwp := x }
def State.fwFinish (s : State) (reason : Nat) : State :=
  let v := leAt (if s.fwp.op = 4 then s.boot.fw else s.fwp.image) 0x0C 4
  let s := ((s.put devB Reg.DEV_FW_PUSH_STATUS_REASON reason).setFwp {}).put devB Reg.DEV_FW_PUSH_STATUS_BUSY 0
  let s := s.stage { kind := 0x05, data := natLE 4 (s.rd devB Reg.DEV_FW_PUSH_CMD_OP) ++ natLE 4 reason ++ natLE 4 v }
  (s.put devB Reg.DEV_FW_PUSH_STATUS_DONE 1).mgrIrq

/-- Whether an operation is permitted in the state in force. Rests on log entry 53 (DESIGN CHOICE). -/
def State.fwPermits (s : State) (op : Nat) : Bool :=
  if op ≤ 2 then decide (s.bootState = bootAwaitingFw) else !s.boot.fw.isEmpty && s.takesPushes

def State.fwGoNow (s : State) (op : Nat) : State :=
  if s.rd devB Reg.DEV_FW_PUSH_STATUS_BUSY = 1 then s.put devB Reg.DEV_FW_PUSH_STATUS_REASON 0x0B
  else
    let s := s.put devB Reg.DEV_FW_PUSH_CMD_OP op
    let n := s.rd devB Reg.DEV_FW_PUSH_LEN_LEN
    if !s.fwPermits op then s.fwFinish 0x0A
    else if op = 4 then (s.setFwp { phase := .check, op := op }).put devB Reg.DEV_FW_PUSH_STATUS_BUSY 1
    else if 4190208 < n then s.fwFinish 1
    else (s.setFwp { phase := .dma, op := op }).put devB Reg.DEV_FW_PUSH_STATUS_BUSY 1

def doFwGo (s : State) (op : Nat) : State := s.mgrAny fun s => s.fwGoNow op

/-- Rests on log entry 54 (DEDUCED). -/
def doFwDma (s : State) (data : List Byte) (st : ReadStatus) : State :=
  if s.fwp.phase ≠ .dma then s
  else if st ≠ .ok then s.fwFinish 0x0C
  else s.setFwp { s.fwp with phase := .check, image := data.take (leAt data 8 4), reason := s.fwCheck data (s.rd devB Reg.DEV_FW_PUSH_LEN_LEN) none }

def State.fwStore (s : State) : State :=
  if s.inhibited then s.fwFinish 0x0D else s.setFwp { s.fwp with phase := .storing 1 }

/-- Step 7 begins: the secure firmware runs, and the re-plan of a cold start is due (R544, R553). -/
def State.beginStep7 (s : State) : State :=
  let s := ((s.put devB Reg.DEV_BOOT_STATUS_STEP 7).put devB Reg.DEV_BOOT_STATUS_STATE 0).put secB Reg.SEC_STATE_STATE 1
  { s with sec := { s.sec with heartbeat := s.now }, pwr := { s.pwr with replanning := true } }

/-- RUN: the bundle starts, and the boot goes on at step 7 (R554). Rests on log entry 53 (DESIGN CHOICE). -/
def State.fwRunNow (s : State) : State := (s.startFirmware s.fwp.image 3).beginStep7

/-- FW_PUSH_DONE: the stage of a firmware push ends. -/
def doFwDone (s : State) : State :=
  match s.fwp.phase with
  | .check =>
    if s.fwp.op = 4 then
      let b := s.boot.fw
      let v := leAt b 0x0C 4
      if s.inhibited then s.fwFinish 0x0D
      else if s.fuses.fwFloor < v ∧ s.frontHolds fwSlots b (leAt b 0x3C 4) then
        (State.put { s with fuses := { s.fuses with fwFloor := v } } devB Reg.DEV_FW_FLOOR_FLOOR v).fwFinish 0
      else s.fwFinish 0x0A
    else if s.fwp.reason ≠ 0 then s.fwFinish s.fwp.reason
    else if s.fwp.op = 1 then s.fwRunNow.fwFinish 0
    else if s.fwp.op = 2 then s.fwRunNow.fwStore
    else s.fwStore
  | .storing n => if n = 9 then s.fwFinish 0 else s
  | _ => s

/-! ## Steps of a store (R63, R64) -/

/-- The first check of steps 1 to 4 of R60 that a slot fails on read-back. Rests on log entry 51 (DESIGN CHOICE). -/
def State.readBack (s : State) (m : SlotPair) (n : Nat) : Nat :=
  let b := s.flashBytes (if n ≤ 4 then m.back else m.front) (min m.len (leNat (s.flashBytes ((if n ≤ 4 then m.back else m.front) + 8) 4)))
  if m.code = fwSlots.code then (if fwLengthFails b m.len then 1 else if fwHeaderFails b then 2 else 0)
  else ((no (lengthFails b m.len) { reason := 1 } <|> no (headerFails b) { reason := 2 } <|> directoryFails b <|> crcFails b).map Verdict.reason).getD 0

/-- STORE_STEP_DONE: a step ends; the read-back of steps 3 and 7 may find the slot wrong.
Rests on log entry 51 (DESIGN CHOICE). -/
def doStoreStep (s : State) (ok : Bool) : State :=
  match s.rpl.phase, s.fwp.phase with
  | .storing n, _ =>
    if 9 ≤ n then s
    else
      let img := s.rpl.image
      let s := s.storeStep rplSlots n img (sealOf rplSlots.code img.length (leAt img 0x34 4))
      let r := if n = 3 ∨ n = 7 then (if s.readBack rplSlots n ≠ 0 then s.readBack rplSlots n else if ok then 0 else 4) else 0
      if r ≠ 0 then s.rplFinish { reason := r } else s.setRpl { s.rpl with phase := .storing (n + 1) }
  | _, .storing n =>
    if 9 ≤ n then s
    else
      let img := s.fwp.image
      let s := s.storeStep fwSlots n img (sealOf fwSlots.code img.length (leAt img 0x3C 4))
      let r := if n = 3 ∨ n = 7 then (if s.readBack fwSlots n ≠ 0 then s.readBack fwSlots n else if ok then 0 else 4) else 0
      if r ≠ 0 then s.fwFinish r else s.setFwp { s.fwp with phase := .storing (n + 1) }
  | _, _ => s

/-- The write inhibit begins: a store in progress ends with FLASH_INHIBIT (R64). -/
def State.storesInhibited (s : State) : State :=
  let s := match s.rpl.phase with
    | .storing n => if n < 9 then (s.storeCut rplSlots n).rplFinish { reason := 0x0D } else s
    | _ => s
  match s.fwp.phase with
  | .storing n => if n < 9 then (s.storeCut fwSlots n).fwFinish 0x0D else s
  | _ => s

/-- The manager's port is lost: copies that have not finished fail (R70, R137). -/
def State.pushesLost (s : State) : State :=
  let s := if s.rpl.phase = .dma then s.rplFinish { reason := 0x0C } else s
  if s.fwp.phase = .dma then s.fwFinish 0x0C else s

def execValidate (s : State) : Host.Outcome State Fault Refusal := .next (settle s (doRplGo s 1))
def execApply (s : State) : Host.Outcome State Fault Refusal := .next (settle s (doRplGo s 2))
def execStore (s : State) : Host.Outcome State Fault Refusal := .next (settle s (doRplGo s 3))
def execApplyAndStore (s : State) : Host.Outcome State Fault Refusal := .next (settle s (doRplGo s 4))
def execRaiseFloor (s : State) : Host.Outcome State Fault Refusal := .next (settle s (doRplGo s 5))
/-- Rests on log entry 5 (DESIGN CHOICE). -/
def execRplDmaDone (data : List Byte) (st : ReadStatus) (s : State) : Host.Outcome State Fault Refusal := .next (settle s (doRplDma s data st))
def execRplOperationDone (s : State) : Host.Outcome State Fault Refusal := .next (settle s (doRplDone s))
def execStoreStepDone (ok : Bool) (s : State) : Host.Outcome State Fault Refusal := .next (settle s (doStoreStep s ok))
def execFwRun (s : State) : Host.Outcome State Fault Refusal := .next (settle s (doFwGo s 1))
def execFwRunAndStore (s : State) : Host.Outcome State Fault Refusal := .next (settle s (doFwGo s 2))
def execFwStore (s : State) : Host.Outcome State Fault Refusal := .next (settle s (doFwGo s 3))
def execFwRaiseFloor (s : State) : Host.Outcome State Fault Refusal := .next (settle s (doFwGo s 4))
/-- Rests on log entry 5 (DESIGN CHOICE). -/
def execFwDmaDone (data : List Byte) (st : ReadStatus) (s : State) : Host.Outcome State Fault Refusal := .next (settle s (doFwDma s data st))
def execFwPushDone (s : State) : Host.Outcome State Fault Refusal := .next (settle s (doFwDone s))

end Sys2Proof.Machine
end

