-- ==== Sys2Proof/Machine/Log.lean ====
section
/-!
DEFINITION. The event log in flash (R571 to R576, R584): sectors and records, the two phases of a record, erasing and retiring sectors,
the start-up scan, and reading a record.
-/
namespace Sys2Proof.Machine

/-! ## What lies in flash (R571, R572) -/

def logFlash : Nat := 0x03000000
def sectorAt (k : Nat) : Nat := logFlash + 4096 * k
def slotAt (k j : Nat) : Nat := sectorAt k + 64 + 64 * j

def logMagic : Nat := 0x474C4B57
def logMark : Nat := 0x4B52414D

/-- The first 52 bytes of a record under its number. -/
def LogRec.body (r : LogRec) (seq : Nat) : List Byte :=
  let b := natLE 4 seq ++ natLE 1 r.kind ++ natLE 1 r.source ++ natLE 2 r.index ++ natLE 8 r.time ++ natLE 2 r.rep ++ natLE 2 r.flags ++
    (r.data ++ natLE 28 0).take 28
  b ++ natLE 4 (crc32c b)

/-- A sector's header. -/
def sectorHeader (erases seq : Nat) : List Byte :=
  let b := natLE 4 logMagic ++ natLE 4 erases ++ natLE 4 seq
  b ++ List.replicate 48 0xFF ++ natLE 4 (crc32c b)

/-- Whether sector k has a valid header; its ERASES and SECTOR_SEQ. -/
def State.headerOf (s : State) (k : Nat) : Option (Nat × Nat) :=
  let b := s.flashBytes (sectorAt k) 64
  if leAt b 0 4 = logMagic ∧ leAt b 60 4 = crc32c (b.take 12) then some (leAt b 4 4, leAt b 8 4) else none

/-- Whether a range of flash is erased. -/
def State.blank (s : State) (a n : Nat) : Bool := !s.flash.any fun e => decide (a ≤ e.1) && decide (e.1 < a + n)

/-- Whether the slot at an address holds a valid record. -/
def State.validSlot (s : State) (a : Nat) : Bool :=
  let b := s.flashBytes a 64
  decide (leAt b 0x3C 4 = logMark) && decide (leAt b 0x30 4 = crc32c (b.take 0x30)) && (s.headerOf ((a - logFlash) / 4096)).isSome

/-- The valid records: number and address. Only slots with a programmed byte where MARK begins can be valid. -/
def State.records (s : State) : List (Nat × Nat) :=
  let at_ := (s.flash.filter fun e => decide (logFlash ≤ e.1) && decide (e.1 < logFlash + 0x400000) && decide (e.1 % 64 = 0x3C) && decide (64 ≤ e.1 % 4096)).map
    fun e => e.1 - 0x3C
  (at_.filter s.validSlot).map fun a => (leNat (s.flashBytes a 4), a)

def newest (l : List (Nat × Nat)) : Option (Nat × Nat) :=
  l.foldl (fun (m : Option (Nat × Nat)) e => match m with | some x => if x.1 < e.1 then some e else some x | none => some e) none

/-- LOG_HEAD and LOG_TAIL. -/
def State.headTail (s : State) : State :=
  let l := s.records.map Prod.fst
  (s.put logB Reg.LOG_HEAD_SEQ (l.foldl max 0)).put logB Reg.LOG_TAIL_SEQ (l.min?.getD 0)

/-! ## Writing (R572, R575) -/

def State.setLog (s : State) (x : LogX) : State := { s with log := x }

/-- A sector that failed: its MAGIC is 0 and it is skipped from then on. The write position moves on from it. -/
def State.retireSector (s : State) (k : Nat) : State :=
  let x := s.log
  let s := s.flashProgram (sectorAt k) (natLE 4 0)
  let x := { x with retired := x.retired ++ [k] }
  let x := if k = x.sector then { x with sector := x.nextSector, slot := 0, opened := x.ahead, ahead := false } else { x with ahead := false }
  ((s.setLog x).put logB Reg.LOG_STATUS_RETIRED x.retired.length).raise logB Reg.LOG_EVENT_SECTOR_RETIRED |>.headTail

/-- The write position after a record: the next slot, or the next sector. -/
def LogX.advance (x : LogX) : LogX :=
  if x.slot + 1 < 63 then { x with slot := x.slot + 1 } else { x with sector := x.nextSector, slot := 0, opened := x.ahead, ahead := false }

/-- LOG_PROGRAM_DONE: a phase of a record ends; `verified` says whether it read back right.
Rests on log entry 116 (DESIGN CHOICE). -/
def doLogProgram (s : State) (verified : Bool) : State :=
  let x := s.log
  let a := slotAt x.sector x.slot
  match s.rd logB Reg.LOG_STATUS_BUSY, x.phase, x.cur with
  | 1, .body, some r =>
    let s := (s.flashProgram a (r.body x.nextSeq)).put logB Reg.LOG_STATUS_BUSY 0
    if verified then (s.setLog { x with phase := .mark }).logKick
    else ((s.setLog { x with phase := .idle }).retireSector x.sector).logKick
  | 1, .mark, some _ =>
    let s := (s.flashProgram (a + 0x3C) (natLE 4 logMark)).put logB Reg.LOG_STATUS_BUSY 0
    if verified then
      let s := (s.setLog { x.advance with phase := .idle, cur := none, nextSeq := x.nextSeq + 1 }).count (logB + Reg.LOG_RECORDS) 1
      let s := s.put logB Reg.LOG_HEAD_SEQ x.nextSeq
      let s := if s.rd logB Reg.LOG_TAIL_SEQ = 0 then s.put logB Reg.LOG_TAIL_SEQ x.nextSeq else s
      s.logKick
    else ((s.setLog { x with phase := .idle }).retireSector x.sector).logKick
  | _, _, _ => s

/-- LOG_ERASE_DONE: the sector has its new header, or is retired. Rests on log entry 116 (DESIGN CHOICE). -/
def doLogErase (s : State) (ok : Bool) : State :=
  let x := s.log
  match s.rd logB Reg.LOG_STATUS_BUSY, x.phase with
  | 1, .erase k =>
    let s := (s.put logB Reg.LOG_STATUS_BUSY 0).count (logB + Reg.LOG_ERASES) 1
    if !ok then ((s.setLog { x with phase := .idle }).retireSector k).logKick
    else
      let n := ((s.headerOf k).map Prod.fst).getD 0
      let s := (s.flashErase (sectorAt k) 4096).flashProgram (sectorAt k) (sectorHeader (n + 1) (x.sectorSeq + 1))
      let x := { x with phase := .idle, sectorSeq := x.sectorSeq + 1 }
      let x := if k = x.sector then { x with opened := true, slot := 0 } else { x with ahead := true }
      ((s.setLog x).headTail).logKick
  | _, _ => s

/-! ## The scan (R575) -/

/-- The first of the slots of sector k from j on after which nothing is programmed. -/
def State.firstFree (s : State) (k j : Nat) : Option Nat := ((List.range 63).find? fun n => decide (j ≤ n) && s.blank (slotAt k n) (64 * (63 - n)))

/-- Records of the always-on log go into the event log (R575). Rests on log entry 116 (DESIGN CHOICE). -/
def State.aonToLog (s : State) : State :=
  let s := s.each s.pwr.aonLog fun s r => s.stageRec { r with flags := r.flags + 2 }
  { s with pwr := { s.pwr with aonLog := [] } }

/-- LOG_SCAN_DONE: the write position lies after the newest valid record. -/
def doLogScan (s : State) : State :=
  if s.rd logB Reg.LOG_STATUS_READY = 1 ∨ s.pwr.off then s
  else
    let heads := (List.range 1024).filterMap fun k => (s.headerOf k).map fun h => (h.2, k)
    let retired := (List.range 1024).filter fun k => decide (leNat (s.flashBytes (sectorAt k) 4) = 0)
    let last := newest s.records
    let k := match last with | some e => (e.2 - logFlash) / 4096 | none => 0
    let j := match last with | some e => (e.2 % 4096) / 64 | none => 0
    let x := { s.log with retired := retired, sector := k, sectorSeq := (heads.map Prod.fst).foldl max 0, nextSeq := (last.map Prod.fst).getD 0 + 1 }
    let clean := fun (k : Nat) => heads.any (fun h => decide (h.2 = k)) && s.blank (slotAt k 0) (64 * 63)
    let x := match s.firstFree k j with
      | some n => { x with slot := n, opened := heads.any fun h => decide (h.2 = k), ahead := clean x.nextSector }
      | none => { x with sector := x.nextSector, slot := 0, opened := clean x.nextSector, ahead := false }
    let s := ((s.setLog x).put logB Reg.LOG_STATUS_RETIRED retired.length).headTail
    ((s.put logB Reg.LOG_STATUS_READY 1).aonToLog).logKick

/-- A cut of the supply during a flash operation of the log: what the cells of the phase hold is open; the slot stays invalid (R572).
Rests on log entry 19 (DESIGN CHOICE), log entry 116 (DESIGN CHOICE). -/
def State.logCut (s : State) : State :=
  let x := s.log
  let a := slotAt x.sector x.slot
  let free := fun (s : State) (a n : Nat) => s.each (List.range n) fun s i =>
    let (v, s) := s.takeFree 8
    s.flashProgram (a + i) (natLE 1 v)
  match s.rd logB Reg.LOG_STATUS_BUSY, x.phase with
  | 1, .body => free s a 52
  | _, _ => s

/-! ## Reading (R576) -/

/-- LOG_RD_CMD[GO]. -/
def State.logReadNow (s : State) : State :=
  if s.rd logB Reg.LOG_RD_STATUS_BUSY = 1 then s
  else ((s.put logB Reg.LOG_RD_STATUS_BUSY 1).put logB Reg.LOG_RD_STATUS_VALID 0).put logB Reg.LOG_RD_STATUS_GONE 0

def doLogRead (s : State) : State := s.mgrAny fun s => s.logReadNow

/-- The 64 bytes of the record with a number. -/
def State.logRecord (s : State) (seq : Nat) : Option (List Byte) :=
  (s.records.find? fun e => decide (e.1 = seq)).map fun e => s.flashBytes e.2 64

/-- LOG_READ_DONE. -/
def doLogReadDone (s : State) : State :=
  if s.rd logB Reg.LOG_RD_STATUS_BUSY = 0 then s
  else
    let s := s.put logB Reg.LOG_RD_STATUS_BUSY 0
    match s.logRecord (s.rd logB Reg.LOG_RD_SEQ_SEQ) with
    | some b => (s.each (List.range 16) fun s n => s.put (logB + 4 * n) Reg.LOG_RD_DATA_DATA (leAt b (4 * n) 4)).put logB Reg.LOG_RD_STATUS_VALID 1
    | none => s.put logB Reg.LOG_RD_STATUS_GONE 1

def execLogProgramDone (verified : Bool) (s : State) : Host.Outcome State Fault Refusal := .next (settle s (doLogProgram s verified))
def execLogEraseDone (ok : Bool) (s : State) : Host.Outcome State Fault Refusal := .next (settle s (doLogErase s ok))
def execLogScanDone (s : State) : Host.Outcome State Fault Refusal := .next (settle s (doLogScan s))
def execLogRead (s : State) : Host.Outcome State Fault Refusal := .next (settle s (doLogRead s))
def execLogReadDone (s : State) : Host.Outcome State Fault Refusal := .next (settle s (doLogReadDone s))

end Sys2Proof.Machine
end

