-- ==== Sys2Proof/Machine/Tableau.lean ====
section
/-!
DEFINITION. The Tableau (R561 to R570, R582, R583): counter numbers, captures, and telemetry sweeps; and the start of a round, at which
periodic sweeps are due.
-/
namespace Sys2Proof.Machine

/-! ## Counter numbers (R561, R562) -/

/-- Counters of one kind: group, number of the first unit's first counter, stride of a unit's numbers, units, base of a unit's frame,
and the counters of a unit in order. -/
structure CountRow where
  group : Nat
  first : Nat
  stride : Nat
  units : Nat
  base : Nat → Nat
  slots : List Nat

def headOutSlots : List Nat :=
  [Reg.HEAD_UNDERRUN, Reg.HEAD_LOCK_LOSS, Reg.HEAD_SPEC_DISCARD, Reg.HEAD_RECOMPOSE, Reg.HEAD_LATE_COMMIT, Reg.HEAD_MISSED_WINDOW, Reg.HEAD_GUARD_EXCL]

/-- The counters of single blocks, by number. -/
def deviceCounters : List CountRow :=
  [⟨0, 0x000, 0, 1, fun _ => devB, [Reg.DEV_COLD_STARTS]⟩,
   ⟨0, 0x001, 0, 1, fun _ => pciB, [Reg.PCI_LINKDOWN_A, Reg.PCI_LINKDOWN_B]⟩,
   ⟨0, 0x003, 0, 1, fun _ => carB, [Reg.CAR_PREEMPT_DL, Reg.CAR_PREEMPT_QUANTUM, Reg.CAR_TEST_SLICES, Reg.CAR_PREEMPT_SLOW]⟩,
   ⟨0, 0x007, 0, 1, fun _ => tabB, [Reg.TAB_CAPTURES]⟩,
   ⟨0, 0x008, 1, 8, fun h => carB + 16 * h, [Reg.CAR_HEAD_MISS]⟩,
   ⟨0, 0x010, 0, 1, fun _ => gfxB, [Reg.GFX_DROPPED, Reg.GFX_TIMEOUTS, Reg.GFX_PRIMS, Reg.GFX_PIXELS, Reg.GFX_L2_HITS, Reg.GFX_L2_MISSES, Reg.GFX_TEX_PROBES]⟩,
   ⟨0, 0x018, 2, 2, cpyB, [Reg.CPY_BYTES, Reg.CPY_JOBS]⟩,
   ⟨0, 0x01C, 0, 1, fun _ => secB, [Reg.SEC_HANGS, Reg.SEC_HELD]⟩,
   ⟨0, 0x01E, 0, 1, fun _ => logB, [Reg.LOG_ERASES, Reg.LOG_DROPPED]⟩,
   ⟨0, 0x020, 0, 1, fun _ => calB, [Reg.CAL_PERIODS, Reg.CAL_SWAPS, Reg.CAL_OVERLOADS]⟩,
   ⟨0, 0x023, 0, 1, fun _ => dmcB, [Reg.DMC_CE_TOTAL, Reg.DMC_UE_TOTAL, Reg.DMC_PATROL_PASSES]⟩,
   ⟨0, 0x026, 0, 1, fun _ => snB, [Reg.SN_FAULTS, Reg.SN_INJECTIONS, Reg.SN_STOPS]⟩,
   ⟨0, 0x029, 1, 5, fun n => picB + 16 * n, [Reg.PIC_TIME]⟩,
   ⟨0, 0x02E, 0, 1, fun _ => picB, [Reg.PIC_WAKES, Reg.PIC_REFUSALS]⟩,
   ⟨0, 0x030, 0, 1, fun _ => blwB, [Reg.BLW_ENERGY, Reg.BLW_THROTTLE_ROUNDS, Reg.BLW_BYPASSES, Reg.BLW_BOOSTS]⟩,
   ⟨0, 0x034, 0, 1, fun _ => brkB, [Reg.BRK_COMMANDS, Reg.BRK_REFUSED]⟩,
   ⟨0, 0x036, 0, 1, fun _ => logB, [Reg.LOG_RECORDS]⟩,
   ⟨0, 0x041, 1, 26, fun n => snB + 16 * (n + 1), [Reg.SN_SOURCE_COUNT]⟩]

/-- The counters of units, by number; those of an output port follow their head's. -/
def unitCounters : List CountRow :=
  [⟨1, 0x080, 16, 8, headBase, headOutSlots⟩,
   ⟨1, 0x087, 16, 8, outB, [Reg.OUT_TRAIN_FAILS, Reg.OUT_LINK_LOSS]⟩,
   ⟨2, 0x100, 4, 4, capB, [Reg.CAP_FRAMES, Reg.CAP_BAD_FRAMES, Reg.CAP_UNSHOWN, Reg.CAP_PKT_ERR]⟩,
   ⟨3, 0x110, 4, 8, tchPB, [Reg.TCHP_REPORTS, Reg.TCHP_BAD_REPORTS, Reg.TCHP_DISCARDS, Reg.TCHP_CANCELS]⟩,
   ⟨4, 0x130, 4, 8, hapChB, [Reg.HAPCH_EFFECTS, Reg.HAPCH_RETRIGGERS, Reg.HAPCH_FAULTS, Reg.HAPCH_DROPPED]⟩,
   ⟨5, 0x150, 4, 16, coreB, [Reg.GFX_CORE_BUSY, Reg.GFX_CORE_WAVE_INSTR, Reg.GFX_CORE_TEST_RUNS]⟩,
   ⟨6, 0x190, 8, 16, chB, [Reg.DMCCH_CE, Reg.DMCCH_UE, Reg.DMCCH_REFRESHES, Reg.DMCCH_POSTPONED, Reg.DMCCH_FORCED, Reg.DMCCH_MITIGATIONS,
      Reg.DMCCH_ACTIVATES, Reg.DMCCH_G_DEFERRED]⟩,
   ⟨7, 0x210, 4, 64, layerBase, [Reg.LAYER_FETCH_ERR, Reg.LAYER_COMMITS, Reg.LAYER_SKIP_BYTES]⟩,
   ⟨8, 0x310, 2, 64, cvuB, [Reg.CVU_COMPARES, Reg.CVU_MISMATCHES]⟩,
   ⟨9, 0x390, 1, 128, fun m => calB + 16 * m, [Reg.CAL_STREAM_XRUN]⟩,
   ⟨10, 0x410, 8, 64, fun i => instBase i, [Reg.INST_DL_MISS, Reg.INST_ABORTED, Reg.INST_REFUSED]⟩,
   ⟨10, 0x413, 8, 64, fun i => carB + 64 * i, [Reg.CAR_INST_GFX_TIME, Reg.CAR_INST_PREEMPTED]⟩,
   ⟨11, 0x610, 4, 256, ringBase, [Reg.RING_DONE, Reg.RING_DROPS, Reg.RING_ABORTS]⟩]

def counterRows : List CountRow := deviceCounters ++ unitCounters

/-- A counter: its row, its unit and its slot address. -/
def counterAt (n : Nat) : Option (CountRow × Nat × Nat) :=
  counterRows.findSome? fun r =>
    if n < r.first then none
    else
      let u := if r.stride = 0 then 0 else (n - r.first) / r.stride
      let k := if r.stride = 0 then n - r.first else (n - r.first) % r.stride
      if u < r.units then (r.slots[k]?).map fun o => (r, u, r.base u + o) else none

/-- The counter numbers, ascending. -/
def counterNumbers : List Nat := (List.range 0xA10).filter fun n => (counterAt n).isSome

/-! ## Captures (R564 to R566) -/

/-- Every counter's value now. Rests on log entry 114 (DESIGN CHOICE). -/
def State.counterImage (s : State) : KMap Nat :=
  counterNumbers.filterMap fun n => match counterAt n with
    | some (_, _, a) => if s.wideAt a = 0 then none else some (n, s.wideAt a)
    | none => none

/-- A running TELEM ring. -/
def State.telemRuns (s : State) (q : Nat) : Bool := decide (s.ringType q = 7) && decide (s.ringState q = running)

/-- A sweep of ring q is due after a capture: it starts, unless the last one still runs (R570).
Rests on log entry 115 (DESIGN CHOICE). -/
def State.sweepDue (s : State) (q : Nat) : State :=
  if (s.ring q).sweep.isSome then s.raise tabB Reg.TAB_EVENT_TELEM_SKIPPED
  else s.modRing q fun r => { r with sweep := some (0, s.shadowGen), mixed := false }

/-- A running TELEM ring that sweeps after captures. -/
def State.sweepsOnCapture (s : State) (q : Nat) : Bool := s.telemRuns q && decide (s.rd (ringBase q) Reg.RING_TELEM_ON_CAPTURE = 1)

/-- TAB_LAST. -/
def State.putLastCapture (s : State) (gen source : Nat) : State := s.putWide (tabB + Reg.TAB_LAST) (s.now % 2 ^ 64 + 2 ^ 64 * gen + 2 ^ 96 * source)

/-- A capture. Rests on log entry 114 (DESIGN CHOICE). -/
def State.capture (s : State) (source : Nat) : State :=
  let gen := (s.rd tabB Reg.TAB_GEN_GEN + 1) % 2 ^ 32
  let s := { s with shadows := s.counterImage, shadowGen := gen }
  let s := (s.put tabB Reg.TAB_GEN_GEN gen).putLastCapture gen source
  let s := (s.count (tabB + Reg.TAB_CAPTURES) 1).raise tabB Reg.TAB_EVENT_CAPTURED
  if source = 2 then s else s.each ((List.range 256).filter s.sweepsOnCapture) State.sweepDue

/-- The pending timed capture is taken (R566); late where its time has passed. -/
def State.captureAt (s : State) (late : Bool) : State :=
  let s := (s.put tabB Reg.TAB_CTRL_AT_PENDING 0).capture 1
  if late then s.raise tabB Reg.TAB_EVENT_AT_LATE else s

def State.atPending (s : State) : Bool := decide (s.rd tabB Reg.TAB_CTRL_AT_PENDING = 1)

/-- A timed capture whose time a step of the timebase, or a sleep, has passed over. -/
def State.lateCapture (s : State) : State :=
  if s.atPending ∧ s.tabAt ≤ s.now ∧ s.rd picB Reg.PIC_STATE_STATE ≤ 1 then s.captureAt true else s

def doTabCapture (s : State) : State := s.mgrAny fun s => s.capture 0

def State.atArmNow (s : State) : State :=
  let t := s.rd tabB Reg.TAB_AT_LO_TIME + 2 ^ 32 * s.rd tabB Reg.TAB_AT_HI_TIME
  State.lateCapture (State.put { s with tabAt := t } tabB Reg.TAB_CTRL_AT_PENDING 1)

def doAtArm (s : State) : State := s.mgrAny fun s => s.atArmNow

def State.atCancelNow (s : State) : State := s.put tabB Reg.TAB_CTRL_AT_PENDING 0

def doAtCancel (s : State) : State := s.mgrAny fun s => s.atCancelNow

/-- TAB_AT_REACHED: while the fabric is stopped the capture waits for the wake. -/
def doAtReached (s : State) : State :=
  if !s.atPending ∨ s.pwr.off then s
  else
    let s := s.reach s.tabAt
    if s.rd picB Reg.PIC_STATE_STATE = 2 ∨ s.rd picB Reg.PIC_STATE_STATE = 3 then s else s.captureAt false

/-! ## Sweeps (R568 to R570) -/

/-- The owner of a counter's unit, for the groups that are visible to owners. -/
def State.counterOwner (s : State) (g u : Nat) : Option Nat :=
  let o := fun (n : Option Nat) => n.bind fun n => if n < 64 then some n else none
  match g with
  | 1 => o (some (s.p.head u).owner)
  | 2 => o ((s.p.capRec u).map CapRec.owner)
  | 3 => o ((s.p.touchRec u).map TouchRec.owner)
  | 4 => o ((s.p.hapRec u).map HapRec.owner)
  | 7 => o (some (s.p.layer u).owner)
  | 8 => o ((s.p.cvuRec u).map CvuRec.owner)
  | 9 => ((s.p.audio.getD {}).nodes.find? fun n => decide (n.streamOf = some u)).bind fun n => o (some n.owner)
  | 10 => o (some u)
  | _ => none

/-- Whether counter n is visible to a function (R561): SPEC_DISCARD and RECOMPOSE of a head are the manager's. -/
def State.counterVisible (s : State) (fn n : Nat) : Bool :=
  match counterAt n with
  | none => false
  | some (r, u, a) =>
    if fn = 0 then true
    else if r.group = 11 then
      match s.ringOwner u with
      | some (f, _) => decide (f = fn) || (decide (fn = 1) && decide (2 ≤ f) && decide (s.fnPort f = s.fnPort 1))
      | none => false
    else if r.group = 1 ∧ (a = headBase u + Reg.HEAD_SPEC_DISCARD ∨ a = headBase u + Reg.HEAD_RECOMPOSE) then false
    else match s.counterOwner r.group u with
      | some i => decide (fnOfInst i = fn) || (decide (fn = 1) && decide (s.fnPort (fnOfInst i) = s.fnPort 1))
      | none => false

/-- The counters of a sweep of ring q from number n on. Rests on log entry 115 (DESIGN CHOICE). -/
def State.sweepRest (s : State) (q n : Nat) : List Nat :=
  let fn := ((s.ringOwner q).map Prod.fst).getD 0
  let groups := s.rd (ringBase q) Reg.RING_TELEM_GROUPS
  (List.range 0xA10).filter fun k => decide (n ≤ k) && (match counterAt k with | some (r, _, _) => bitSet groups r.group | none => false) && s.counterVisible fn k

/-- The next record of a sweep; false where the sweep has ended. -/
def State.sweepRecord (s : State) (q : Nat) : State × Bool :=
  match (s.ring q).sweep with
  | none => (s, false)
  | some (n, gen) =>
    let l := s.sweepRest q n
    let five := l.take 5
    let last := decide (l.length ≤ 5)
    let mixed := (s.ring q).mixed || (decide (n ≠ 0) && decide (gen ≠ s.shadowGen))
    let entries := five.flatMap fun k => natLE 6 (KMap.get (fun _ => 0) s.shadows k) ++ natLE 2 k
    let pf := (if last then 1 else 0) + (if last && mixed then 2 else 0)
    let bytes := natLE 4 s.shadowGen ++ natLE 1 five.length ++ natLE 1 pf ++ natLE 2 0 ++ entries
    let s := if five = [] then s else s.deliver q 1 bytes false (some (s.wideAt (tabB + Reg.TAB_LAST) % 2 ^ 64))
    let s := s.modRing q fun r => { r with mixed := mixed && !last, sweep := if last then none else some ((five.getLast?.getD 0) + 1, s.shadowGen) }
    (s, !last)

/-- TELEM_SWEEP: up to `n` records of the sweep in progress are written. Rests on log entry 115 (DESIGN CHOICE). -/
def doTelemSweep (s : State) (q : Nat) : Nat → State
  | 0 => s
  | n + 1 =>
    if !s.telemRuns q then s.modRing q fun r => { r with sweep := none }
    else
      let (s, more) := s.sweepRecord q
      if more then doTelemSweep s q n else s

/-- Periodic sweeps that the round that starts makes due, after one capture of SOURCE 2 (R565, R568).
Rests on log entry 42 (DESIGN CHOICE). -/
def State.sweepRound (s : State) : State :=
  let round := s.now / 1000000
  let due := (List.range 256).filter fun q => s.telemRuns q && (match (s.ring q).sweepNext with | some r => decide (r ≤ round) | none => false)
  if due = [] then s
  else
    let s := s.capture 2
    s.each due fun s q =>
      let p := s.rd (ringBase q) Reg.RING_TELEM_PERIOD
      (s.modRing q fun r => { r with sweepNext := if p = 0 then none else some (round + p) }).sweepDue q

/-! ## The start of a round -/

/-- ROUND_START (R30): the timebase has reached the next whole millisecond. Rests on log entry 114 (DESIGN CHOICE). -/
def doRoundStart (s : State) (m : Measure) : State :=
  if s.pwr.off then s
  else
    let s := s.passTo s.nextMs
    let s := if s.roundsRun then s.sweepRound else s
    s.roundBody m

def execRoundStart (m : Measure) (s : State) : Host.Outcome State Fault Refusal := .next (settle s (doRoundStart s m))
def execTabCapture (s : State) : Host.Outcome State Fault Refusal := .next (settle s (doTabCapture s))
def execTabAtArm (s : State) : Host.Outcome State Fault Refusal := .next (settle s (doAtArm s))
def execTabAtCancel (s : State) : Host.Outcome State Fault Refusal := .next (settle s (doAtCancel s))
def execTabAtReached (s : State) : Host.Outcome State Fault Refusal := .next (settle s (doAtReached s))
def execTelemSweep (q : Fin 256) (n : Fin 512) (s : State) : Host.Outcome State Fault Refusal := .next (settle s (doTelemSweep s q.val n.val))

end Sys2Proof.Machine
end

