-- ==== Sys2Proof/Machine/Boot.lean ====
section
/-!
DEFINITION. What resets the device (R103, R132, R516, R521) and the cold start (R61, R62, R376 to R378, R515, R530 to R533, R550 to R558).
-/
namespace Sys2Proof.Machine

/-! ## What a reset of the device leaves -/

/-- Registers that a reset keeps: whole frames, and offsets of frames. -/
def inRange (lo n a : Nat) : Bool := decide (lo ≤ a) && decide (a < lo + n)

/-- Addresses of Piccolo's frame (R548), and of what the always-on log keeps: degradation, guardbands, retired points (R546).
Rests on log entry 110 (DESIGN CHOICE). -/
def alwaysOn (a : Nat) : Bool := inRange picB 0x1000 a || inRange (blwB + 0x20) 8 a || inRange (blwB + 0x200) 20 a

/-- Addresses of what a cold start alone resets: the start-up registers (R558), the Tableau (R564), the slots' results and the floor
(R69), the cores that failed a test (R350), and the ports' link states. Rests on log entry 110 (DESIGN CHOICE). -/
def coldOnly (a : Nat) : Bool :=
  inRange devB 0x2C a || inRange (devB + 0x50) 8 a || inRange (devB + 0x60) 0x20 a || inRange tabB 0x1000 a || inRange rplB 4 a || inRange (rplB + 8) 4 a ||
    inRange (rplB + 0x30) 4 a || inRange pciB 0x18 a || (List.range 16).any fun n => inRange (coreB n) 4 a

/-- Every block of the core at reset (R103): the commands that wait, the memories outside, the flash, the fuses, the pins and the
always-on domain stay. Rests on log entry 44 (DESIGN CHOICE). -/
def State.coreReset (s : State) (keep : Nat → Bool) : State :=
  { ({} : State) with
    pending := s.pending, freeCtr := s.freeCtr, now := s.now, hostA := s.hostA, hostB := s.hostB, flash := s.flash, msiSent := s.msiSent
    portA := s.portA, portB := s.portB, time := s.time, fuses := s.fuses, pwr := s.pwr
    regs := s.regs.filter fun e => keep (e.1 / 32)
    wide := s.wide.filter fun e => keep e.1 }

/-- A core that a test has taken out of service stays out (R350). -/
def State.keptEngines (s : State) : KMap EngineX :=
  s.engines.filterMap fun e => if e.2.outOfService then some (e.1, { outOfService := true }) else none

/-- VDD_CORE goes off for DEEP STANDBY (R516, R521): the retained segments, their page entries and the Ringplan stay; `dramLost` where
PGOOD_3 fell. Rests on log entry 44 (DESIGN CHOICE), log entry 110 (DESIGN CHOICE). -/
def State.deepReset (s : State) (dramLost : Bool) : State :=
  let mask := (s.p.power).retainMask
  let keep := fun (a : Nat) => !dramLost && s.segmentKept mask a
  let usable := s.rd dmcB Reg.DMC_USABLE_MIB
  let two := s.rd dmcB Reg.DMC_STATUS_TWO_RANKS
  let t := (s.logCut).coreReset fun a => alwaysOn a || coldOnly a
  let t := { t with
    dram := s.dram.filter fun e => keep e.1
    dramx := { rows := s.dramx.rows, poison := s.dramx.poison.filter fun e => keep (64 * e.1) }
    pot := s.pot.filter fun e => keep (4096 * e.1)
    engines := s.keptEngines
    shadows := s.shadows, shadowGen := s.shadowGen, tabAt := s.tabAt
    boot := { retained := if dramLost then none else s.plan, fw := if dramLost then [] else s.boot.fw }
    sn := { hold := s.sn.hold, aon := s.sn.aon } }
  (t.put dmcB Reg.DMC_USABLE_MIB usable).put dmcB Reg.DMC_STATUS_TWO_RANKS two

/-! ## Failures (R530, R556) -/

def bootFailed : Nat := 4
def bootLimp : Nat := 5

/-- BOOT is recorded with the step as INDEX, and logged (R556). -/
def State.bootFault (s : State) (step : Nat) : State :=
  s.fault srcBoot { index := step }

/-- DEV_BOOT_FAIL, which shows the first failure, and its log record. -/
def State.putBootFail (s : State) (step reason detail detail2 : Nat) : State :=
  let s := if s.rd devB Reg.DEV_BOOT_FAIL_STEP ≠ 0 then s
    else s.each [(Reg.DEV_BOOT_FAIL_STEP, step), (Reg.DEV_BOOT_FAIL_REASON, reason), (Reg.DEV_BOOT_FAIL_DETAIL, detail), (Reg.DEV_BOOT_FAIL_DETAIL2, detail2)]
      fun s e => s.put devB e.1 e.2
  let w := step + 2 ^ 8 * reason + 2 ^ 16 * detail + 2 ^ 24 * detail2
  s.stage { kind := 0x0B, data := natLE 4 w }

/-- Start-up stops in a state of DEV_BOOT_STATUS; the manager's function answers (R116). -/
def State.bootStop (s : State) (st step reason detail detail2 : Nat) : State :=
  ((s.put devB Reg.DEV_BOOT_STATUS_STATE st).bootFault step).putBootFail step reason detail detail2 |>.readyFns

/-- PIC_FAIL. -/
def State.putPicFail (s : State) (step rail attempts : Nat) : State :=
  ((s.put picB Reg.PIC_FAIL_STEP step).put picB Reg.PIC_FAIL_RAIL rail).put picB Reg.PIC_FAIL_ATTEMPTS attempts

/-- The POWER record of R573. -/
def State.powerRecord (s : State) : LogRec :=
  let w := s.rd picB Reg.PIC_FAIL_STEP + 8 * s.rd picB Reg.PIC_FAIL_RAIL + 64 * s.rd picB Reg.PIC_FAIL_ATTEMPTS
  { kind := 0x03, data := natLE 4 w ++ natLE 4 s.pwr.pgood }

/-- Piccolo's state and since when. -/
def State.setPower (s : State) (st : Nat) : State := State.put { s with pwr := { s.pwr with since := s.now } } picB Reg.PIC_STATE_STATE st

/-- LIMP (R530): the Ringmaster runs from ROM, and nothing that a Ringplan configures is left.
Rests on log entry 109 (DESIGN CHOICE). -/
def State.enterLimp (s : State) (step reason : Nat) : State :=
  let s := s.coreReset fun a => (alwaysOn a || coldOnly a) && !inRange rplB 4 a
  let s := State.setPower { s with pwr := { s.pwr with waking := 0, wakeFrom := 0, sequencing := false }, sn := { s.sn with hold := false } } 4
  (s.bootStop bootLimp step reason 0 0).stage s.powerRecord

/-! ## Rails (R513, R515) -/

/-- The enables of a power state; those of OFF are low. -/
def enablesOf (st : Nat) : Nat := match st with | 0 => 0x3F | 1 => 0x3F | 2 => 0x0D | 3 => 0x08 | 4 => 0x3F | _ => 0
def railOrder : List Nat := [2, 0, 1, 3, 4, 5]

/-- The enables driven as a state asks; a rail that is lowered has no PGOOD. -/
def State.driveRails (s : State) (m : Nat) : State :=
  { s with pwr := { s.pwr with enables := m, pgood := (List.range 6).foldl (fun g n => if bitSet m n then g else setBit g n false) s.pwr.pgood } }

/-- The first rail in order that is not up. -/
def PwrX.nextRail (x : PwrX) : Option Nat := railOrder.find? fun n => !(bitSet x.enables n && bitSet x.pgood n)

/-! ## The cold start (R550) -/

def State.bootStep (s : State) : Nat := s.rd devB Reg.DEV_BOOT_STATUS_STEP
def State.booting (s : State) : Bool := decide (s.bootState = 0) && !s.pwr.off
def State.setBootStep (s : State) (n : Nat) : State := s.put devB Reg.DEV_BOOT_STATUS_STEP n

/-- Step 2 begins: the cold start is counted. Rests on log entry 113 (DESIGN CHOICE). -/
def State.beginStep2 (s : State) : State :=
  let s := (s.put pciB Reg.PCI_PORT_CFG_LANE_MODE s.fuses.laneMode).setBootStep 2
  State.count { s with pwr := { s.pwr with oscTries := 0, railTries := 0 } } (devB + Reg.DEV_COLD_STARTS) 1

/-- A cold start from step 2 (R550, R557): a device reset, or a wake that finds no image it may use (R521). -/
def State.coldStart (s : State) : State :=
  let starts := s.wideAt (devB + Reg.DEV_COLD_STARTS)
  let s := (s.logCut).coreReset fun a => alwaysOn a
  let port := fun (x : PortX) => ({ perst := x.perst } : PortX)
  let s := { s with portA := port s.portA, portB := port s.portB
                    pwr := { s.pwr with target := none, parked := 0, heldWake := 0, waking := 0, wakeFrom := 5, sequencing := false, railWait := false } }
  let s := s.each [(s.portA.perst, Reg.PCI_PORT_A_STATUS_STATE), (s.portB.perst, Reg.PCI_PORT_B_STATUS_STATE)] fun s e => if e.1 then s.put pciB e.2 6 else s
  let s := ((s.putWide (devB + Reg.DEV_COLD_STARTS) starts).put picB Reg.PIC_STATE_ENTRY 0).setPower 0
  s.beginStep2

/-- Step 4 begins with the last PGOOD; a rail that failed the start before is reported (R556). -/
def State.beginStep4 (s : State) : State :=
  let s := s.setBootStep 4
  match s.pwr.bootFail with
  | some n =>
    let s := ((s.putPicFail 3 n 3).bootFault 3).putBootFail 3 2 n 0
    let s := s.clearPersist srcBoot 3
    { s with pwr := { s.pwr with bootFail := none } }
  | none => s

/-- The main fuse bank: identity, floors, debug counter, and the voltages of the die (R111, R416, R534, R544, R550).
Rests on log entry 6 (DESIGN CHOICE), log entry 113 (DESIGN CHOICE). -/
def State.readFuses (s : State) : State :=
  let f := s.fuses
  let s := s.each [(devB, Reg.DEV_ID_GRADE, f.grade), (devB, Reg.DEV_FW_FLOOR_FLOOR, f.fwFloor), (rplB, Reg.RPL_FLOOR_FLOOR, f.rplFloor), (secB, Reg.SEC_STATE_DEBUG_COUNTER, f.debugCounter),
    (blwB, Reg.BLW_VOLT_G_GFX, s.pwr.gGfx), (blwB, Reg.BLW_VOLT_G_CORE, s.pwr.gCore)] fun s e => s.put e.1 e.2.1 e.2.2
  s.pointsLook

/-- Step 5 begins: training (R376). -/
def State.beginStep5 (s : State) : State := ((s.readFuses).setBootStep 5).put dmcB Reg.DMC_STATUS_STATE 1

/-- The body of a copy or slot, as long as its TOTAL_LEN says where that fits. -/
def State.slotBody (s : State) (base len : Nat) : List Byte :=
  let n := leNat (s.flashBytes (base + 8) 4)
  s.flashBytes base (if n ≤ len then max n 64 else 64)

/-- The reason of a firmware copy. -/
def State.copyReason (s : State) (base : Nat) : Nat := s.fwCheck (s.slotBody base fwSlots.len) fwSlots.len (some (s.flashBytes (base + fwSlots.len) 16))

/-- Step 6: copy 0, then copy 1; with neither the device waits for firmware (R553). -/
def State.loadFirmware (s : State) : State :=
  let a := s.copyReason fwSlots.front
  if a = 0 then (s.startFirmware (s.slotBody fwSlots.front fwSlots.len) 1).beginStep7
  else
    let b := s.copyReason fwSlots.back
    if b = 0 then (s.startFirmware (s.slotBody fwSlots.back fwSlots.len) 2).beginStep7
    else s.bootStop bootAwaitingFw 6 a 0 b

/-- A core whose test slice failed in step 7 (R350, R555): its group leaves service, and the boot continues. -/
def State.coreFailed (s : State) (n : Nat) : State :=
  let s := ((s.put (coreB n) Reg.GFX_CORE_STATUS_TEST_FAILED 1).raise (coreB n) Reg.GFX_CORE_EVENT_TEST_FAIL).raise gfxB Reg.GFX_EVENT_TEST_FAIL
  (((s.modEngine (n / 4) fun x => { x with outOfService := true }).fault srcShader { index := n }).engineLook)

/-- The verdict of a slot (R60, R61). -/
def State.slotVerdict (s : State) (base : Nat) : Verdict :=
  validate s (s.slotBody base rplSlots.len) rplSlots.len (some (s.flashBytes (base + rplSlots.len) 16))

/-- A slot's image is applied. -/
def State.applySlot (s : State) (base source : Nat) : State :=
  let b := s.slotBody base rplSlots.len
  ((s.beginApply (parsePlan (b.take (leAt b 8 4)))).endApply source).structureDone

/-- Step 8: slot A, then slot B; with neither the device waits for a structure (R62, R69). -/
def State.loadStructure (s : State) : State :=
  let a := s.slotVerdict rplSlots.front
  let s := (s.put rplB Reg.RPL_SLOT_STATUS_A_REASON a.reason).put rplB Reg.RPL_SLOT_STATUS_A_SUBCODE a.sub
  if a.reason = 0 then s.applySlot rplSlots.front 1
  else
    let b := s.slotVerdict rplSlots.back
    let s := (s.put rplB Reg.RPL_SLOT_STATUS_B_REASON b.reason).put rplB Reg.RPL_SLOT_STATUS_B_SUBCODE b.sub
    if b.reason = 0 then s.applySlot rplSlots.back 2 else s.bootStop bootAwaitingStructure 8 a.reason 0 0

/-- BOOT_STEP_DONE (R550, R555, R556). Steps 2, 3 and 5 end with events of their own.
Rests on log entry 8 (DESIGN CHOICE), log entry 112 (DESIGN CHOICE). -/
def doBootStep (s : State) (r : BootResult) : State :=
  if !s.booting then s
  else match s.bootStep, r with
  | 1, .ok => s.beginStep2
  | 4, .ok => s.beginStep5
  | 4, .pllUnlocked => s.enterLimp 4 1
  | 4, .fuseCheck => s.bootStop bootFailed 4 3 0 0
  | 6, .ok => s.loadFirmware
  | 7, .ok => if s.pwr.replanning then s else State.setBootStep { s with sn := { s.sn with hold := false }, pwr := { s.pwr with wakeFrom := 0 } } 8
  | 7, .testFailed t => s.bootStop bootFailed 7 3 t.toNat 0
  | 7, .coreFailed n => s.coreFailed n.val
  | 8, .ok => s.loadStructure
  | _, _ => s

/-- The rails of a sequence are up: step 3 of the cold start ends. Wakes continue elsewhere. -/
def State.bootRails (s : State) : State := if s.booting ∧ s.bootStep = 3 then s.beginStep4 else s

end Sys2Proof.Machine
end

