-- ==== Sys2Proof/Machine/Power.lean ====
section
/-!
DEFINITION. Piccolo (R513 to R533, R542, R547, R588): DOZE, the sleep negotiation, wake sources and wakes, rails, the write inhibit, and
VDD_AON.
-/
namespace Sys2Proof.Machine

def State.powerState (s : State) : Nat := s.rd picB Reg.PIC_STATE_STATE
def State.entryPhase (s : State) : Nat := s.rd picB Reg.PIC_STATE_ENTRY
def State.setEntry (s : State) (e : Nat) : State := s.put picB Reg.PIC_STATE_ENTRY e
def State.modPwr (s : State) (f : PwrX → PwrX) : State := { s with pwr := f s.pwr }

/-- The POWER section in force; in DEEP STANDBY that of the retained Ringplan. -/
def State.powerRec (s : State) : PowerRec := ((s.plan <|> s.boot.retained).getD {}).power

/-- Start-up has ended in a state that power requests may leave. Rests on log entry 113 (DESIGN CHOICE). -/
def State.powerReady (s : State) : Bool := s.started && decide (s.bootState ≤ 3)

/-! ## Heads and capture ports over sleep (R517, R518, R526) -/

def State.capDown (s : State) (c : Nat) : State := ((s.put (capB c) Reg.CAP_STATUS_STATE capOff).setCap c {}).clearPersist srcCapture c

/-- Capture ports power down, and heads that wait for their pixel PLL stay off; heads that scan out go OFF at their next frame. -/
def State.screensDown (s : State) : State :=
  (s.each (List.range 4) State.capDown).each (List.range 8) fun s h => s.modHead h fun x => { x with locking := false }

/-- In ON, heads leave OFF and capture ports wait for frames. -/
def State.screensUp (s : State) : State :=
  if s.powerState ≠ 0 then s
  else
    let caps := (List.range 4).filter fun c => (s.p.capRec c).isSome && decide (s.capState c = capOff)
    (s.each caps State.loadCapture).each (List.range 8) State.startHead

/-! ## DOZE (R517, R518) -/

def State.enterDoze (s : State) : State :=
  if s.powerState = 0 ∧ s.powerReady then ((s.setPower 1).screensDown).raise picB Reg.PIC_EVENT_DOZE else s

/-- A wake has reached ON (R523, R548). -/
def State.wakeDone (s : State) (src : Nat) : State :=
  let s := (s.setPower 0).put picB Reg.PIC_STATE_WAKE_CAUSE src
  (s.count (picB + Reg.PIC_WAKES) 1).raise picB Reg.PIC_EVENT_WAKE

def State.leaveDoze (s : State) (src : Nat) : State := (s.wakeDone src).screensUp

def doReqDoze (s : State) : State := s.mgrAny State.enterDoze

/-- DOZE_IDLE_TIMEOUT: DOZE_MS without an active head or a running capture port. -/
def doDozeIdle (s : State) : State :=
  let busy := ((List.range 8).any fun h => decide (s.link h = linkActive) || decide (s.link h = linkSelfRefresh)) ||
    (List.range 4).any fun c => decide (s.capState c = capRunning)
  if s.powerRec.dozeMs = 0 ∨ busy then s else s.enterDoze

/-! ## The sleep negotiation (R519, R526 to R529) -/

/-- A port is in L2, lost, or not there. -/
def State.portAway (s : State) (p : Port) : Bool :=
  let st := s.rd pciB (match p with | .a => Reg.PCI_PORT_A_STATUS_STATE | .b => Reg.PCI_PORT_B_STATUS_STATE)
  (s.portX p).inL2 || (s.portX p).cutOff || !(decide (st = 2) || decide (st = 3))
def State.portList (s : State) : List Port := if s.ports = 2 then [.a, .b] else [.a]

/-- What a block answers when it is asked. -/
inductive Answer where
  | agree | refuse (reason : Nat) | later

def refuseIf (c : Bool) (reason : Nat) : Answer := if c then .refuse reason else .agree

def State.rmBusy (s : State) : Bool :=
  let st := s.rd rplB Reg.RPL_STATE_STATE
  decide (st = 1) || decide (st = 2) || decide (st = 4) || s.boot.rmDown
def State.enginesBusy (s : State) : Bool :=
  ((List.range 256).any fun q => decide (s.fill q ≠ 0)) || (groupList ++ copyList).any fun e => decide ((s.engine e).holder ≠ .idle)
/-- While the secure world does not run, the secure core agrees. -/
def State.secureBusy (s : State) (declines : Bool) : Bool :=
  decide (s.rd secB Reg.SEC_STATE_STATE = 1) &&
    (declines || s.secureRuns || allCallers.any fun c => decide (s.rd (callBase c) Reg.CALL_STATUS_BUSY = 1))
def State.calBusy (s : State) : Bool :=
  (s.chimes.any fun e => e.2.playing.isSome || e.2.starting.isSome || e.2.waiting.isSome) ||
    (List.range 128).any fun m => decide (s.rd (calB + 4 * m) Reg.CAL_STREAM_STATUS_STATE ≠ 0)
def State.hapBusy (s : State) : Bool :=
  (List.range 8).any fun a => !([hapOff, hapReadySt, hapFaulted].contains (s.hapState a))
def State.touchBusy (s : State) : Bool := s.tch.any fun e => !e.2.contacts.isEmpty
def State.headsDown (s : State) : Bool := !(List.range 8).any s.scans
def State.logBusy (s : State) : Bool := decide (s.rd logB Reg.LOG_STATUS_BUSY = 1) || s.inhibited

/-- The answer of block n (R526). Rests on log entry 107 (DESIGN CHOICE). -/
def State.blockAnswer (s : State) (n : Nat) (declines : Bool) : Answer :=
  match n with
  | 1 => refuseIf (s.portList.any fun p => !s.portAway p) 1
  | 2 => refuseIf s.rmBusy 2
  | 3 => refuseIf s.enginesBusy 3
  | 4 => refuseIf (s.secureBusy declines) 4
  | 5 => refuseIf s.calBusy 5
  | 6 => refuseIf s.hapBusy 6
  | 7 => refuseIf s.touchBusy 7
  | 8 => if s.headsDown then .agree else .later
  | 9 => refuseIf s.logBusy 9
  | _ => .agree

/-- Accepted writes complete, and the ranks enter self-refresh: with PASR for DEEP STANDBY (R382, R383, R389). -/
def State.dramSleep (s : State) (deep : Bool) : State :=
  if s.rd dmcB Reg.DMC_STATUS_STATE ≠ 3 then s
  else
    let s := s.each (List.range 16) fun s c =>
      let l := (s.chan c).queue ++ (s.chan c).held
      let s := s.each (l.filter QReq.write) fun s r => s.dramWrite r.addr r.data
      (s.modChan c fun x => { x with queue := [], held := [] }).selfRefresh c (if deep then 3 else 2)
    s.put dmcB Reg.DMC_STATUS_STATE 4

/-- Block n parks (R526); with the last one the point of no return is passed (R528). -/
def State.park (s : State) (n : Nat) : State :=
  let s := s.modPwr fun x => { x with parked := n }
  match n with
  | 6 => s.each (List.range 8) fun s a => s.modHapOf a fun x => { x with enable := false }
  | 7 => (List.range 8).foldl (fun s h => s.modHead h fun x => { x with locking := false }) s
  | 8 => s.screensDown
  | 10 => (s.dramSleep (decide (s.pwr.target = some 3))).setEntry 2
  | _ => s

/-- Parked blocks unpark in reverse order (R527). -/
def State.unpark (s : State) : State := ((s.modPwr fun x => { x with parked := 0 }).screensUp).logKick.select

/-- The request ends. -/
def State.endRequest (s : State) : State := ((s.modPwr fun x => { x with target := none, inARow := 0 }).setEntry 0).unpark

/-- A refusal (R527): the back-off is 10 ms, doubled at each refusal in a row up to 1 s. -/
def State.sleepRefuse (s : State) (block reason : Nat) : State :=
  let n := min (s.pwr.inARow + 1) 65535
  let wait := min 1000 (10 * 2 ^ (n - 1))
  let s := s.modPwr fun x => { x with inARow := n, retryAt := s.now + wait * 1000000 }
  let s := ((s.put picB Reg.PIC_REFUSAL_BLOCK block).put picB Reg.PIC_REFUSAL_REASON reason).put picB Reg.PIC_REFUSAL_IN_A_ROW n
  let s := ((s.setEntry 3).count (picB + Reg.PIC_REFUSALS) 1).raise picB Reg.PIC_EVENT_SLEEP_REFUSED
  (s.stage { kind := 0x02, data := natLE 4 (block + 2 ^ 8 * reason + 2 ^ 16 * n) }).unpark

/-- The first phase begins: block 1 is asked. -/
def State.beginEntry (s : State) : State := (s.modPwr fun x => { x with parked := 0 }).setEntry 1

/-- A request to enter STANDBY (2) or DEEP STANDBY (3); one that stands takes the newer target.
Rests on log entry 107 (DESIGN CHOICE). -/
def State.requestSleep (s : State) (target : Nat) : State :=
  if !s.powerReady ∨ s.entryPhase = 2 ∨ s.pwr.waking ≠ 0 ∨ target ≤ s.powerState then s
  else
    let s := s.modPwr fun x => { x with target := some target }
    if s.entryPhase = 0 then (s.modPwr fun x => { x with inARow := 0 }).beginEntry else s

def doReqStandby (s : State) : State := s.mgrAny fun s => s.requestSleep 2
def doReqDeep (s : State) : State := s.mgrAny fun s => s.requestSleep 3
/-- Rests on log entry 107 (DESIGN CHOICE). -/
def State.cancelNow (s : State) : State := if s.entryPhase = 1 ∨ s.entryPhase = 3 then s.endRequest else s

def doCancel (s : State) : State := s.mgrAny fun s => s.cancelNow

/-- AUTO_STANDBY_TIMEOUT (R519). -/
def doAutoStandby (s : State) : State :=
  if s.rd picB Reg.PIC_CFG_AUTO_STANDBY = 1 ∧ s.powerState ≤ 1 ∧ s.portList.all s.portAway then s.requestSleep 2 else s

/-- DEEP_S_TIMEOUT (R519): DEEP_S seconds after the entry to STANDBY. -/
def doDeepTimeout (s : State) : State :=
  let n := s.rd picB Reg.PIC_CFG_DEEP_S
  if n ≠ 0 ∧ s.powerState = 2 ∧ s.pwr.waking = 0 then (s.passTo (s.pwr.since + n * 1000000000)).requestSleep 3 else s

/-- SLEEP_BLOCK_ANSWER: the block that has been asked answers. -/
def doBlockAnswer (s : State) (declines : Bool) : State :=
  let n := s.pwr.parked + 1
  if s.entryPhase ≠ 1 then s
  else match s.blockAnswer n declines with
    | .agree => s.park n
    | .refuse r => s.sleepRefuse n r
    | .later => s

/-- SLEEP_ANSWER_TIMEOUT: the heads alone may take longer. -/
def doAnswerTimeout (s : State) : State :=
  if s.entryPhase = 1 ∧ s.pwr.parked ≠ 7 then s.sleepRefuse (s.pwr.parked + 1) 0x0F else s

/-- SLEEP_RETRY. -/
def doSleepRetry (s : State) : State := if s.entryPhase = 3 then (s.reach s.pwr.retryAt).beginEntry else s

/-! ## Wakes (R523, R524) -/

/-- Whether the Ringplan or a register enables a source. -/
def State.wakeEnabled (s : State) (src : Nat) : Bool :=
  let m := s.powerRec.wakeMask
  if src ≤ 5 then bitSet m (src - 1) else if src = 7 then bitSet m 5 else if src = 8 then bitSet m 6 else true

def dozeSources : List Nat := [1, 2, 3, 4, 5, 7, 10, 11]
/-- Whether a source wakes from a state. -/
def wakesFrom (st src : Nat) : Bool := if st = 1 then dozeSources.contains src else if st = 2 ∨ st = 3 then decide (1 ≤ src) && decide (src ≤ 9) else false

/-- PCIE_WAKE_N is driven low while a port is in L2, unless it is an input (R141). -/
def State.driveWake (s : State) : State :=
  if bitSet s.powerRec.wakeMask 4 then s else { s with wakeLow := s.portA.inL2 || s.portB.inL2 }

/-- A wake from STANDBY or DEEP STANDBY starts: the oscillator is started. -/
def State.startWake (s : State) (src : Nat) : State :=
  let s := s.modPwr fun x => { x with waking := 2, wakeFrom := s.powerState, oscTries := 0, railTries := 0, heldWake := 0 }
  let s := if s.pwr.rc32k then s.put picB Reg.PIC_STATE_RC_32K 1 else s
  (s.put picB Reg.PIC_STATE_WAKE_CAUSE src).driveWake

/-- An entry ends for a wake source (R529). Rests on log entry 107 (DESIGN CHOICE). -/
def State.abortSleep (s : State) : State := (s.endRequest).raise picB Reg.PIC_EVENT_SLEEP_ABORTED

/-- A wake source arrives; one that is not enabled or not valid in the state in force is ignored.
Rests on log entry 108 (DESIGN CHOICE). -/
def State.wakeSource (s : State) (src : Nat) : State :=
  let st := s.powerState
  let e := s.entryPhase
  let ofTarget : Bool := match s.pwr.target with | some t => wakesFrom t src | none => false
  if s.pwr.off ∨ !s.wakeEnabled src ∨ s.pwr.waking ≠ 0 ∨ (!s.powerReady ∧ st ≠ 3) then s
  else if e = 2 then (if ofTarget ∧ s.pwr.heldWake = 0 then s.modPwr fun x => { x with heldWake := src } else s)
  else
    let s := if (e = 1 ∨ e = 3) ∧ ofTarget then s.abortSleep else s
    if !wakesFrom st src then s
    else if st = 1 then s.leaveDoze src
    else if st = 2 ∨ st = 3 then s.startWake src
    else s

/-- Rests on log entry 108 (DESIGN CHOICE). -/
def doWake (s : State) : State := s.mgrAny fun s => s.wakeSource 11

/-- PIC_ALARM_EXPIRE (R525). -/
def doAlarm (s : State) : State :=
  let n := s.rd picB Reg.PIC_ALARM_MS
  if n = 0 ∨ !(decide (s.powerState = 2) || decide (s.powerState = 3)) then s
  else ((s.passTo ((s.now / 1000000 + n) * 1000000)).put picB Reg.PIC_ALARM_MS 0).wakeSource 9

/-- TOUCH_ATTENTION (R456, R523): a read begins, and it is a wake source. -/
def doTouchAttention (s : State) (t : Nat) : State :=
  let there := (((s.plan <|> s.boot.retained).getD {}).touchRec t).isSome
  let s := if s.parkedTo 7 then s else s.touchAttn t
  if there then s.wakeSource 7 else s

/-- HEADSET_INSERT (R448, R523). -/
def doHeadsetInsert (s : State) (j : Nat) : State := (if s.parkedTo 5 then s else s.headsetIn j).wakeSource 8

/-- HPD_PLUG of a configured head also wakes from DOZE. -/
def doPlug (s : State) (h : Nat) (c : SinkCaps) : State :=
  let used := s.p.headUsed h && !s.isDsi h
  let s := doHpdPlug s h c
  if used then s.wakeSource 10 else s

/-! ## The second phase (R528) -/

/-- The device rests in its target state. Rests on log entry 108 (DESIGN CHOICE). -/
def doSleepDone (s : State) : State :=
  match s.entryPhase, s.pwr.target with
  | 2, some t =>
    let s := if t = 3 then s.deepReset false else s
    let s := ((s.setEntry 0).setPower t).driveRails (enablesOf t)
    let s : State := { s with time := { s.time with osc38 := false } }
    let s := s.modPwr fun x => { x with target := none, inARow := 0, parked := 0 }
    let w := s.pwr.heldWake
    if w ≠ 0 then s.startWake w else s
  | _, _ => s

/-! ## Oscillator and rails (R515, R524, R530 to R532) -/

/-- Rails are raised one after the other, each after the PGOOD of the one before; `done` follows the last. -/
def State.raiseRails (s : State) (done : State → State) : State :=
  if !s.pwr.sequencing then s
  else match s.pwr.nextRail with
    | none => done (s.modPwr fun x => { x with sequencing := false })
    | some n => s.modPwr fun x => { x with enables := setBit x.enables n true }

/-- The rails of a wake or of the cold start are up. Rests on log entry 109 (DESIGN CHOICE). -/
def State.railsDone (s : State) : State :=
  if s.pwr.waking = 3 then s.modPwr fun x => { x with waking := 4 }
  else if s.pwr.waking = 8 then s.enterLimp 2 2
  else s.bootRails

def State.beginRails (s : State) : State := (s.modPwr fun x => { x with sequencing := true, railWait := false }).raiseRails State.railsDone

/-- The oscillator runs; a wake or the cold start waits for it. -/
def State.oscWaits (s : State) : Bool := decide (s.pwr.waking = 2) || (s.booting && decide (s.bootStep = 2) && decide (s.pwr.waking = 0))

/-- OSCILLATOR_STABLE. -/
def doOscStable (s : State) : State :=
  if !s.oscWaits then s
  else
    let s := { s with time := { s.time with osc38 := true } }
    if s.pwr.waking = 2 then (s.modPwr fun x => { x with waking := 3 }).beginRails
    else (s.setBootStep 3).beginRails

/-- OSCILLATOR_TIMEOUT (R530): a second start, then every rail of ON for LIMP. -/
def doOscTimeout (s : State) : State :=
  if !s.oscWaits then s
  else if s.pwr.oscTries = 0 then (s.modPwr fun x => { x with oscTries := 1 }).raise picB Reg.PIC_EVENT_WAKE_RETRY
  else ((s.putPicFail 2 0 1).modPwr fun x => { x with waking := 8, railTries := 0 }).beginRails

/-- PGOOD_RISE. -/
def doPgoodRise (s : State) (n : Nat) : State := (s.modPwr fun x => { x with pgood := setBit x.pgood n true }).raiseRails State.railsDone

/-- The device stays in the state that it was leaving; the always-on domain asserts FAULT_N and keeps the cause (R531, R532). -/
def State.wakeFails (s : State) : State :=
  let s := s.driveRails (enablesOf s.pwr.wakeFrom)
  let s := s.modPwr fun x => { x with waking := 0, sequencing := false, railWait := false, lastFail := true }
  ({ s with sn := { s.sn with aon := true } }).stageAon s.powerRecord

/-- PGOOD_TIMEOUT: the rails raised in this wake are lowered; three retries, then the wake has failed (R532). -/
def doPgoodTimeout (s : State) (n : Nat) : State :=
  if !s.pwr.sequencing ∨ !bitSet s.pwr.enables n ∨ bitSet s.pwr.pgood n then s
  else if s.pwr.railTries < 3 then
    (s.driveRails (enablesOf s.pwr.wakeFrom)).modPwr fun x => { x with sequencing := false, railWait := true }
  else
    let s := s.putPicFail 3 n 3
    let s := if s.pwr.wakeFrom = 5 then s.modPwr fun x => { x with bootFail := some n } else s
    s.wakeFails

/-- RAIL_RETRY. -/
def doRailRetry (s : State) : State :=
  if !s.pwr.railWait then s
  else ((s.modPwr fun x => { x with railTries := x.railTries + 1 }).raise picB Reg.PIC_EVENT_WAKE_RETRY).beginRails

/-- REFCLK_TIMEOUT (R531). Rests on log entry 109 (DESIGN CHOICE). -/
def doRefclkTimeout (s : State) : State := if s.pwr.waking = 8 then s.wakeFails else s

/-- VDD_CORE is up and out of retention. -/
def State.coreUp (s : State) : Bool := bitSet s.pwr.pgood 0 && decide (s.powerState ≠ 2) && decide (s.powerState ≠ 3)

/-- PGOOD_FALL of a rail that should be on (R533). Rests on log entry 109 (DESIGN CHOICE). -/
def doPgoodFall (s : State) (n : Nat) : State :=
  if !bitSet s.pwr.enables n ∨ !bitSet s.pwr.pgood n then s
  else
    let s := if s.coreUp then s.fault srcVoltage { index := n } else s
    let s := s.modPwr fun x => { x with pgood := setBit x.pgood n false }
    let r := s.powerRecord
    let s := if s.powerState = 3 then (if n = 3 then { s with dram := [], pot := [], boot := { s.boot with retained := none } } else s) else s.deepReset (decide (n = 3))
    let s := ((s.setEntry 0).setPower 3).driveRails (if n = 3 then 0 else 0x08)
    let s := s.modPwr fun x => { x with target := none, inARow := 0, parked := 0, heldWake := 0, waking := 0, sequencing := false, railWait := false }
    ({ s with sn := { s.sn with aon := true } }).stageAon r

/-! ## Core, memory, resume (R376 to R378, R520, R521, R524) -/

/-- Step 7: the blocks unpark and the device is ON; what a wake owes is reported and captured. -/
def State.resume (s : State) : State :=
  let deep := decide (s.pwr.wakeFrom = 3)
  let s := s.modPwr fun x => { x with waking := 0, wakeFrom := 0, parked := 0 }
  let s := (s.wakeDone (s.rd picB Reg.PIC_STATE_WAKE_CAUSE))
  let s := if deep then
      match s.boot.retained with
      | some p => (State.endApply (State.beginApply { s with boot := { s.boot with retained := none } } p) (s.rd rplB Reg.RPL_STATE_SOURCE)).readyFns
      | none => s
    else s
  let s := { s with sn := { s.sn with aon := false } }
  let s := if s.pwr.lastFail then ((s.modPwr fun x => { x with lastFail := false }).bootFault 3).clearPersist srcBoot 3 else s
  let s := if deep then s else s.each ((List.range 8).filter fun a => decide (s.hapState a = hapReadySt)) fun s a => s.startCalibration a hapCalibrating
  let s := s.screensUp
  let s := if s.rd logB Reg.LOG_STATUS_READY = 1 then s.aonToLog else s
  (s.logKick.select).lateCapture

/-- WAKE_CORE_READY: the Ringmaster runs. After STANDBY the device resumes. After DEEP STANDBY the retained images must match their
digests, else the device starts from the slots; the secure core reboots, and memory is restored or trained.
Rests on log entry 110 (DESIGN CHOICE). -/
def doCoreReady (s : State) (digestOk restoreOk : Bool) : State :=
  if s.pwr.waking ≠ 4 then s
  else if s.pwr.wakeFrom = 2 then
    let s := s.each (List.range 16) fun s c => (s.put (chB c) Reg.DMCCH_STATUS_RANK0 0).put (chB c) Reg.DMCCH_STATUS_RANK1 0
    (if s.rd dmcB Reg.DMC_STATUS_STATE = 4 then s.put dmcB Reg.DMC_STATUS_STATE 3 else s).resume
  else if !digestOk ∨ s.boot.retained.isNone then s.coldStart
  else
    let s := (s.readFuses).put secB Reg.SEC_STATE_STATE 4
    let s := s.put rplB Reg.RPL_STATE_STATE 2
    if restoreOk then (s.put dmcB Reg.DMC_STATUS_STATE 2).modPwr fun x => { x with waking := 6 }
    else (s.put dmcB Reg.DMC_STATUS_STATE 1).modPwr fun x => { x with waking := 5 }

/-- The lowest channel whose training failed. -/
def State.failedChannel (s : State) : Nat := ((List.range 16).find? fun c => decide (s.rd (chB c) Reg.DMCCH_EVENT_TRAIN_FAIL = 1)).getD 0

/-- TRAINING_DONE in the cold start or in a wake; a failure ends either in FAILED (R377, R556). -/
def doTrainingStep (s : State) (r : TrainResult) : State :=
  if s.rd dmcB Reg.DMC_STATUS_STATE ≠ 1 then s
  else
    let s := doTrainingDone s r
    if s.rd dmcB Reg.DMC_STATUS_STATE = 5 then
      let s := (s.modPwr fun x => { x with waking := 0, wakeFrom := 0 }).setPower 0
      (s.put rplB Reg.RPL_STATE_STATE 0).bootStop bootFailed 5 3 s.failedChannel 0
    else if s.pwr.waking = 5 then s.modPwr fun x => { x with waking := 6 }
    else s

/-- DRAM_INIT_DONE. -/
def doInitStep (s : State) : State :=
  if s.rd dmcB Reg.DMC_STATUS_STATE ≠ 2 then s
  else
    let s := doDramInit s
    if s.pwr.waking = 6 then s.resume else if s.booting ∧ s.bootStep = 5 then s.setBootStep 6 else s

/-! ## Supply sag and VDD_AON (R542, R588) -/

/-- The write inhibit starts, unless it is active. -/
def State.beginInhibit (s : State) : State :=
  let s := s.modPwr fun x => { x with inhibitEnding := false }
  if s.inhibited then s
  else ((s.put picB Reg.PIC_STATE_INHIBIT 1).put logB Reg.LOG_STATUS_INHIBITED 1).storesInhibited.raise picB Reg.PIC_EVENT_INHIBIT

/-- Once neither condition holds, the 10 ms run. -/
def State.inhibitLook (s : State) : State :=
  if s.inhibited ∧ !s.pwr.warn ∧ !s.pwr.aonLow then s.modPwr fun x => { x with inhibitEnding := true } else s

def doPwrWarn (s : State) : State :=
  if s.pwr.off ∨ s.pwr.warn then s
  else
    let s := (s.modPwr fun x => { x with warn := true }).beginInhibit
    if s.powerState ≤ 1 then s.bypass else s

def doPwrWarnRelease (s : State) : State := (s.modPwr fun x => { x with warn := false }).inhibitLook

def doInhibitEnd (s : State) : State :=
  if !s.pwr.inhibitEnding then s
  else ((s.modPwr fun x => { x with inhibitEnding := false }).put picB Reg.PIC_STATE_INHIBIT 0).put logB Reg.LOG_STATUS_INHIBITED 0 |>.logKick

def doAonInhibitFall (s : State) : State :=
  if s.pwr.off ∨ s.pwr.aonLow then s else (s.modPwr fun x => { x with aonLow := true }).beginInhibit
def doAonInhibitRise (s : State) : State := (s.modPwr fun x => { x with aonLow := false }).inhibitLook

/-- What the always-on log and the pins keep over OFF. -/
def PwrX.overOff (x : PwrX) (off : Bool) : PwrX :=
  { off := off, warn := x.warn, aonLow := x.aonLow, aonLog := x.aonLog, poweredMs := x.poweredMs, planMs := x.planMs, gGfx := x.gGfx, gCore := x.gCore
    bootFail := x.bootFail }

/-- OFF: everything but the flash, the fuses and the always-on log is lost (R516, R588).
Rests on log entry 111 (DESIGN CHOICE). -/
def State.powerOff (s : State) (off : Bool) : State :=
  let s := (s.logCut).coreReset fun a => inRange (blwB + 0x20) 8 a || inRange (blwB + 0x200) 20 a
  { s with pwr := s.pwr.overOff off, portA := { perst := s.portA.perst }, portB := { perst := s.portB.perst }, time := {} }

/-- VDD_AON_RESET_FALL. -/
def doAonOff (s : State) : State := s.powerOff true

/-- VDD_AON_RISE (R131, R550, R551): the timebase is set to 0 and step 1 begins. Rests on log entry 111 (DESIGN CHOICE). -/
def doAonRise (s : State) : State :=
  let s := { s.powerOff false with now := 0 }
  let s := s.each [(s.portA.perst, Reg.PCI_PORT_A_STATUS_STATE), (s.portB.perst, Reg.PCI_PORT_B_STATUS_STATE)] fun s e => if e.1 then s.put pciB e.2 6 else s
  if s.pwr.warn ∨ s.pwr.aonLow then s.beginInhibit else s

def doDevReset (s : State) : State := s.mgrAny State.coldStart

def execReqDoze (s : State) : Host.Outcome State Fault Refusal := .next (settle s (doReqDoze s))
def execReqStandby (s : State) : Host.Outcome State Fault Refusal := .next (settle s (doReqStandby s))
def execReqDeep (s : State) : Host.Outcome State Fault Refusal := .next (settle s (doReqDeep s))
def execCancel (s : State) : Host.Outcome State Fault Refusal := .next (settle s (doCancel s))
def execWake (s : State) : Host.Outcome State Fault Refusal := .next (settle s (doWake s))
def execDevReset (s : State) : Host.Outcome State Fault Refusal := .next (settle s (doDevReset s))
def execDozeIdleTimeout (s : State) : Host.Outcome State Fault Refusal := .next (settle s (doDozeIdle s))
def execAutoStandbyTimeout (s : State) : Host.Outcome State Fault Refusal := .next (settle s (doAutoStandby s))
def execDeepSTimeout (s : State) : Host.Outcome State Fault Refusal := .next (settle s (doDeepTimeout s))
def execWakeInAssert (n : Fin 4) (s : State) : Host.Outcome State Fault Refusal := .next (settle s (s.wakeSource (n.val + 1)))
def execPcieWakeInAssert (s : State) : Host.Outcome State Fault Refusal := .next (settle s (s.wakeSource 5))
def execPicAlarmExpire (s : State) : Host.Outcome State Fault Refusal := .next (settle s (doAlarm s))
def execSleepBlockAnswer (declines : Bool) (s : State) : Host.Outcome State Fault Refusal := .next (settle s (doBlockAnswer s declines))
def execSleepAnswerTimeout (s : State) : Host.Outcome State Fault Refusal := .next (settle s (doAnswerTimeout s))
def execSleepRetry (s : State) : Host.Outcome State Fault Refusal := .next (settle s (doSleepRetry s))
def execSleepEntryDone (s : State) : Host.Outcome State Fault Refusal := .next (settle s (doSleepDone s))
def execOscillatorStable (s : State) : Host.Outcome State Fault Refusal := .next (settle s (doOscStable s))
def execOscillatorTimeout (s : State) : Host.Outcome State Fault Refusal := .next (settle s (doOscTimeout s))
def execPgoodRise (n : Fin 6) (s : State) : Host.Outcome State Fault Refusal := .next (settle s (doPgoodRise s n.val))
def execPgoodTimeout (n : Fin 6) (s : State) : Host.Outcome State Fault Refusal := .next (settle s (doPgoodTimeout s n.val))
def execRailRetry (s : State) : Host.Outcome State Fault Refusal := .next (settle s (doRailRetry s))
def execPgoodFall (n : Fin 6) (s : State) : Host.Outcome State Fault Refusal := .next (settle s (doPgoodFall s n.val))
def execRefclkTimeout (s : State) : Host.Outcome State Fault Refusal := .next (settle s (doRefclkTimeout s))
def execWakeCoreReady (digestOk restoreOk : Bool) (s : State) : Host.Outcome State Fault Refusal := .next (settle s (doCoreReady s digestOk restoreOk))
def execTrainingDone (r : TrainResult) (s : State) : Host.Outcome State Fault Refusal := .next (settle s (doTrainingStep s r))
def execDramInitDone (s : State) : Host.Outcome State Fault Refusal := .next (settle s (doInitStep s))
def execBootStepDone (r : BootResult) (s : State) : Host.Outcome State Fault Refusal := .next (settle s (doBootStep s r))
def execPwrWarnAssert (s : State) : Host.Outcome State Fault Refusal := .next (settle s (doPwrWarn s))
def execPwrWarnRelease (s : State) : Host.Outcome State Fault Refusal := .next (settle s (doPwrWarnRelease s))
def execWriteInhibitEnd (s : State) : Host.Outcome State Fault Refusal := .next (settle s (doInhibitEnd s))
def execVddAonRise (s : State) : Host.Outcome State Fault Refusal := .next (settleAnew s (doAonRise s))
def execVddAonResetFall (s : State) : Host.Outcome State Fault Refusal := .next (settle s (doAonOff s))
def execVddAonInhibitFall (s : State) : Host.Outcome State Fault Refusal := .next (settle s (doAonInhibitFall s))
def execVddAonInhibitRise (s : State) : Host.Outcome State Fault Refusal := .next (settle s (doAonInhibitRise s))
def execTouchAttention (t : Fin 8) (s : State) : Host.Outcome State Fault Refusal := .next (settle s (doTouchAttention s t.val))
def execHeadsetInsert (j : Fin 2) (s : State) : Host.Outcome State Fault Refusal := .next (settle s (doHeadsetInsert s j.val))
def execHpdPlug (h : Fin 8) (sink : SinkCaps) (s : State) : Host.Outcome State Fault Refusal := .next (settle s (doPlug s h.val sink))

end Sys2Proof.Machine
end

