-- ==== Sys2Proof/Machine/Pcie.lean ====
section
/-!
DEFINITION. Host attachment (chapter 4): configuration requests, the aperture, MSI-X masks, the ports' resets, losses and returns,
function-level resets, and the PTM dialogues that discipline the timebase.
-/
namespace Sys2Proof.Machine

/-! ## Ports and their functions (R114, R116, R118) -/

def portState (p : Port) : Fld := match p with | .a => Reg.PCI_PORT_A_STATUS_STATE | .b => Reg.PCI_PORT_B_STATUS_STATE
def portWidth (p : Port) : Fld := match p with | .a => Reg.PCI_PORT_A_STATUS_WIDTH | .b => Reg.PCI_PORT_B_STATUS_WIDTH
def portSpeed (p : Port) : Fld := match p with | .a => Reg.PCI_PORT_A_STATUS_SPEED | .b => Reg.PCI_PORT_B_STATUS_SPEED
def portLost (p : Port) : Fld := match p with | .a => Reg.PCI_PORT_A_STATUS_LOST | .b => Reg.PCI_PORT_B_STATUS_LOST
def evDown (p : Port) : Fld := match p with | .a => Reg.PCI_EVENT_LINK_DOWN_A | .b => Reg.PCI_EVENT_LINK_DOWN_B
def evUp (p : Port) : Fld := match p with | .a => Reg.PCI_EVENT_LINK_UP_A | .b => Reg.PCI_EVENT_LINK_UP_B
def cntDown (p : Port) : Nat := match p with | .a => pciB + Reg.PCI_LINKDOWN_A | .b => pciB + Reg.PCI_LINKDOWN_B
def ptmOffset (p : Port) : Nat := match p with | .a => pciB + Reg.PCI_PTM_OFFSET_A | .b => pciB + Reg.PCI_PTM_OFFSET_B

/-- Whether a port exists in the fused lane mode (R114). -/
def State.portThere (s : State) (p : Port) : Bool := decide (p = .a) || decide (s.ports = 2)

/-- The physical function of a port: 0 the manager's, 1 the subordinate. -/
def State.portPf (s : State) (p : Port) : Nat := if p = s.mgrPort then 0 else 1

/-- The state of a port's link, with its width and speed. -/
def State.setPortLink (s : State) (p : Port) (st width speed : Nat) : State :=
  ((s.put pciB (portState p) st).put pciB (portWidth p) width).put pciB (portSpeed p) speed

/-- The link carries requests: L0 or L1, and the port is not lost. -/
def State.linkLive (s : State) (p : Port) : Bool := s.portUp p && !(s.portX p).inL2

/-- The number of an instance's virtual function on its port (R118). -/
def State.vfNumber (s : State) (i : Nat) : Nat :=
  ((s.portInsts (s.fnPort (fnOfInst i))).filter fun j => decide (j ≤ i)).length

/-- A request reaches a ready function: its port's link is up and the host interface has not parked (R134, R526). -/
def State.fnTakes (s : State) (fn : Nat) : Bool := s.answers fn && s.linkLive (s.fnPort fn) && !s.parkedTo 1

/-! ## Losing instances, functions and ports (R119, R132, R135, R277) -/

/-- The owner of a head is lost: HOST_HOLD with the hold time as it stands (R277). -/
def State.hostLost (s : State) (h : Nat) : State :=
  if s.p.headUsed h ∧ (s.head h).hostMode = .live then
    let ms := s.rd (headBase h) Reg.HEAD_LOST_HOLD_MS
    (s.modHead h fun x => { x with hostMode := .hold, holdEnd := some (s.now + ms * 1000000), holdOver := false }).contentLook h
  else s

/-- The instances given are lost hosts: their heads hold, then they are reset and end unclean. -/
def State.loseHosts (s : State) (is : List Nat) : State :=
  let hs := (List.range 8).filter fun h => is.contains (s.p.head h).owner
  (s.each hs State.hostLost).each is State.loseInst

/-- A physical function's configuration, rings and vectors at reset; it answers as before (R132).
Rests on log entry 56 (DESIGN CHOICE). -/
def State.resetPf (s : State) (fn : Nat) (isReady : Bool) : State :=
  let s := s.each (s.ringsOf fn) fun s q => ((s.setRingState q disabled 0).setRing q {}).resetRange (ringBase q) 0x100
  ((s.resetRange (msixBase fn) 0x200).resetRange (pbaBase fn) 8).setFn fn { ready := isReady }

/-- The virtual functions of a port are at reset and do not answer. -/
def State.resetVfs (s : State) (is : List Nat) : State := s.each is fun s i => s.setFn (fnOfInst i) {}

/-- The port whose host time the timebase follows (R146). -/
def State.ptmSource (s : State) : Option Port :=
  match s.rd pciB Reg.PCI_PTM_CTRL_SOURCE with
  | 0 => some s.mgrPort
  | 1 => some .a
  | 2 => some .b
  | _ => none

/-- The timebase runs free at its last rate (R130). Rests on log entry 61 (DESIGN CHOICE). -/
def State.ptmLost (s : State) : State :=
  if s.time.freeRun then s
  else (State.raise { s with time := { s.time with freeRun := true } } pciB Reg.PCI_EVENT_PTM_LOST)

/-- A dialogue under way on a port counts as failed (R137). Rests on log entry 61 (DESIGN CHOICE). -/
def State.ptmFail (s : State) (p : Port) : State :=
  let x := s.portX p
  if !x.ptmWaiting then s
  else
    let s := s.setPortX p { x with ptmWaiting := false, ptmFails := x.ptmFails + 1 }
    if x.ptmFails + 1 ≥ 3 ∧ s.ptmSource = some p then s.ptmLost else s

/-- LINK_DOWN_x is set and counted (R135 step 1). -/
def State.countLoss (s : State) (p : Port) : State := (s.count (cntDown p) 1).raise pciB (evDown p)

/-- A port's instances are lost without its link: VF Enable was cleared (R132). Rests on log entry 56 (DESIGN CHOICE). -/
def State.loseVfs (s : State) (p : Port) : State :=
  let is := s.portInsts p
  ((((s.put pciB (portLost p) 1).countLoss p).loseHosts is).resetVfs is).lostLook.select

/-- A port is lost with its link (R135, R137, R138). Rests on log entry 56 (DESIGN CHOICE). -/
def State.losePort (s : State) (p : Port) (st : Nat) : State :=
  let is := s.portInsts p
  let s := (s.setPortLink p st 0 0).setPortX p { s.portX p with cutOff := true, inL2 := false }
  let s := if s.portPf p = 0 then s.pushesLost else s
  let s := ((s.put pciB (portLost p) 1).loseHosts is).resetVfs is
  let s := if s.fnExists (s.portPf p) then s.resetPf (s.portPf p) false else s
  let s := s.ptmFail p
  let s := if s.ptmSource = some p then s.ptmLost else s
  (s.countLoss p).lostLook.select

/-- The link of a port goes down: a loss once the functions are fixed (R116, R550). Rests on log entry 55 (DEDUCED). -/
def State.linkGone (s : State) (p : Port) (st : Nat) : State := if s.started then s.losePort p st else s.setPortLink p st 0 0

/-! ## Resets and links (R132, R133, R138, R139) -/

/-- PERST_ASSERT: a port in L2 stays there, its host without power. Rests on log entry 55 (DEDUCED). -/
def doPerstAssert (s : State) (p : Port) : State :=
  if !s.portThere p ∨ (s.portX p).perst then s
  else
    let s := s.setPortX p { s.portX p with perst := true }
    if s.pwr.off ∨ (s.portX p).inL2 then s else s.linkGone p 6

/-- PERST_RELEASE: the port proceeds to Detect; on a port in L2 it is a wake source (R523). -/
def doPerstRelease (s : State) (p : Port) : State :=
  if !s.portThere p ∨ !(s.portX p).perst then s
  else
    let s := s.setPortX p { s.portX p with perst := false }
    if s.pwr.off then s
    else if (s.portX p).inL2 then s.wakeSource 6
    else
      let s := s.put pciB (portState p) 0
      if s.started then s.portRoles else s

def doHotReset (s : State) (p : Port) : State := if s.portThere p && s.linkLive p then s.linkGone p 0 else s
def doLinkDown (s : State) (p : Port) : State := if s.portThere p && s.linkLive p then s.linkGone p 0 else s

/-- Links train from start-up step 4 on, in ON, DOZE and LIMP; port B is held while no Ringplan is applied (R116, R550).
Rests on log entry 58 (DESIGN CHOICE). -/
def State.mayTrain (s : State) (p : Port) : Bool :=
  s.portThere p && !s.pwr.off && !(s.portX p).perst && (decide (4 ≤ s.rd devB Reg.DEV_BOOT_STATUS_STEP) || decide (s.powerState = 4)) &&
    decide (s.powerState ≠ 2) && decide (s.powerState ≠ 3) && decide (s.rd pciB (portState p) ≠ 5) && decide (s.rd pciB (portState p) ≠ 2)

/-- Whether a speed and a number of lanes can be negotiated (R112, R144). Rests on log entry 58 (DESIGN CHOICE). -/
def State.linkFits (s : State) (gen lanes : Nat) : Bool :=
  decide (1 ≤ gen) && decide (gen ≤ 5) && [1, 2, 4, 8].contains lanes && (decide (lanes ≤ 4) || decide (s.ports = 1))

/-- Once no port is in L2 any more, PCIE_WAKE_N is released (R141). -/
def State.wakeLook (s : State) : State := { s with wakeLow := s.wakeLow && (s.portA.inL2 || s.portB.inL2) }

/-- LINK_UP: the port's functions come back, its instances may be READY, and messages held since L2 are sent.
Rests on log entry 57 (DESIGN CHOICE), log entry 58 (DESIGN CHOICE). -/
def doLinkUp (s : State) (p : Port) (gen lanes : Nat) : State :=
  if s.mayTrain p && s.linkFits gen lanes then
    let s := (s.setPortLink p 2 lanes gen).setPortX p { s.portX p with cutOff := false, inL2 := false }
    let s := (s.wakeLook.raise pciB (evUp p)).readyFns
    let s := (s.each (s.portInsts p) State.tryReady).each (s.portPf p :: (s.portInsts p).map fnOfInst) State.flushVecs
    s.select
  else s

/-- PME_TURN_OFF: L2 loses no instance. Rests on log entry 57 (DESIGN CHOICE). -/
def doPmeTurnOff (s : State) (p : Port) : State :=
  if s.portThere p && s.linkLive p then (s.setPortLink p 4 0 0).setPortX p { s.portX p with inL2 := true } else s

/-- ASPM_L1_ENTRY: where the host has enabled it. -/
def doAspmL1 (s : State) (p : Port) : State :=
  if s.portThere p && s.linkLive p && (s.fn (s.portPf p)).aspmL1 then s.put pciB (portState p) 3 else s

/-! ## Function-level resets and VF Enable (R119, R132, R134, R177) -/

/-- VF_FLR: a reset of the instance; a running one is not disturbed. -/
def doVfFlr (s : State) (i : Nat) : State :=
  if s.fnTakes (fnOfInst i) ∧ s.instState i ≠ resetting then
    (((s.setFn (fnOfInst i) {}).modInst i fun x => { x with flr := true }).resetInst i).select
  else s

/-- PF_FLR: VF Enable clears with the configuration. -/
def doPfFlr (s : State) (p : Port) : State :=
  let fn := s.portPf p
  if s.portThere p && s.fnTakes fn then
    let had := (s.fn fn).vfEnable
    let s := s.resetPf fn true
    if had then s.loseVfs p else s
  else s

/-- VF Enable cleared on a port. -/
def State.vfsOff (s : State) (p : Port) : State :=
  let fn := s.portPf p
  if (s.fn fn).vfEnable then (s.modFn fn fun c => { c with vfEnable := false }).loseVfs p else s

/-- NumVFs lowered: the instances above it are lost hosts. Rests on log entry 56 (DESIGN CHOICE). -/
def State.vfsLower (s : State) (p : Port) (n : Nat) : State :=
  let is := (s.portInsts p).filter fun i => s.vfOn i && decide (n < s.vfNumber i)
  let s := s.modFn (s.portPf p) fun c => { c with numVFs := n }
  ((s.loseHosts is).resetVfs is).select

/-- Virtual functions enabled: they answer, and their instances may be READY. -/
def State.vfsUp (s : State) (p : Port) : State := (s.readyFns.each (s.portInsts p) State.tryReady).select

/-- NumVFs written. -/
def State.setNumVfs (s : State) (p : Port) (n : Nat) : State :=
  let c := s.fn (s.portPf p)
  if c.vfEnable ∧ n < c.numVFs then s.vfsLower p n
  else (s.modFn (s.portPf p) fun c => { c with numVFs := n }).vfsUp p

/-- VF_ENABLE_CLEAR: NumVFs lowered to n; VF Enable cleared where n is 0. -/
def doVfEnableClear (s : State) (p : Port) (n : Nat) : State :=
  let c := s.fn (s.portPf p)
  if s.portThere p && s.fnTakes (s.portPf p) then
    (if n = 0 then s.vfsOff p else if n < c.numVFs then s.setNumVfs p n else s)
  else s

/-! ## Configuration requests (R117, R118, R121, R122, R134) -/

/-- The port and function a request names; a virtual function exists only while it is enabled. -/
def State.cfgFn (s : State) (f : FnRef) : Nat × Port :=
  match f with
  | .pf p => (s.portPf p, p)
  | .vf i => (fnOfInst i.val, s.fnPort (fnOfInst i.val))

/-- Registers of configuration space whose contents the spec gives: identifiers and the SR-IOV capability.
Rests on log entry 59 (PRESUMED). -/
def State.cfgKnown (s : State) (fn off : Nat) : Option Nat :=
  let vf := decide (2 ≤ fn)
  let total := (s.portInsts (s.fnPort fn)).length
  let c := s.fn fn
  match off with
  | 0x00 => some (if vf then 0xFFFFFFFF else 0x88401F3A)
  | 0x08 => some (s.rd devB Reg.DEV_ID_STEPPING + 2 ^ 8 * 0x038000)
  | 0x2C => some (0x1F3A + 2 ^ 16 * (min fn 2 + 1))
  | 0x16C => if vf then none else some (total + 2 ^ 16 * total)
  | 0x170 => if vf then none else some c.numVFs
  | 0x174 => if vf then none else some (1 + 2 ^ 16)
  | 0x178 => if vf then none else some (2 ^ 16 * 0x8841)
  | 0x17C => if vf then none else some 0x15
  | _ => none

/-- What a configuration read returns. Rests on log entry 15 (DESIGN CHOICE). -/
def State.cfgRead (s : State) (fn off : Nat) : Nat :=
  let a := off / 4 * 4
  match s.cfgKnown fn a with
  | some v => v
  | none => Config.pciConfigWord fn a (KMap.get (fun _ => 0) (s.fn fn).other a) % 2 ^ 32

/-- The aperture's size, in bytes. -/
def State.apertureSize (s : State) : Nat := 2 ^ (s.fn 0).apertureLog2

/-- Base bits below the aperture's size read zero (R147). Rests on log entry 60 (DESIGN CHOICE). -/
def State.apertureTrim (s : State) : State :=
  let base := s.rd pciB Reg.PCI_APERTURE_LO_BASE_LO + 16 * s.rd pciB Reg.PCI_APERTURE_HI_BASE_HI
  let unit := s.apertureSize / 2 ^ 28
  let b := if unit = 0 then base else base / unit * unit
  (s.put pciB Reg.PCI_APERTURE_LO_BASE_LO (b % 16)).put pciB Reg.PCI_APERTURE_HI_BASE_HI (b / 16)

/-- The aperture takes sizes from 256 MiB to the installed capacity (R122). -/
def State.apertureResize (s : State) (n : Nat) : State :=
  if 28 ≤ n ∧ 2 ^ n ≤ s.rd dmcB Reg.DMC_STATUS_INSTALLED_GIB * 2 ^ 30 then (s.modFn 0 fun c => { c with apertureLog2 := n }).apertureTrim else s

/-- A configuration request's effect on a ready function.
Rests on log entry 15 (DESIGN CHOICE), log entry 59 (PRESUMED). -/
def State.cfgEffect (s : State) (fn : Nat) (p : Port) (r : CfgReq) : State :=
  let pf := decide (fn ≤ 1)
  match r with
  | .read off => { s with readData := natLE 4 (s.cfgRead fn off.toNat) }
  | .busMaster on => (s.modFn fn fun c => { c with busMaster := on }).flushVecs fn
  | .powerState d => if pf then (s.modFn fn fun c => { c with d3hot := d }).flushVecs fn else s
  | .msixControl en m => (s.modFn fn fun c => { c with msixEnable := en, msixMaskAll := m }).flushVecs fn
  | .numVFs n => if pf then s.setNumVfs p n.val else s
  | .vfEnable on => if !pf then s else if on then (s.modFn fn fun c => { c with vfEnable := true }).vfsUp p else s.vfsOff p
  | .aspmL1 on => if pf then s.modFn fn fun c => { c with aspmL1 := on } else s
  | .ptmEnable on => if pf then s.modFn fn fun c => { c with ptmEnable := on } else s
  | .apertureSize n => if fn = 0 then s.apertureResize n.val else s
  | .other off v => s.modFn fn fun c => { c with other := KMap.set (fun _ => 0) c.other (off.toNat / 4 * 4) v.toNat }

/-- CONFIG_REQUEST: without a link, or for a function that is not there, the request finds nothing; until the function is ready
it is answered with RRS (R134). -/
def doConfig (s : State) (f : FnRef) (r : CfgReq) : State :=
  let (fn, p) := s.cfgFn f
  let absentVf : Bool := match f with | .vf i => !s.vfOn i.val | .pf _ => s.started && !s.fnExists fn
  if !s.portThere p ∨ !s.linkLive p ∨ s.pwr.off ∨ absentVf then s
  else if s.fnTakes fn then State.cfgEffect { s with lastRrs := false } fn p r
  else { s with lastRrs := true }

/-! ## The aperture (R19, R123) -/

/-- The device address of an aperture offset. -/
def State.apertureAddr (s : State) (off : Nat) : Nat :=
  2 ^ 28 * (s.rd pciB Reg.PCI_APERTURE_LO_BASE_LO + 16 * s.rd pciB Reg.PCI_APERTURE_HI_BASE_HI) + off

/-- The aperture answers: the manager's function does, and DRAM has not parked. Rests on log entry 60 (DESIGN CHOICE). -/
def State.apertureOpen (s : State) (off n : Nat) : Bool :=
  s.answers 0 && s.linkLive s.mgrPort && !s.parkedTo 10 && decide (off + n ≤ s.apertureSize)

/-- Free bytes in place of poisoned data. Rests on log entry 19 (DESIGN CHOICE). -/
def State.freeBytes (s : State) : Nat → State × List Byte
  | 0 => (s, [])
  | n + 1 =>
    let (v, s) := s.takeFree 8
    let (s, bs) := s.freeBytes n
    (s, BitVec.ofNat 8 v :: bs)

/-- APERTURE_READ: a refused read returns zeros and is logged against the manager.
Rests on log entry 19 (DESIGN CHOICE), log entry 60 (DESIGN CHOICE). -/
def doApertureRead (s : State) (off n : Nat) : State :=
  let a := s.apertureAddr off
  if !s.apertureOpen off n then s
  else match s.dramGet Who.mgr a n with
    | .ok bs => { s with readData := bs }
    | .refused => State.refuse { s with readData := List.replicate n 0 } Who.mgr a n
    | .poisoned =>
      let (s, bs) := s.freeBytes n
      { s with readData := bs }

/-- APERTURE_WRITE: a refused write is dropped. -/
def doApertureWrite (s : State) (off : Nat) (bs : List Byte) : State :=
  let a := s.apertureAddr off
  if !s.apertureOpen off bs.length then s
  else match s.dramPut Who.mgr a bs with
    | some s => s
    | none => s.refuse Who.mgr a bs.length

/-! ## MSI-X (R124, R125) -/

/-- A vector's mask bit clears: one message for the events that waited. -/
def State.unmaskVec (s : State) (fn v : Nat) : State :=
  if v < s.vectors fn then
    let a := msixBase fn + 16 * v + 12
    (s.put a Reg.MSIX_TABLE_WORD (setBit (s.rd a Reg.MSIX_TABLE_WORD) 0 false)).flushVecs fn
  else s

def doMsixUnmask (s : State) (f : FnId) (v : Nat) : State := if s.answers (fnNum f) then s.unmaskVec (fnNum f) v else s

/-! ## PTM and the timebase (R128 to R131) -/

/-- PTM_DIALOGUE: the source port's host has PTM enabled and its link is up. -/
def doPtmDialogue (s : State) : State :=
  match s.ptmSource with
  | some p =>
    if s.portThere p && s.linkLive p && (s.fn (s.portPf p)).ptmEnable && (s.portX p).ptmWaiting = false then s.setPortX p { s.portX p with ptmWaiting := true } else s
  | none => s

/-- The timebase follows the host: a forward step above 1 ms, −200 ppm while far ahead, else a rate of its own within 200 ppm.
Rests on log entry 16 (DESIGN CHOICE). -/
def State.discipline (s : State) (host : Nat) : State :=
  let s : State := { s with time := { s.time with freeRun := false } }
  if s.now + 1000000 < host then
    ((State.raise { s with now := host, time := { s.time with slewing := false } } pciB Reg.PCI_EVENT_TB_STEP).lateCapture)
  else
    let slew := decide (host + 1000000 < s.now) || (s.time.slewing && decide (host + 1000 ≤ s.now))
    if slew then { s with time := { s.time with slewing := true, trim := 0 } }
    else
      let (v, s) := s.takeFree 16
      { s with time := { s.time with slewing := false, trim := v % 401 } }

/-- PTM_RESPONSE: the dialogue ends; its offset is kept, and the timebase follows if the port is still the source. -/
def doPtmResponse (s : State) (host : Option Nat) : State :=
  let port := if s.portA.ptmWaiting then some Port.a else if s.portB.ptmWaiting then some Port.b else none
  match port, host with
  | none, _ => s
  | some p, none => s.ptmFail p
  | some p, some t =>
    let s := (s.setPortX p { s.portX p with ptmWaiting := false, ptmFails := 0 }).putWide (ptmOffset p) ((t + 2 ^ 64 - s.now % 2 ^ 64) % 2 ^ 64)
    if s.ptmSource = some p then s.discipline t else s

def execConfigRequest (f : FnRef) (req : CfgReq) (s : State) : Host.Outcome State Fault Refusal := .next (settle s (doConfig s f req))
def execApertureRead (addr : BitVec 36) (len : Fin 65) (s : State) : Host.Outcome State Fault Refusal := .next (settle s (doApertureRead s addr.toNat len.val))
def execApertureWrite (addr : BitVec 36) (data : List Byte) (s : State) : Host.Outcome State Fault Refusal := .next (settle s (doApertureWrite s addr.toNat data))
def execMsixUnmask (f : FnId) (vec : Fin 32) (s : State) : Host.Outcome State Fault Refusal := .next (settle s (doMsixUnmask s f vec.val))
def execPerstAssert (p : Port) (s : State) : Host.Outcome State Fault Refusal := .next (settle s (doPerstAssert s p))
def execPerstRelease (p : Port) (s : State) : Host.Outcome State Fault Refusal := .next (settle s (doPerstRelease s p))
def execHotReset (p : Port) (s : State) : Host.Outcome State Fault Refusal := .next (settle s (doHotReset s p))
def execLinkDown (p : Port) (s : State) : Host.Outcome State Fault Refusal := .next (settle s (doLinkDown s p))
def execLinkUp (p : Port) (gen : Fin 8) (lanes : Fin 16) (s : State) : Host.Outcome State Fault Refusal := .next (settle s (doLinkUp s p gen.val lanes.val))
def execVfFlr (i : Fin 64) (s : State) : Host.Outcome State Fault Refusal := .next (settle s (doVfFlr s i.val))
def execPfFlr (p : Port) (s : State) : Host.Outcome State Fault Refusal := .next (settle s (doPfFlr s p))
def execVfEnableClear (p : Port) (numVFs : Fin 65) (s : State) : Host.Outcome State Fault Refusal := .next (settle s (doVfEnableClear s p numVFs.val))
def execPmeTurnOff (p : Port) (s : State) : Host.Outcome State Fault Refusal := .next (settle s (doPmeTurnOff s p))
def execPtmDialogue (s : State) : Host.Outcome State Fault Refusal := .next (settle s (doPtmDialogue s))
def execPtmResponse (host : Option (BitVec 64)) (s : State) : Host.Outcome State Fault Refusal := .next (settle s (doPtmResponse s (host.map BitVec.toNat)))
def execAspmL1Entry (p : Port) (s : State) : Host.Outcome State Fault Refusal := .next (settle s (doAspmL1 s p))

end Sys2Proof.Machine
end

