-- ==== Sys2Proof/Machine/Windows.lean ====
section
/-!
DEFINITION. Where registers lie (R76 to R80): frames and windows, which locations exist (R85), and what a register reads as
(R86, R96, R104).
-/
namespace Sys2Proof.Machine

/-! ## Where a register lies -/

/-- A register: the frame its rows come from, and the base of the frame whose ERR records its errors (R80, R180). -/
structure RegLoc where
  kind : FrameKind
  n : Nat
  off : Nat
  a : Nat
  base : Nat
  deriving DecidableEq, Repr

/-- The register at an address of the normal view or a window key. -/
def locAt (a : Nat) : Option RegLoc :=
  match frameAt a with
  | none => none
  | some (.win, n, off) =>
    if off < 0x1000 then some { kind := .inst, n := 64, off := off, a := a, base := winBase 64 }
    else some { kind := .win, n := n, off := off, a := a, base := if n = 66 then brkB else instBase n }
  | some (k, n, off) => some { kind := k, n := n, off := off, a := a, base := k.at n }

/-- Frames whose registers can be written, and read as they are, before a Ringplan is applied (R86). -/
def openEarly : List FrameKind := [.dev, .rpl, .pci, .pic, .tab, .log, .brk]

/-- Whether a frame exists: the plan gives its ring or its instance (R85). -/
def State.frameThere (s : State) (l : RegLoc) : Bool :=
  match l.kind with
  | .ring => (s.ringOwner l.n).isSome
  | .inst => decide (l.n = 64) || s.p.has l.n
  | _ => true

/-- The function that a register belongs to. -/
def State.fnOfLoc (s : State) (l : RegLoc) : Nat :=
  match l.kind with
  | .inst => if l.n = 64 then 1 else fnOfInst l.n
  | .win => if l.n = 64 then 1 else fnOfInst l.n
  | .ring => ((s.ringOwner l.n).map Prod.fst).getD 0
  | _ => 0

/-! ## Reading (R85, R86, R96, R104) -/

/-- What a field reads as: nothing of a write-only or mailbox field. -/
def State.fieldRead (s : State) (a : Nat) (early : Bool) (r : FRow) : Nat :=
  match r.ty with
  | .wo => 0
  | .mbx => 0
  | _ => if early then fieldReset (fkey a r.fld.lo) else KMap.get fieldReset s.regs (fkey a r.fld.lo)

/-- The 32-bit register at a word address. -/
def State.readWord (s : State) (a : Nat) : Nat :=
  match locAt a with
  | none => 0
  | some l =>
    if l.kind = .pot ∨ !s.frameThere l then 0
    else
      let early := s.awaiting && !openEarly.contains l.kind
      (regRows a).foldl (fun v r => v + s.fieldRead a early r * 2 ^ r.fld.lo) 0

/-! ## Windows (R76 to R80) -/

/-- What a word of a window is: a register, a doorbell, or reserved. -/
inductive WinWord where
  | reg (a : Nat)
  | db (q part : Nat)                      -- the doorbell slot of ring q: byte offset in it
  | hapTrig (i : Nat) | snReq (i : Nat) | hapDb (c : Nat)
  | reserved
  deriving DecidableEq, Repr

/-- The window number of a function's window in the instance layout. -/
def winNo (fn : Nat) : Nat := if fn = 1 then 64 else fn - 2

/-- The word at an offset of a window in the instance layout (R79, R80). -/
def State.winWordInst (s : State) (fn off : Nat) : WinWord :=
  let n := winNo fn
  let dbPlace := match s.ringAt fn ((off - 0x2000) / 16) with | some q => WinWord.db q (off % 16) | none => .reserved
  if off < 0x100 then .reg (instBase n + off)
  else if off < 0x1000 then .reserved
  else if off < 0x2000 then (match s.ringAt fn ((off - 0x1000) / 0x100) with | some q => .reg (ringBase q + off % 0x100) | none => .reserved)
  else if off < 0x3000 then dbPlace
  else if 0x3200 ≤ off ∧ off < 0x3208 then (if fn = 1 then .reserved else if off = 0x3200 then .hapTrig n else .reg (winBase n + off))
  else if 0x3300 ≤ off ∧ off < 0x3308 then
    (if fn = 1 ∨ s.p.cls n ≠ 1 then .reserved else if off = 0x3300 then .snReq n else .reg (winBase n + off))
  else .reg (winBase n + off)

/-- The word at a word offset of a window. -/
def State.winWord (s : State) (w : Win) (off : Nat) : WinWord :=
  match w with
  | .mgr =>
    if 0x800000 ≤ off then .reserved
    else match frameAt off with
      | some (.hapCh, c, 0x18) => .hapDb c
      | _ => .reg off
  | .mgrDb => if off < 0x10000 then (match s.ringAt 0 (off / 16) with | some q => .db q (off % 16) | none => .reserved) else .reserved
  | _ => if off < 0x4000 then s.winWordInst (winFn w) off else .reserved

/-- The frame that records an error of a place, and the offset it records.
Rests on log entry 27 (DESIGN CHOICE), log entry 28 (DESIGN CHOICE), log entry 37 (DESIGN CHOICE). -/
def errWord : WinWord → Option (Nat × Nat)
  | .reg a => (locAt a).map fun l => (l.base, l.off)
  | .db q _ => some (ringBase q, 0x18)
  | .hapTrig i => some (instBase i, 0x3200)
  | .snReq i => some (instBase i, 0x3300)
  | .hapDb c => some (hapChB c, 0x18)
  | .reserved => none

/-- An ignored access of a place (R83); in the frame of a secure-only register R86 comes first.
Rests on log entry 27 (DESIGN CHOICE), log entry 28 (DESIGN CHOICE). -/
def State.wordErr (s : State) (p : WinWord) (kind : Nat) : State :=
  match errWord p with
  | some (base, off) => s.accessErr base off kind
  | none => s

end Sys2Proof.Machine
end

