-- ==== Sys2Proof/Machine/Mailbox.lean ====
section
/-!
DEFINITION. Wide values and mailboxes (R104 to R106, R179, R567, R580).
-/
namespace Sys2Proof.Machine

/-- The function of a mailbox; 66 is Barker. -/
def mbxFn : MbxRef → Nat
  | .mgr => 0
  | .sub => 1
  | .vf i => fnOfInst i.val
  | .barker => 66

/-- Where the registers of a mailbox lie. -/
def mbxB (fn : Nat) : Nat := if fn = 0 then devB + 0x100 else if fn = 66 then winBase 66 + 0x3000 else winBase (winNo fn) + 0x3000

/-- The manager's addresses, which Barker's mailbox shares. -/
def mbxWide (fn : Nat) : Bool := decide (fn = 0) || decide (fn = 66)

/-- The slot that a request's code names, if it holds a wide value: an address of the normal view, or an offset of the window. -/
def State.mbxSlot (s : State) (fn code : Nat) : Option (Nat × WRow) :=
  let o := code / 4 * 4
  let a : Option Nat := if mbxWide fn then some o else if code / 4 < 0x1000 then (match s.winWordInst fn o with | .reg a => some a | _ => none) else none
  match a with
  | none => none
  | some a =>
    match locAt a, wideRow a with
    | some l, some w => if l.kind ≠ .pot ∧ s.frameThere l then some (a, w) else none
    | _, _ => none

/-- The value of a slot: a counter's shadow comes with the generation (R567). -/
def State.slotValue (s : State) (a : Nat) : Nat :=
  if a = pciB + Reg.PCI_TIMEBASE then s.now % 2 ^ 64
  else if tabB + Reg.TAB_SHADOW ≤ a ∧ a < tabB + 0x10000 then
    KMap.get (fun _ => 0) s.shadows ((a - tabB - Reg.TAB_SHADOW) / 16) % 2 ^ 64 + 2 ^ 64 * s.shadowGen
  else s.wideAt a

/-- Before a Ringplan is applied most frames read as at reset (R86). -/
def State.slotHeld (s : State) (a : Nat) : Bool := s.awaiting && (match locAt a with | some l => !openEarly.contains l.kind | none => false)

/-- A fence slot, a head or the timebase of an instance's mailbox (R179): words and value. -/
def State.instValue (s : State) (fn c : Nat) : Option (Nat × Nat) :=
  let i := fn - 2
  if 2 ≤ fn ∧ 0x10000 ≤ c ∧ c < 0x10100 then
    let f := s.fence i (c - 0x10000)
    some (4, f.value % 2 ^ 64 + 2 ^ 64 * (f.status % 2 ^ 8) + 2 ^ 96 * (f.detail % 2 ^ 32))
  else if 2 ≤ fn ∧ 0x20000 ≤ c ∧ c < 0x20008 then
    let h := c - 0x20000
    if s.seesHead i h then some (4, s.frameNo h % 2 ^ 64 + 2 ^ 64 * ((s.head h).glassLatch % 2 ^ 64)) else none
  else if c = 0x30000 then some (2, s.now % 2 ^ 64)
  else none

/-- The wide value that a code names: number of words, value. -/
def State.wideValue (s : State) (fn code : Nat) : Option (Nat × Nat) :=
  match s.mbxSlot fn code with
  | some (a, w) => some (w.words, if s.slotHeld a then 0 else s.slotValue a)
  | none => if mbxWide fn then none else s.instValue fn (code / 4)

/-- The frame of a mailbox and the mailbox's offset in it. -/
def mbxFrame (fn : Nat) : Nat × Nat := if fn = 0 then (devB, 0x100) else if fn = 66 then (brkB, 0) else (fnInst fn, 0x3000)

/-- VALID, ERR and WORDS of a mailbox. -/
def State.mbxStatus (s : State) (fn valid err words : Nat) : State :=
  ((s.put (mbxB fn) Reg.MBX_STATUS_VALID valid).put (mbxB fn) Reg.MBX_STATUS_ERR err).put (mbxB fn) Reg.MBX_STATUS_WORDS words

/-- The read in hand. -/
def State.mbxHold (s : State) (fn : Nat) (r : Option Nat) : State := { s with mbx := KMap.set (fun _ => none) s.mbx fn r }

/-- A request that fails (R106). Rests on log entry 35 (DESIGN CHOICE). -/
def State.mbxFail (s : State) (fn : Nat) : State :=
  ((s.mbxHold fn none).mbxStatus fn 1 1 0).accessErr (mbxFrame fn).1 (mbxFrame fn).2 0x0A

/-- Word k of the data registers. -/
def State.mbxWord (s : State) (fn k : Nat) : Nat := s.rd (mbxB fn + 4 * k) Reg.MBX_DATA_DATA

/-- A LOAD: the counter takes the data words (R105).
Rests on log entry 35 (DESIGN CHOICE), log entry 37 (DESIGN CHOICE). -/
def State.mbxDoLoad (s : State) (fn code : Nat) : State :=
  match s.mbxSlot fn code with
  | some (a, w) =>
    if !w.cnt then s.mbxFail fn
    else
      let s := if s.slotHeld a then s.earlyWrite a else s.putWide a ((s.mbxWord fn 0 + 2 ^ 32 * s.mbxWord fn 1) % 2 ^ 48)
      (s.mbxHold fn none).mbxStatus fn 1 0 0
  | none => s.mbxFail fn

/-- The request in MBX_REQ starts; an earlier one is discarded (R106), VALID clears (R105). Rests on log entry 35 (DESIGN CHOICE). -/
def State.mbxStart (s : State) (fn : Nat) : State :=
  let code := 4 * s.rd (mbxB fn) Reg.MBX_REQ_OFFSET
  let s := (s.mbxHold fn none).put (mbxB fn) Reg.MBX_STATUS_VALID 0
  if s.rd (mbxB fn) Reg.MBX_REQ_OP = 1 then s.mbxDoLoad fn code
  else if (s.wideValue fn code).isSome then s.mbxHold fn (some code) else s.mbxFail fn

/-- A write of MBX_REQ with an OP. Rests on log entry 34 (DESIGN CHOICE). -/
def State.mbxRequest (s : State) (m : MbxRef) (op code : Nat) : State :=
  let fn := mbxFn m
  if fn ≠ 66 ∧ !s.answers fn then s
  else ((s.put (mbxB fn) Reg.MBX_REQ_OFFSET (code / 4)).put (mbxB fn) Reg.MBX_REQ_OP op).mbxStart fn

def doMbxRead (s : State) (m : MbxRef) (code : Nat) : State := s.mbxRequest m 0 code
def doMbxLoad (s : State) (m : MbxRef) (code : Nat) : State := s.mbxRequest m 1 code

/-- The captured value fills the data words. -/
def State.mbxFill (s : State) (fn words v : Nat) : State :=
  let s := s.each (List.range 4) fun s k => s.put (mbxB fn + 4 * k) Reg.MBX_DATA_DATA (if k < words then v / 2 ^ (32 * k) else 0)
  (s.mbxHold fn none).mbxStatus fn 1 0 words

/-- MBX_CAPTURE. -/
def doMbxCapture (s : State) (m : MbxRef) : State :=
  let fn := mbxFn m
  match KMap.get (fun _ => none) s.mbx fn with
  | none => s
  | some code =>
    match s.wideValue fn code with
    | some (w, v) => s.mbxFill fn w v
    | none => s.mbxFail fn

/-- MBX_DATA_READ: Barker never reads an MBX word (R580). -/
def doMbxDataRead (s : State) (m : MbxRef) (k : Nat) : State :=
  let fn := mbxFn m
  if fn = 66 ∨ !s.answers fn then s
  else if s.rd (mbxB fn) Reg.MBX_STATUS_VALID = 0 then { s with readData := natLE 4 0 }
  else
    let s := { s with readData := natLE 4 (s.mbxWord fn k) }
    if s.rd (mbxB fn) Reg.MBX_STATUS_WORDS = k + 1 then s.put (mbxB fn) Reg.MBX_STATUS_VALID 0 else s

def execMbxRead (m : MbxRef) (code : BitVec 24) (s : State) : Host.Outcome State Fault Refusal := .next (settle s (doMbxRead s m code.toNat))
def execMbxLoad (m : MbxRef) (code : BitVec 24) (s : State) : Host.Outcome State Fault Refusal := .next (settle s (doMbxLoad s m code.toNat))
def execMbxCapture (m : MbxRef) (s : State) : Host.Outcome State Fault Refusal := .next (settle s (doMbxCapture s m))
def execMbxDataRead (m : MbxRef) (k : Fin 4) (s : State) : Host.Outcome State Fault Refusal := .next (settle s (doMbxDataRead s m k.val))

end Sys2Proof.Machine
end

