-- ==== Sys2Proof/Machine/RegWrite.lean ====
section
/-!
DEFINITION. One register written (R3, R5, R85 to R96): reserved encodings and bounds, what a field does with a write, the triggers of a
register, and what a write sets going.
-/
namespace Sys2Proof.Machine

/-! ## What can be written where -/

/-- A write of one 32-bit register: the function whose window it came through (0: the manager's, and Barker's), and whether hardware
updates the register in the same cycle (R93). -/
structure RegWrite where
  fn : Nat := 0
  op : AliasOp := .normal
  val : Nat
  mask : Nat := 2 ^ 32 - 1
  hw : Bool := false
  deriving DecidableEq, Repr

/-- The word that a write makes of an old one (R87, R90). -/
def RegWrite.merge (x : RegWrite) (old : Nat) : Nat :=
  let b := x.val &&& x.mask
  match x.op with
  | .normal => (old ^^^ (old &&& x.mask)) ||| b
  | .set => old ||| b
  | .clear => old ^^^ (old &&& b)
  | .toggle => old ^^^ b

/-- The bits that a write acts on: the enabled ones, of an alias write those that are 1.
Rests on log entry 25 (DESIGN CHOICE). -/
def RegWrite.acts (x : RegWrite) : Nat := if x.op = .normal then x.mask else x.val &&& x.mask

/-- Members of a broadcast type (R107, R108). -/
def bcastCount : Nat → Nat
  | 0 => 8
  | 1 => 64
  | 2 => 16
  | 3 => 64
  | 4 => 8
  | 5 => 8
  | 6 => 64
  | _ => 0

/-- Bits of SN_STOP_MASK that exist: the sources of R489 without 0x05 and 0x17 (R512). Rests on log entry 30 (DEDUCED). -/
def stopMaskBits : Nat := 2 ^ 27 - 2 - 2 ^ 5 - 2 ^ 23

/-- Fields reserved in the state in force: layer fields of the other kind (R256), RING_TELEM of other rings (R568), CAL_LEGACY_MUX
outside MODE 1 (R447), MSI-X entries beyond the table (R124), CALL_CMD[VECTOR] of the manager (R408). -/
def State.fieldGone (s : State) (l : RegLoc) (r : FRow) : Bool :=
  match l.kind with
  | .layer => !isVideo l.n && graphicReserved { r.fld with off := l.off }
  | .ring => decide (l.off = 0x80) && decide (s.ringType l.n ≠ 7)
  | .cal => decide (0x200 ≤ l.off) && decide (l.off < 0x300) && decide (s.audio.mode ≠ 1)
  | .win => decide (0x3800 ≤ l.off) && decide (l.off < 0x3A00) && decide (s.vectors (s.fnOfLoc l) ≤ (l.off - 0x3800) / 16)
  | .sec => decide (l.off = 0x100) && decide (r.fld.lo = 8)
  | _ => false

/-- Fields that the window of the function itself only reads (R180). Rests on log entry 29 (DEDUCED). -/
def mgrOnly (x : RegWrite) (l : RegLoc) (r : FRow) : Bool :=
  decide (x.fn ≠ 0) && decide (l.kind = .inst) && (decide (l.off = 0x20) || decide (l.off = 0x24) || (decide (l.off = 0x08) && decide (r.fld.lo = 1)))

/-- The type of a field for a write. Rests on log entry 29 (DEDUCED). -/
def typeFor (x : RegWrite) (l : RegLoc) (r : FRow) : FTy := if mgrOnly x l r then .ro else r.ty

/-- An MSI-X table word. Rests on log entry 23 (PRESUMED). -/
def msixWordNo (l : RegLoc) : Option Nat :=
  if (l.kind = .pci ∧ 0x2000 ≤ l.off ∧ l.off < 0x2200) ∨ (l.kind = .win ∧ 0x3800 ≤ l.off ∧ l.off < 0x3A00) then some (l.off % 16 / 4) else none

/-- Bits of a register that are reserved within a listed field: members that do not exist (R108), sources that cannot stop outputs
(R512), the low address bits and the vector control of an MSI-X entry.
Rests on log entry 23 (PRESUMED), log entry 30 (DEDUCED). -/
def liveBits (l : RegLoc) : Nat :=
  let all := 2 ^ 32 - 1
  match msixWordNo l with
  | some 0 => all - 3
  | some 3 => 1
  | _ =>
    if l.kind = .dev ∧ 0x400 ≤ l.off ∧ l.off < 0x600 then
      let c := bcastCount ((l.off - 0x400) / 64)
      2 ^ (if l.off % 8 = 0 then min c 32 else c - 32) - 1
    else if l.kind = .sn ∧ l.off = 0x14 then stopMaskBits
    else all

/-! ## Encodings and bounds (R5, R11) -/

/-- Whether a value is one of a field's encodings. -/
def State.fieldOk (s : State) (l : RegLoc) (r : FRow) (v : Nat) : Bool :=
  let vec := decide (v < s.vectors (s.fnOfLoc l))
  encOk r.legal v && (match l.kind with
    | .inst => decide (l.off ≠ 0x14) || vec
    | .win => decide (l.off ≠ 0x3100) || decide (r.fld.lo ≠ 8) || vec
    | .out => (decide (l.off ≠ 0x14) || decide (v = 0) || decide (s.portType l.n = 1)) &&
      (decide (l.off ≠ 0) || decide (r.fld.lo ≠ 0) || decide (v ≠ 3) || decide (s.portType l.n ≠ 3))
    | _ => true)

/-- Whether a BIQUAD's coefficient section belongs to a node that the manager may not write (R442, R451).
Rests on log entry 32 (DESIGN CHOICE). -/
def State.coefClosed (s : State) (off : Nat) : Bool :=
  let k := (off - 0x10000) / 20
  s.audio.nodes.any fun r => decide (r.typ = 0x13) && decide (r.par 0 2 ≤ k) && decide (20 * k < 20 * r.par 0 2 + r.coefLen) && !s.mgrMayWrite r

/-- Whether a head's owner holds an item of OWNER_WRITABLE against the manager (R75, R276). -/
def State.ownerHolds (s : State) (h bit : Nat) : Bool := bitSet (s.p.head h).ownerWritable bit && !s.ownerIdle (s.p.head h).owner

/-- Writes that a bound, an owner or the Ringplan's state turns away whole (R11, R74, R245, R275, R276, R309, R451, R452, R512).
Rests on log entry 32 (DESIGN CHOICE). -/
def State.writeBarred (s : State) (l : RegLoc) (rows : List FRow) (acts old new : Nat) : Bool :=
  let rwb := rows.any fun r => decide (r.ty = .rwb) && decide (bitsOf acts r.fld.lo r.fld.w ≠ 0)
  match l.kind with
  | .layer => (rwb || (decide (l.off = 0x34) && decide (acts ≠ 0))) && !s.ownerIdle (s.layerOwner l.n)
  | .head =>
    if l.off = 0x14 then decide (bitsOf acts 0 16 ≠ 0) && (s.rplBusy || decide ((s.p.head l.n).lostHoldMs < bitsOf new 0 16))
    else rwb && decide (0x1000 ≤ l.off) && s.ownerHolds l.n 2
  | .out => decide (l.off = 0) && decide (acts ≠ 0) && s.p.guards l.n &&
      (decide (bitsOf new 0 2 < 2) || decide (bitsOf new 2 2 = 1) || decide (bitsOf new 2 2 = 2))
  | .cal =>
    if 0x10000 ≤ l.off then rwb && s.coefClosed l.off
    else (decide (l.off = 0x108) || decide (l.off = 0x148)) && decide (acts ≠ 0) &&
      !(decide (bitsOf new 0 8 < bitsOf new 8 8) && decide (bitsOf new 8 8 < bitsOf new 16 8) && decide (bitsOf new 16 8 < bitsOf new 24 8))
  | .sn => decide (l.off = 0x14) && decide (s.p.safety.profile = 1) && decide (old &&& new ≠ old)
  | _ => false

/-- The part of a word that lands where one field of it is turned away with kind 0x06: GAMMA_EN of an owner (R276), ENABLE of the
disturbance tables under PROFILE 1 (R375). Rests on log entry 32 (DESIGN CHOICE). -/
def State.narrow (s : State) (l : RegLoc) (acts old new : Nat) : State × Nat :=
  if l.kind = .head ∧ l.off = 0x18 ∧ s.ownerHolds l.n 2 then
    (if bitsOf old 0 1 = bitsOf new 0 1 then s else s.accessErr l.base l.off 0x06, setBits new 0 1 (bitsOf old 0 1))
  else if l.kind = .dmc ∧ l.off = 0x14 ∧ s.p.safety.profile = 1 ∧ bitSet acts 16 ∧ !bitSet new 16 then
    (s.accessErr l.base l.off 0x06, setBits new 16 1 (bitsOf old 16 1))
  else (s, new)

/-- RW registers that hardware also updates: a write in the same cycle is lost (R93, R95).
Rests on log entry 38 (DESIGN CHOICE). -/
def hwUpdates (l : RegLoc) : Bool :=
  match l.kind with
  | .ring => decide (l.off = 0x18)
  | .head => decide (l.off = 0x1C) || decide (l.off = 0x14)
  | .layer => decide (l.off = 0x08)
  | .pic => decide (l.off = 0x1C)
  | .out => decide (0x48 ≤ l.off) && decide (l.off < 0x58)
  | _ => false

/-! ## ARM and REVERT (R97, R98, R245) -/

/-- ARM of the frame at `base`. -/
def State.armNow (s : State) (k : FrameKind) (n : Nat) : State :=
  match k with
  | .head => s.managerArm n none
  | .layer => s.managerArm (s.layerHead n) (some n)
  | _ => s.armFrame (k.at n)

/-- REVERT: the active values into every shadow, and ARM clears. Rests on log entry 43 (DESIGN CHOICE). -/
def State.revertNow (s : State) (k : FrameKind) (n : Nat) : State := (s.revertShadow (k.at n)).put (k.at n) Reg.CTRL_ARM 0

/-! ## Triggers -/

/-- A push command starts the operation that its OP field holds; the reserved reset value 0 starts nothing (R67, R554).
Rests on log entry 34 (DESIGN CHOICE). -/
def State.pushGo (s : State) (l : RegLoc) : State :=
  if l.kind = .dev then
    let op := s.rd devB Reg.DEV_FW_PUSH_CMD_OP
    if s.rd devB Reg.DEV_FW_PUSH_STATUS_BUSY = 1 ∨ op ≠ 0 then s.fwGoNow op else s
  else
    let op := s.rd rplB Reg.RPL_PUSH_CMD_OP
    if s.rd rplB Reg.RPL_PUSH_STATUS_BUSY = 1 ∨ op ≠ 0 then s.rplGoNow op else s

/-- The call block's caller. -/
def callerAt (l : RegLoc) : FnId :=
  if l.kind = .sec then .mgr else if h : l.n < 64 then .vf ⟨l.n, h⟩ else .sub

/-- GO of a call block: the service that SERVICE names; any other fails BAD_ARGS (R409). -/
def State.callGo (s : State) (c : FnId) : State :=
  match s.rd (callBase c) Reg.CALL_CMD_SERVICE with
  | 1 => s.pageAssign c
  | 2 => s.pageRelease c
  | 3 => s.pageFlags c
  | 4 => s.pageQuery c
  | 5 => s.debugUnlock c
  | 6 => s.debugRevoke c
  | v => s.startCall c v fun s => s.endCall c callBadArgs

/-- A trigger bit written 1; `w` holds every bit that the write sets. A release that meets a stop is refused (R510). -/
def State.trigger (s : State) (l : RegLoc) (lo : Nat) (w : Nat := 0) : State :=
  match l.kind, l.off, lo with
  | .ring, 0x34, 16 => s.ringStart l.n
  | .ring, 0x34, 17 => s.ringStop l.n
  | .ring, 0x34, 18 => s.ringResume l.n
  | .ring, 0x34, 19 => s.ringDisable l.n
  | .blw, 0x34, 16 => s.replanNow
  | .inst, 0x08, 0 => s.clearUnclean l.n
  | .inst, 0x08, 1 => s.instanceReset l.n
  | .dev, 0x50, 31 => s.pushGo l
  | .rpl, 0x1C, 31 => s.pushGo l
  | .pic, 0x0C, 0 => s.enterDoze
  | .pic, 0x0C, 1 => s.requestSleep 2
  | .pic, 0x0C, 2 => s.requestSleep 3
  | .pic, 0x0C, 3 => s.cancelNow
  | .pic, 0x0C, 4 => s.wakeSource 11
  | .pic, 0x0C, 5 => s.coldStart
  | .tab, 0x0C, 0 => s.capture 0
  | .tab, 0x0C, 1 => s.atArmNow
  | .tab, 0x0C, 2 => s.atCancelNow
  | .log, 0x18, 0 => s.logReadNow
  | .sn, 0x0C, 0 => s.stopOutputs
  | .sn, 0x0C, 1 => if bitSet w 0 then s.raise snB Reg.SN_EVENT_RELEASE_REFUSED else s.release.1
  | .out, 0x10, 0 => s.retrainCommand l.n
  | .out, 0x10, 1 => s.auxCommand l.n
  | .hapCh, 0x0C, 0 => s.hapCalibrateNow l.n
  | .hapCh, 0x0C, 1 => s.hapTestNow l.n
  | .hapCh, 0x0C, 2 => s.hapRecoverNow l.n
  | .hapCh, 0x0C, 3 => s.hapStopNow l.n
  | .dmc, 0x24, 31 => s.recentre
  | .sec, 0x0C, 0 => s.secureReboot
  | .sec, 0x0C, 2 => s.endCert
  | .sec, 0x100, 31 => s.callGo .mgr
  | .win, 0x3100, 31 => s.callGo (callerAt l)
  | k, 0x34, 0 => s.armNow k l.n
  | k, 0x34, 1 => s.revertNow k l.n
  | _, _, _ => s

/-! ## What a write sets going -/

/-- Interrupt-enable registers, and the flags register each belongs to (R84, R609). -/
def enableOf (l : RegLoc) : Option Nat :=
  let own := match l.kind with
    | .pci => [0x1C] | .inst => [0x10] | .ring => [0x28] | .car => [0x10] | .blw => [8] | .pic => [8]
    | .head => [8, 0x10C] | .layer => [0x10] | .cvu => [0x10] | .sn => [8] | .cap => [8] | .out => [0xC] | .gfx => [8] | .gfxCore => [8]
    | .cpy => [8] | .dmcCh => [8] | .dmc => [0xC] | .cal => [8] | .hap => [8] | .hapCh => [8] | .tch => [8] | .tchPort => [8]
    | .tab => [8] | .log => [8] | .brk => [8] | .sec => [8] | _ => []
  if l.off = 0x2C then some 0x3C
  else if l.kind = .inst ∧ l.off = 0x24 then some 0x0C
  else if own.contains l.off then some (l.off - 4) else none

/-- Enable bits newly set over flags that are 1 raise the interrupt at once (R609).
Rests on log entry 26 (DESIGN CHOICE). -/
def State.enableRaises (s : State) (l : RegLoc) (old new : Nat) : State :=
  match enableOf l with
  | none => s
  | some f =>
    let newly := new &&& (new ^^^ old)
    if newly &&& s.readWord (l.base + f) = 0 then s
    else if f = 0x3C then s.errIrq l.base
    else s.eventIrq l.base (decide (l.kind ≠ .inst) || decide (l.off = 0x10)) (decide (l.kind = .inst) && decide (l.off = 0x24))

/-- The periodic sweep of a TELEM ring is counted from the round of the write (R568).
Rests on log entry 42 (DESIGN CHOICE). -/
def State.telemPeriod (s : State) (q : Nat) : State :=
  let p := s.rd (ringBase q) Reg.RING_TELEM_PERIOD
  s.modRing q fun r => { r with sweepNext := if p = 0 then none else some (s.now / 1000000 + p) }

/-- What follows from the new value of a register; a mailbox starts where the write asked for READ or LOAD (R105). -/
def State.afterWrite (s : State) (l : RegLoc) (acts old asked new : Nat) : State :=
  let s := s.enableRaises l old new
  match l.kind with
  | .dev => if l.off = 0x100 ∧ bitsOf asked 24 2 < 2 then s.mbxStart 0 else s
  | .ring => if l.off = 0x80 ∧ bitsOf acts 0 8 ≠ 0 then s.telemPeriod l.n else s
  | .pci => if l.off = 0x24 ∨ l.off = 0x28 then s.apertureTrim else if msixWordNo l = some 3 then s.flushVecs 0 else s
  | .win =>
    if msixWordNo l = some 3 then s.flushVecs (s.fnOfLoc l)
    else if l.off = 0x3000 ∧ bitsOf asked 24 2 < 2 then s.mbxStart (s.fnOfLoc l) else s
  | .cal => if 0x200 ≤ l.off ∧ l.off < 0x300 ∧ old ≠ new then s.startCompile else s
  | .out =>
    if l.off = 0x14 then (if s.rd (outB l.n) Reg.OUT_HDCP_REQUEST = 0 then s.setHdcp l.n 0 else s.hdcpBegin l.n)
    else if l.off = 0 ∧ s.isDsi l.n then s.put (outB l.n) Reg.OUT_STATUS_SINK_DSC (s.rd (outB l.n) Reg.OUT_CFG_DSI_PANEL_DSC)
    else s
  | _ => s

/-! ## Fields -/

/-- One RW or RWB field takes its part of a word; a reserved encoding leaves an RW field unchanged (R5). -/
def State.fieldLand (s : State) (l : RegLoc) (r : FRow) (new : Nat) : State :=
  let v := bitsOf new r.fld.lo r.fld.w
  if r.ty = .rw ∧ !s.fieldOk l r v then s.accessErr l.base l.off 0x05
  else s.put l.a { r.fld with off := 0 } v

/-- One field of another type takes its part of a direct write (R90, R93): hardware that sets a flag, or counts, in the same cycle is
not lost. Rests on log entry 38 (DESIGN CHOICE). -/
def State.fieldAct (s : State) (l : RegLoc) (r : FRow) (x : RegWrite) : State :=
  let f : Fld := { r.fld with off := 0 }
  let b := bitsOf (x.val &&& x.mask) r.fld.lo r.fld.w
  let m := bitsOf x.mask r.fld.lo r.fld.w
  let v := s.rd l.a f
  match typeFor x l r with
  | .w1c => if x.hw then s else s.put l.a f (v ^^^ (v &&& b))
  | .w1s => if b = 0 then s else s.trigger l r.fld.lo (x.val &&& x.mask)
  | .cnt => s.put l.a f (((v ^^^ (v &&& m)) ||| b) + if x.hw then 1 else 0)
  | .mbx => s.put l.a f ((v ^^^ (v &&& m)) ||| b)
  | _ => s

/-- Registers whose writes the block takes whole, and what it does with the word. -/
def State.wholeWrite (s : State) (l : RegLoc) (new : Nat) : Option State :=
  match l.kind with
  | .ring => if l.off = 0x18 then some (s.writeHostIdx l.n new) else none
  | .layer => if l.off = 0x08 then some (s.layerAssignNow l.n new) else none
  | .head => if l.off = 0x1C then some (s.cringNow l.n new) else none
  | .dmc => if l.off = 0x10 then some (s.limitNow new) else none
  | .inst => if l.off = 0x20 then some (if bitSet new 0 then s.instanceStop l.n else s.instanceStopClear l.n) else none
  | .cal =>
    if 0x1000 ≤ l.off ∧ l.off < 0x4000 ∧ l.off % 16 ≠ 12 then some (s.nodeWordNow ((l.off - 0x1000) / 16) (l.off % 16 / 4) new) else none
  | _ => none

/-- ARM and REVERT, which a write of CTRL sets before the frame's own bits act, so that a START waits for the apply (R156). -/
def RegLoc.commonCtrl (l : RegLoc) (r : FRow) : Bool := decide (l.off = 0x34) && decide (r.fld.lo < 16)

/-- A write of the register at `l`, past the checks of its window. -/
def State.regLand (s : State) (l : RegLoc) (x : RegWrite) : State :=
  let rows := (regRows l.a).filter fun r => !s.fieldGone l r
  let plain := rows.filter fun r => decide (typeFor x l r = .rw) || decide (typeFor x l r = .rwb)
  let rest := rows.filter fun r => !plain.contains r
  let rest := (rest.filter (l.commonCtrl)) ++ rest.filter fun r => !l.commonCtrl r
  let bits := plain.foldl (fun m r => m + (2 ^ r.fld.w - 1) * 2 ^ r.fld.lo) 0 &&& liveBits l
  let acts := x.acts &&& bits
  let old := plain.foldl (fun v r => v + s.rd l.a { r.fld with off := 0 } * 2 ^ r.fld.lo) 0
  let new := (x.merge old &&& bits) ||| (old ^^^ (old &&& bits))
  let ctrl := if l.off = 0x34 then x.acts else 0
  let wrong := decide (x.op ≠ .normal) && rest.any fun r => decide (bitsOf x.acts r.fld.lo r.fld.w ≠ 0)
  if s.writeBarred l rows (acts ||| ctrl) old new then s.accessErr l.base l.off 0x06
  else if x.hw && hwUpdates l && decide (acts ≠ 0) then s.raiseErr l.base Reg.ERR_WRITE_LOST
  else
    let s := if wrong then s.accessErr l.base l.off 0x01 else s
    let s := if acts = 0 then s else
      match s.wholeWrite l new with
      | some s => s
      | none =>
        let (s, new) := s.narrow l acts old new
        let s := (plain.filter fun r => decide (bitsOf acts r.fld.lo r.fld.w ≠ 0)).foldl (fun s r => s.fieldLand l r new) s
        let s := if plain.any fun r => decide (r.ty = .rwb) && decide (bitsOf acts r.fld.lo r.fld.w ≠ 0) then s.put l.base Reg.CTRL_ARM 0 else s
        s.afterWrite l acts old new (plain.foldl (fun v r => v + s.rd l.a { r.fld with off := 0 } * 2 ^ r.fld.lo) 0)
    if x.op = .normal then rest.foldl (fun s r => s.fieldAct l r x) s else s

/-- A write of SN_INJECT or SN_FAULT_FLAGS, which the Safety Net takes whole (R503, R508). -/
def State.snLand (s : State) (l : RegLoc) (x : RegWrite) : State :=
  if l.off = 0x18 then (if x.op ≠ .normal then (if x.acts = 0 then s else s.accessErr snB 0x18 0x01) else if x.hw then s else s.faultFlagsNow (x.val &&& x.mask))
  else
    let old := s.readWord l.a
    let go := if x.op = .normal then (x.val &&& x.mask) / 2 ^ 31 * 2 ^ 31 else 0
    let s := if x.op ≠ .normal ∧ bitSet x.acts 31 then s.accessErr snB 0x20 0x01 else s
    let new := x.merge old % 2 ^ 31
    if new = old ∧ go = 0 then s else s.writeInject (new + go) (decide (x.acts &&& 0x1F ≠ 0))

/-- A write of the register at an address (R85, R86). -/
def State.writeWord (s : State) (a : Nat) (x : RegWrite) : State :=
  match locAt a with
  | none => s
  | some l =>
    if l.kind = .pot then s.accessErr devB a 0x07
    else if s.awaiting && !openEarly.contains l.kind then s.earlyWrite a
    else if !s.frameThere l then s
    else if l.kind = .sn ∧ (l.off = 0x18 ∨ l.off = 0x20) then s.snLand l x
    else s.regLand l x

end Sys2Proof.Machine
end

