-- ==== Sys2Proof/Machine/Access.lean ====
section
/-!
DEFINITION. Accesses (chapter 3): widths and doorbells (R90 to R92), aliases (R87 to R89),
broadcast views (R107 to R110), ARM, REVERT and idle applies (R97, R102).
-/
namespace Sys2Proof.Machine

/-! ## Parts of an access (R90 to R92) -/

/-- A write: the enabled bytes from an offset on. -/
structure Write where
  off : Nat
  data : List Byte
  be : List Bool
  op : AliasOp := .normal
  hw : Bool := false

/-- Whether byte `k` of a write is enabled. -/
def Write.on (x : Write) (k : Nat) : Bool := decide (k < x.data.length) && x.be.getD k false

/-- The word offsets that a write of n bytes covers, ascending. -/
def wordsOf (off n : Nat) : List Nat := if n = 0 then [] else (List.range ((off + n - 1) / 4 - off / 4 + 1)).map fun k => 4 * (off / 4 + k)

/-- The lanes of the word at `w` that are enabled. -/
def Write.lanes (x : Write) (w : Nat) : List Nat := (List.range 4).filter fun b => decide (x.off ≤ w + b) && x.on (w + b - x.off)

/-- Enabled bytes are contiguous (R91). -/
def contiguous (l : List Nat) : Bool :=
  match l.head?, l.getLast? with
  | some a, some b => decide (b - a + 1 = l.length)
  | _, _ => true

/-- The value and the mask of the word at `w`. -/
def Write.word (x : Write) (w : Nat) : Nat × Nat :=
  (x.lanes w).foldl (fun p b => (p.1 + (x.data.getD (w + b - x.off) 0).toNat * 256 ^ b, p.2 + 255 * 256 ^ b)) (0, 0)

/-- A single full-width write of n bytes at an aligned offset. -/
def Write.full (x : Write) (n : Nat) : Bool :=
  decide (x.op = .normal) && decide (x.off % n = 0) && decide (x.data.length = n) && (List.range n).all x.on

/-- A doorbell written: with its full width `act`, else ignored (R88, R92). Rests on log entry 28 (DESIGN CHOICE). -/
def State.doorbell (s : State) (p : WinWord) (x : Write) (mask : Nat) (val : Nat) (act : State → State) : State :=
  if x.op ≠ .normal then (if val &&& mask = 0 then s else s.wordErr p 0x01)
  else if x.full 4 then act s else s.wordErr p 0x02

/-- One 32-bit part of a write (R91). Rests on log entry 40 (DESIGN CHOICE). -/
def State.writePart (s : State) (fn : Nat) (p : WinWord) (x : Write) (val mask : Nat) : State :=
  match p with
  | .reg a => s.writeWord a { fn := fn, op := x.op, val := val, mask := mask, hw := x.hw }
  | .db q 0 => if s.awaiting then s.earlyWrite (ringBase q + 0x18) else s.doorbell p x mask val fun s => s.writeHostIdx q val
  | .db _ 4 => s
  | .db q _ => if s.awaiting then s.earlyWrite (ringBase q + 0x18) else if x.op ≠ .normal then s.doorbell p x mask val id else s.wordErr p 0x02
  | .hapTrig i => s.doorbell p x mask val fun s => doHapTrig s i val
  | .snReq i => s.doorbell p x mask val fun s => if val = 1 then doSnReqStop s i else if val = 2 then doSnReqRelease s i else s
  | .hapDb c => if s.awaiting then s.earlyWrite (hapChB c + 0x18) else s.doorbell p x mask val fun s => s.hapTriggerNow c val
  | .reserved => s

/-- The 64-bit doorbell of a ring: index and REARM in one update (R155). -/
def State.doorbell64 (s : State) (q lo hi : Nat) : State :=
  if s.awaiting then s.earlyWrite (ringBase q + 0x18)
  else
    let taken := s.hostIdxOk q lo
    let s := s.writeHostIdx q lo
    if taken && bitSet hi 0 then (s.modRing q fun r => { r with oneshotOff := false }).checkItems q false else s

/-- One part, its byte enables checked. Rests on log entry 40 (DESIGN CHOICE). -/
def State.partChecked (s : State) (w : Win) (x : Write) (o : Nat) : State :=
  let p := s.winWord w o
  let l := x.lanes o
  if l.isEmpty then s
  else if contiguous l then let (v, m) := x.word o; s.writePart (winFn w) p x v m
  else s.wordErr p 0x03

/-- A write through a window (R90 to R92, R134). Rests on log entry 40 (DESIGN CHOICE). -/
def State.write (s : State) (w : Win) (x : Write) : State :=
  if !s.answers (winFn w) then s
  else match s.winWord w (x.off / 4 * 4), x.full 8 with
    | .db q 8, true => s.doorbell64 q (leNat (x.data.take 4)) (leNat (x.data.drop 4))
    | p, _ =>
      if x.data.length ≤ 4 ∧ 4 < x.off % 4 + x.data.length then s.wordErr p 0x04
      else (wordsOf x.off x.data.length).foldl (fun s o => s.partChecked w x o) s

def doRegisterWrite (s : State) (w : Win) (off : Nat) (data : List Byte) (be : List Bool) (hw : Bool) : State :=
  s.write w { off := off, data := data, be := be, hw := hw }

/-- A write through an alias: the doorbell window has none (R77). Rests on log entry 25 (DESIGN CHOICE). -/
def doAliasWrite (s : State) (op : AliasOp) (w : Win) (off : Nat) (data : List Byte) (be : List Bool) (hw : Bool) : State :=
  if w = .mgrDb then s else s.write w { off := off, data := data, be := be, op := op, hw := hw }

/-! ## Broadcast views (R107 to R110) -/

/-- The frames of a broadcast type. -/
def bcastKind : Nat → Option FrameKind
  | 0 => some .head
  | 1 => some .layer
  | 2 => some .dmcCh
  | 3 => some .cvu
  | 4 => some .hapCh
  | 5 => some .tchPort
  | 6 => some .inst
  | _ => none

/-- The members that SEL selects, ascending. -/
def State.bcastMembers (s : State) (sel typ : Nat) : List Nat :=
  let all := List.range (bcastCount typ)
  if sel = 0 then all
  else
    let a := devB + 64 * typ + 8 * (sel - 1)
    all.filter fun n => if n < 32 then bitSet (s.rd a Reg.DEV_BGRP_LO_MEMBERS) n else bitSet (s.rd a Reg.DEV_BGRP_HI_MEMBERS) (n - 32)

/-- The address of an offset of a broadcast view, without its alias. -/
def bcastAddr (sel typ off : Nat) : Nat := 0x800000 + sel * 0x80000 + typ * 0x10000 + off

/-- Whether a word of a member frame lies in a wide slot or is a doorbell (R109). -/
def bcastExcluded (k : FrameKind) (off : Nat) : Bool :=
  (wideRow (k.base + off / 16 * 16)).isSome || (decide (k = .hapCh) && decide (off / 4 * 4 = 0x18))

/-- A broadcast access to a word: reserved, excluded, or its members. -/
inductive Bcast where
  | reserved | excluded | members (k : FrameKind) (ns : List Nat)
  deriving DecidableEq, Repr
def State.bcast (s : State) (sel typ off : Nat) : Bcast :=
  match bcastKind typ with
  | none => .reserved
  | some k =>
    if 9 ≤ sel ∨ k.stride ≤ off then .reserved
    else
      let ns := s.bcastMembers sel typ
      if bcastExcluded k off ∨ ns = [] then .excluded else .members k ns

/-- One part of a broadcast write: a separate write to each selected member, in ascending order.
Rests on log entry 39 (DESIGN CHOICE). -/
def State.bcastPart (s : State) (sel typ : Nat) (x : Write) (o : Nat) : State :=
  let l := x.lanes o
  if l.isEmpty then s
  else match s.bcast sel typ o with
    | .reserved => s
    | .excluded => s.accessErr devB (bcastAddr sel typ o) 0x09
    | .members k ns =>
      if !contiguous l then s.accessErr devB (bcastAddr sel typ o) 0x03
      else
        let (v, m) := x.word o
        ns.foldl (fun s n => s.writeWord (k.at n + o) { op := x.op, val := v, mask := m, hw := x.hw }) s

/-- Rests on log entry 39 (DESIGN CHOICE). -/
def doBroadcastWrite (s : State) (op : AliasOp) (sel typ off : Nat) (data : List Byte) (be : List Bool) : State :=
  let x : Write := { off := off, data := data, be := be, op := op }
  if !s.answers 0 then s
  else if data.length ≤ 4 ∧ 4 < off % 4 + data.length then
    (match s.bcast sel typ off with | .reserved => s | _ => s.accessErr devB (bcastAddr sel typ off) 0x04)
  else (wordsOf off data.length).foldl (fun s o => s.bcastPart sel typ x o) s

/-- A mask of members from `lo` to `lo + 31`. -/
def memberMask (ns : List Nat) (lo : Nat) : Nat := (ns.filter fun n => decide (lo ≤ n) && decide (n < lo + 32)).foldl (fun m n => m + 2 ^ (n - lo)) 0

/-- Members that disagree with the value returned (R110). Rests on log entry 39 (DESIGN CHOICE). -/
def State.bcastDiffer (s : State) (sel typ off : Nat) (ns : List Nat) : State :=
  s.each [(Reg.DEV_BCAST_STATUS_BCAST_DIFFER, 1), (Reg.DEV_BCAST_STATUS_TYPE, typ), (Reg.DEV_BCAST_STATUS_SEL, sel),
    (Reg.DEV_BCAST_STATUS_OFFSET, bcastAddr sel typ off / 4), (Reg.DEV_BCAST_DIFF_LO_MEMBERS, memberMask ns 0),
    (Reg.DEV_BCAST_DIFF_HI_MEMBERS, memberMask ns 32)] fun s e => s.put devB e.1 e.2

/-- BROADCAST_READ of one word. Rests on log entry 39 (DESIGN CHOICE). -/
def doBroadcastRead (s : State) (sel typ off : Nat) : State :=
  let o := off / 4 * 4
  if !s.answers 0 then s
  else match s.bcast sel typ o with
    | .reserved => { s with readData := natLE 4 0 }
    | .excluded => State.accessErr { s with readData := natLE 4 0 } devB (bcastAddr sel typ o) 0x09
    | .members k ns =>
      let v := s.readWord (k.at (ns.headD 0) + o)
      let other := ns.filter fun n => decide (s.readWord (k.at n + o) ≠ v)
      let s := { s with readData := natLE 4 v }
      if other = [] then s else s.bcastDiffer sel typ o other

/-! ## ARM, REVERT, and applies of idle frames (R97, R98, R102, R245) -/

/-- The frame of a reference: its kind and number. -/
def frameRef : FrameRef → FrameKind × Nat
  | .ring q => (.ring, q.val)
  | .car => (.car, 0)
  | .blw => (.blw, 0)
  | .head h => (.head, h.val)
  | .layer k => (.layer, k.val)
  | .cal => (.cal, 0)
  | .hap a => (.hapCh, a.val)

/-- A write of a frame's CTRL reaches it: of a layer, only while its owner is out of the way. -/
def State.ctrlReach (s : State) (f : FrameRef) (act : State → State) : State :=
  let (k, n) := frameRef f
  match f with
  | .ring q => s.ringReach q.val act
  | .layer j => s.mgrReach (off := k.at n + 0x34) fun s =>
      if s.ownerIdle (s.layerOwner j.val) then act s else s.accessErr (layerBase j.val) 0x34 0x06
  | _ => s.mgrReach (off := k.at n + 0x34) act

def doArm (s : State) (f : FrameRef) : State := s.ctrlReach f fun s => s.armNow (frameRef f).1 (frameRef f).2
/-- Rests on log entry 43 (DESIGN CHOICE). -/
def doRevert (s : State) (f : FrameRef) : State := s.ctrlReach f fun s => s.revertNow (frameRef f).1 (frameRef f).2

/-- The armed LEVEL of a haptic channel on which no effect runs. Rests on log entry 99 (DESIGN CHOICE). -/
def State.hapIdleApply (s : State) (a : Nat) : State :=
  let b := hapChB a
  if !s.armed b || s.hapActive a then s
  else match s.reservedShadow b with
    | some off => s.refuseApply b 0x02 off
    | none => s.applyFrame b

/-- The armed apply of a ring that is idle, and the START that waited for it (R156). -/
def State.ringIdleApply (s : State) (q : Nat) : State :=
  if s.ringState q = running ∨ s.ringState q = stoppingRing then s
  else
    let s := s.ringApply q
    if (s.ring q).startPending ∧ !s.armed (ringBase q) then (s.modRing q fun r => { r with startPending := false }).startRing q else s

/-- IDLE_APPLY. Carousel and Bellows are never idle in ON. Rests on log entry 69 (DEDUCED). -/
def doIdleApply (s : State) (f : FrameRef) : State :=
  match f with
  | .head h => if s.scans h.val then s else s.applyHead h.val
  | .layer k => if s.scans (s.layerHead k.val) then s else (s.applyLayer k.val).idleMove k.val
  | .ring q => s.ringIdleApply q.val
  | .cal => s.calIdleApply
  | .hap a => s.hapIdleApply a.val
  | .car => s
  | .blw => s

def execRegisterWrite (w : Win) (off : Nat) (data : List Byte) (be : List Bool) (hw : Bool) (s : State) : Host.Outcome State Fault Refusal :=
  .next (settle s (doRegisterWrite s w off data be hw))
def execAliasSetWrite (w : Win) (off : Nat) (data : List Byte) (be : List Bool) (hw : Bool) (s : State) : Host.Outcome State Fault Refusal :=
  .next (settle s (doAliasWrite s .set w off data be hw))
def execAliasClearWrite (w : Win) (off : Nat) (data : List Byte) (be : List Bool) (hw : Bool) (s : State) : Host.Outcome State Fault Refusal :=
  .next (settle s (doAliasWrite s .clear w off data be hw))
def execAliasToggleWrite (w : Win) (off : Nat) (data : List Byte) (be : List Bool) (hw : Bool) (s : State) : Host.Outcome State Fault Refusal :=
  .next (settle s (doAliasWrite s .toggle w off data be hw))
def execBroadcastWrite (op : AliasOp) (sel : Fin 16) (typ : Fin 8) (off : Nat) (data : List Byte) (be : List Bool) (s : State) :
    Host.Outcome State Fault Refusal :=
  .next (settle s (doBroadcastWrite s op sel.val typ.val off data be))
def execBroadcastRead (sel : Fin 16) (typ : Fin 8) (off : Nat) (s : State) : Host.Outcome State Fault Refusal :=
  .next (settle s (doBroadcastRead s sel.val typ.val off))
def execArm (f : FrameRef) (s : State) : Host.Outcome State Fault Refusal := .next (settle s (doArm s f))
def execRevert (f : FrameRef) (s : State) : Host.Outcome State Fault Refusal := .next (settle s (doRevert s f))
def execIdleApply (f : FrameRef) (s : State) : Host.Outcome State Fault Refusal := .next (settle s (doIdleApply s f))

end Sys2Proof.Machine
end

