-- ==== Sys2Proof/Machine/Barker.lean ====
section
/-!
DEFINITION. The Barker monitor (R577 to R581): its levels, its commands and their replies.
-/
namespace Sys2Proof.Machine

/-! ## Lines and levels (R577 to R579) -/

/-- Whether Barker takes a line: enabled, with the fabric up, from step 4 of a cold start on (R577, R585).
Rests on log entry 117 (DESIGN CHOICE). -/
def State.brkUp (s : State) : Bool :=
  let st := s.rd picB Reg.PIC_STATE_STATE
  decide (s.rd brkB Reg.BRK_CFG_ENABLE = 1) && !s.pwr.off && !s.boot.rmDown && decide (st ≠ 2) && decide (st ≠ 3) &&
    (decide (4 ≤ s.rd devB Reg.DEV_BOOT_STATUS_STEP) || decide (st = 4))

/-- The reply to a line: the code of R579 (0: ok), the reason of R417, and the values reported. -/
def State.brkReply (s : State) (code : Nat) (words : List Nat := []) (reason : Nat := 0) : State :=
  { s with brk := { code := code, reason := reason, words := words } }

/-- A command of a level. -/
def State.brkCommand (s : State) (level : Nat) (act : State → State) : State :=
  if !s.brkUp then s
  else
    let s := s.count (brkB + Reg.BRK_COMMANDS) 1
    if s.rd brkB Reg.BRK_STATUS_LEVEL < level then ((s.count (brkB + Reg.BRK_REFUSED) 1).raise brkB Reg.BRK_EVENT_REFUSED).brkReply 2
    else act s

/-! ## Level 0 -/

/-- The 32-bit words of a value, least significant first. -/
def wordsLE (n v : Nat) : List Nat := (List.range n).map fun k => v / 2 ^ (32 * k) % 2 ^ 32

def doBrkHelp (s : State) : State := s.brkCommand 0 fun s => s.brkReply 0
def doBrkId (s : State) : State := s.brkCommand 0 fun s =>
  s.brkReply 0 (s.readWord devB :: wordsLE 2 s.fuses.deviceId ++ [s.readWord (devB + 0x18)])
def doBrkState (s : State) : State := s.brkCommand 0 fun s =>
  s.brkReply 0 [s.readWord (devB + 0x10), s.readWord picB, s.readWord rplB, s.readWord snB, s.readyPin.toNat]
def doBrkFaults (s : State) : State := s.brkCommand 0 fun s =>
  s.brkReply 0 ([s.readWord (snB + 0x18), s.readWord (snB + 0x1C)] ++ wordsLE 4 (s.wideAt (snB + Reg.SN_LAST)))

/-- unlock: the secure core checks the certificate (R416 to R418); while it is not RUNNING none passes.
Rests on log entry 118 (DESIGN CHOICE). -/
def doBrkUnlock (s : State) (cert : List Byte) : State := s.brkCommand 0 fun s =>
  if cert.length ≠ 160 then s.brkReply 3
  else if s.rd secB Reg.SEC_STATE_STATE ≠ 1 then s.brkReply 6
  else match s.certCheck cert with
    | some r => s.brkReply 6 [] r
    | none => (s.openCert (byteAt cert 6) (byteAt cert 7)).brkReply 0

def doBrkLock (s : State) : State := s.brkCommand 0 fun s => (s.endCert).brkReply 0

/-! ## Level 1 -/

/-- log: the valid records among n numbers from one on. Rests on log entry 118 (DESIGN CHOICE). -/
def doBrkLog (s : State) (seq n : Nat) : State := s.brkCommand 1 fun s =>
  if n = 0 ∨ 64 < n then s.brkReply 3
  else s.brkReply 0 ((List.range n).flatMap fun k =>
    match s.logRecord (seq + k) with
    | some b => (seq + k) :: (List.range 16).map fun j => leAt b (4 * j) 4
    | none => [])

/-- A word that rd refuses: POT_ and SEC_ frames, mailbox words, and what lies beyond the normal view.
Rests on log entry 118 (DESIGN CHOICE). -/
def brkShut (a : Nat) : Bool :=
  decide (0x800000 ≤ a) || (match locAt a with | some l => decide (l.kind = .pot) || decide (l.kind = .sec) | none => false) ||
    (regRows a).any fun r => decide (r.ty = .mbx)

/-- Rests on log entry 118 (DESIGN CHOICE). -/
def doBrkRd (s : State) (a n : Nat) : State := s.brkCommand 1 fun s =>
  let l := (List.range n).map fun k => a + 4 * k
  if n = 0 ∨ 64 < n ∨ a % 4 ≠ 0 then s.brkReply 3
  else if l.any brkShut then s.brkReply 4
  else s.brkReply 0 (l.map s.readWord)

/-- wide: a read through Barker's own mailbox, from the request to the last word (R580).
Rests on log entry 118 (DESIGN CHOICE). -/
def doBrkWide (s : State) (a : Nat) : State := s.brkCommand 1 fun s =>
  if a % 4 ≠ 0 then s.brkReply 3
  else
    let s := s.mbxRequest .barker 0 a
    match s.wideValue 66 a with
    | some (w, v) => ((s.mbxFill 66 w v).mbxStatus 66 0 0 w).brkReply 0 (wordsLE w v)
    | none => s.brkReply 4

def doBrkCap (s : State) : State := s.brkCommand 1 fun s => (s.capture 3).brkReply 0

/-- shadow: value and generation of each shadow, three words (R567). -/
def doBrkShadow (s : State) (n count : Nat) : State := s.brkCommand 1 fun s =>
  if count = 0 ∨ 64 < count ∨ 2576 < n + count then s.brkReply 3
  else s.brkReply 0 ((List.range count).flatMap fun k => wordsLE 3 (s.slotValue (tabB + Reg.TAB_SHADOW + 16 * (n + k))))

/-! ## Level 2 -/

/-- The alias of an address of the manager control window (R78). -/
def aliasAt (a : Nat) : AliasOp :=
  match a / 0x1000000 with
  | 0 => .normal
  | 1 => .set
  | 2 => .clear
  | _ => .toggle

/-- A 32-bit write of an address of the manager control window, broadcast views included, by the Ringmaster. -/
def State.mgrWrite (s : State) (a v : Nat) : State :=
  let o := a % 0x1000000
  let x : Write := { off := o, data := natLE 4 v, be := [true, true, true, true], op := aliasAt a }
  if o < 0x800000 then s.writePart 0 (s.winWord .mgr o) x v (2 ^ 32 - 1)
  else
    let b := o - 0x800000
    let y : Write := { x with off := b % 0x10000 }
    s.bcastPart (b / 0x80000) (b / 0x10000 % 8) y (b % 0x10000)

def doBrkWr (s : State) (a v : Nat) : State := s.brkCommand 2 fun s =>
  let o := a % 0x1000000
  let shut := match locAt o with | some l => decide (l.kind = .pot) || decide (l.kind = .sec) | none => false
  if a % 4 ≠ 0 then s.brkReply 3
  else if shut && decide (o < 0x800000) then s.brkReply 4
  else (s.mgrWrite a v).brkReply 0

/-- Rests on log entry 118 (DESIGN CHOICE). -/
def doBrkInject (s : State) (v : Nat) : State := s.brkCommand 2 fun s =>
  if injectable.contains (bitsOf v 0 5) then (s.writeInject (setBits v 31 1 1)).brkReply 0 else s.brkReply 3

def doBrkReset (s : State) : State := s.brkCommand 2 fun s => (s.coldStart).brkReply 0

/-! ## Level 3 (R403, R418) -/

/-- Words of the POT_ frame; one that was never written is a free value (log entry 10). -/
def State.potWords (s : State) : List Nat → State × List Nat
  | [] => (s, [])
  | a :: l =>
    let (v, s) := match KMap.get (fun _ => none) s.sec.words a with | some v => (v, s) | none => s.takeFree 32
    let (s, vs) := s.potWords l
    (s, v :: vs)

/-- The grant window n that the words of the POT_ frame hold; their layout is free (log entry 18).
Rests on log entry 18 (DESIGN CHOICE). -/
def grantOf (words : KMap (Option Nat)) (n : Nat) : GrantWin :=
  let f := fun (k w : Nat) => Config.grantField words n k % 2 ^ w
  { first := f 0 24, pages := f 1 25, inst := f 2 6, rd := decide (f 3 1 = 1), wr := decide (f 4 1 = 1), compose := decide (f 5 1 = 1),
    save := decide (f 6 1 = 1), hdcp := f 7 2, subst := f 8 32 }

/-- A word of the POT_ frame written: the windows that it changes take their new value (R403).
Rests on log entry 18 (DESIGN CHOICE). -/
def State.potWrite (s : State) (a v : Nat) : State :=
  let new := KMap.set (fun _ => none) s.sec.words a (some v)
  let windows := (List.range 32).foldl (fun m n =>
    if grantOf new n = grantOf s.sec.words n then m else KMap.set (fun _ => ({} : GrantWin)) m n (grantOf new n)) s.sec.windows
  { s with sec := { s.sec with words := new, windows := windows } }

/-- What a secure address names. -/
def secureFrame (a : Nat) : Option FrameKind :=
  match locAt a with
  | some l => if l.kind = .pot ∨ l.kind = .sec then some l.kind else none
  | none => none

/-- Whether [a, a + n) lies in pages of owner 1. -/
def State.secureOwn (s : State) (a n : Nat) : Bool := decide (a + n ≤ s.usable) && (pagesOf a n).all fun p => decide (ownerOf (s.entry p) = 1)

/-- Bytes of owner-1 pages: the table's own pages hold its entries (R397, R398). -/
def State.secureBytes (s : State) (a n : Nat) : Option (List Byte) :=
  if !s.secureOwn a n || (blocksOf a n).any s.poisoned then none
  else some ((List.range n).map fun k =>
    if s.potBase ≤ a + k then BitVec.ofNat 8 (s.shownEntry ((a + k - s.potBase) / 2) / 256 ^ ((a + k) % 2)) else KMap.get dramDefault s.dram (a + k))

/-- Rests on log entry 118 (DESIGN CHOICE). -/
def doBrkSrd (s : State) (a n : Nat) (frame : Bool) : State := s.brkCommand 3 fun s =>
  let l := (List.range n).map fun k => a + 4 * k
  if n = 0 ∨ 64 < n ∨ a % 4 ≠ 0 then s.brkReply 3
  else if frame then
    (if l.all fun a => decide (secureFrame a = some .pot) then let (s, ws) := s.potWords l; s.brkReply 0 ws
     else if l.all fun a => decide (secureFrame a = some .sec) then s.brkReply 0 (l.map s.readWord)
     else s.brkReply 4)
  else match s.secureBytes a (4 * n) with
    | some bs => s.brkReply 0 ((List.range n).map fun k => leAt bs (4 * k) 4)
    | none => s.brkReply 4

/-- Rests on log entry 118 (DESIGN CHOICE). -/
def doBrkSwr (s : State) (a v : Nat) (frame : Bool) : State := s.brkCommand 3 fun s =>
  if a % 4 ≠ 0 then s.brkReply 3
  else if frame then
    match secureFrame a with
    | some .pot => (s.potWrite a v).brkReply 0
    | some _ => (s.mgrWrite a v).brkReply 0
    | none => s.brkReply 4
  else if s.secureOwn a 4 ∧ a + 4 ≤ s.potBase then (s.dramWrite a (natLE 4 v)).brkReply 0
  else s.brkReply 4

/-! ## Lines that are no command (R579, R581) -/

/-- Rests on log entry 117 (DESIGN CHOICE). -/
def doBrkUnknown (s : State) : State := if s.brkUp then s.brkReply 1 else s
def doBrkOverrun (s : State) : State := if s.brkUp then (s.raise brkB Reg.BRK_EVENT_OVERRUN).brkReply 5 else s

def execBrkHelp (s : State) : Host.Outcome State Fault Refusal := .next (settle s (doBrkHelp s))
def execBrkId (s : State) : Host.Outcome State Fault Refusal := .next (settle s (doBrkId s))
def execBrkState (s : State) : Host.Outcome State Fault Refusal := .next (settle s (doBrkState s))
def execBrkFaults (s : State) : Host.Outcome State Fault Refusal := .next (settle s (doBrkFaults s))
def execBrkUnlock (cert : List Byte) (s : State) : Host.Outcome State Fault Refusal := .next (settle s (doBrkUnlock s cert))
def execBrkLock (s : State) : Host.Outcome State Fault Refusal := .next (settle s (doBrkLock s))
def execBrkLog (seq : Word) (n : Fin 65) (s : State) : Host.Outcome State Fault Refusal := .next (settle s (doBrkLog s seq.toNat n.val))
def execBrkRd (addr : BitVec 23) (n : Fin 65) (s : State) : Host.Outcome State Fault Refusal := .next (settle s (doBrkRd s addr.toNat n.val))
def execBrkWide (addr : BitVec 23) (s : State) : Host.Outcome State Fault Refusal := .next (settle s (doBrkWide s addr.toNat))
def execBrkCap (s : State) : Host.Outcome State Fault Refusal := .next (settle s (doBrkCap s))
def execBrkShadow (n : BitVec 12) (count : Fin 65) (s : State) : Host.Outcome State Fault Refusal := .next (settle s (doBrkShadow s n.toNat count.val))
def execBrkWr (addr : BitVec 26) (v : Word) (s : State) : Host.Outcome State Fault Refusal := .next (settle s (doBrkWr s addr.toNat v.toNat))
def execBrkInject (v : Word) (s : State) : Host.Outcome State Fault Refusal := .next (settle s (doBrkInject s v.toNat))
def execBrkReset (s : State) : Host.Outcome State Fault Refusal := .next (settle s (doBrkReset s))
def execBrkSrd (addr : BitVec 36) (n : Fin 65) (frame : Bool) (s : State) : Host.Outcome State Fault Refusal := .next (settle s (doBrkSrd s addr.toNat n.val frame))
def execBrkSwr (addr : BitVec 36) (v : Word) (frame : Bool) (s : State) : Host.Outcome State Fault Refusal := .next (settle s (doBrkSwr s addr.toNat v.toNat frame))
def execBrkUnknownCommand (s : State) : Host.Outcome State Fault Refusal := .next (settle s (doBrkUnknown s))
def execBrkRxOverrun (s : State) : Host.Outcome State Fault Refusal := .next (settle s (doBrkOverrun s))

end Sys2Proof.Machine
end

