-- ==== Sys2Proof/Machine/Dispatch.lean ====
section
/-!
DEFINITION. Dispatch: one arm per command, each a direct call of its meaning.
-/
namespace Sys2Proof.Machine

def exec (i : Instr) (s : State) : Host.Outcome State Fault Refusal :=
  match i with
  | .registerWrite w off data be hw => Sys2Proof.Machine.execRegisterWrite w off data be hw s
  | .aliasSetWrite w off data be hw => Sys2Proof.Machine.execAliasSetWrite w off data be hw s
  | .aliasClearWrite w off data be hw => Sys2Proof.Machine.execAliasClearWrite w off data be hw s
  | .aliasToggleWrite w off data be hw => Sys2Proof.Machine.execAliasToggleWrite w off data be hw s
  | .broadcastWrite op sel typ off data be => Sys2Proof.Machine.execBroadcastWrite op sel typ off data be s
  | .broadcastRead sel typ off => Sys2Proof.Machine.execBroadcastRead sel typ off s
  | .arm f => Sys2Proof.Machine.execArm f s
  | .revert f => Sys2Proof.Machine.execRevert f s
  | .idleApply f => Sys2Proof.Machine.execIdleApply f s
  | .mbxRead m code => Sys2Proof.Machine.execMbxRead m code s
  | .mbxLoad m code => Sys2Proof.Machine.execMbxLoad m code s
  | .mbxCapture m => Sys2Proof.Machine.execMbxCapture m s
  | .mbxDataRead m k => Sys2Proof.Machine.execMbxDataRead m k s
  | .db w slot v => Sys2Proof.Machine.execDb w slot v s
  | .db64 w slot lo hi => Sys2Proof.Machine.execDb64 w slot lo hi s
  | .configRequest f req => Sys2Proof.Machine.execConfigRequest f req s
  | .apertureRead addr len => Sys2Proof.Machine.execApertureRead addr len s
  | .apertureWrite addr data => Sys2Proof.Machine.execApertureWrite addr data s
  | .msixUnmask f vec => Sys2Proof.Machine.execMsixUnmask f vec s
  | .perstAssert p => Sys2Proof.Machine.execPerstAssert p s
  | .perstRelease p => Sys2Proof.Machine.execPerstRelease p s
  | .hotReset p => Sys2Proof.Machine.execHotReset p s
  | .linkDown p => Sys2Proof.Machine.execLinkDown p s
  | .linkUp p gen lanes => Sys2Proof.Machine.execLinkUp p gen lanes s
  | .vfFlr k => Sys2Proof.Machine.execVfFlr k s
  | .pfFlr p => Sys2Proof.Machine.execPfFlr p s
  | .vfEnableClear p numVFs => Sys2Proof.Machine.execVfEnableClear p numVFs s
  | .pmeTurnOff p => Sys2Proof.Machine.execPmeTurnOff p s
  | .ptmDialogue => Sys2Proof.Machine.execPtmDialogue s
  | .ptmResponse host => Sys2Proof.Machine.execPtmResponse host s
  | .hostReadCompletion q data st => Sys2Proof.Machine.execHostReadCompletion q data st s
  | .hostReadTimeout q => Sys2Proof.Machine.execHostReadTimeout q s
  | .ringStart q => Sys2Proof.Machine.execRingStart q s
  | .ringStop q => Sys2Proof.Machine.execRingStop q s
  | .ringResume q => Sys2Proof.Machine.execRingResume q s
  | .ringDisable q => Sys2Proof.Machine.execRingDisable q s
  | .descriptorFetch q => Sys2Proof.Machine.execDescriptorFetch q s
  | .descriptorArrive q d st => Sys2Proof.Machine.execDescriptorArrive q d st s
  | .fenceWaitSatisfied q => Sys2Proof.Machine.execFenceWaitSatisfied q s
  | .descriptorComplete q e => Sys2Proof.Machine.execDescriptorComplete q e s
  | .modTimerExpire q => Sys2Proof.Machine.execModTimerExpire q s
  | .instanceStop k => Sys2Proof.Machine.execInstanceStop k s
  | .instanceStopClear k => Sys2Proof.Machine.execInstanceStopClear k s
  | .quiesced k => Sys2Proof.Machine.execQuiesced k s
  | .instanceReset k => Sys2Proof.Machine.execInstanceReset k s
  | .clearUnclean k => Sys2Proof.Machine.execClearUnclean k s
  | .resetDone k => Sys2Proof.Machine.execResetDone k s
  | .scrubDone k => Sys2Proof.Machine.execScrubDone k s
  | .roundStart m => Sys2Proof.Machine.execRoundStart m s
  | .voltageConfirmed => Sys2Proof.Machine.execVoltageConfirmed s
  | .quantumExpiry e t => Sys2Proof.Machine.execQuantumExpiry e t s
  | .urgentPoint q t => Sys2Proof.Machine.execUrgentPoint q t s
  | .preemptPointReached e t => Sys2Proof.Machine.execPreemptPointReached e t s
  | .tileBoundaryTimeout g t => Sys2Proof.Machine.execTileBoundaryTimeout g t s
  | .contextSaveDone e t restoreOk => Sys2Proof.Machine.execContextSaveDone e t restoreOk s
  | .testSliceEnd g t failed => Sys2Proof.Machine.execTestSliceEnd g t failed s
  | .jobTimeout q => Sys2Proof.Machine.execJobTimeout q s
  | .shaderFault q off => Sys2Proof.Machine.execShaderFault q off s
  | .latch h t => Sys2Proof.Machine.execLatch h t s
  | .nop q => Sys2Proof.Machine.execNop q s
  | .state q => Sys2Proof.Machine.execState q s
  | .flip q => Sys2Proof.Machine.execFlip q s
  | .coeff q => Sys2Proof.Machine.execCoeff q s
  | .head q => Sys2Proof.Machine.execHead q s
  | .move q => Sys2Proof.Machine.execMove q s
  | .expect q => Sys2Proof.Machine.execExpect q s
  | .gamma q => Sys2Proof.Machine.execGamma q s
  | .bind q => Sys2Proof.Machine.execBind q s
  | .commitReadDone q data st => Sys2Proof.Machine.execCommitReadDone q data st s
  | .layerAssign k v => Sys2Proof.Machine.execLayerAssign k v s
  | .cringWrite h v => Sys2Proof.Machine.execCringWrite h v s
  | .composeLineStart h line t => Sys2Proof.Machine.execComposeLineStart h line t s
  | .lineDue h line t => Sys2Proof.Machine.execLineDue h line t s
  | .frameStart h t => Sys2Proof.Machine.execFrameStart h t s
  | .headPllLock h => Sys2Proof.Machine.execHeadPllLock h s
  | .trainAttemptDone h ok => Sys2Proof.Machine.execTrainAttemptDone h ok s
  | .trainRetry h => Sys2Proof.Machine.execTrainRetry h s
  | .hpdIrq h lost cpIrq => Sys2Proof.Machine.execHpdIrq h lost cpIrq s
  | .hpdUnplug h => Sys2Proof.Machine.execHpdUnplug h s
  | .hpdPlug h sink => Sys2Proof.Machine.execHpdPlug h sink s
  | .retrain h => Sys2Proof.Machine.execRetrain h s
  | .auxGo h => Sys2Proof.Machine.execAuxGo h s
  | .auxReply h r data => Sys2Proof.Machine.execAuxReply h r data s
  | .auxTimeout h => Sys2Proof.Machine.execAuxTimeout h s
  | .dsiSleepExitWaitEnd h => Sys2Proof.Machine.execDsiSleepExitWaitEnd h s
  | .hdcpAuthDone h ok typ1 => Sys2Proof.Machine.execHdcpAuthDone h ok typ1 s
  | .hdcpReauth h => Sys2Proof.Machine.execHdcpReauth h s
  | .vsyncInEdge t => Sys2Proof.Machine.execVsyncInEdge t s
  | .genlockRefMissing h => Sys2Proof.Machine.execGenlockRefMissing h s
  | .holdTimerExpire h => Sys2Proof.Machine.execHoldTimerExpire h s
  | .csiFrameStart c frame => Sys2Proof.Machine.execCsiFrameStart c frame s
  | .csiLinePacket c dt vc data bad => Sys2Proof.Machine.execCsiLinePacket c dt vc data bad s
  | .csiFrameEnd c t => Sys2Proof.Machine.execCsiFrameEnd c t s
  | .overflow c => Sys2Proof.Machine.execOverflow c s
  | .stall c => Sys2Proof.Machine.execStall c s
  | .render q => Sys2Proof.Machine.execRender q s
  | .dispatch q => Sys2Proof.Machine.execDispatch q s
  | .context q => Sys2Proof.Machine.execContext q s
  | .gfxTimestamp q => Sys2Proof.Machine.execGfxTimestamp q s
  | .binningDone q entries verts => Sys2Proof.Machine.execBinningDone q entries verts s
  | .copy q => Sys2Proof.Machine.execCopy q s
  | .fill q => Sys2Proof.Machine.execFill q s
  | .copy2d q => Sys2Proof.Machine.execCopy2d q s
  | .convert q => Sys2Proof.Machine.execConvert q s
  | .cpyTimestamp q => Sys2Proof.Machine.execCpyTimestamp q s
  | .dramRequestArrive r => Sys2Proof.Machine.execDramRequestArrive r s
  | .refreshTick c rank => Sys2Proof.Machine.execRefreshTick c rank s
  | .requestAgePromote c => Sys2Proof.Machine.execRequestAgePromote c s
  | .mr4Poll c => Sys2Proof.Machine.execMr4Poll c s
  | .mr4Result c rank band => Sys2Proof.Machine.execMr4Result c rank band s
  | .limitWrite v => Sys2Proof.Machine.execLimitWrite v s
  | .disturbWindowEnd c => Sys2Proof.Machine.execDisturbWindowEnd c s
  | .rankPowerDown c rank => Sys2Proof.Machine.execRankPowerDown c rank s
  | .channelSelfRefresh c => Sys2Proof.Machine.execChannelSelfRefresh c s
  | .dramReadReturn port inst addr r => Sys2Proof.Machine.execDramReadReturn port inst addr r s
  | .patrolRead r => Sys2Proof.Machine.execPatrolRead r s
  | .recentreDue => Sys2Proof.Machine.execRecentreDue s
  | .recentreNow => Sys2Proof.Machine.execRecentreNow s
  | .recentreProbe c rank lane wr centre width => Sys2Proof.Machine.execRecentreProbe c rank lane wr centre width s
  | .trainingDone r => Sys2Proof.Machine.execTrainingDone r s
  | .dramInitDone => Sys2Proof.Machine.execDramInitDone s
  | .pageAssign c => Sys2Proof.Machine.execPageAssign c s
  | .pageRelease c => Sys2Proof.Machine.execPageRelease c s
  | .pageFlags c => Sys2Proof.Machine.execPageFlags c s
  | .pageQuery c => Sys2Proof.Machine.execPageQuery c s
  | .debugUnlock c => Sys2Proof.Machine.execDebugUnlock c s
  | .debugRevoke c => Sys2Proof.Machine.execDebugRevoke c s
  | .potBatchCommit c => Sys2Proof.Machine.execPotBatchCommit c s
  | .pinRelease page => Sys2Proof.Machine.execPinRelease page s
  | .pageScrubDone page => Sys2Proof.Machine.execPageScrubDone page s
  | .secureHeartbeat => Sys2Proof.Machine.execSecureHeartbeat s
  | .secureWatchdogExpire => Sys2Proof.Machine.execSecureWatchdogExpire s
  | .secureCallTimeout c => Sys2Proof.Machine.execSecureCallTimeout c s
  | .secLockstepFail => Sys2Proof.Machine.execSecLockstepFail s
  | .secureReleaseDone => Sys2Proof.Machine.execSecureReleaseDone s
  | .secureReboot => Sys2Proof.Machine.execSecureReboot s
  | .secureBootDone tableOk => Sys2Proof.Machine.execSecureBootDone tableOk s
  | .debugLock => Sys2Proof.Machine.execDebugLock s
  | .heldRequestRelease => Sys2Proof.Machine.execHeldRequestRelease s
  | .sampleTick ins readBack overC => Sys2Proof.Machine.execSampleTick ins readBack overC s
  | .periodBoundary t => Sys2Proof.Machine.execPeriodBoundary t s
  | .nodeWordWrite n word v => Sys2Proof.Machine.execNodeWordWrite n word v s
  | .compiled fits t => Sys2Proof.Machine.execCompiled fits t s
  | .swapped => Sys2Proof.Machine.execSwapped s
  | .play q => Sys2Proof.Machine.execPlay q s
  | .record q => Sys2Proof.Machine.execRecord q s
  | .control q => Sys2Proof.Machine.execControl q s
  | .audioCoeff q => Sys2Proof.Machine.execAudioCoeff q s
  | .chime q => Sys2Proof.Machine.execChime q s
  | .chimeClipEnd k => Sys2Proof.Machine.execChimeClipEnd k s
  | .portClock p => Sys2Proof.Machine.execPortClock p s
  | .portClockReturn p => Sys2Proof.Machine.execPortClockReturn p s
  | .headsetInsert j => Sys2Proof.Machine.execHeadsetInsert j s
  | .headsetClassified j typ line => Sys2Proof.Machine.execHeadsetClassified j typ line s
  | .headsetRemove j => Sys2Proof.Machine.execHeadsetRemove j s
  | .buttonPress j mv => Sys2Proof.Machine.execButtonPress j mv s
  | .buttonRelease j => Sys2Proof.Machine.execButtonRelease j s
  | .touchAttention t => Sys2Proof.Machine.execTouchAttention t s
  | .touchReport t data nack => Sys2Proof.Machine.execTouchReport t data nack s
  | .clockStretchTimeout t => Sys2Proof.Machine.execClockStretchTimeout t s
  | .touchStale t => Sys2Proof.Machine.execTouchStale t s
  | .hapTrig k v => Sys2Proof.Machine.execHapTrig k v s
  | .hapTrigger a v => Sys2Proof.Machine.execHapTrigger a v s
  | .hapCalibrate a => Sys2Proof.Machine.execHapCalibrate a s
  | .hapTest a => Sys2Proof.Machine.execHapTest a s
  | .hapRecover a => Sys2Proof.Machine.execHapRecover a s
  | .hapStop a => Sys2Proof.Machine.execHapStop a s
  | .bemfZeroCrossing a amplitudeMv => Sys2Proof.Machine.execBemfZeroCrossing a amplitudeMv s
  | .calibrationDone a fRes rDc atEnd => Sys2Proof.Machine.execCalibrationDone a fRes rDc atEnd s
  | .testDone a settled => Sys2Proof.Machine.execTestDone a settled s
  | .hapIdleProbe a rMohm => Sys2Proof.Machine.execHapIdleProbe a rMohm s
  | .hapOvercurrent a => Sys2Proof.Machine.execHapOvercurrent a s
  | .hapRecoveryTimer a => Sys2Proof.Machine.execHapRecoveryTimer a s
  | .cvuIntervalEnd u tagHead tagSeq agree => Sys2Proof.Machine.execCvuIntervalEnd u tagHead tagSeq agree s
  | .cvuMissingTimeout u t => Sys2Proof.Machine.execCvuMissingTimeout u t s
  | .clockMonitorTrip domain => Sys2Proof.Machine.execClockMonitorTrip domain s
  | .voltageMonitorTrip rail => Sys2Proof.Machine.execVoltageMonitorTrip rail s
  | .faultPinMismatch => Sys2Proof.Machine.execFaultPinMismatch s
  | .aonWatchdogExpire => Sys2Proof.Machine.execAonWatchdogExpire s
  | .rmLockstepFail => Sys2Proof.Machine.execRmLockstepFail s
  | .ringmasterRestart => Sys2Proof.Machine.execRingmasterRestart s
  | .configComparePass diff => Sys2Proof.Machine.execConfigComparePass diff s
  | .snStop => Sys2Proof.Machine.execSnStop s
  | .snRelease => Sys2Proof.Machine.execSnRelease s
  | .snReqStop k => Sys2Proof.Machine.execSnReqStop k s
  | .snReqRelease k => Sys2Proof.Machine.execSnReqRelease k s
  | .snInject v => Sys2Proof.Machine.execSnInject v s
  | .faultFlagsClear v => Sys2Proof.Machine.execFaultFlagsClear v s
  | .reqDoze => Sys2Proof.Machine.execReqDoze s
  | .reqStandby => Sys2Proof.Machine.execReqStandby s
  | .reqDeep => Sys2Proof.Machine.execReqDeep s
  | .cancel => Sys2Proof.Machine.execCancel s
  | .wake => Sys2Proof.Machine.execWake s
  | .devReset => Sys2Proof.Machine.execDevReset s
  | .dozeIdleTimeout => Sys2Proof.Machine.execDozeIdleTimeout s
  | .autoStandbyTimeout => Sys2Proof.Machine.execAutoStandbyTimeout s
  | .deepSTimeout => Sys2Proof.Machine.execDeepSTimeout s
  | .wakeInAssert n => Sys2Proof.Machine.execWakeInAssert n s
  | .pcieWakeInAssert => Sys2Proof.Machine.execPcieWakeInAssert s
  | .picAlarmExpire => Sys2Proof.Machine.execPicAlarmExpire s
  | .sleepBlockAnswer declines => Sys2Proof.Machine.execSleepBlockAnswer declines s
  | .sleepAnswerTimeout => Sys2Proof.Machine.execSleepAnswerTimeout s
  | .sleepRetry => Sys2Proof.Machine.execSleepRetry s
  | .sleepEntryDone => Sys2Proof.Machine.execSleepEntryDone s
  | .oscillatorStable => Sys2Proof.Machine.execOscillatorStable s
  | .oscillatorTimeout => Sys2Proof.Machine.execOscillatorTimeout s
  | .pgoodRise n => Sys2Proof.Machine.execPgoodRise n s
  | .pgoodTimeout n => Sys2Proof.Machine.execPgoodTimeout n s
  | .railRetry => Sys2Proof.Machine.execRailRetry s
  | .pgoodFall n => Sys2Proof.Machine.execPgoodFall n s
  | .refclkTimeout => Sys2Proof.Machine.execRefclkTimeout s
  | .wakeCoreReady digestOk restoreOk => Sys2Proof.Machine.execWakeCoreReady digestOk restoreOk s
  | .sensorTrip n => Sys2Proof.Machine.execSensorTrip n s
  | .pwrWarnAssert => Sys2Proof.Machine.execPwrWarnAssert s
  | .pwrWarnRelease => Sys2Proof.Machine.execPwrWarnRelease s
  | .writeInhibitEnd => Sys2Proof.Machine.execWriteInhibitEnd s
  | .capOvershoot => Sys2Proof.Machine.execCapOvershoot s
  | .xtal32kStop => Sys2Proof.Machine.execXtal32kStop s
  | .replanDue => Sys2Proof.Machine.execReplanDue s
  | .replan => Sys2Proof.Machine.execReplan s
  | .replanDone dGfx dCore => Sys2Proof.Machine.execReplanDone dGfx dCore s
  | .vddAonRise => Sys2Proof.Machine.execVddAonRise s
  | .vddAonResetFall => Sys2Proof.Machine.execVddAonResetFall s
  | .vddAonInhibitFall => Sys2Proof.Machine.execVddAonInhibitFall s
  | .bootStepDone r => Sys2Proof.Machine.execBootStepDone r s
  | .fwRun => Sys2Proof.Machine.execFwRun s
  | .fwRunAndStore => Sys2Proof.Machine.execFwRunAndStore s
  | .fwStore => Sys2Proof.Machine.execFwStore s
  | .fwRaiseFloor => Sys2Proof.Machine.execFwRaiseFloor s
  | .validate => Sys2Proof.Machine.execValidate s
  | .apply => Sys2Proof.Machine.execApply s
  | .store => Sys2Proof.Machine.execStore s
  | .applyAndStore => Sys2Proof.Machine.execApplyAndStore s
  | .raiseFloor => Sys2Proof.Machine.execRaiseFloor s
  | .rplDmaDone data st => Sys2Proof.Machine.execRplDmaDone data st s
  | .rplOperationDone => Sys2Proof.Machine.execRplOperationDone s
  | .storeStepDone ok => Sys2Proof.Machine.execStoreStepDone ok s
  | .tabCapture => Sys2Proof.Machine.execTabCapture s
  | .tabAtArm => Sys2Proof.Machine.execTabAtArm s
  | .tabAtCancel => Sys2Proof.Machine.execTabAtCancel s
  | .tabAtReached => Sys2Proof.Machine.execTabAtReached s
  | .telemSweep q n => Sys2Proof.Machine.execTelemSweep q n s
  | .logProgramDone verified => Sys2Proof.Machine.execLogProgramDone verified s
  | .logEraseDone ok => Sys2Proof.Machine.execLogEraseDone ok s
  | .logScanDone => Sys2Proof.Machine.execLogScanDone s
  | .logRead => Sys2Proof.Machine.execLogRead s
  | .logReadDone => Sys2Proof.Machine.execLogReadDone s
  | .brkHelp => Sys2Proof.Machine.execBrkHelp s
  | .brkId => Sys2Proof.Machine.execBrkId s
  | .brkState => Sys2Proof.Machine.execBrkState s
  | .brkFaults => Sys2Proof.Machine.execBrkFaults s
  | .brkUnlock cert => Sys2Proof.Machine.execBrkUnlock cert s
  | .brkLock => Sys2Proof.Machine.execBrkLock s
  | .brkLog seq n => Sys2Proof.Machine.execBrkLog seq n s
  | .brkRd addr n => Sys2Proof.Machine.execBrkRd addr n s
  | .brkWide addr => Sys2Proof.Machine.execBrkWide addr s
  | .brkCap => Sys2Proof.Machine.execBrkCap s
  | .brkShadow n count => Sys2Proof.Machine.execBrkShadow n count s
  | .brkWr addr v => Sys2Proof.Machine.execBrkWr addr v s
  | .brkInject v => Sys2Proof.Machine.execBrkInject v s
  | .brkReset => Sys2Proof.Machine.execBrkReset s
  | .brkSrd addr n frame => Sys2Proof.Machine.execBrkSrd addr n frame s
  | .brkSwr addr v frame => Sys2Proof.Machine.execBrkSwr addr v frame s
  | .brkUnknownCommand => Sys2Proof.Machine.execBrkUnknownCommand s
  | .brkRxOverrun => Sys2Proof.Machine.execBrkRxOverrun s
  | .commandSlot c => Sys2Proof.Machine.execCommandSlot c s
  | .senseSample a mv ma => Sys2Proof.Machine.execSenseSample a mv ma s
  | .sramScrub group errs => Sys2Proof.Machine.execSramScrub group errs s
  | .persistConditionEnd source index => Sys2Proof.Machine.execPersistConditionEnd source index s
  | .vddAonInhibitRise => Sys2Proof.Machine.execVddAonInhibitRise s
  | .fwDmaDone data st => Sys2Proof.Machine.execFwDmaDone data st s
  | .fwPushDone => Sys2Proof.Machine.execFwPushDone s
  | .aspmL1Entry p => Sys2Proof.Machine.execAspmL1Entry p s

end Sys2Proof.Machine
end

