-- ==== Sys2Proof/Machine/Step.lean ====
section
/-!
DEFINITION. One step of the block: the command at the front of the queue runs with the rest of the queue
waiting; on an empty queue the block idles for one count of the device timebase (R8; log entry 2).
-/
namespace Sys2Proof.Machine

/-- One step.
Rests on log entry 1 (DESIGN CHOICE), log entry 2 (DESIGN CHOICE), log entry 120 (DESIGN CHOICE), log entry 122 (DESIGN CHOICE). -/
def step (s : State) : Host.Outcome State Fault Refusal :=
  match s.pending with
  | [] => .next (idleTick s)
  | c :: rest => exec c { s with pending := rest }

/-- The state with the command a table word spells at the front of its queue.
Rests on log entry 122 (DESIGN CHOICE), log entry 123 (DESIGN CHOICE). -/
def State.withFetchWord (s : State) (nbits w : Nat) : State :=
  match decodeTableWord nbits w with
  | none => s
  | some c => { s with pending := c :: s.pending }

end Sys2Proof.Machine
end

