-- ==== Sys2Proof/Safety.lean ====
section
/-!
DEFINITION. The terms that statements about this block use: a run that goes on, a command that completes, and what a command leaves
as it was.
-/
namespace Sys2Proof

/-- A run of `n` steps in which every step answers a next state. -/
def safeFor : Nat → Machine.State → Prop
  | 0, _ => True
  | n + 1, s => ∃ t, Machine.step s = .next t ∧ safeFor n t

/-- The command completes in `s`, and `Q` holds of the state after it. -/
def completes (c : Instr) (s : Machine.State) (Q : Machine.State → Prop) : Prop :=
  ∃ t, Machine.exec c s = .next t ∧ Q t

namespace Machine

/-- The state without what a register write, an event flag, the message it sends and the outputs that follow the state may change: the
queue, the time, registers and wide values, the hosts' memories, the messages sent, and the pins READY and FAULT_N. -/
def State.inner (s : State) : State :=
  { s with pending := [], now := 0, regs := [], wide := [], hostA := [], hostB := [], msiSent := [], readyPin := false,
           faultLow := false }

/-- The registers that follow the state after every command: SN_STATUS (R488, R503), SN_EVENT with its GUARANTEE_CHANGE (R488),
DEV_BOOT_STATUS with its STEP (R550), and the pending bits of the manager's vectors (R125, R149). -/
def outputReg (b : Nat) : Prop :=
  b = snB + Reg.SN_STATUS_STOPPED.off ∨ b = snB + Reg.SN_EVENT_FAULT.off ∨ b = devB + Reg.DEV_BOOT_STATUS_STEP.off ∨ b = pbaBase 0

/-- What a command leaves that acts only on the registers whose address is in `mine`: every other register but those that follow the
state, and all that `inner` holds. -/
structure keeps (mine : Nat → Prop) (s t : State) : Prop where
  inner : t.inner = s.inner
  regs : ∀ (b : Nat) (g : Fld), g.lo < 32 → ¬ outputReg (b + g.off) → ¬ mine (b + g.off) → t.rd b g = s.rd b g

/-- Every register but those that follow the state is left. -/
def keepsRegs (s t : State) : Prop :=
  ∀ (b : Nat) (g : Fld), g.lo < 32 → ¬ outputReg (b + g.off) → t.rd b g = s.rd b g

/-- Every wide value outside `mine` is left, but for the time READY last rose (R12). -/
def keepsWide (mine : Nat → Prop) (s t : State) : Prop :=
  ∀ b, ¬ mine b → b ≠ devB + Reg.DEV_READY_TIME → t.wideAt b = s.wideAt b

/-- No register is written but those that follow the state. -/
def noRegs : Nat → Prop := fun _ => False

/-- The addresses of a frame of `n` bytes. -/
def inFrame (base n : Nat) : Nat → Prop := fun b => base ≤ b ∧ b < base + n

end Machine

end Sys2Proof
end

