-- ==== Sys2Proof/Certificates/Slice0/Obligations.lean ====
section
/-!
DEFINITION. The statements for the provers, one definition each.
-/
open Sys2Proof Sys2Proof.Machine

/-- A step takes the command at the front of the queue and runs it with the rest waiting; on an empty queue one nanosecond of the timebase
passes (the model's choice: log entries 1 and 2). -/
def Obligations.StepTakesFront : Prop :=
  (∀ (s : State) (c : Instr) (rest : List Instr), s.pending = c :: rest → step s = exec c { s with pending := rest }) ∧
  (∀ s : State, s.pending = [] → step s = .next { s with now := s.now + 1 })

/-- Every command, in every state, completes, and the queue is left as it was. -/
def Obligations.ExecKeepsQueue : Prop :=
  ∀ (c : Instr) (s : State), completes c s fun t => t.pending = s.pending

/-- The timebase never steps backwards (R128), except where VDD_AON rises and it starts anew (R131). -/
def Obligations.TimebaseNeverBack : Prop :=
  (∀ (c : Instr) (s t : State), c ≠ .vddAonRise → exec c s = .next t → s.now ≤ t.now) ∧
  (∀ s t : State, s.pending.head? ≠ some .vddAonRise → step s = .next t → s.now ≤ t.now)

/-- The outputs agree with the state: FAULT_N (R503, R531, R551), READY (R12), SN_STATUS[GUARANTEE] and [COND] (R488). -/
def outputsAgree (s : State) : Prop :=
  s.faultLow = s.faultCond ∧ s.readyPin = s.readyCond ∧
  s.rd snB Reg.SN_STATUS_GUARANTEE = (if s.guaranteeHolds then 1 else 0) ∧ s.rd snB Reg.SN_STATUS_COND = s.condBits

/-- Every step keeps the outputs in agreement with the state. -/
def Obligations.OutputsFollow : Prop :=
  ∀ s t : State, outputsAgree s → step s = .next t → outputsAgree t

/-- Right after reset FAULT_N is low and READY is low (R551), GUARANTEE reads 0, and all agree with the state. -/
def Obligations.OutputsAtReset : Prop :=
  outputsAgree State.reset ∧ State.reset.faultLow = true ∧ State.reset.readyPin = false ∧
  State.reset.rd snB Reg.SN_STATUS_GUARANTEE = 0 ∧ State.reset.pending = []

/-- Where the manager's window takes a write of LOG_RD_SEQ. -/
def logSeqAt : Nat := logB + Reg.LOG_RD_SEQ_SEQ.off

/-- The frame of a write of LOG_RD_SEQ. -/
def onlyLogSeq (s t : State) : Prop := keeps (inFrame logSeqAt 4) s t ∧ keepsWide noRegs s t

/-- A full-width write of the word v to LOG_RD_SEQ, directly (R90) and through the aliases (R87), while the manager's function answers. -/
def Obligations.PlainRegister : Prop :=
  ∀ (s : State) (v : Word), s.answers 0 = true → s.rd logB Reg.LOG_RD_SEQ_SEQ < 2 ^ 32 →
    let old := s.rd logB Reg.LOG_RD_SEQ_SEQ
    let bs := natLE 4 v.toNat
    let be := [true, true, true, true]
    completes (.registerWrite .mgr logSeqAt bs be false) s (fun t => t.rd logB Reg.LOG_RD_SEQ_SEQ = v.toNat ∧ onlyLogSeq s t) ∧
    completes (.aliasSetWrite .mgr logSeqAt bs be false) s (fun t => t.rd logB Reg.LOG_RD_SEQ_SEQ = (old ||| v.toNat) ∧ onlyLogSeq s t) ∧
    completes (.aliasClearWrite .mgr logSeqAt bs be false) s
      (fun t => t.rd logB Reg.LOG_RD_SEQ_SEQ = (BitVec.ofNat 32 old &&& ~~~v).toNat ∧ onlyLogSeq s t) ∧
    completes (.aliasToggleWrite .mgr logSeqAt bs be false) s (fun t => t.rd logB Reg.LOG_RD_SEQ_SEQ = (old ^^^ v.toNat) ∧ onlyLogSeq s t)

/-- A broadcast to the members that the selector and the type give (R107, R108): a write is one write to each, lowest first; a read on which
they agree returns the word of the lowest and changes nothing else (R110). -/
def Obligations.BroadcastView : Prop :=
  ∀ (s : State) (op : AliasOp) (sel : Fin 16) (typ : Fin 8) (off : Nat) (v : Word) (k : FrameKind) (ns : List Nat),
    s.answers 0 = true → s.bcast sel.val typ.val (4 * off) = .members k ns →
    completes (.broadcastWrite op sel typ (4 * off) (natLE 4 v.toNat) [true, true, true, true]) s (fun t =>
      t = settle s (ns.foldl (fun u n => u.writeWord (k.at n + 4 * off) { op := op, val := v.toNat }) s)) ∧
    ((∀ n ∈ ns, s.readWord (k.at n + 4 * off) = s.readWord (k.at (ns.headD 0) + 4 * off)) →
      completes (.broadcastRead sel typ (4 * off)) s (fun t =>
        t = settle s { s with readData := natLE 4 (s.readWord (k.at (ns.headD 0) + 4 * off)) }))

/-- The frames whose CTRL the manager writes through its own window and that keep their apply for a boundary. -/
def plainFrame : FrameRef → Prop
  | .car | .blw | .cal | .hap _ => True
  | _ => False

/-- ARM sets ARM now and changes neither a shadow nor an active value; REVERT clears ARM and changes no active value (R96, R97); the
armed shadow of a haptic channel on which no effect runs applies at once (R99, R102). -/
def Obligations.ArmRevertApply : Prop :=
  ∀ (s : State) (f : FrameRef) (a : Fin 8), s.answers 0 = true → s.awaiting = false → plainFrame f →
    let b := (frameRef f).1.at (frameRef f).2
    completes (.arm f) s (fun t => t.rd b Reg.CTRL_ARM = 1 ∧ t.armAt = (s.armFrame b).armAt ∧ t.act = s.act ∧
      ∀ (c : Nat) (g : Fld), g.lo < 32 → ¬ outputReg (c + g.off) → c + g.off ≠ b + Reg.CTRL_ARM.off → t.rd c g = s.rd c g) ∧
    completes (.revert f) s (fun t => t.rd b Reg.CTRL_ARM = 0 ∧ t.act = s.act) ∧
    (s.armed (hapChB a.val) = true → s.hapActive a.val = false → s.reservedShadow (hapChB a.val) = none →
      completes (.idleApply (.hap a)) s (fun t => t.rd (hapChB a.val) Reg.CTRL_ARM = 0 ∧
        t.rd (hapChB a.val) Reg.APPLY_APPLIED = (s.rd (hapChB a.val) Reg.APPLY_APPLIED + 1) % 2 ^ Reg.APPLY_APPLIED.w ∧
        t.act = (s.takeShadow (hapChB a.val)).act))

/-- The manager's mailbox: READ (R105 step 1), LOAD of a counter (R105), capture (R105 step 2), and the reads of the data words (R106). -/
def Obligations.MailboxRead : Prop :=
  ∀ (s : State) (code : BitVec 24) (w v : Nat) (k : Fin 4), s.answers 0 = true → code.toNat % 4 = 0 →
    ((s.wideValue 0 code.toNat).isSome = true → completes (.mbxRead .mgr code) s (fun t =>
      t.rd (mbxB 0) Reg.MBX_STATUS_VALID = 0 ∧ KMap.get (fun _ => none) t.mbx 0 = some code.toNat ∧ keepsWide noRegs s t)) ∧
    (KMap.get (fun _ => none) s.mbx 0 = some code.toNat → s.wideValue 0 code.toNat = some (w, v) → w ≤ 4 →
      completes (.mbxCapture .mgr) s (fun t => t.rd (mbxB 0) Reg.MBX_STATUS_VALID = 1 ∧ t.rd (mbxB 0) Reg.MBX_STATUS_ERR = 0 ∧
        t.rd (mbxB 0) Reg.MBX_STATUS_WORDS = w ∧ KMap.get (fun _ => none) t.mbx 0 = none ∧
        ∀ j, j < 4 → t.mbxWord 0 j = if j < w then v / 2 ^ (32 * j) % 2 ^ 32 else 0)) ∧
    (s.rd (mbxB 0) Reg.MBX_STATUS_VALID = 1 → completes (.mbxDataRead .mgr k) s (fun t => t.readData = natLE 4 (s.mbxWord 0 k.val) ∧
        t.rd (mbxB 0) Reg.MBX_STATUS_VALID = if s.rd (mbxB 0) Reg.MBX_STATUS_WORDS = k.val + 1 then 0 else 1)) ∧
    (∀ (a : Nat) (r : WRow), s.mbxSlot 0 code.toNat = some (a, r) → r.cnt = true → s.slotHeld a = false →
      a ≠ devB + Reg.DEV_READY_TIME → completes (.mbxLoad .mgr code) s (fun t =>
        t.wideAt a = (s.mbxWord 0 0 + 2 ^ 32 * s.mbxWord 0 1) % 2 ^ 48 ∧ t.rd (mbxB 0) Reg.MBX_STATUS_VALID = 1 ∧ keepsWide (· = a) s t))

/-- The registers of ring q. -/
def ringFrame (q : Nat) : Nat → Prop := inFrame (ringBase q) 256

/-- What R153 says of a write of the value v to HOST_IDX of ring q. -/
def r153 (s : State) (q : Nat) (v : Word) (t : State) : Prop :=
  (s.ringState q = disabled → keeps noRegs s t) ∧
  (s.ringState q ≠ disabled → fillOf (s.ringType q) v.toNat (s.devIdx q) ≤ s.entries q →
    t.hostIdx q = v.toNat ∧ keeps (ringFrame q) s t ∧ t.ringState q = s.ringState q) ∧
  (s.ringState q ≠ disabled → s.entries q < fillOf (s.ringType q) v.toNat (s.devIdx q) →
    t.hostIdx q = s.hostIdx q ∧ t.rd (ringBase q) Reg.RING_EVENT_OVERRUN = 1 ∧
    (s.ringState q = running → t.ringState q = halted ∧ t.rd (ringBase q) Reg.RING_STATE_CAUSE = 3) ∧
    (s.ringState q ≠ running → t.ringState q = s.ringState q ∧
      t.rd (ringBase q) Reg.RING_STATE_CAUSE = s.rd (ringBase q) Reg.RING_STATE_CAUSE))

/-- R153: the doorbell, the direct write, and START, while a Ringplan is in force and the window answers. -/
def Obligations.HostIndexWrites : Prop :=
  ∀ (s : State) (q : Fin 256) (v : Word), s.awaiting = false →
    (∀ (w : Win) (slot : Fin 16), s.answers (winFn w) = true → s.parkedTo 1 = false → s.doorbellRing w slot.val = some q.val →
      completes (.db w slot v) s (r153 s q.val v)) ∧
    (s.answers 0 = true → (s.ringOwner q.val).isSome = true →
      completes (.registerWrite .mgr (ringBase q.val + Reg.RING_HOST_IDX_INDEX.off) (natLE 4 v.toNat) [true, true, true, true] false) s
        (r153 s q.val v)) ∧
    (∀ fn n, s.answers 0 = true → s.ringOwner q.val = some (fn, n) → s.ringState q.val = disabled → s.armed (ringBase q.val) = false →
      s.ringType q.val ≠ 0 → s.ringType q.val < 8 → s.typeAllowed fn (s.ringType q.val) = true →
      s.ringReady q.val = true → completes (.ringStart q) s fun t => t.hostIdx q.val = 0)

/-- DB64 (R155). -/
def Obligations.DoorbellRearm : Prop :=
  ∀ (s : State) (w : Win) (slot : Fin 16) (q : Fin 256) (lo hi : Word), s.answers (winFn w) = true → s.parkedTo 1 = false →
    s.awaiting = false → s.doorbellRing w slot.val = some q.val → (s.ring q.val).pend = 0 →
    (s.hostIdxOk q.val lo.toNat = true → completes (.db64 w slot lo hi) s fun t => t.hostIdx q.val = lo.toNat ∧
      (t.ring q.val).oneshotOff = ((s.ring q.val).oneshotOff && !hi.getLsbD 0)) ∧
    (s.hostIdxOk q.val lo.toNat = false → s.ringState q.val ≠ running → s.ringState q.val ≠ disabled →
      completes (.db64 w slot lo hi) s fun t => t.hostIdx q.val = s.hostIdx q.val ∧
        t.rd (ringBase q.val) Reg.RING_EVENT_OVERRUN = 1)

/-- A ring whose triggers reach it, with nothing fetched and no fetch under way. -/
def ringQuiet (s : State) (q : Nat) : Prop :=
  s.awaiting = false ∧ s.answers 0 = true ∧ (s.ring q).fetched = [] ∧ (s.ring q).fetching = false ∧
  (s.ring q).disablePending = false

/-- No record waits for an EVENT ring of the ring's instance (R174). -/
def noneHeld (s : State) (q : Nat) : Bool := match s.ringInst q with | some i => (s.inst i).heldRecords.isEmpty | none => true

/-- The ring triggers (R156). -/
def Obligations.RingTriggers : Prop :=
  ∀ (s : State) (q : Fin 256) (fn n : Nat), ringQuiet s q.val → s.ringOwner q.val = some (fn, n) →
    (s.ringState q.val = disabled → s.armed (ringBase q.val) = false →
      let t := s.ringType q.val
      ((t ≠ 0 ∧ t < 8 ∧ s.typeAllowed fn t = true ∧ s.ringReady q.val = true) →
        completes (.ringStart q) s fun u => u.ringState q.val = running ∧ u.hostIdx q.val = 0 ∧ (noneHeld s q.val = true → u.devIdx q.val = 0)) ∧
      ((t = 0 ∨ s.typeAllowed fn t = false ∨ s.ringReady q.val = false) →
        completes (.ringStart q) s fun u => u.ringState q.val = disabled ∧ u.rd (ringBase q.val) Reg.RING_EVENT_START_REFUSED = 1)) ∧
    (s.ringState q.val = running → s.ringReady q.val = true →
      completes (.ringStop q) s fun u => u.ringState q.val = stopped ∧ u.rd (ringBase q.val) Reg.RING_STATE_CAUSE = 1 ∧
        u.rd (ringBase q.val) Reg.RING_EVENT_STOPPED = 1 ∧ u.hostIdx q.val = s.hostIdx q.val ∧ u.devIdx q.val = s.devIdx q.val) ∧
    ((s.ringState q.val = stopped ∧ s.rd (ringBase q.val) Reg.RING_STATE_CAUSE = 1) ∨ s.ringState q.val = halted → s.ringReady q.val = true →
      completes (.ringResume q) s fun u => u.ringState q.val = running ∧ u.hostIdx q.val = s.hostIdx q.val ∧
        (noneHeld s q.val = true → u.devIdx q.val = s.devIdx q.val)) ∧
    (s.ringState q.val = stopped ∨ s.ringState q.val = halted →
      completes (.ringDisable q) s fun u => u.ringState q.val = disabled ∧ u.rd (ringBase q.val) Reg.RING_STATE_FREE = 0)

/-- The flow of descriptors through a ring (R154, R157 to R164) and the moderation timer (R171). -/
def Obligations.RingFlow : Prop :=
  ∀ (s : State) (q : Fin 256),
    (s.ringState q.val = running → (s.ring q.val).fetching = false → isSubmission (s.ringType q.val) = true → s.ringReady q.val = true →
      s.fill q.val ≠ 0 → s.armed (ringBase q.val) = false →
      completes (.descriptorFetch q) s fun t => t = settle s (s.modRing q.val fun r => { r with fetching := true })) ∧
    (∀ w : BitVec 512, (s.ring q.val).fetching = true → s.rda (ringBase q.val) Reg.RING_BASE_LO_LOC = 0 →
      let u := s.modRing q.val fun r => { r with fetching := false }
      let d := u.takeIn q.val { idx := s.devIdx q.val, words := w }
      d.passed = none →
      completes (.descriptorArrive q w .ok) s fun t => t = settle s
        ((((u.put (ringBase q.val) Reg.RING_DEV_IDX_INDEX (s.devIdx q.val + 1)).modRing q.val fun r =>
          { r with fetched := r.fetched ++ [{ d with missed := false }] }).flushRing q.val |>.ringLook q.val).select)) ∧
    (∀ (d : Desc) (i : Nat), (s.ring q.val).fetched.find? (fun d => decide (d.phase = .waiting)) = some d → s.ringInst q.val = some i →
      d.waitValue ≤ (s.fence i d.waitSlot).value →
      completes (.fenceWaitSatisfied q) s fun t => t = settle s
        (((s.modDesc q.val d.idx fun d => { d with phase := .ready }).ringLook q.val).select)) ∧
    (∀ d : Desc, s.nextReady q.val = some d → d.opcode = 0 →
      completes (.nop q) s fun t => t = settle s ((s.finish q.val d.idx stOk 0).select)) ∧
    (∀ (d : Desc) (e : WorkEnd), (s.ring q.val).fetched.find? (fun d => decide (d.phase = .running)) = some d → s.holds q.val d.idx = true →
      s.ringType q.val = 2 → d.binned = true →
      completes (.descriptorComplete q e) s fun t => t = settle s ((s.noteEnd q.val d.idx e).endWork q.val d.idx)) ∧
    ((s.ring q.val).pend ≠ 0 → s.rda (ringBase q.val) Reg.RING_MOD_TIME_US ≠ 0 → s.ringType q.val ≠ 5 →
      completes (.modTimerExpire q) s fun t => t = settle s
        ((s.reach ((s.ring q.val).firstPend + 1000 * s.rda (ringBase q.val) Reg.RING_MOD_TIME_US)).checkItems q.val false))

/-- Host reads come back (R127). -/
def Obligations.HostReads : Prop :=
  ∀ (s : State) (q : Fin 256) (data : List Byte) (st : ReadStatus),
    (s.ringType q.val = 2 → completes (.hostReadCompletion q data st) s (fun t => t = settle s (s.copyIn q.val data (decide (st = .ok)))) ∧
      completes (.hostReadTimeout q) s (fun t => t = settle s (s.copyIn q.val [] false))) ∧
    (s.ringType q.val = 4 → completes (.hostReadCompletion q data st) s (fun t => t = settle s (s.audioIn q.val data (decide (st = .ok)))) ∧
      completes (.hostReadTimeout q) s (fun t => t = settle s (s.audioIn q.val [] false)))

/-- The manager's STOP and RESET and the instance's CLEAR_UNCLEAN (R172, R173, R176, R177). -/
def Obligations.InstanceStops : Prop :=
  ∀ (s : State) (i : Fin 64), s.answers 0 = true → s.awaiting = false → s.p.has i.val = true →
    (s.instState i.val = ready → completes (.instanceStop i) s fun t =>
      t = settle s (((s.put (instBase i.val) Reg.INST_STOP_STOP 1).setInstState i.val stopping).abortAll i.val)) ∧
    (s.instState i.val = quiesced → completes (.instanceStop i) s fun t => t.rd (instBase i.val) Reg.INST_STOP_STOP = 1 ∧
      t.instState i.val = quiesced ∧ ∀ (b : Nat) (g : Fld), g.lo < 32 → ¬ outputReg (b + g.off) →
        b + g.off ≠ instBase i.val + Reg.INST_STOP_STOP.off → t.rd b g = s.rd b g) ∧
    (s.instState i.val = stopping → completes (.instanceStopClear i) s (fun t => t.rd (instBase i.val) Reg.INST_STOP_STOP = 0 ∧
        t.instState i.val = stopping ∧ (t.inst i.val).stopCleared = true) ∧
      completes (.instanceReset i) s (fun t => t = settle s (s.modInst i.val (fun x => { x with resetAfter := true })).select)) ∧
    (s.instState i.val = resetting → completes (.instanceReset i) s fun t => t = settle s s.select) ∧
    (s.instState i.val = quiesced → completes (.instanceReset i) s fun t => t = settle s (s.resetBody i.val).select) ∧
    (s.instState i.val = ready → completes (.clearUnclean i) s fun t => t.rd (instBase i.val) Reg.INST_STATUS_RESET_UNCLEAN = 0 ∧
      t.instState i.val = ready)

/-- The ends of the quiesce, reset and scrub timelines (R172, R173, R174). -/
def Obligations.ResetEnds : Prop :=
  ∀ (s : State) (i : Fin 64),
    (s.instState i.val = resetting → completes (.resetDone i) s fun t =>
      t.rd (instBase i.val) Reg.INST_EVENT_RESET_DONE = 1 ∧
      (s.rd (instBase i.val) Reg.INST_STOP_STOP = 1 ∨ s.hostThere i.val = false → t.instState i.val = quiesced) ∧
      (s.rd (instBase i.val) Reg.INST_STOP_STOP = 0 → s.hostThere i.val = true → t.instState i.val = ready ∧
        t.rd (instBase i.val) Reg.INST_STATUS_HOST_LOST = 0)) ∧
    (s.rd (instBase i.val) Reg.INST_STATUS_SCRUBBING = 1 → s.sec.releases = [] → completes (.scrubDone i) s fun t =>
      t.rd (instBase i.val) Reg.INST_STATUS_SCRUBBING = 0 ∧ t.rd (instBase i.val) Reg.INST_EVENT_SCRUB_DONE = 1 ∧
      t.instState i.val = s.instState i.val) ∧
    (s.instState i.val = stopping → s.ringsOf (fnOfInst i.val) = [] → (s.inst i.val).resetAfter = false → (s.inst i.val).lossAfter = false →
      (s.inst i.val).stopCleared = false → completes (.quiesced i) s fun t => t = settle s
        (((s.setInstState i.val quiesced).raise (instBase i.val) Reg.INST_EVENT_QUIESCED).modInst i.val
          (fun x => { x with resetAfter := false, lossAfter := false, stopCleared := false })).select)

/-- The aperture (R123): the address is the window's base plus the offset. -/
def Obligations.ApertureAccess : Prop :=
  ∀ (s : State) (off : BitVec 36) (n : Fin 65) (bs : List Byte),
    let a := s.apertureAddr off.toNat
    (s.apertureOpen off.toNat bs.length = true → s.mayAccess Who.mgr true a bs.length = true →
      completes (.apertureWrite off bs) s fun t => t.dramBytes a bs.length = bs ∧
        (∀ b, b < a ∨ a + bs.length ≤ b → KMap.get dramDefault t.dram b = KMap.get dramDefault s.dram b) ∧
        ∀ (b : Nat) (g : Fld), g.lo < 32 → ¬ outputReg (b + g.off) → t.rd b g = s.rd b g) ∧
    (s.apertureOpen off.toNat n.val = true → s.mayAccess Who.mgr false a n.val = true → (blocksOf a n.val).any s.poisoned = false →
      completes (.apertureRead off n) s fun t => t = settle s { s with readData := s.dramBytes a n.val }) ∧
    (s.apertureOpen off.toNat n.val = true → s.mayAccess Who.mgr false a n.val = false →
      ((pagesOf a n.val).any fun p => entryBad (s.entry p)) = false →
      completes (.apertureRead off n) s fun t => t = settle s { s with readData := List.replicate n.val 0 }) ∧
    (s.apertureOpen off.toNat bs.length = true → s.mayAccess Who.mgr true a bs.length = false →
      ((pagesOf a bs.length).any fun p => entryBad (s.entry p)) = false →
      completes (.apertureWrite off bs) s fun t => t = settle s s)

/-- Unmasking (R125): one message for all the events while masked. -/
def Obligations.UnmaskSends : Prop :=
  ∀ (s : State) (f : FnId) (v : Fin 32), s.answers (fnNum f) = true → v.val < s.vectors (fnNum f) → s.vectors (fnNum f) ≤ 32 →
    s.vecPending (fnNum f) v.val = true → (s.fn (fnNum f)).msixEnable = true → (s.fn (fnNum f)).msixMaskAll = false →
    (s.fn (fnNum f)).d3hot = false → (s.fn (fnNum f)).busMaster = true → s.portOpen (s.fnPort (fnNum f)) = true →
    completes (.msixUnmask f v) s fun t => bitSet (t.msixWord (fnNum f) v.val 3) 0 = false ∧
      (fnNum f ≠ 0 ∨ v.val ≠ 0 → t.vecPending (fnNum f) v.val = false ∧
        KMap.get (fun _ => 0) t.msiSent (64 * fnNum f + v.val) = KMap.get (fun _ => 0) s.msiSent (64 * fnNum f + v.val) + 1)

/-- Configuration requests to a physical function (R134). -/
def Obligations.ConfigAnswers : Prop :=
  ∀ (s : State) (p : Port) (r : CfgReq) (on : Bool), s.portThere p = true → s.linkLive p = true → s.pwr.off = false →
    (s.started && !s.fnExists (s.portPf p)) = false →
    (s.fnTakes (s.portPf p) = false → completes (.configRequest (.pf p) r) s fun t => t = settle s { s with lastRrs := true }) ∧
    (s.fnTakes (s.portPf p) = true →
      completes (.configRequest (.pf p) (.ptmEnable on)) s (fun t => t.lastRrs = false ∧ (t.fn (s.portPf p)).ptmEnable = on ∧
        ∀ k, k ≠ s.portPf p → t.fn k = s.fn k) ∧
      completes (.configRequest (.pf p) (.aspmL1 on)) s (fun t => t.lastRrs = false ∧ (t.fn (s.portPf p)).aspmL1 = on ∧
        ∀ k, k ≠ s.portPf p → t.fn k = s.fn k))

/-- ASPM L1 and PME_Turn_Off (R139); losses and returns of a port and of its functions (R119, R132, R133, R135, R145). -/
def Obligations.PortLosses : Prop :=
  ∀ (s : State) (p : Port) (i : Fin 64) (gen : Fin 8) (lanes : Fin 16) (n : Fin 65), s.portThere p = true →
    (s.linkLive p = true →
      completes (.pmeTurnOff p) s (fun t => t.rd pciB (portState p) = 4 ∧ t.rd pciB (portWidth p) = 0 ∧ t.rd pciB (portSpeed p) = 0 ∧
        (t.portX p).inL2 = true ∧ t.insts = s.insts ∧
        ∀ (b : Nat) (g : Fld), g.lo < 32 → ¬ outputReg (b + g.off) → b + g.off ≠ pciB + (portState p).off → t.rd b g = s.rd b g) ∧
      ((s.fn (s.portPf p)).aspmL1 = true → completes (.aspmL1Entry p) s (fun t => t.rd pciB (portState p) = 3 ∧
        keeps (· = pciB + (portState p).off) s t))) ∧
    ((s.portX p).perst = false → s.pwr.off = false → (s.portX p).inL2 = false → completes (.perstAssert p) s fun t =>
      t = settle s ((s.setPortX p { s.portX p with perst := true }).linkGone p 6)) ∧
    ((s.portX p).perst = true → s.pwr.off = false → (s.portX p).inL2 = false → s.started = false → completes (.perstRelease p) s fun t =>
      t.rd pciB (portState p) = 0 ∧ (t.portX p).perst = false) ∧
    (s.linkLive p = true → completes (.hotReset p) s (fun t => t = settle s (s.linkGone p 0)) ∧
      completes (.linkDown p) s (fun t => t = settle s (s.linkGone p 0))) ∧
    (s.mayTrain p = true → s.linkFits gen.val lanes.val = true → completes (.linkUp p gen lanes) s fun t =>
      let u := ((s.setPortLink p 2 lanes.val gen.val).setPortX p { s.portX p with cutOff := false, inL2 := false }).wakeLook
      let u := (u.raise pciB (evUp p)).readyFns
      t = settle s ((u.each (u.portInsts p) State.tryReady).each (u.portPf p :: (u.portInsts p).map fnOfInst) State.flushVecs).select) ∧
    (s.fnTakes (fnOfInst i.val) = true → s.instState i.val ≠ resetting → completes (.vfFlr i) s fun t =>
      t = settle s (((s.setFn (fnOfInst i.val) {}).modInst i.val (fun x => { x with flr := true })).resetInst i.val).select) ∧
    (s.fnTakes (s.portPf p) = true → (s.fn (s.portPf p)).vfEnable = false → completes (.pfFlr p) s fun t =>
      t = settle s (s.resetPf (s.portPf p) true)) ∧
    (s.fnTakes (s.portPf p) = true → completes (.vfEnableClear p n) s fun t =>
      t = settle s (if n.val = 0 then s.vfsOff p else if n.val < (s.fn (s.portPf p)).numVFs then s.setNumVfs p n.val else s))

/-- The timebase follows the source port (R128 to R130). -/
def Obligations.PtmFollows : Prop :=
  ∀ (s : State) (p : Port) (host : BitVec 64), s.ptmSource = some p → s.atPending = false →
    (s.portThere p = true → s.linkLive p = true → (s.fn (s.portPf p)).ptmEnable = true → completes .ptmDialogue s fun t =>
      (t.portX p).ptmWaiting = true ∧ t.now = s.now) ∧
    ((s.portX p).ptmWaiting = true → (p = .b → s.portA.ptmWaiting = false) →
      (s.now + 1000000 < host.toNat → completes (.ptmResponse (some host)) s fun t =>
        t.now = host.toNat ∧ t.rd pciB Reg.PCI_EVENT_TB_STEP = 1 ∧ t.time.slewing = false ∧ (t.portX p).ptmWaiting = false ∧
        (t.portX p).ptmFails = 0) ∧
      (host.toNat + 1000000 < s.now → completes (.ptmResponse (some host)) s fun t =>
        t.now = s.now ∧ t.time.slewing = true ∧ t.time.trim = 0 ∧ (t.portX p).ptmWaiting = false) ∧
      ((s.portX p).ptmFails < 2 → completes (.ptmResponse none) s fun t =>
        (t.portX p).ptmFails = (s.portX p).ptmFails + 1 ∧ t.time = s.time) ∧
      ((s.portX p).ptmFails = 2 → s.time.freeRun = false → completes (.ptmResponse none) s fun t =>
        t.time.freeRun = true ∧ t.rd pciB Reg.PCI_EVENT_PTM_LOST = 1))

/-- The quantum (R192, R194) and the points of a preemption (R203, R204). -/
def Obligations.QuantumAndPoints : Prop :=
  ∀ (s : State) (er : EngineRef) (t : BitVec 64) (q idx : Nat) (sec : Bool),
    let e := engNum er
    let now := max s.now t.toNat
    (s.engine e).holder = .job q idx sec →
    ((s.engine e).incoming = none → (s.engine e).quantum + 250000 ≤ now → completes (.quantumExpiry er t) s fun u =>
      (u.engine e).holder = .job q idx sec ∧
      (((u.engine e).incoming = none ∧ (u.engine e).quantum = now) ∨
       ((u.engine e).requestAt = now ∧ ((u.engine e).incoming = some (.test true) ∧ isGfx e = true ∨
          ∃ c : Cand, (((s.reach t.toNat).chargeEngine e).best (isGfx e)) = some c ∧ (u.engine e).incoming = some (.job c.q c.idx c.secure))))) ∧
    (∀ d : Desc, (s.engine e).incoming.isSome = true → s.desc q idx = some d → d.discard = false → d.limitHit = false →
      completes (.preemptPointReached er t) s fun u => (u.engine e).atPoint = true ∧ (u.engine e).holder = .job q idx sec ∧
        keepsRegs s u) ∧
    (∀ g : Fin 4, er = .group g → (s.engine e).incoming.isSome = true → (s.engine e).atPoint = false →
      (s.engine e).requestAt + 30000 ≤ now → completes (.tileBoundaryTimeout g t) s fun u =>
        (u.engine e).atPoint = true ∧ (u.engine e).fullSave = true ∧ (u.engine e).holder = .job q idx sec ∧ keepsRegs s u)

/-- Urgent points (R197), the end of a switch (R203, R206), test slices (R208, R210), the time limit and shader faults. -/
def Obligations.SwitchesAndSlices : Prop :=
  ∀ (s : State) (er : EngineRef) (g : Fin 4) (qr : Fin 256) (t : BitVec 64),
    let e := engNum er
    let u := s.reach t.toNat
    (∀ next : Holder, (s.engine e).incoming = some next → (s.engine e).atPoint = true → completes (.contextSaveDone er t true) s fun v =>
      (v.engine e).incoming = none ∧
      min ((u.now - (s.engine e).requestAt) / 10) 65535 ≤ v.rd carB Reg.CAR_PREEMPT_WORST_WORST ∧
      (u.preemptNs (isGfx e) < u.now - (s.engine e).requestAt → v.rd carB Reg.CAR_EVENT_PREEMPT_SLOW = 1)) ∧
    (∀ d : Desc, u.jobOf (decide (u.ringType qr.val = 1)) qr.val = some d → u.urgent (decide (u.ringType qr.val = 1)) qr.val d = true →
      let gfx := decide (u.ringType qr.val = 1)
      let c := u.chargeAll
      let l := c.claimOrder (c.openEngines gfx qr.val)
      completes (.urgentPoint qr t) s fun v => v = settle s
        (((c.each (l.take (claimCount gfx l.length)) fun x k => x.claim k (c.ringClass qr.val) (.job qr.val d.idx d.secure)).served gfx qr.val).engineLook)) ∧
    (∀ (b : Bool) (bad : Option (Fin 4)), (s.engine g.val).holder = .test b → completes (.testSliceEnd g t bad) s fun v =>
      v.wideAt (carB + Reg.CAR_TEST_SLICES) = (s.wideAt (carB + Reg.CAR_TEST_SLICES) + 1) % 2 ^ 48 ∧
      (∀ k : Fin 4, bad = some k → v.rd (coreB (4 * g.val + k.val)) Reg.GFX_CORE_STATUS_TEST_FAILED = 1 ∧
        v.rd (coreB (4 * g.val + k.val)) Reg.GFX_CORE_EVENT_TEST_FAIL = 1 ∧ v.rd gfxB Reg.GFX_EVENT_TEST_FAIL = 1 ∧
        (v.engine g.val).outOfService = true)) ∧
    (∀ d : Desc, let c := s.chargeAll
      (c.ring qr.val).fetched.find? (fun d => decide (d.phase = .running)) = some d → c.ringType qr.val = 1 →
      s.rd gfxB Reg.GFX_CFG_JOB_LIMIT_MS ≠ 0 → s.rd gfxB Reg.GFX_CFG_JOB_LIMIT_MS * 16000000 < d.charged →
      completes (.jobTimeout qr) s fun v => v = settle s (c.modDesc qr.val d.idx fun d => { d with limitHit := true })) ∧
    (∀ (d : Desc) (off : Word), (s.ring qr.val).fetched.find? (fun d => decide (d.phase = .running)) = some d → s.ringType qr.val = 1 →
      completes (.shaderFault qr off) s fun v => v = settle s (((s.jobPerf qr.val d).shaderWrites qr.val d).endWith qr.val d.idx 0x84 off.toNat))

/-- ROUND_START (R30, R181, R535) and VOLTAGE_CONFIRMED (R539). -/
def Obligations.RoundsStart : Prop :=
  ∀ (s : State) (m : Measure), s.pwr.off = false →
    (s.applied = false → completes (.roundStart m) s fun t => t.now = s.nextMs ∧ t.engines = s.engines) ∧
    (s.roundsRun = true → (s.passTo s.nextMs).roundsRun = true → completes (.roundStart m) s fun t =>
      let u := (s.passTo s.nextMs).sweepRound
      u.roundsRun = true → t = settle s (((((((u.chargeAll).applyDecision.blwRound).takeRoundPart).carouselRound).refillBudgets).decideRound m).select)) ∧
    completes .voltageConfirmed s fun t => t.pwr = { s.pwr with confirmed := true } ∧ keepsRegs s t

/-- RENDER, DISPATCH, CONTEXT, TIMESTAMP and the end of binning. -/
def Obligations.GraphicsWork : Prop :=
  ∀ (s : State) (q : Fin 256) (d : Desc),
    (s.startOn q.val 1 1 = some d →
      ((s.ring q.val).saveArea = 0 → d.secure = false → completes (.render q) s fun t =>
        t = settle s ((s.vacate q.val d.idx).finish q.val d.idx 0x80 0).select) ∧
      ((s.ring q.val).saveArea ≠ 0 → completes (.render q) s fun t =>
        t = settle s (State.checked q.val d.idx (Check.pass { s := s } (s.jobWho q.val d.secure) (d.f 0x20 8) (d.f 0x34 4))))) ∧
    (s.startOn q.val 1 2 = some d →
      ((s.ring q.val).saveArea = 0 → d.secure = false → completes (.dispatch q) s fun t =>
        t = settle s ((s.vacate q.val d.idx).finish q.val d.idx 0x80 0).select) ∧
      ((s.ring q.val).saveArea ≠ 0 → d.f 0x30 8 = 0 → d.f 0x28 4 ≠ 0 → d.f 0x2C 2 ≠ 0 → d.f 0x2E 2 ≠ 0 → completes (.dispatch q) s fun t =>
        t = settle s (State.checked q.val d.idx (Check.compute { s := s } (s.jobWho q.val d.secure) (d.f 0x20 8) [d.f 0x28 4, d.f 0x2C 2, d.f 0x2E 2])))) ∧
    (s.nextOp q.val 1 3 = some d → s.isFirst q.val d.idx = true →
      ((s.ring q.val).fetched.any Desc.saved = false → completes (.context q) s fun t =>
        t = settle s ((s.modRing q.val fun r => { r with saveArea := d.f 0x28 8 }).finish q.val d.idx stOk 0).select) ∧
      ((s.ring q.val).fetched.any Desc.saved = true → d.f 0x28 8 ≠ (s.ring q.val).saveArea → completes (.context q) s fun t =>
        t = settle s (s.finish q.val d.idx stNotPermitted 0x28).select)) ∧
    (s.nextOp q.val 1 4 = some d → s.isFirst q.val d.idx = true → completes (.gfxTimestamp q) s fun t =>
      t = settle s (let r := s.engineWrite (s.jobWho q.val false) (d.f 0x28 8) (natLE 8 s.now)
        (match r.2 with
          | some a => (r.1.finish q.val d.idx stFault (faultDetail a)).select
          | none => (r.1.finish q.val d.idx stOk 0).select))) ∧
    (∀ (entries : List Nat) (verts : Word), (s.ring q.val).fetched.find? (fun d => !d.isDone) = some d → s.ringType q.val = 1 → d.opcode = 1 →
      d.phase = .running → d.binned = false → s.holds q.val d.idx = true → completes (.binningDone q entries verts) s fun t =>
        (t.desc q.val d.idx = none ∨ ∃ x, t.desc q.val d.idx = some x ∧ x.binned = true))

/-- The copy commands (R346, R347). -/
def Obligations.CopyWork : Prop :=
  ∀ (s : State) (q : Fin 256) (d : Desc),
    (s.startOn q.val 2 1 = some d → completes (.copy q) s fun t => t = settle s (s.startCopy q.val d)) ∧
    (s.startOn q.val 2 2 = some d → completes (.fill q) s fun t => t = settle s
      ((s.modDesc q.val d.idx fun d => { d with phase := .running, binned := false, got := [] }).copyOut q.val d [])) ∧
    (s.startOn q.val 2 3 = some d → completes (.copy2d q) s fun t => t = settle s (s.startCopy q.val d)) ∧
    (s.startOn q.val 2 4 = some d →
      ((convSrc (d.b 0x20) = true ∧ convDst (d.b 0x21) = true ∧ d.f 0x24 2 ≠ 0 ∧ d.f 0x26 2 ≠ 0) → completes (.convert q) s fun t =>
        t = settle s (s.startCopy q.val d)) ∧
      (convSrc (d.b 0x20) = false → completes (.convert q) s fun t => t = settle s (s.endWith q.val d.idx 0x80 0x20)) ∧
      ((convSrc (d.b 0x20) = true ∧ convDst (d.b 0x21) = true ∧ d.f 0x24 2 = 0) → completes (.convert q) s fun t =>
        t = settle s (s.endWith q.val d.idx 0x80 0x24))) ∧
    (∀ fn n, s.nextOp q.val 2 5 = some d → s.isFirst q.val d.idx = true → dstDram d = false → s.ringOwner q.val = some (fn, n) →
      completes (.cpyTimestamp q) s fun t =>
        t = settle s ((s.hostWrite (s.fnPort fn) (d.f 0x28 8) (natLE 8 s.now)).finish q.val d.idx stOk 0).select)

/-- The commit commands and the data they read. -/
def Obligations.CommitCommands : Prop :=
  ∀ (s : State) (q : Fin 256) (d : Desc),
    let n := d.b 0x20
    (s.commitNext q.val 1 = some d → completes (.state q) s fun t =>
      t = settle s (if s.ownsLayer q.val n then s.startRead q.val d.idx else s.finish q.val d.idx stNotPermitted 0x20)) ∧
    (s.commitNext q.val 2 = some d → completes (.flip q) s fun t =>
      t = settle s (if s.ownsLayer q.val n then s.takeCommit q.val d (s.layerHead n) (some n) [] else s.finish q.val d.idx stNotPermitted 0x20)) ∧
    (s.commitNext q.val 3 = some d → completes (.coeff q) s fun t =>
      t = settle s (if s.ownsLayer q.val n then s.startRead q.val d.idx else s.finish q.val d.idx stNotPermitted 0x20)) ∧
    (s.commitNext q.val 4 = some d → completes (.head q) s fun t =>
      t = settle s (if s.ownsHead q.val n 0 && s.bound q.val n then s.takeCommit q.val d n none [] else s.finish q.val d.idx stNotPermitted 0x20)) ∧
    (s.commitNext q.val 7 = some d → completes (.gamma q) s fun t =>
      t = settle s (if s.ownsHead q.val n 2 && s.bound q.val n then s.startRead q.val d.idx else s.finish q.val d.idx stNotPermitted 0x20)) ∧
    (s.commitNext q.val 8 = some d → s.isFirst q.val d.idx = true → s.ownsHead q.val n 1 = true → completes (.bind q) s fun t =>
      t = settle s ((s.put (headBase n) Reg.HEAD_CRING_RING (if bitSet (d.b 0x21) 0 then 0xFF else q.val)).finish q.val d.idx stOk 0)) ∧
    (s.commitNext q.val 5 = some d →
      ((s.ownsLayer q.val n && bitSet (s.p.layer n).flags 2) = false → completes (.move q) s fun t =>
        t = settle s (s.finish q.val d.idx stNotPermitted 0x20)) ∧
      (s.ownsLayer q.val n = true → bitSet (s.p.layer n).flags 2 = true → d.b 0x21 < 8 → s.mayMove n (d.b 0x21) = false →
        completes (.move q) s fun t => t = settle s (s.finish q.val d.idx stMoveRefused 0)) ∧
      (s.ownsLayer q.val n = true → bitSet (s.p.layer n).flags 2 = true → d.b 0x21 = 0xFF → completes (.move q) s fun t =>
        t = settle s ((((s.modDesc q.val d.idx fun d => { d with phase := .armed }).modLayer n fun x => { x with disable := false }).request n 15
          (some (q.val, d.idx))).idleMove n))) ∧
    (s.commitNext q.val 6 = some d →
      (s.p.region n = none → completes (.expect q) s fun t => t = settle s (s.finish q.val d.idx stNotPermitted 0x20)) ∧
      (∀ g : GuardRec, s.p.region n = some g → s.ringInst q.val = some g.owner →
        (s.regionPast g (d.f 0x28 8) = true → completes (.expect q) s fun t => t = settle s (s.finish q.val d.idx stTooLate 0)) ∧
        (s.regionPast g (d.f 0x28 8) = false → (s.unit g.cvu).expects = [] → completes (.expect q) s fun t =>
          (t.unit g.cvu).expects = [{ frame := d.f 0x28 8, value := d.f 0x30 8, q := q.val, idx := d.idx }]))) ∧
    (∀ (data : List Byte), s.ringType q.val = 3 → (s.ring q.val).fetched.find? (fun d => decide (d.phase = .running)) = some d →
      bitSet (d.b 0x21) 0 = false →
      (data.length = commitLen d.opcode → completes (.commitReadDone q data .ok) s fun t =>
        t = settle s (s.takeCommit q.val d (s.commitPlace d).1 (s.commitPlace d).2 data)) ∧
      (data.length ≠ commitLen d.opcode → completes (.commitReadDone q data .ok) s fun t =>
        t = settle s ((s.modFn ((s.ringOwner q.val).map Prod.fst |>.getD 0) fun c => { c with aerErrors := c.aerErrors + 1 }).finish
          q.val d.idx stFault (faultDetail (d.f 0x28 8)))))

/-- The error registers of the frame at b, as `accessErr` leaves them with nothing recorded before (R101). -/
def errAt (b off kind : Nat) (s t : State) : Prop :=
  t.rd b Reg.ERR_ACCESS_ERR = 1 ∧ t.rd b Reg.ERR_ACCESS_KIND = kind ∧ t.rd b Reg.ERR_ACCESS_OFFSET = off / 4 ∧
  keeps (fun a => a = b + Reg.ERR_ACCESS_ERR.off ∨ a = b + Reg.ERR_ACCESS_KIND.off ∨ a = b + Reg.ERR_ACCESS_OFFSET.off) s t

/-- LAYER_ASSIGN and HEAD_CRING. -/
def Obligations.AssignAndBinding : Prop :=
  ∀ (s : State) (k : Fin 64) (h : Fin 8) (v : Word), s.answers 0 = true → s.awaiting = false →
    let b := layerBase k.val
    let c := headBase h.val
    let g := v.toNat % 16
    let r := v.toNat % 256
    (s.rd b Reg.ERR_ACCESS_ERR = 0 →
      (8 ≤ g → g ≠ 15 → completes (.layerAssign k v) s (errAt b 8 5 s)) ∧
      (g < 8 → s.rplBusy = true ∨ s.mayMove k.val g = false → completes (.layerAssign k v) s (errAt b 8 6 s)) ∧
      (s.rplBusy = true → g = 15 → completes (.layerAssign k v) s (errAt b 8 6 s))) ∧
    (g < 8 ∨ g = 15 → s.rplBusy = false → s.mayMove k.val g = true → completes (.layerAssign k v) s fun t =>
      t.rd b Reg.LAYER_ASSIGN_TARGET = g) ∧
    (s.rplBusy = false → (r = 0xFF ∨ s.ringInst r = some (s.p.head h.val).owner ∧ s.ringType r = 3 ∧ s.p.headUsed h.val = true) →
      (bitSet (s.p.head h.val).ownerWritable 1 = false ∨ s.ownerIdle (s.p.head h.val).owner = true) →
      completes (.cringWrite h v) s fun t => t.rd c Reg.HEAD_CRING_RING = r ∧ keeps (· = c + Reg.HEAD_CRING_RING.off) s t) ∧
    (s.rplBusy = true → s.rd c Reg.ERR_ACCESS_ERR = 0 → completes (.cringWrite h v) s (errAt c 0x1C 6 s))

/-- The frames of a head (R250, R264, R268). -/
def Obligations.FramesAdvance : Prop :=
  ∀ (s : State) (h : Fin 8) (y : BitVec 16) (t : BitVec 64),
    let u := s.reach t.toNat
    let b := headBase h.val
    (s.scans h.val = true → (s.head h.val).latched = false → completes (.latch h t) s fun v =>
      (v.head h.val).latched = true ∧ v.wideAt (b + Reg.HEAD_LATCH_TIME) = max s.now t.toNat) ∧
    (s.scans h.val = true → s.rd picB Reg.PIC_STATE_STATE = 0 → s.parkedTo 7 = false → s.rd snB Reg.SN_STATUS_STOPPED = 0 →
      completes (.frameStart h t) s fun v =>
        v.wideAt (b + Reg.HEAD_FRAME) = s.frameNo h.val + 1 ∧ v.rd b Reg.HEAD_POS_LINE = 0 ∧ (v.head h.val).latched = false ∧
        (v.head h.val).cur = (if (s.head h.val).latched then (s.head h.val).next else (s.head h.val).cur)) ∧
    (s.scans h.val = true → s.rd picB Reg.PIC_STATE_STATE ≠ 0 ∨ s.parkedTo 7 = true → completes (.frameStart h t) s fun v =>
      v = settle s (u.headOff h.val)) ∧
    (s.scans h.val = true → y.toNat < s.vActive h.val → completes (.lineDue h y t) s fun v =>
      v.rd b Reg.HEAD_POS_LINE = y.toNat % 2 ^ Reg.HEAD_POS_LINE.w ∧ (v.head h.val).sentLines = y.toNat + 1) ∧
    ((s.head h.val).locking = true → s.p.headUsed h.val = true → completes (.headPllLock h) s fun v =>
      (v.head h.val).locking = false ∧ v.wideAt (b + Reg.HEAD_FRAME) = 0 ∧ v.rd b Reg.HEAD_POS_LINE = 0) ∧
    (s.scans h.val = true → y.toNat < s.vActive h.val → y.toNat < s.lead h.val → s.rd b Reg.HEAD_STATE_LINK ≠ 4 →
      let w := u.modHead h.val fun x => { x with composed := max x.composed (y.toNat + 1) }
      completes (.composeLineStart h y t) s fun v => v = settle s
        (if (s.head h.val).latched then w.composeLatched h.val (s.frameNo h.val + 1) y.toNat (s.head h.val).next else w.composeSpec h.val y.toNat)) ∧
    (∀ e : Nat, (s.head h.val).hostMode = .hold → (s.head h.val).holdEnd = some e → completes (.holdTimerExpire h) s fun v =>
      (v.head h.val).holdOver = true ∧ v.now = max s.now e ∧ keepsRegs s v)

/-- References (R271 to R273). -/
def Obligations.Genlock : Prop :=
  ∀ (s : State) (h : Fin 8) (t : BitVec 64),
    let b := headBase h.val
    (s.followers 1 0 = [h.val] → (s.head h.val).refTime = none → completes (.vsyncInEdge t) s fun v =>
      (v.head h.val).refTime = some t.toNat ∧ v.now = max s.now t.toNat ∧ keepsRegs s v) ∧
    (bitsOf (s.head h.val).sync 0 2 ≠ 0 → s.rd b Reg.HEAD_STATE_LOCKED = 1 → completes (.genlockRefMissing h) s fun v =>
      v.rd b Reg.HEAD_STATE_LOCKED = 0 ∧ v.rd b Reg.HEAD_EVENT_LOCK_LOST = 1 ∧
      v.wideAt (b + Reg.HEAD_LOCK_LOSS) = (s.wideAt (b + Reg.HEAD_LOCK_LOSS) + 1) % 2 ^ 48 ∧ (v.head h.val).refTime = none) ∧
    (bitsOf (s.head h.val).sync 0 2 = 0 → completes (.genlockRefMissing h) s fun v => keeps noRegs s v ∧ keepsWide noRegs s v)

/-- A DP or eDP port (R285 to R288). -/
def Obligations.PortTraining : Prop :=
  ∀ (s : State) (h : Fin 8) (c : SinkCaps), s.isDsi h.val = false →
    let b := outB h.val
    (∀ p : Pair, s.link h.val = linkTraining → (s.out h.val).current = some p →
      completes (.trainAttemptDone h true) s (fun t => t.link h.val = linkActive ∧ t.rd b Reg.OUT_EVENT_TRAINED = 1 ∧
        t.rd b Reg.OUT_STATUS_RATE = p.1 % 2 ^ Reg.OUT_STATUS_RATE.w ∧ t.rd b Reg.OUT_STATUS_LANES = p.2.1 % 2 ^ Reg.OUT_STATUS_LANES.w) ∧
      (∀ n l, (s.out h.val).search = n :: l → completes (.trainAttemptDone h false) s fun t =>
        (t.out h.val).current = some n ∧ (t.out h.val).search = l ∧ keepsRegs s t) ∧
      ((s.out h.val).search = [] → completes (.trainAttemptDone h false) s fun t => t.link h.val = linkNoSink ∧
        t.rd (headBase h.val) Reg.HEAD_STATE_CAUSE = 2 ∧ t.rd b Reg.OUT_EVENT_TRAIN_FAIL = 1 ∧
        t.wideAt (b + Reg.OUT_TRAIN_FAILS) = (s.wideAt (b + Reg.OUT_TRAIN_FAILS) + 1) % 2 ^ 48 ∧
        (t.out h.val).retryAt = some (s.now + 2000000000))) ∧
    (∀ r : Nat, (s.out h.val).retryAt = some r → s.link h.val = linkNoSink → s.rd (headBase h.val) Reg.HEAD_STATE_CAUSE = 2 →
      (s.out h.val).hpdIn = true → completes (.trainRetry h) s fun t => t = settle s ((s.reach r).startSearch h.val)) ∧
    ((s.out h.val).hpdIn = false → s.hpdRead h.val = true → s.powerState = 0 → s.entryPhase = 0 → completes (.hpdPlug h c) s fun t =>
      t.rd b Reg.OUT_STATUS_HPD = 1 ∧ t.rd b Reg.OUT_EVENT_PLUG = 1 ∧ (t.out h.val).hpdIn = true) ∧
    ((s.out h.val).hpdIn = true → s.hpdRead h.val = true → completes (.hpdUnplug h) s fun t =>
      t.rd b Reg.OUT_STATUS_HPD = 0 ∧ t.rd b Reg.OUT_EVENT_UNPLUG = 1 ∧ t.link h.val = linkNoSink ∧
      t.rd (headBase h.val) Reg.HEAD_STATE_CAUSE = 1 ∧ (t.out h.val).hpdIn = false) ∧
    ((s.out h.val).hpdIn = true → s.hpdRead h.val = true →
      (∀ lost cp : Bool, s.link h.val ≠ linkActive → s.link h.val ≠ linkSelfRefresh → completes (.hpdIrq h lost cp) s fun t =>
        t.rd b Reg.OUT_EVENT_IRQ_HPD = 1 ∧ keeps (· = b + Reg.OUT_EVENT_IRQ_HPD.off) s t) ∧
      (∀ cp : Bool, s.link h.val = linkActive → completes (.hpdIrq h true cp) s fun t =>
        t.rd b Reg.OUT_EVENT_LINK_LOST = 1 ∧ t.wideAt (b + Reg.OUT_LINK_LOSS) = (s.wideAt (b + Reg.OUT_LINK_LOSS) + 1) % 2 ^ 48)) ∧
    (s.answers 0 = true → s.awaiting = false → s.link h.val ≠ linkOff → (s.out h.val).hpdIn = true → completes (.retrain h) s fun t =>
      t = settle s ((s.exitPsr h.val).startSearch h.val))

/-- How an AUX request ends. -/
def auxEnds (b result count : Nat) (t : State) : Prop :=
  t.rd b Reg.OUT_AUX_STATUS_BUSY = 0 ∧ t.rd b Reg.OUT_AUX_STATUS_RESULT = result ∧
  t.rd b Reg.OUT_AUX_STATUS_COUNT = count % 2 ^ Reg.OUT_AUX_STATUS_COUNT.w ∧ t.rd b Reg.OUT_EVENT_AUX_DONE = 1

/-- AUX (R289), DSI panels (R295) and HDCP (R298). -/
def Obligations.AuxAndPanels : Prop :=
  ∀ (s : State) (h : Fin 8),
    let b := outB h.val
    (s.answers 0 = true → s.awaiting = false →
      (s.rd b Reg.OUT_AUX_STATUS_BUSY = 0 → s.link h.val = linkTraining → completes (.auxGo h) s fun t =>
        t.rd b Reg.OUT_AUX_STATUS_BUSY = 1 ∧ (t.out h.val).auxWaiting = true) ∧
      (s.rd b Reg.OUT_AUX_STATUS_BUSY = 1 → completes (.auxGo h) s fun t => keeps noRegs s t)) ∧
    (s.rd b Reg.OUT_AUX_STATUS_BUSY = 1 → (s.out h.val).auxWaiting = false →
      (∀ data : List Byte, s.rd b Reg.OUT_AUX_REQ_OP = 1 → completes (.auxReply h .ack data) s (auxEnds b 0 (s.rd b Reg.OUT_AUX_REQ_LEN + 1))) ∧
      (∀ data : List Byte, s.rd b Reg.OUT_AUX_REQ_OP = 0 → completes (.auxReply h .ack data) s
        (auxEnds b 0 (data.take (s.rd b Reg.OUT_AUX_REQ_LEN + 1)).length)) ∧
      (∀ data : List Byte, completes (.auxReply h .nack data) s (auxEnds b 1 0)) ∧
      (∀ data : List Byte, (s.out h.val).auxRetries < 7 → completes (.auxReply h .deferred data) s fun t =>
        (t.out h.val).auxRetries = (s.out h.val).auxRetries + 1 ∧ keepsRegs s t) ∧
      completes (.auxTimeout h) s (auxEnds b 2 0)) ∧
    ((s.out h.val).dsiWait = true → completes (.dsiSleepExitWaitEnd h) s fun t =>
      (t.out h.val).dsiWait = false ∧ (t.out h.val).dsiFrame = true ∧ keepsRegs s t) ∧
    (s.rd b Reg.OUT_STATUS_HDCP = 1 →
      (∀ one : Bool, completes (.hdcpAuthDone h true one) s fun t =>
        t.rd b Reg.OUT_STATUS_HDCP = (if one = true ∧ s.rd b Reg.OUT_HDCP_REQUEST = 2 then 3 else 2) ∧ t.rd b Reg.OUT_EVENT_HDCP_CHANGE = 1) ∧
      (∀ one : Bool, completes (.hdcpAuthDone h false one) s fun t =>
        t.rd b Reg.OUT_STATUS_HDCP = 4 ∧ t.rd b Reg.OUT_EVENT_HDCP_CHANGE = 1)) ∧
    (s.rd b Reg.OUT_STATUS_HDCP = 4 → s.portType h.val = 1 → s.link h.val = linkActive → s.rd b Reg.OUT_HDCP_REQUEST ≠ 0 →
      s.rd secB Reg.SEC_STATE_STATE = 1 → s.rd secB Reg.SEC_STATE_DEBUG_SECURE = 0 → completes (.hdcpReauth h) s fun t =>
        t.rd b Reg.OUT_STATUS_HDCP = 1)

/-- The frame that was being received is discarded (R303). -/
def frameBad (c : Nat) (s t : State) : Prop :=
  (t.cap c).inFrame = false ∧ t.wideAt (capB c + Reg.CAP_BAD_FRAMES) = (s.wideAt (capB c + Reg.CAP_BAD_FRAMES) + 1) % 2 ^ 48 ∧
  t.rd (capB c) Reg.CAP_EVENT_FRAME_BAD = 1

/-- The capture port (R301 to R304). -/
def Obligations.CaptureRoute : Prop :=
  ∀ (s : State) (c : Fin 4) (n : BitVec 16) (t : BitVec 64),
    let b := capB c.val
    let r := s.capRec c.val
    (s.capState c.val ≠ capOff →
      completes (.csiFrameStart c n) s (fun u => (u.cap c.val).inFrame = true ∧ (u.cap c.val).lines = 0 ∧
        ((s.cap c.val).inFrame = false → keepsRegs s u) ∧ ((s.cap c.val).inFrame = true →
          u.wideAt (b + Reg.CAP_BAD_FRAMES) = (s.wideAt (b + Reg.CAP_BAD_FRAMES) + 1) % 2 ^ 48)) ∧
      (∀ (dt : BitVec 6) (vc : Fin 16) (data : List Byte), dt.toNat = r.dataType → vc.val = r.vc → (s.cap c.val).inFrame = true →
        (data.length = lineBytes r.dataType r.width → (s.cap c.val).lines < r.height → completes (.csiLinePacket c dt vc data false) s fun u =>
          (u.cap c.val).lines = (s.cap c.val).lines + 1 ∧ keepsRegs s u) ∧
        (data.length ≠ lineBytes r.dataType r.width → completes (.csiLinePacket c dt vc data false) s (frameBad c.val s)) ∧
        completes (.csiLinePacket c dt vc data true) s (fun u => frameBad c.val s u ∧ u.rd b Reg.CAP_EVENT_PKT_ERR = 1)) ∧
      ((s.cap c.val).inFrame = true → completes (.overflow c) s (fun u => frameBad c.val s u ∧ u.rd b Reg.CAP_EVENT_OVERFLOW = 1))) ∧
    ((s.cap c.val).inFrame = true →
      ((s.cap c.val).lines = r.height → completes (.csiFrameEnd c t) s fun u =>
        u.wideAt (b + Reg.CAP_FRAMES) = (s.wideAt (b + Reg.CAP_FRAMES) + 1) % 2 ^ 48 ∧ u.capState c.val = capRunning ∧
        u.rd b Reg.CAP_STATUS_NEWEST = (s.cap c.val).writing % 2 ^ Reg.CAP_STATUS_NEWEST.w ∧ (u.cap c.val).inFrame = false) ∧
      ((s.cap c.val).lines ≠ r.height → completes (.csiFrameEnd c t) s (frameBad c.val s))) ∧
    (s.capState c.val = capWaiting ∨ s.capState c.val = capRunning → completes (.stall c) s fun u =>
      u.capState c.val = capStalled ∧ u.rd b Reg.CAP_EVENT_STALL = 1 ∧ bitSet (u.rd snB Reg.SN_FAULT_FLAGS_FLAGS) srcCapture = true)

/-- Maintenance of a channel (R364, R367 to R370, R373, R381, R382). -/
def Obligations.DramMaintenance : Prop :=
  ∀ (s : State) (c : Fin 16) (rank : Fin 2), s.rd dmcB Reg.DMC_STATUS_STATE = 3 → s.ranks.contains rank.val = true →
    let f := if rank.val = 0 then Reg.DMCCH_STATUS_RANK0 else Reg.DMCCH_STATUS_RANK1
    (s.rankAsleep c.val rank.val = false → completes (.refreshTick c rank) s fun t =>
      t.owed c.val rank.val = min (s.owed c.val rank.val + 1) 63 ∧ t.dram = s.dram ∧ (t.chan c.val) = s.chan c.val) ∧
    (s.rankAsleep c.val rank.val = true → completes (.refreshTick c rank) s fun t => keeps noRegs s t ∧ keepsWide noRegs s t) ∧
    completes (.requestAgePromote c) s (fun t => (t.chan c.val).queue = (s.chan c.val).queue.map fun r =>
      if r.urg = 0 ∧ r.arrived + s.rd dmcB Reg.DMC_POLICY_AGE_US * 1000 ≤ s.now then { r with urg := 1 } else r) ∧
    (s.rankAsleep c.val 0 = false → (s.chan c.val).probeEnd + 2000 ≤ s.now → completes (.mr4Poll c) s fun t =>
      (t.chan c.val).pollDue = true ∧ keepsRegs s t) ∧
    (∀ band : Fin 3, completes (.mr4Result c rank band) s fun t => (t.chan c.val).factor rank.val = 2 ^ band.val) ∧
    completes (.disturbWindowEnd c) s (fun t => (t.chan c.val).banks = (s.chan c.val).banks.map
      (fun e => (e.1, { e.2 with table := e.2.table.map fun r => (r.1, r.2 / 2) })) ∧ keepsRegs s t) ∧
    (s.owed c.val rank.val = 0 → s.rd (chB c.val) f = 0 → ((s.chan c.val).queue.any fun r => decide ((r.place s).rank = rank.val)) = false →
      completes (.rankPowerDown c rank) s fun t => t.rd (chB c.val) f = 1 ∧ keeps (· = chB c.val + f.off) s t) ∧
    (s.rd picB Reg.PIC_STATE_STATE ≤ 1 → (∀ h : Fin 8, s.scans h.val = false) → (∀ p : Fin 4, s.rd (capB p.val) Reg.CAP_STATUS_STATE = 0) →
      s.rd dmcB Reg.DMC_LP_SR_IDLE_US ≠ 0 → (s.chan c.val).queue = [] → (s.chan c.val).held = [] → s.rankAsleep c.val 0 = false →
      completes (.channelSelfRefresh c) s fun t => t.rd (chB c.val) Reg.DMCCH_STATUS_RANK0 = 2 ∧ t.owed c.val 0 = 0 ∧ t.dram = s.dram)

/-- LIMIT_WRITE (R368, R371). -/
def Obligations.DramLimits : Prop :=
  ∀ (s : State) (v : Word), s.answers 0 = true → s.awaiting = false →
    let l := bitsOf v.toNat 0 4
    let p := bitsOf v.toNat 16 14
    (1 ≤ l → l ≤ 8 → 100 ≤ p → p ≤ 16000 → completes (.limitWrite v) s fun t =>
      t.rd dmcB Reg.DMC_REFRESH_LIMIT = l ∧ t.rd dmcB Reg.DMC_REFRESH_POLL_US = p ∧ t.rd dmcB Reg.DMC_REFRESH_ALL_BANK = bitsOf v.toNat 4 1 ∧
      ∀ (c : Fin 16) (r : Nat), r ∈ s.ranks → l < s.owed c.val r → (t.chan c.val).forced r = true) ∧
    (l = 0 ∨ 8 < l → s.rd dmcB Reg.ERR_ACCESS_ERR = 0 → 100 ≤ p → p ≤ 16000 → completes (.limitWrite v) s fun t =>
      t.rd dmcB Reg.DMC_REFRESH_LIMIT = s.rd dmcB Reg.DMC_REFRESH_LIMIT % 2 ^ Reg.DMC_REFRESH_LIMIT.w ∧
      t.rd dmcB Reg.DMC_REFRESH_POLL_US = p ∧ t.rd dmcB Reg.DMC_REFRESH_ALL_BANK = bitsOf v.toNat 4 1 ∧
      t.rd dmcB Reg.ERR_ACCESS_ERR = 1 ∧ t.rd dmcB Reg.ERR_ACCESS_KIND = 5 ∧ t.rd dmcB Reg.ERR_ACCESS_OFFSET = 4)

/-- Requests and reads of the memory (R362, R363, R384, R386, R399). -/
def Obligations.DramRequests : Prop :=
  ∀ (s : State) (c : Fin 16), s.rd dmcB Reg.DMC_STATUS_STATE = 3 →
    (∀ r : DramReq, unchecked r.port.val = false → r.write = false →
      let a := r.addr.toNat / 64 * 64
      (s.mayAccess (reqWho r) false a 64 = false → completes (.dramRequestArrive r) s fun t => t = settle s (s.refuse (reqWho r) a 64)) ∧
      (s.mayAccess (reqWho r) false a 64 = true → completes (.dramRequestArrive r) s fun t => t.dram = s.dram ∧
        ((t.chan (s.place a).channel).queue ++ (t.chan (s.place a).channel).held).length =
          ((s.chan (s.place a).channel).queue ++ (s.chan (s.place a).channel).held).length + 1)) ∧
    (s.rankAsleep c.val 0 = false → (s.chan c.val).forced 0 = true → completes (.commandSlot c) s fun t =>
      t = settle s ((s.batchLook c.val).refreshRank c.val 0)) ∧
    ((s.chan c.val).queue = [] → (s.chan c.val).mitig = [] → (∀ r ∈ s.ranks, s.owed c.val r = 0 ∧ (s.chan c.val).forced r = false) →
      0 < s.refreshLimit → completes (.commandSlot c) s fun t => t.dram = s.dram ∧ keepsRegs s t) ∧
    (s.sn.armed = [] →
      (∀ (port : Fin 24) (inst : BitVec 8) (addr : BitVec 36), addr.toNat / 64 * 64 + 64 ≤ s.usable → s.poisoned (addr.toNat / 64) = false →
        completes (.dramReadReturn port inst addr .clean) s fun t =>
          t.readData = s.dramBytes (addr.toNat / 64 * 64) 64 ∧ t.dram = s.dram ∧ keepsRegs s t) ∧
      (s.rd dmcB Reg.DMC_PATROL_ENABLE = 1 → s.wideAt (dmcB + Reg.DMC_PATROL_POS) < s.usable →
        s.poisoned (s.wideAt (dmcB + Reg.DMC_PATROL_POS) / 64) = false → completes (.patrolRead .clean) s fun t =>
          let a := s.wideAt (dmcB + Reg.DMC_PATROL_POS)
          t.dram = s.dram ∧
          (a + 64 < s.usable → t.wideAt (dmcB + Reg.DMC_PATROL_POS) = a + 64) ∧
          (s.usable ≤ a + 64 → t.wideAt (dmcB + Reg.DMC_PATROL_POS) = 0 ∧ t.rd dmcB Reg.DMC_EVENT_PATROL_PASS = 1 ∧
            t.wideAt (dmcB + Reg.DMC_PATROL_PASSES) = (s.wideAt (dmcB + Reg.DMC_PATROL_PASSES) + 1) % 2 ^ 48)))

/-- Training (R376, R377), initialisation (R378) and re-centring (R379). -/
def Obligations.DramTraining : Prop :=
  ∀ (s : State) (c : Fin 16),
    (s.rd dmcB Reg.DMC_STATUS_STATE = 1 →
      (∀ m : BitVec 16, completes (.trainingDone (.fail m)) s fun t => t.rd dmcB Reg.DMC_STATUS_STATE = 5 ∧
        t.rd dmcB Reg.DMC_EVENT_TRAIN_FAIL = 1 ∧ (m.getLsbD c.val = true → t.rd (chB c.val) Reg.DMCCH_EVENT_TRAIN_FAIL = 1)) ∧
      (∀ (gib ranks rows : Nat) (rate : BitVec 16), rowsOfFit gib ranks = some rows → completes (.trainingDone (.ok gib ranks rate [])) s fun t =>
        t.rd dmcB Reg.DMC_STATUS_STATE = 2 ∧ t.dramx.rows = rows ∧ t.rd dmcB Reg.DMC_STATUS_RATE_MTS = rate.toNat % 2 ^ Reg.DMC_STATUS_RATE_MTS.w)) ∧
    (s.rd dmcB Reg.DMC_STATUS_STATE = 2 → s.pwr.wakeFrom ≠ 3 → s.pwr.waking ≠ 6 → completes .dramInitDone s fun t =>
      t.rd dmcB Reg.DMC_STATUS_STATE = 3 ∧ t.dram = [] ∧ t.rd (chB c.val) Reg.DMCCH_STATUS_RANK0 = 0) ∧
    (s.rd dmcB Reg.DMC_STATUS_STATE = 3 →
      (s.dramx.recentring = [] → completes .recentreDue s fun t => t.dramx.recentring = s.eyeList ∧ keepsRegs s t) ∧
      (s.dramx.recentring ≠ [] → completes .recentreDue s fun t => t.rd dmcB Reg.DMC_EVENT_RECENTRE_STARVED = 1 ∧
        keeps (· = dmcB + Reg.DMC_EVENT_RECENTRE_STARVED.off) s t) ∧
      (s.answers 0 = true → s.awaiting = false → s.dramx.recentring = [] → completes .recentreNow s fun t =>
        t.dramx.recentring = s.eyeList ∧ keepsRegs s t)) ∧
    (∀ (rank lane : Fin 2) (wr : Bool) (centre width : Fin 128), s.dramx.recentring.contains (c.val, rank.val, lane.val, wr) = true →
      (s.chan c.val).queue = [] → (s.chan c.val).held = [] → (s.chan c.val).idleSince + 1000 ≤ s.now → (s.chan c.val).pollDue = false →
      (∀ r ∈ s.ranks, s.owed c.val r + 1 < s.refreshLimit) → s.rankAsleep c.val rank.val = false →
      completes (.recentreProbe c rank lane wr centre width) s fun t =>
        let f := (eyeFlds (!wr) lane.val).1
        t.rd (chB c.val + 8 * rank.val) f = moveTap (s.rd (chB c.val + 8 * rank.val) f) centre.val % 2 ^ f.w ∧
        t.dramx.recentring.contains (c.val, rank.val, lane.val, wr) = false)

/-- A call that reaches its block, with no call in progress there. -/
def callReady (s : State) (c : FnId) : Prop :=
  s.answers (fnNum c) = true ∧ s.awaiting = false ∧ s.caller c = true ∧ s.rd (callBase c) Reg.CALL_STATUS_BUSY = 0

/-- How a call ends (R409). -/
def callEnds (c : FnId) (result : Nat) (t : State) : Prop :=
  t.rd (callBase c) Reg.CALL_STATUS_BUSY = 0 ∧ t.rd (callBase c) Reg.CALL_STATUS_DONE = 1 ∧ t.rd (callBase c) Reg.CALL_STATUS_RESULT = result

/-- The page calls (R401, R409, R410). -/
def Obligations.PageCallsChecked : Prop :=
  ∀ (s : State) (c : FnId) (i : Instr), i = .pageAssign c ∨ i = .pageRelease c ∨ i = .pageFlags c ∨ i = .pageQuery c →
    completes i s (fun t => t.pot = s.pot ∧ t.dram = s.dram ∧ ∀ p, t.entry p = s.entry p) ∧
    (callReady s c → s.rd secB Reg.SEC_STATE_STATE ≠ 1 → completes i s (callEnds c callUnavailable)) ∧
    (s.answers (fnNum c) = true → s.awaiting = false → s.caller c = true → s.rd (callBase c) Reg.CALL_STATUS_BUSY = 1 →
      completes i s fun t => t.rd (callBase c) Reg.CALL_STATUS_RESULT = callBusy ∧ t.rd (callBase c) Reg.CALL_STATUS_BUSY = 1 ∧
        keeps (· = callBase c + Reg.CALL_STATUS_RESULT.off) s t) ∧
    (callReady s c → s.rd secB Reg.SEC_STATE_STATE = 1 →
      let p := s.arg c 0 % 2 ^ 24
      (p * 4096 < s.usable → s.mayName c (ownerOf (s.entry p)) = true → completes (.pageQuery c) s fun t => callEnds c callOk t ∧
        t.rd (callBase c) Reg.CALL_RET_RET = s.shownEntry p % 2 ^ 32) ∧
      (8 ≤ s.arg c 3 → completes (.pageFlags c) s (callEnds c callBadArgs) ∧ completes (.pageAssign c) s (callEnds c callBadArgs)) ∧
      (s.pageArgs c = none → s.arg c 3 < 8 → (∀ k, k < s.arg c 1 → s.mayName c (ownerOf (s.entry (p + k))) = true) →
        completes (.pageFlags c) s fun t => t.rd (callBase c) Reg.CALL_STATUS_BUSY = 1 ∧
          (t.callX c).batch = (List.range (s.arg c 1)).map fun k => (p + k, ownerOf (s.entry (p + k)) + 1024 * s.arg c 3)))

/-- Batches (R401, R410) and releases (R402). -/
def Obligations.PageBatches : Prop :=
  ∀ (s : State) (c : FnId) (p : BitVec 24),
    (∀ k : Nat, (s.callX c).batch ≠ [] → s.rd (callBase c) Reg.CALL_STATUS_BUSY = 1 →
      firstIdx (s.callX c).batch.length (fun k => match (s.callX c).batch[k]? with | some e => !s.batchOk (s.callX c).service e | none => false) = some k →
      completes (.potBatchCommit c) s fun t => callEnds c callNotFree t ∧ t.pot = s.pot ∧ t.rd (callBase c) Reg.CALL_RET_RET = k % 2 ^ 32) ∧
    (∀ a e : Nat, (s.callX c).batch = [(a, e)] → (s.callX c).service = 1 → (s.callX c).pins = false →
      s.rd (callBase c) Reg.CALL_STATUS_BUSY = 1 → ownerOf (s.entry a) = 0 → completes (.potBatchCommit c) s fun t =>
        callEnds c callOk t ∧ t.page a = e ∧ ∀ b, b ≠ a → t.page b = s.page b) ∧
    (∀ r : Release, s.sec.releases.find? (fun r => decide (r.page = p.toNat)) = some r → s.pinned p.toNat = false →
      (r.scrub = false → completes (.pinRelease p) s fun t => t.page p.toNat = 0 ∧ t.dram = s.dram ∧ keepsRegs s t ∧
        ∀ b, b ≠ p.toNat → t.page b = s.page b) ∧
      (r.scrub = true → completes (.pageScrubDone p) s fun t => t.page p.toNat = 0 ∧
        t.dramBytes (p.toNat * 4096) 4096 = List.replicate 4096 0 ∧ keepsRegs s t ∧ ∀ b, b ≠ p.toNat → t.page b = s.page b)) ∧
    (s.pinned p.toNat = true → completes (.pinRelease p) s (fun t => keeps noRegs s t) ∧ completes (.pageScrubDone p) s (fun t => keeps noRegs s t))

/-- The secure world hangs, is released and boots again (R413 to R415). -/
def Obligations.SecureWorldFails : Prop :=
  ∀ (s : State) (c : FnId),
    let st := s.rd secB Reg.SEC_STATE_STATE
    let hung := fun (cause : Nat) (t : State) => t.rd secB Reg.SEC_STATE_STATE = 2 ∧ t.rd secB Reg.SEC_HANG_CAUSE_CAUSE = cause ∧
      t.rd secB Reg.SEC_EVENT_HUNG = 1 ∧ bitSet (t.rd snB Reg.SN_FAULT_FLAGS_FLAGS) srcSecureHang = true ∧ t.pot = s.pot
    completes .secureHeartbeat s (fun t => t.sec.heartbeat = s.now ∧ keepsRegs s t) ∧
    (st = 1 → completes .secureWatchdogExpire s (hung 1) ∧
      (s.rd (callBase c) Reg.CALL_STATUS_BUSY = 1 → completes (.secureCallTimeout c) s fun t => hung 2 t ∧ callEnds c callUnavailable t) ∧
      completes .secLockstepFail s (fun t => hung 3 t ∧ bitSet (t.rd snB Reg.SN_FAULT_FLAGS_FLAGS) srcSecLockstep = true)) ∧
    (st = 2 → s.secureRuns = false → completes .secureReleaseDone s fun t =>
      t.rd secB Reg.SEC_STATE_STATE = (if s.rd secB Reg.SEC_CTRL_AUTO_REBOOT = 1 then 4 else 3) ∧ t.rd secB Reg.SEC_EVENT_RELEASED = 1 ∧
      t.sec.windows = []) ∧
    (s.answers 0 = true → s.awaiting = false → completes .secureReboot s fun t =>
      t.rd secB Reg.SEC_STATE_STATE = (if st = 3 then 4 else st) ∧ keeps (· = secB + Reg.SEC_STATE_STATE.off) s t) ∧
    (st = 4 → completes (.secureBootDone true) s (fun t => t.rd secB Reg.SEC_STATE_STATE = 1 ∧ t.rd secB Reg.SEC_EVENT_RUNNING = 1 ∧
        t.sec.heartbeat = s.now) ∧
      completes (.secureBootDone false) s (fun t => t.rd secB Reg.SEC_STATE_STATE = 4 ∧
        bitSet (t.rd snB Reg.SN_FAULT_FLAGS_FLAGS) srcPotCorrupt = true))

/-- Debug access (R409, R417 to R419). -/
def Obligations.DebugAccess : Prop :=
  ∀ (s : State) (c : FnId), s.rd secB Reg.SEC_STATE_STATE = 1 →
    (callReady s c → c ≠ .mgr → completes (.debugUnlock c) s (fun t => callEnds c callNotPermitted t ∧ t.sec.certOpens = s.sec.certOpens) ∧
      completes (.debugRevoke c) s (fun t => callEnds c callNotPermitted t ∧ t.fuses = s.fuses)) ∧
    (callReady s .mgr → s.fuses.debugCounter < 63 →
      (s.rd picB Reg.PIC_STATE_INHIBIT = 1 → completes (.debugRevoke .mgr) s fun t => callEnds .mgr callInhibited t ∧ t.fuses = s.fuses) ∧
      (s.rd picB Reg.PIC_STATE_INHIBIT = 0 → completes (.debugRevoke .mgr) s fun t => callEnds .mgr callOk t ∧
        t.fuses.debugCounter = s.fuses.debugCounter + 1 ∧ t.rd secB Reg.SEC_STATE_DEBUG_SECURE = 0 ∧ t.rd secB Reg.SEC_STATE_DEBUG_NORMAL = 0)) ∧
    (∀ (b : List Byte) (r : Nat), callReady s .mgr → s.dramGet Who.mgr (s.arg .mgr 0 + 2 ^ 32 * s.arg .mgr 1) 160 = .ok b →
      s.certCheck b = some r → completes (.debugUnlock .mgr) s fun t => callEnds .mgr callCertRefused t ∧
        t.rd (callBase .mgr) Reg.CALL_RET_RET = r % 2 ^ 32 ∧ t.sec.certOpens = s.sec.certOpens) ∧
    (s.answers 0 = true → s.awaiting = false → completes .debugLock s fun t =>
      t.rd secB Reg.SEC_STATE_DEBUG_SECURE = 0 ∧ t.rd secB Reg.SEC_STATE_DEBUG_NORMAL = 0) ∧
    (s.sec.heldReqs ≠ [] → s.clockHeld = false → completes .heldRequestRelease s fun t => t.sec.heldReqs = [] ∧
      t.rd blwB Reg.BLW_STATUS_HELD_SECURE = 0)

/-- The clock of the audio graph (R422, R423), compilation (R436) and swap (R437), and node words (R451). -/
def Obligations.AudioClock : Prop :=
  ∀ (s : State) (ins : List (Nat × List Word)) (rb : List Word) (t : BitVec 64),
    (s.calRuns = true → completes (.sampleTick ins rb false) s (fun u => u = settle s ((s.graphTick ins).chimeWords (rb.map BitVec.toNat))) ∧
      completes (.sampleTick ins rb true) s (fun u => u.aud.out = s.aud.out ∧ u.rd calB Reg.CAL_EVENT_OVERLOAD = 1)) ∧
    (s.calRuns = true → s.holders = [] → completes (.periodBoundary t) s fun u =>
      u.wideAt (calB + Reg.CAL_PERIODS) = (s.wideAt (calB + Reg.CAL_PERIODS) + 1) % 2 ^ 48 ∧ u.now = max s.now t.toNat) ∧
    (∀ fits : Bool, s.rd calB Reg.CAL_STATUS_COMPILING = 1 → completes (.compiled fits t) s fun u =>
      u.rd calB Reg.CAL_STATUS_COMPILING = 0 ∧ u.rd calB Reg.CAL_STATUS_COMPILED = 1 ∧ u.aud.fits = fits ∧ u.aud.compiledAt = t.toNat) ∧
    (s.rd calB Reg.CAL_STATUS_STATE = 2 → completes .swapped s fun u => u.rd calB Reg.CAL_STATUS_STATE = 1 ∧
      u.rd calB Reg.CAL_EVENT_SWAPPED = 1 ∧ u.aud.xfadeNodes = []) ∧
    (∀ (n : Fin 512) (w : Fin 3) (v : Word) (r : NodeRec), s.answers 0 = true → s.awaiting = false → s.p.nodeRec n.val = some r →
      (s.mgrMayWrite r = false → s.rd calB Reg.ERR_ACCESS_ERR = 0 → completes (.nodeWordWrite n w v) s (errAt calB (wordOff n.val w.val) 6 s)) ∧
      (s.mgrMayWrite r = true → completes (.nodeWordWrite n w v) s fun u => u = settle s ((s.writeNode r w.val v.toNat).put calB Reg.CTRL_ARM 0) ∧
        u.rd calB Reg.CTRL_ARM = 0))

/-- The audio ring's commands (R439 to R443). -/
def Obligations.AudioCommands : Prop :=
  ∀ (s : State) (q : Fin 256) (d : Desc) (i : Fin 64),
    (s.nextOp q.val 4 1 = some d → completes (.play q) s fun t => t = settle s (s.queueBuf q.val d 6)) ∧
    (s.nextOp q.val 4 2 = some d → completes (.record q) s fun t => t = settle s (s.queueBuf q.val d 7)) ∧
    (s.nextOp q.val 4 3 = some d →
      (s.ownNode q.val (d.f 0x20 2) = none → completes (.control q) s fun t => t = settle s (s.finish q.val d.idx stNotPermitted 0x20)) ∧
      (∀ r : NodeRec, s.ownNode q.val (d.f 0x20 2) = some r → completes (.control q) s fun t =>
        t = settle s (((s.writeNode r (d.b 0x22) (d.f 0x24 4)).armFrame calB).modDesc q.val d.idx fun d => { d with phase := .armed }))) ∧
    (s.nextOp q.val 4 4 = some d →
      (s.ownNode q.val (d.f 0x20 2) = none → completes (.audioCoeff q) s fun t => t = settle s (s.finish q.val d.idx stNotPermitted 0x20)) ∧
      (∀ r : NodeRec, s.ownNode q.val (d.f 0x20 2) = some r →
        (r.coefLen = 0 → completes (.audioCoeff q) s fun t => t = settle s (s.coefIn q.val d.idx r [])) ∧
        (r.coefLen ≠ 0 → bitSet (d.b 0x22) 0 = false → completes (.audioCoeff q) s fun t =>
          t = settle s (s.modDesc q.val d.idx fun d => { d with phase := .running, got := [] })))) ∧
    (s.nextOp q.val 4 5 = some d → s.ringInst q.val = some i.val → (s.chimeNode i.val 0x1A).isSome = true →
      (d.b 0x20 = 0xFF → completes (.chime q) s fun t => t = settle s ((s.chimeStop i.val).finish q.val d.idx stOk 0)) ∧
      (d.b 0x20 ≠ 0xFF → s.audio.clips.length ≤ d.b 0x20 → completes (.chime q) s fun t => t = settle s (s.finish q.val d.idx stBad 0x20)) ∧
      (d.b 0x20 < s.audio.clips.length → d.b 0x20 ≠ 0xFF → completes (.chime q) s fun t =>
        t = settle s ((s.modDesc q.val d.idx fun d => { d with phase := .armed }).chimeTrigger i.val { clip := d.b 0x20, q := q.val, idx := d.idx }))) ∧
    (∀ c : ClipRun, (s.chimeOf i.val).playing = some c → (s.clip c.clip).loop ≠ 1 → (s.chimeOf i.val).starting = none →
      completes (.chimeClipEnd i) s fun t => (t.chimeOf i.val).playing = (s.chimeOf i.val).waiting ∧ (t.chimeOf i.val).waiting = none)

/-- Ports (R431) and jacks (R448, R449). -/
def Obligations.AudioJacks : Prop :=
  ∀ (s : State) (p : Fin 6) (j : Fin 2),
    (∀ r : PortRec, s.calPort p.val = 1 → s.audio.portRec p.val = some r → r.role = 1 → completes (.portClock p) s fun t =>
      t.calPort p.val = 2 ∧ t.rd calB Reg.CAL_EVENT_PORT_CLOCK = 1) ∧
    (s.calPort p.val = 2 → completes (.portClockReturn p) s fun t => t.calPort p.val = 1 ∧
      keeps (· = calB + 16 * p.val + Reg.CAL_PORT_STATUS_STATE.off) s t) ∧
    (s.parkedTo 5 = false → completes (.headsetInsert j) s fun t => t = settle s ((s.headsetIn j.val).wakeSource 8)) ∧
    (s.hsUsed j.val = true → s.rd (hsB j.val) Reg.CAL_HS_STATUS_PRESENT = 1 → ∀ (typ : Fin 4) (line : Bool),
      completes (.headsetClassified j typ line) s fun t => t.rd (hsB j.val) Reg.CAL_HS_STATUS_TYPE = typ.val ∧
        t.rd (hsB j.val) Reg.CAL_HS_STATUS_LINE = line.toNat ∧ t.rd (hsB j.val) Reg.CAL_HS_STATUS_PRESENT = 1) ∧
    completes (.headsetRemove j) s (fun t => t.rd (hsB j.val) Reg.CAL_HS_STATUS_PRESENT = 0 ∧ t.rd (hsB j.val) Reg.CAL_HS_STATUS_TYPE = 0 ∧
      t.rd (hsB j.val) Reg.CAL_HS_STATUS_LINE = 0 ∧ t.rd (hsB j.val) Reg.CAL_HS_STATUS_BUTTON = 0) ∧
    (∀ mv : BitVec 16, s.hsUsed j.val = true → s.hasMic j.val = true → completes (.buttonPress j mv) s fun t =>
      t.rd (hsB j.val) Reg.CAL_HS_STATUS_BUTTON = s.buttonOf j.val mv.toNat) ∧
    completes (.buttonRelease j) s (fun t => t.rd (hsB j.val) Reg.CAL_HS_STATUS_BUTTON = 0)

/-- Touch reports (R455, R456, R461, R464). -/
def Obligations.TouchReports : Prop :=
  ∀ (s : State) (t : Fin 8) (data : List Byte), s.touchOn t.val = true →
    let b := tchPB t.val
    let bad := fun (u : State) => u.wideAt (b + Reg.TCHP_BAD_REPORTS) = (s.wideAt (b + Reg.TCHP_BAD_REPORTS) + 1) % 2 ^ 48 ∧
      u.rd b Reg.TCHP_EVENT_BAD_REPORT = 1 ∧ u.rd b Reg.TCHP_EVENT_BUS_ERR = 1
    (s.parkedTo 7 = false → s.rd b Reg.TCHP_STATUS_STATE ≠ 2 → (((s.plan <|> s.boot.retained).getD {}).touchRec t.val).isSome = true →
      completes (.touchAttention t) s fun u =>
        u = settle s (((s.modTouch t.val fun x => { x with attn := s.now }).put b Reg.TCHP_STATUS_STATE 2).wakeSource 7)) ∧
    completes (.touchReport t data true) s bad ∧
    ((s.touchRec t.val).bus = 0 → s.rd b Reg.TCHP_STATUS_STATE = 2 → completes (.clockStretchTimeout t) s bad) ∧
    (s.partDue (touchPart t.val) = none → (s.touch t.val).failNext = 0 → reportGood (s.touchRec t.val) (s.touch t.val).seq data = true →
      completes (.touchReport t data false) s fun u => (u.touch t.val).badRun = 0 ∧ (u.touch t.val).lastGood = s.now ∧
        (u.touch t.val).seq = (reportSeq (s.touchRec t.val) data).map Prod.fst) ∧
    ((s.touch t.val).contacts ≠ [] → completes (.touchStale t) s fun u => u.rd b Reg.TCHP_EVENT_STALE = 1 ∧
      u.now = max s.now ((s.touch t.val).lastGood + 1000000 * (s.touchRec t.val).staleMs))

/-- HAP_TRIG and HAP_a_TRIGGER (R477, R482). -/
def Obligations.HapticTriggers : Prop :=
  ∀ (s : State) (i : Fin 64) (a : Fin 8) (v : Word),
    let c := bitsOf v.toNat 8 3
    let w := winBase i.val
    let b := hapChB a.val
    (s.answers (fnOfInst i.val) = true → (∀ r : HapRec, s.p.hapRec c = some r → r.owner ≠ i.val) → completes (.hapTrig i v) s fun t =>
      t.rd w Reg.HAP_TRIG_RESULT_RESULT = hapNotPermitted ∧ t.rd w Reg.HAP_TRIG_RESULT_CHANNEL = c ∧
      keeps (· = w + Reg.HAP_TRIG_RESULT_RESULT.off) s t) ∧
    (s.answers 0 = true → s.awaiting = false →
      (s.hapState a.val ≠ hapReadySt → s.hapState a.val ≠ hapDriving → s.hapState a.val ≠ hapBraking → completes (.hapTrigger a v) s fun t =>
        t.rd b Reg.HAPCH_TRIG_RESULT_RESULT = hapNotReady ∧ t.rd b Reg.HAPCH_TRIG_RESULT_CHANNEL = a.val ∧
        keeps (· = b + Reg.HAPCH_TRIG_RESULT_RESULT.off) s t) ∧
      (∀ r : SlotRec, s.hapState a.val = hapReadySt → s.hapOwnerReady a.val = true → s.p.slotRec (bitsOf v.toNat 0 7) = some r →
        completes (.hapTrigger a v) s fun t =>
          t.rd b Reg.HAPCH_TRIG_RESULT_RESULT = hapStarted ∧
          t.wideAt (b + Reg.HAPCH_EFFECTS) = (s.wideAt (b + Reg.HAPCH_EFFECTS) + 1) % 2 ^ 48 ∧
          (s.hapMuted a.val = false → t.rd b Reg.HAPCH_STATUS_SLOT = bitsOf v.toNat 0 7 ∧
            (t.hapState a.val = hapDriving ∨ t.hapState a.val = hapBraking))))

/-- A channel that has faulted with this cause (R480). -/
def hapFaults (a cause : Nat) (t : State) : Prop :=
  t.hapState a = hapFaulted ∧ t.rd (hapChB a) Reg.HAPCH_STATUS_CAUSE = cause ∧ t.rd (hapChB a) Reg.HAPCH_EVENT_FAULT = 1 ∧
  bitSet (t.rd snB Reg.SN_FAULT_FLAGS_FLAGS) srcHaptic = true

/-- Haptic channels in calibration, test and fault (R478 to R481). -/
def Obligations.HapticHealth : Prop :=
  ∀ (s : State) (a : Fin 8),
    let b := hapChB a.val
    let st := s.hapState a.val
    (s.answers 0 = true → s.awaiting = false →
      (st = hapReadySt → completes (.hapCalibrate a) s (fun t => t.hapState a.val = hapCalibrating) ∧
        completes (.hapTest a) s fun t => t.hapState a.val = hapTesting) ∧
      (st = hapFaulted → completes (.hapRecover a) s fun t => t.hapState a.val = hapRecovering ∧ t.rd b Reg.HAPCH_STATUS_RETRIES = 0) ∧
      (st ≠ hapDriving → st ≠ hapBraking → (s.hapOf a.val).waiting = none → completes (.hapStop a) s fun t => keeps noRegs s t) ∧
      (st = hapDriving → (s.hapOf a.val).waiting = none → completes (.hapStop a) s fun t => t = settle s (s.endEffect a.val))) ∧
    (∀ (f r : BitVec 16), st = hapCalibrating →
      (resistanceCause (s.hapRecOf a.val) r.toNat = 0 → completes (.calibrationDone a f r false) s (fun t =>
          t.rd b Reg.HAPCH_CAL_F_RES = f.toNat ∧ t.rd b Reg.HAPCH_CAL_R_DC = r.toNat ∧ t.rd b Reg.HAPCH_EVENT_CAL_DONE = 1) ∧
        completes (.calibrationDone a f r true) s (hapFaults a.val 4)) ∧
      (resistanceCause (s.hapRecOf a.val) r.toNat ≠ 0 → completes (.calibrationDone a f r false) s
        (hapFaults a.val (resistanceCause (s.hapRecOf a.val) r.toNat)))) ∧
    (st = hapTesting → completes (.testDone a true) s (fun t => t.rd b Reg.HAPCH_EVENT_TEST_DONE = 1) ∧
      completes (.testDone a false) s (hapFaults a.val 5)) ∧
    (∀ r : BitVec 16, st = hapReadySt → (s.hapOf a.val).injected = none →
      completes (.hapIdleProbe a r) s (fun t => if resistanceCause (s.hapRecOf a.val) r.toNat = 0 then keeps noRegs s t
        else hapFaults a.val (resistanceCause (s.hapRecOf a.val) r.toNat) t)) ∧
    (s.hapActive a.val = true → completes (.hapOvercurrent a) s (hapFaults a.val 2)) ∧
    (∀ mv ma : BitVec 16, st = hapDriving → (s.hapRecOf a.val).iMaxMa < ma.toInt.natAbs → completes (.senseSample a mv ma) s (hapFaults a.val 2)) ∧
    (∀ mv ma : BitVec 16, s.hapActive a.val = false → completes (.senseSample a mv ma) s fun t => keeps noRegs s t) ∧
    (∀ amp : BitVec 16, st = hapCalibrating → completes (.bemfZeroCrossing a amp) s fun t => (t.hapOf a.val).amp = amp.toNat ∧
      (t.hapOf a.val).half = (s.hapOf a.val).half + 1 ∧ keepsRegs s t) ∧
    (st = hapFaulted → s.rd b Reg.HAPCH_STATUS_RETRIES < 3 → completes (.hapRecoveryTimer a) s fun t => t.hapState a.val = hapRecovering)

/-- A full 32-bit write through a window. -/
def writes (w : Win) (off : Nat) (v : Word) : Instr := .registerWrite w off (natLE 4 v.toNat) [true, true, true, true] false

/-- R506: SN_REQ and SN_REQ_RESULT. -/
def Obligations.SafetyRequests : Prop :=
  (∀ i : Fin 64, State.reset.rd (winBase i.val) Reg.SN_REQ_RESULT_RESULT = 0) ∧
  ∀ (s : State) (i : Fin 64) (v : Word), s.answers (fnOfInst i.val) = true → s.awaiting = false →
    s.rd snB Reg.SN_STATUS_STOPPED ≤ 1 →
    let b := winBase i.val
    let quiet := fun (t : State) => keeps noRegs s t ∧ keepsWide noRegs s t
    (s.p.cls i.val = 1 →
      completes (writes (.vf i) 0x3300 1) s (fun t => t.rd snB Reg.SN_STATUS_STOPPED = 1 ∧ t.rd b Reg.SN_REQ_RESULT_RESULT = 1) ∧
      completes (writes (.vf i) 0x3300 2) s (fun t =>
        (s.rd snB Reg.SN_PERSIST_PERSIST = 0 → t.rd snB Reg.SN_STATUS_STOPPED = 0 ∧ t.rd b Reg.SN_REQ_RESULT_RESULT = 1) ∧
        (s.rd snB Reg.SN_PERSIST_PERSIST ≠ 0 → t.rd snB Reg.SN_STATUS_STOPPED = s.rd snB Reg.SN_STATUS_STOPPED ∧
          t.rd b Reg.SN_REQ_RESULT_RESULT = 2)) ∧
      (v ≠ 1 → v ≠ 2 → completes (writes (.vf i) 0x3300 v) s quiet) ∧
      (s.rd (instBase i.val) Reg.ERR_ACCESS_ERR = 0 →
        completes (.registerWrite (.vf i) 0x3300 [0x01] [true] false) s fun t => t.rd (instBase i.val) Reg.ERR_ACCESS_KIND = 2 ∧
          t.rd b Reg.SN_REQ_RESULT_RESULT = s.rd b Reg.SN_REQ_RESULT_RESULT ∧ t.rd snB Reg.SN_STATUS_STOPPED = s.rd snB Reg.SN_STATUS_STOPPED) ∧
      completes (writes (.vf i) 0x3304 v) s quiet) ∧
    (s.p.cls i.val ≠ 1 → completes (writes (.vf i) 0x3300 v) s quiet ∧ completes (writes (.vf i) 0x3304 v) s quiet) ∧
    (s.answers 1 = true → completes (writes .sub 0x3300 v) s quiet ∧ completes (writes .sub 0x3304 v) s quiet)

/-- Stops (R505) and releases (R507). -/
def Obligations.StopsAndReleases : Prop :=
  ∀ (s : State) (i : Fin 64),
    let stopped := fun (t : State) => t.rd snB Reg.SN_STATUS_STOPPED
    let free := fun (t : State) => stopped t = 0 ∧ t.rd snB Reg.SN_EVENT_RELEASED = 1 ∧
      (∀ u : Fin 64, t.rd (cvuB u.val) Reg.CVU_STATUS_RUN = 0) ∧ t.rd snB Reg.SN_FAULT_FLAGS_FLAGS = s.rd snB Reg.SN_FAULT_FLAGS_FLAGS
    let refused := fun (t : State) => stopped t = stopped s ∧ t.rd snB Reg.SN_EVENT_RELEASE_REFUSED = 1 ∧
      t.rd snB Reg.SN_FAULT_FLAGS_FLAGS = s.rd snB Reg.SN_FAULT_FLAGS_FLAGS
    (s.answers 0 = true → s.awaiting = false →
      completes .snStop s (fun t => stopped t = 1) ∧
      (stopped s = 0 → completes .snStop s fun t => t.wideAt (snB + Reg.SN_STOPS) = (s.wideAt (snB + Reg.SN_STOPS) + 1) % 2 ^ 48 ∧
        t.rd snB Reg.SN_EVENT_STOPPED = 1) ∧
      (s.rd snB Reg.SN_PERSIST_PERSIST = 0 → stopped s = 1 → completes .snRelease s free) ∧
      (s.rd snB Reg.SN_PERSIST_PERSIST ≠ 0 → completes .snRelease s refused)) ∧
    (s.answers (fnOfInst i.val) = true → s.p.cls i.val = 1 →
      completes (.snReqStop i) s (fun t => stopped t = 1 ∧ t.rd (winBase i.val) Reg.SN_REQ_RESULT_RESULT = 1) ∧
      (s.rd snB Reg.SN_PERSIST_PERSIST = 0 → stopped s = 1 → completes (.snReqRelease i) s fun t => free t ∧
        t.rd (winBase i.val) Reg.SN_REQ_RESULT_RESULT = 1) ∧
      (s.rd snB Reg.SN_PERSIST_PERSIST ≠ 0 → completes (.snReqRelease i) s fun t => refused t ∧
        t.rd (winBase i.val) Reg.SN_REQ_RESULT_RESULT = 2))

/-- The record of one fault (R503): its flag, the counters and the event. -/
def faulted (src : Nat) (s t : State) : Prop :=
  bitSet (t.rd snB Reg.SN_FAULT_FLAGS_FLAGS) src = true ∧ t.rd snB Reg.SN_EVENT_FAULT = 1 ∧
  t.wideAt (snB + Reg.SN_FAULTS) = (s.wideAt (snB + Reg.SN_FAULTS) + 1) % 2 ^ 48 ∧
  (persistent src = true → bitSet (t.rd snB Reg.SN_PERSIST_PERSIST) src = true)

/-- Faults (R489, R502, R503) and injection (R508). -/
def Obligations.FaultsRecorded : Prop :=
  ∀ (s : State) (n : Byte) (g : Fin 7),
    completes (.clockMonitorTrip n) s (faulted srcClock s) ∧ completes (.voltageMonitorTrip n) s (faulted srcVoltage s) ∧
    completes .faultPinMismatch s (faulted srcFaultPin s) ∧ completes .aonWatchdogExpire s (faulted srcAonWatchdog s) ∧
    completes .rmLockstepFail s (fun t => faulted srcRmLockstep s t ∧ t.boot.rmDown = true) ∧
    (s.boot.rmDown = true → s.boot.staged = [] → completes .ringmasterRestart s fun t => t.boot.rmDown = false ∧
      t.sn.persist = s.sn.persist.filter (fun e => decide (e ≠ (srcRmLockstep, 0xFFFF)))) ∧
    (s.sn.armed = [] →
      completes (.sramScrub n 2) s (faulted srcSramUe s) ∧ completes (.sramScrub n 1) s (fun t => keeps noRegs s t) ∧
      completes (.configComparePass (some g)) s (faulted srcConfig s) ∧ completes (.configComparePass none) s fun t => keeps noRegs s t) ∧
    (∀ i : BitVec 16, completes (.persistConditionEnd 0x07 i) s fun t =>
      t.sn.persist = s.sn.persist.filter (fun e => decide (e ≠ (srcClock, i.toNat)))) ∧
    (∀ v : Word, s.answers 0 = true → s.awaiting = false → s.rd snB Reg.SN_FAULT_FLAGS_FLAGS < 2 ^ 27 → s.rd snB Reg.SN_PERSIST_PERSIST < 2 ^ 27 →
      (completes (.faultFlagsClear v) s fun t => ∀ k, k < 27 → bitSet (t.rd snB Reg.SN_FAULT_FLAGS_FLAGS) k =
        ((bitSet (s.rd snB Reg.SN_FAULT_FLAGS_FLAGS) k && !v.getLsbD k) || bitSet (s.rd snB Reg.SN_PERSIST_PERSIST) k)) ∧
      (injectable.contains (bitsOf v.toNat 0 5) = true → bitSet v.toNat 31 = true → completes (.snInject v) s fun t =>
        t.wideAt (snB + Reg.SN_INJECTIONS) = (s.wideAt (snB + Reg.SN_INJECTIONS) + 1) % 2 ^ 48 ∧
        t.rd snB Reg.SN_INJECT_SOURCE = bitsOf v.toNat 0 5) ∧
      (injectable.contains (bitsOf v.toNat 0 5) = false → s.rd snB Reg.ERR_ACCESS_ERR = 0 → bitSet v.toNat 31 = false →
        completes (.snInject v) s fun t => t.rd snB Reg.ERR_ACCESS_ERR = 1 ∧ t.rd snB Reg.ERR_ACCESS_KIND = 5))

/-- Check units (R491, R492, R496, R498, R500). -/
def Obligations.CheckUnits : Prop :=
  ∀ (s : State) (u : Fin 64) (h : BitVec 8) (seq t : BitVec 64),
    let b := cvuB u.val
    let r := s.cvuOf u.val
    ((s.unit u.val).running = true → completes (.cvuIntervalEnd u h seq true) s fun v =>
      v.wideAt (b + Reg.CVU_LAST) = crcEnd r.width (bitSet r.flags 1) r.xorout (s.unit u.val).v + 2 ^ 64 * seq.toNat ∧
      v.rd b Reg.CVU_EVENT_DONE = 1 ∧ (v.unit u.val).running = false) ∧
    (∀ e : Expect, (s.unit u.val).running = true → s.expectMode u.val = true → (s.unit u.val).expects = [e] → e.frame = seq.toNat →
      (s.unit u.val).invert = none → (s.unit u.val).disagree = none →
      let v := crcEnd r.width (bitSet r.flags 1) r.xorout (s.unit u.val).v
      (v = e.value % 2 ^ r.width → completes (.cvuIntervalEnd u h seq true) s fun t => t.rd b Reg.CVU_STATUS_LAST_MATCH = 1 ∧
        t.rd b Reg.CVU_STATUS_RUN = 0 ∧ t.wideAt (b + Reg.CVU_MISMATCHES) = s.wideAt (b + Reg.CVU_MISMATCHES)) ∧
      (v ≠ e.value % 2 ^ r.width → completes (.cvuIntervalEnd u h seq true) s fun t => t.rd b Reg.CVU_STATUS_LAST_MATCH = 0 ∧
        t.rd b Reg.CVU_EVENT_MISMATCH = 1 ∧ t.wideAt (b + Reg.CVU_MISMATCHES) = (s.wideAt (b + Reg.CVU_MISMATCHES) + 1) % 2 ^ 48 ∧
        bitSet (t.rd snB Reg.SN_FAULT_FLAGS_FLAGS) srcMismatch = true)) ∧
    ((s.unit u.val).running = false → completes (.cvuIntervalEnd u h seq true) s fun v => keeps noRegs s v ∧ keepsWide noRegs s v) ∧
    (∀ k : Nat, s.unitHead u.val = some k → s.unitState u.val = cvuActive → s.expectMode u.val = true →
      (s.unit u.val).lastAt + (s.rd (headBase k) Reg.HEAD_PERIOD_NS + 1000000) ≤ t.toNat → completes (.cvuMissingTimeout u t) s fun v =>
        v.rd b Reg.CVU_EVENT_MISSING = 1 ∧ bitSet (v.rd snB Reg.SN_FAULT_FLAGS_FLAGS) srcMissing = true ∧ (v.unit u.val).lastAt = t.toNat)

/-- A request for `target` is being negotiated, the first block asked next. -/
def negotiating (target : Nat) (t : State) : Prop :=
  t.rd picB Reg.PIC_STATE_ENTRY = 1 ∧ t.pwr.target = some target ∧ t.pwr.parked = 0

/-- The wake of R524 has started from the state in force, with its cause. -/
def wakeStarted (src from_ : Nat) (t : State) : Prop :=
  t.pwr.waking = 2 ∧ t.pwr.wakeFrom = from_ ∧ t.rd picB Reg.PIC_STATE_WAKE_CAUSE = src ∧ t.pwr.heldWake = 0

/-- A refusal of the negotiation (R527). -/
def sleepRefused (block reason : Nat) (s t : State) : Prop :=
  t.rd picB Reg.PIC_STATE_ENTRY = 3 ∧ t.rd picB Reg.PIC_REFUSAL_BLOCK = block ∧ t.rd picB Reg.PIC_REFUSAL_REASON = reason ∧
  t.rd picB Reg.PIC_REFUSAL_IN_A_ROW = min (s.pwr.inARow + 1) 65535 ∧ t.rd picB Reg.PIC_EVENT_SLEEP_REFUSED = 1 ∧
  t.wideAt (picB + Reg.PIC_REFUSALS) = (s.wideAt (picB + Reg.PIC_REFUSALS) + 1) % 2 ^ 48 ∧ t.pwr.parked = 0 ∧
  t.pwr.retryAt = s.now + min 1000 (10 * 2 ^ (min (s.pwr.inARow + 1) 65535 - 1)) * 1000000

/-- Sleep requests (R517, R519), negotiation (R526, R527), entry (R528, R529) and wake sources (R523, R525). -/
def Obligations.SleepRequests : Prop :=
  ∀ (s : State) (n : Fin 4),
    let free := s.powerReady = true ∧ s.entryPhase = 0 ∧ s.pwr.waking = 0
    (s.answers 0 = true →
      (s.powerState = 0 → s.powerReady = true → completes .reqDoze s fun t =>
        t.rd picB Reg.PIC_STATE_STATE = 1 ∧ t.rd picB Reg.PIC_EVENT_DOZE = 1) ∧
      (free → s.powerState ≤ 1 → completes .reqStandby s (negotiating 2)) ∧
      (free → s.powerState ≤ 1 → completes .reqDeep s (negotiating 3)) ∧
      ((s.entryPhase = 1 ∨ s.entryPhase = 3) → completes .cancel s fun t =>
        t.rd picB Reg.PIC_STATE_ENTRY = 0 ∧ t.pwr.target = none ∧ t.pwr.parked = 0 ∧ t.pwr.inARow = 0) ∧
      (free → s.powerState = 1 → completes .wake s fun t => t.rd picB Reg.PIC_STATE_STATE = 0 ∧
        t.rd picB Reg.PIC_STATE_WAKE_CAUSE = 11 ∧ t.rd picB Reg.PIC_EVENT_WAKE = 1 ∧
        t.wideAt (picB + Reg.PIC_WAKES) = (s.wideAt (picB + Reg.PIC_WAKES) + 1) % 2 ^ 48)) ∧
    (s.powerState = 0 → s.powerReady = true → s.powerRec.dozeMs ≠ 0 → (∀ h : Fin 8, s.link h.val ≠ linkActive ∧ s.link h.val ≠ linkSelfRefresh) →
      (∀ c : Fin 4, s.capState c.val ≠ capRunning) → completes .dozeIdleTimeout s fun t => t.rd picB Reg.PIC_STATE_STATE = 1) ∧
    (free → s.powerState ≤ 1 → s.rd picB Reg.PIC_CFG_AUTO_STANDBY = 1 → s.portList.all s.portAway = true →
      completes .autoStandbyTimeout s (negotiating 2)) ∧
    (free → s.powerState = 2 → s.rd picB Reg.PIC_CFG_DEEP_S ≠ 0 → completes .deepSTimeout s fun t => negotiating 3 t ∧
      s.pwr.since + s.rd picB Reg.PIC_CFG_DEEP_S * 1000000000 ≤ t.now) ∧
    (s.entryPhase = 1 →
      (s.pwr.parked = 1 → s.rmBusy = true → completes (.sleepBlockAnswer false) s (sleepRefused 2 2 s)) ∧
      (s.pwr.parked = 1 → s.rmBusy = false → completes (.sleepBlockAnswer false) s fun t =>
        t.pwr.parked = 2 ∧ t.rd picB Reg.PIC_STATE_ENTRY = 1) ∧
      (s.pwr.parked = 9 → completes (.sleepBlockAnswer false) s fun t => t.pwr.parked = 10 ∧ t.rd picB Reg.PIC_STATE_ENTRY = 2) ∧
      (s.pwr.parked < 7 → completes .sleepAnswerTimeout s (sleepRefused (s.pwr.parked + 1) 0x0F s))) ∧
    (s.entryPhase = 3 → completes .sleepRetry s fun t => t.rd picB Reg.PIC_STATE_ENTRY = 1 ∧ t.pwr.parked = 0 ∧ s.pwr.retryAt ≤ t.now ∧
      t.pwr.target = s.pwr.target) ∧
    (∀ g : Nat, s.entryPhase = 2 → s.pwr.target = some g → (g = 2 ∨ g = 3) → completes .sleepEntryDone s fun t =>
      t.rd picB Reg.PIC_STATE_STATE = g ∧ t.rd picB Reg.PIC_STATE_ENTRY = 0 ∧ t.pwr.enables = enablesOf g ∧ t.pwr.target = none ∧
      t.pwr.parked = 0 ∧ (∀ w : Fin 15, w.val ≠ 0 → s.pwr.heldWake = w.val → wakeStarted w.val g t)) ∧
    ((s.powerState = 2 ∨ s.powerState = 3) → free → s.pwr.off = false →
      (s.wakeEnabled (n.val + 1) = true → completes (.wakeInAssert n) s (wakeStarted (n.val + 1) s.powerState)) ∧
      (s.wakeEnabled 5 = true → completes .pcieWakeInAssert s (wakeStarted 5 s.powerState)) ∧
      (s.rd picB Reg.PIC_ALARM_MS ≠ 0 → completes .picAlarmExpire s fun t => wakeStarted 9 s.powerState t ∧
        t.rd picB Reg.PIC_ALARM_MS = 0 ∧ t.now = (s.now / 1000000 + s.rd picB Reg.PIC_ALARM_MS) * 1000000)) ∧
    (s.wakeEnabled (n.val + 1) = false → completes (.wakeInAssert n) s fun t => keeps noRegs s t ∧ keepsWide noRegs s t) ∧
    (s.wakeEnabled 5 = false → completes .pcieWakeInAssert s fun t => keeps noRegs s t ∧ keepsWide noRegs s t)

/-- Wake steps (R515, R521, R524) and failures (R530 to R533). -/
def Obligations.WakeSteps : Prop :=
  ∀ (s : State) (n : Fin 6) (restoreOk : Bool),
    let raising := fun (x : PwrX) (t : State) => ∀ m : Nat, x.nextRail = some m → t.pwr.enables = setBit x.enables m true ∧ t.pwr.sequencing = true
    let up := { s.pwr with pgood := setBit s.pwr.pgood n.val true }
    (s.pwr.waking = 2 → completes .oscillatorStable s fun t => raising s.pwr t ∧ t.time.osc38 = true ∧
      t.pwr.waking = if s.pwr.nextRail = none then 4 else 3) ∧
    (s.pwr.waking = 2 → s.pwr.oscTries = 0 → completes .oscillatorTimeout s fun t =>
      t.pwr.oscTries = 1 ∧ t.pwr.waking = 2 ∧ t.rd picB Reg.PIC_EVENT_WAKE_RETRY = 1) ∧
    (s.pwr.waking = 2 → s.pwr.oscTries ≠ 0 → completes .oscillatorTimeout s fun t => raising s.pwr t ∧
      (s.pwr.nextRail ≠ none → t.pwr.waking = 8 ∧ t.rd picB Reg.PIC_FAIL_STEP = 2) ∧
      (s.pwr.nextRail = none → t.rd picB Reg.PIC_STATE_STATE = 4 ∧ t.rd devB Reg.DEV_BOOT_STATUS_STATE = bootLimp)) ∧
    (s.pwr.sequencing = false → completes (.pgoodRise n) s fun t => keepsRegs s t ∧ t.pwr = up) ∧
    (s.pwr.sequencing = true → completes (.pgoodRise n) s fun t => raising up t ∧
      (up.nextRail = none → s.pwr.waking = 3 → t.pwr.waking = 4 ∧ t.pwr.sequencing = false)) ∧
    (s.pwr.sequencing = true → bitSet s.pwr.enables n.val = true → bitSet s.pwr.pgood n.val = false →
      (s.pwr.railTries < 3 → completes (.pgoodTimeout n) s fun t => t.pwr.railWait = true ∧ t.pwr.sequencing = false ∧
        t.pwr.enables = enablesOf s.pwr.wakeFrom ∧ keepsRegs s t) ∧
      (3 ≤ s.pwr.railTries → completes (.pgoodTimeout n) s fun t => t.pwr.waking = 0 ∧ t.pwr.sequencing = false ∧
        t.pwr.enables = enablesOf s.pwr.wakeFrom ∧ t.rd picB Reg.PIC_FAIL_STEP = 3 ∧ t.rd picB Reg.PIC_FAIL_RAIL = n.val ∧
        t.rd picB Reg.PIC_FAIL_ATTEMPTS = 3 ∧ t.rd picB Reg.PIC_STATE_STATE = s.powerState ∧ t.faultLow = true)) ∧
    (s.pwr.railWait = true → completes .railRetry s fun t => raising s.pwr t ∧
      (s.pwr.nextRail ≠ none → t.rd picB Reg.PIC_EVENT_WAKE_RETRY = 1 ∧ t.pwr.railTries = s.pwr.railTries + 1)) ∧
    (s.pwr.waking = 8 → completes .refclkTimeout s fun t => t.pwr.waking = 0 ∧ t.pwr.enables = enablesOf s.pwr.wakeFrom ∧
      t.rd picB Reg.PIC_STATE_STATE = s.powerState ∧ t.faultLow = true) ∧
    (bitSet s.pwr.enables n.val = true → bitSet s.pwr.pgood n.val = true → completes (.pgoodFall n) s fun t =>
      t.rd picB Reg.PIC_STATE_STATE = 3 ∧ t.rd picB Reg.PIC_STATE_ENTRY = 0 ∧ t.pwr.enables = (if n.val = 3 then 0 else 0x08) ∧
      t.pwr.waking = 0 ∧ t.pwr.target = none ∧ t.faultLow = true ∧ (n.val = 3 → t.dram = [])) ∧
    (s.pwr.waking = 4 →
      (s.pwr.wakeFrom = 2 → completes (.wakeCoreReady true restoreOk) s fun t => t.rd picB Reg.PIC_STATE_STATE = 0 ∧ t.pwr.waking = 0 ∧
        t.rd picB Reg.PIC_EVENT_WAKE = 1 ∧ t.wideAt (picB + Reg.PIC_WAKES) = (s.wideAt (picB + Reg.PIC_WAKES) + 1) % 2 ^ 48) ∧
      (s.pwr.wakeFrom = 3 → s.boot.retained.isSome = true → completes (.wakeCoreReady true restoreOk) s fun t =>
        t.rd secB Reg.SEC_STATE_STATE = 4 ∧ t.rd dmcB Reg.DMC_STATUS_STATE = (if restoreOk then 2 else 1) ∧
        t.pwr.waking = if restoreOk then 6 else 5) ∧
      (s.pwr.wakeFrom = 3 → completes (.wakeCoreReady false restoreOk) s fun t => t.rd devB Reg.DEV_BOOT_STATUS_STEP = 2 ∧
        t.pwr.waking = 0 ∧ t.wideAt (devB + Reg.DEV_COLD_STARTS) = (s.wideAt (devB + Reg.DEV_COLD_STARTS) + 1) % 2 ^ 48))

/-- The Bellows is bypassed (R540). -/
def bypassed (s t : State) : Prop :=
  t.rd blwB Reg.BLW_STATUS_POINT = 0 ∧ t.rd blwB Reg.BLW_STATUS_BOOST = 0 ∧ t.rd blwB Reg.BLW_STATUS_SAFE = 1 ∧ t.rd blwB Reg.BLW_EVENT_BYPASS = 1 ∧
  t.wideAt (blwB + Reg.BLW_BYPASSES) = (s.wideAt (blwB + Reg.BLW_BYPASSES) + 1) % 2 ^ 48

/-- The write inhibit is in force, with its event (R542). -/
def inhibitBegun (t : State) : Prop :=
  t.rd picB Reg.PIC_STATE_INHIBIT = 1 ∧ t.rd logB Reg.LOG_STATUS_INHIBITED = 1 ∧ t.rd picB Reg.PIC_EVENT_INHIBIT = 1 ∧ t.pwr.inhibitEnding = false

/-- The write inhibit (R542), the always-on supply (R131, R516, R550), the bypass (R540) and the re-plan (R544, R547). -/
def Obligations.InhibitAndBellows : Prop :=
  ∀ (s : State) (k : Fin 32) (d e : BitVec 10),
    (s.pwr.off = false → s.inhibited = false →
      (s.pwr.warn = false → completes .pwrWarnAssert s fun t => inhibitBegun t ∧ t.pwr.warn = true ∧ (s.powerState ≤ 1 → bypassed s t)) ∧
      (s.pwr.aonLow = false → completes .vddAonInhibitFall s fun t => inhibitBegun t ∧ t.pwr.aonLow = true)) ∧
    (s.inhibited = true → s.pwr.aonLow = false → completes .pwrWarnRelease s fun t =>
      t.pwr.warn = false ∧ t.pwr.inhibitEnding = true ∧ t.rd picB Reg.PIC_STATE_INHIBIT = 1) ∧
    (s.inhibited = true → s.pwr.warn = false → completes .vddAonInhibitRise s fun t =>
      t.pwr.aonLow = false ∧ t.pwr.inhibitEnding = true ∧ t.rd picB Reg.PIC_STATE_INHIBIT = 1) ∧
    (s.pwr.inhibitEnding = true → completes .writeInhibitEnd s fun t =>
      t.rd picB Reg.PIC_STATE_INHIBIT = 0 ∧ t.rd logB Reg.LOG_STATUS_INHIBITED = 0 ∧ t.pwr.inhibitEnding = false) ∧
    (s.pwr.inhibitEnding = false → completes .writeInhibitEnd s fun t => keeps noRegs s t ∧ keepsWide noRegs s t) ∧
    completes .vddAonResetFall s (fun t => t.pwr.off = true ∧ t.pwr.waking = 0 ∧ t.plan = none) ∧
    completes .vddAonRise s (fun t => t.pwr.off = false ∧ t.now = 0 ∧ t.plan = none ∧ t.flash = (s.logCut).flash) ∧
    (s.answers 0 = true → completes .devReset s fun t => t.rd picB Reg.PIC_STATE_STATE = 0 ∧ t.rd picB Reg.PIC_STATE_ENTRY = 0 ∧
      t.rd devB Reg.DEV_BOOT_STATUS_STEP = 2 ∧ t.plan = none ∧
      t.wideAt (devB + Reg.DEV_COLD_STARTS) = (s.wideAt (devB + Reg.DEV_COLD_STARTS) + 1) % 2 ^ 48) ∧
    completes (.sensorTrip k) s (fun t => faulted srcTemp s t ∧ bypassed s t ∧ k.val ∈ t.pwr.trips) ∧
    completes .capOvershoot s (bypassed s) ∧
    (s.powerState ≤ 1 → completes .xtal32kStop s fun t => t.rd picB Reg.PIC_STATE_RC_32K = 1) ∧
    (1 < s.powerState → completes .xtal32kStop s fun t => t.pwr.rc32k = true) ∧
    (s.answers 0 = true → s.awaiting = false → completes .replan s fun t => t.pwr.replanning = true ∧ keepsRegs s t) ∧
    (s.pwr.planMs + 86400000 ≤ s.pwr.poweredMs → s.entryPhase ≠ 1 → completes .replanDue s fun t =>
      t.pwr.replanning = true ∧ keepsRegs s t) ∧
    (s.pwr.poweredMs < s.pwr.planMs + 86400000 → completes .replanDue s fun t => keeps noRegs s t ∧ keepsWide noRegs s t) ∧
    (s.pwr.replanning = true → completes (.replanDone d e) s fun t =>
      t.rd blwB Reg.BLW_AGE_D_GFX = d.toNat ∧ t.rd blwB Reg.BLW_AGE_D_CORE = e.toNat ∧ t.pwr.replanning = false ∧
      t.pwr.planMs = s.pwr.poweredMs ∧ t.rd blwB Reg.BLW_EVENT_REPLAN_DONE = 1 ∧
      t.pwr.gGfx = max (s.rd blwB Reg.BLW_VOLT_G_GFX) (max s.pwr.gGfx (guardband s.fuses.gfxSens d.toNat)) ∧
      t.pwr.gCore = max (s.rd blwB Reg.BLW_VOLT_G_CORE) (max s.pwr.gCore (guardband s.fuses.coreSens e.toNat))) ∧
    (s.pwr.replanning = false → completes (.replanDone d e) s fun t => keeps noRegs s t ∧ keepsWide noRegs s t)

/-- The boot stopped in device state `st` at `step` with the first failure recorded (R556). -/
def bootStopped (st step reason : Nat) (s t : State) : Prop :=
  t.rd devB Reg.DEV_BOOT_STATUS_STATE = st ∧ bitSet (t.rd snB Reg.SN_FAULT_FLAGS_FLAGS) srcBoot = true ∧
  (s.rd devB Reg.DEV_BOOT_FAIL_STEP = 0 → t.rd devB Reg.DEV_BOOT_FAIL_STEP = step ∧ t.rd devB Reg.DEV_BOOT_FAIL_REASON = reason)

/-- The steps of R550 and their failures (R556). -/
def Obligations.BootSteps : Prop :=
  ∀ (s : State) (k : Byte) (n : Fin 16), s.booting = true →
    let runs := fun (src : Nat) (t : State) => t.rd devB Reg.DEV_BOOT_STATUS_STEP = 7 ∧ t.rd devB Reg.DEV_BOOT_STATUS_STATE = 0 ∧
      t.rd devB Reg.DEV_BOOT_STATUS_FW_SOURCE = src ∧ t.rd secB Reg.SEC_STATE_STATE = 1 ∧ t.pwr.replanning = true
    (s.bootStep = 1 → completes (.bootStepDone .ok) s fun t => t.rd devB Reg.DEV_BOOT_STATUS_STEP = 2 ∧ t.pwr.oscTries = 0 ∧
      t.wideAt (devB + Reg.DEV_COLD_STARTS) = (s.wideAt (devB + Reg.DEV_COLD_STARTS) + 1) % 2 ^ 48) ∧
    (s.bootStep = 4 → completes (.bootStepDone .ok) s (fun t => t.rd devB Reg.DEV_BOOT_STATUS_STEP = 5 ∧ t.rd dmcB Reg.DMC_STATUS_STATE = 1) ∧
      completes (.bootStepDone .pllUnlocked) s (fun t => bootStopped bootLimp 4 1 s t ∧ t.rd picB Reg.PIC_STATE_STATE = 4) ∧
      completes (.bootStepDone .fuseCheck) s (bootStopped bootFailed 4 3 s)) ∧
    (s.bootStep = 6 →
      (s.copyReason fwSlots.front = 0 → completes (.bootStepDone .ok) s (runs 1)) ∧
      (s.copyReason fwSlots.front ≠ 0 → s.copyReason fwSlots.back = 0 → completes (.bootStepDone .ok) s (runs 2)) ∧
      (s.copyReason fwSlots.front ≠ 0 → s.copyReason fwSlots.back ≠ 0 → completes (.bootStepDone .ok) s
        (bootStopped bootAwaitingFw 6 (s.copyReason fwSlots.front % 256) s))) ∧
    (s.bootStep = 7 →
      (s.pwr.replanning = false → completes (.bootStepDone .ok) s fun t => t.rd devB Reg.DEV_BOOT_STATUS_STEP = 8 ∧ t.sn.hold = false) ∧
      completes (.bootStepDone (.testFailed k)) s (fun t => bootStopped bootFailed 7 3 s t ∧
        (s.rd devB Reg.DEV_BOOT_FAIL_STEP = 0 → t.rd devB Reg.DEV_BOOT_FAIL_DETAIL = k.toNat)) ∧
      completes (.bootStepDone (.coreFailed n)) s (fun t => faulted srcShader s t ∧ t.rd (coreB n.val) Reg.GFX_CORE_STATUS_TEST_FAILED = 1 ∧
        (t.engine (n.val / 4)).outOfService = true ∧ t.rd devB Reg.DEV_BOOT_STATUS_STEP = 7)) ∧
    (s.bootStep = 8 →
      ((s.slotVerdict rplSlots.front).reason = 0 → completes (.bootStepDone .ok) s fun t =>
        t.rd rplB Reg.RPL_SLOT_STATUS_A_REASON = 0 ∧ t.rd devB Reg.DEV_BOOT_STATUS_STATE = bootDone) ∧
      ((s.slotVerdict rplSlots.front).reason ≠ 0 →
        let a := s.slotVerdict rplSlots.front
        let v := (s.put rplB Reg.RPL_SLOT_STATUS_A_REASON a.reason).put rplB Reg.RPL_SLOT_STATUS_A_SUBCODE a.sub
        (v.slotVerdict rplSlots.back).reason ≠ 0 → completes (.bootStepDone .ok) s fun t =>
          bootStopped bootAwaitingStructure 8 (a.reason % 256) s t ∧ t.rd rplB Reg.RPL_SLOT_STATUS_A_REASON = a.reason % 256 ∧
          t.rd rplB Reg.RPL_SLOT_STATUS_B_REASON = (v.slotVerdict rplSlots.back).reason % 256)) ∧
    (s.bootStep ≠ 7 → completes (.bootStepDone (.coreFailed n)) s fun t => keeps noRegs s t ∧ keepsWide noRegs s t)

/-- A Ringplan operation ended with the reason. -/
def rplEnds (reason : Nat) (t : State) : Prop :=
  t.rd rplB Reg.RPL_RESULT_REASON = reason ∧ t.rd rplB Reg.RPL_PUSH_STATUS_BUSY = 0 ∧ t.rd rplB Reg.RPL_PUSH_STATUS_DONE = 1 ∧ t.rpl.phase = .idle

/-- Ringplan pushes (R63 to R70). -/
def Obligations.RingplanPushes : Prop :=
  ∀ (s : State) (data : List Byte) (st : ReadStatus) (ok : Bool),
    let len := s.rd rplB Reg.RPL_PUSH_LEN_LEN
    (∀ (c : Instr) (op : Nat), (c, op) ∈ ([(.validate, 1), (.apply, 2), (.store, 3), (.applyAndStore, 4), (.raiseFloor, 5)] : List (Instr × Nat)) →
      s.answers 0 = true →
      (s.rd rplB Reg.RPL_PUSH_STATUS_BUSY = 1 → completes c s fun t => t.rd rplB Reg.RPL_RESULT_REASON = 0x0B ∧
        t.rd rplB Reg.RPL_PUSH_STATUS_BUSY = 1 ∧ t.rpl = s.rpl) ∧
      (s.rd rplB Reg.RPL_PUSH_STATUS_BUSY = 0 → s.takesPushes = false → completes c s (rplEnds 0x0A)) ∧
      (s.rd rplB Reg.RPL_PUSH_STATUS_BUSY = 0 → s.takesPushes = true →
        (op = 5 → completes c s fun t => t.rpl.phase = .check ∧ t.rpl.op = 5 ∧ t.rd rplB Reg.RPL_PUSH_STATUS_BUSY = 1) ∧
        (op ≠ 5 → len < 1936 ∨ 16773120 < len → completes c s (rplEnds 1)) ∧
        (op ≠ 5 → 1936 ≤ len → len ≤ 16773120 → completes c s fun t => t.rpl.phase = .dma ∧ t.rpl.op = op ∧
          t.rd rplB Reg.RPL_PUSH_STATUS_BUSY = 1 ∧ t.rd rplB Reg.RPL_PUSH_CMD_OP = op))) ∧
    (s.rpl.phase = .dma →
      (st ≠ .ok → completes (.rplDmaDone data st) s (rplEnds 0x0C)) ∧
      (completes (.rplDmaDone data .ok) s fun t => t.rpl.phase = .check ∧ t.rpl.op = s.rpl.op ∧
        t.rpl.image = data.take (leAt data 8 4) ∧ t.rpl.reason = (validate s data len none).reason ∧ t.rd rplB Reg.RPL_STATE_STATE = 1)) ∧
    (s.rpl.phase = .check → s.rpl.op = 1 → s.rpl.reason = 0 → completes .rplOperationDone s fun t => rplEnds 0 t ∧
      t.rd rplB Reg.RPL_STATE_STATE = (if s.applied then 3 else 0)) ∧
    (s.rpl.phase = .check → s.rpl.op ≠ 5 → s.rpl.reason ≠ 0 → s.rd rplB Reg.RPL_RESULT_REASON = s.rpl.reason → s.rpl.reason < 256 →
      completes .rplOperationDone s (rplEnds s.rpl.reason)) ∧
    (s.rpl.phase = .check → s.rpl.op = 3 → s.rpl.reason = 0 →
      (s.inhibited = true → completes .rplOperationDone s (rplEnds 0x0D)) ∧
      (s.inhibited = false → completes .rplOperationDone s fun t => t.rpl = { s.rpl with phase := .storing 1 } ∧ t.rd rplB Reg.RPL_STATE_STATE = 4)) ∧
    (s.rpl.phase = .check → s.rpl.op = 5 →
      (s.inhibited = true → completes .rplOperationDone s (rplEnds 0x0D)) ∧
      (s.inhibited = false → s.applied = true → s.fuses.rplFloor < s.p.version → s.p.version < 2 ^ 32 →
        s.frontHolds rplSlots s.p.image (leAt s.p.image 0x34 4) = true → completes .rplOperationDone s fun t => rplEnds 0 t ∧
          t.fuses.rplFloor = s.p.version ∧ t.rd rplB Reg.RPL_FLOOR_FLOOR = s.p.version) ∧
      (s.inhibited = false → (s.applied = false ∨ s.p.version ≤ s.fuses.rplFloor) → completes .rplOperationDone s fun t => rplEnds 0x0A t ∧
        t.fuses = s.fuses)) ∧
    (s.rpl.phase = .applying → s.boot.parts ≠ 0 → completes .rplOperationDone s fun t => keeps noRegs s t ∧ keepsWide noRegs s t) ∧
    (s.rpl.phase = .storing 9 → completes .rplOperationDone s (rplEnds 0)) ∧
    (∀ n : Nat, s.rpl.phase = .storing n → 1 ≤ n → n ≤ 8 →
      let sealed := sealOf rplSlots.code s.rpl.image.length (leAt s.rpl.image 0x34 4)
      (n ≠ 3 → n ≠ 7 → completes (.storeStepDone ok) s fun t => t.rpl = { s.rpl with phase := .storing (n + 1) } ∧
        t.flash = (s.storeStep rplSlots n s.rpl.image sealed).flash) ∧
      ((n = 3 ∨ n = 7) → s.readBack rplSlots n ≠ 0 → completes (.storeStepDone ok) s fun t =>
        rplEnds (s.readBack rplSlots n % 256) t ∧ t.flash = s.flash))

/-- A firmware operation ended with the reason. -/
def fwEnds (reason : Nat) (t : State) : Prop :=
  t.rd devB Reg.DEV_FW_PUSH_STATUS_REASON = reason ∧ t.rd devB Reg.DEV_FW_PUSH_STATUS_BUSY = 0 ∧
  t.rd devB Reg.DEV_FW_PUSH_STATUS_DONE = 1 ∧ t.fwp.phase = .idle

/-- Firmware pushes (R554). -/
def Obligations.FirmwarePushes : Prop :=
  ∀ (s : State) (data : List Byte) (st : ReadStatus) (ok : Bool),
    let len := s.rd devB Reg.DEV_FW_PUSH_LEN_LEN
    let v := leAt s.boot.fw 0x0C 4
    (∀ (c : Instr) (op : Nat), (c, op) ∈ ([(.fwRun, 1), (.fwRunAndStore, 2), (.fwStore, 3), (.fwRaiseFloor, 4)] : List (Instr × Nat)) →
      s.answers 0 = true →
      (s.rd devB Reg.DEV_FW_PUSH_STATUS_BUSY = 1 → completes c s fun t => t.rd devB Reg.DEV_FW_PUSH_STATUS_REASON = 0x0B ∧
        t.rd devB Reg.DEV_FW_PUSH_STATUS_BUSY = 1 ∧ t.fwp = s.fwp) ∧
      (s.rd devB Reg.DEV_FW_PUSH_STATUS_BUSY = 0 → s.fwPermits op = false → completes c s (fwEnds 0x0A)) ∧
      (s.rd devB Reg.DEV_FW_PUSH_STATUS_BUSY = 0 → s.fwPermits op = true →
        (op = 4 → completes c s fun t => t.fwp.phase = .check ∧ t.fwp.op = 4 ∧ t.rd devB Reg.DEV_FW_PUSH_STATUS_BUSY = 1) ∧
        (op ≠ 4 → 4190208 < len → completes c s (fwEnds 1)) ∧
        (op ≠ 4 → len ≤ 4190208 → completes c s fun t => t.fwp.phase = .dma ∧ t.fwp.op = op ∧
          t.rd devB Reg.DEV_FW_PUSH_STATUS_BUSY = 1 ∧ t.rd devB Reg.DEV_FW_PUSH_CMD_OP = op))) ∧
    (s.fwp.phase = .dma →
      (st ≠ .ok → completes (.fwDmaDone data st) s (fwEnds 0x0C)) ∧
      (completes (.fwDmaDone data .ok) s fun t => t.fwp.phase = .check ∧ t.fwp.op = s.fwp.op ∧
        t.fwp.image = data.take (leAt data 8 4) ∧ t.fwp.reason = s.fwCheck data len none ∧ keepsRegs s t)) ∧
    (s.fwp.phase = .check → s.fwp.op ≠ 4 → s.fwp.reason ≠ 0 → s.fwp.reason < 16 → completes .fwPushDone s (fwEnds s.fwp.reason)) ∧
    (s.fwp.phase = .check → s.fwp.op = 1 → s.fwp.reason = 0 → completes .fwPushDone s fun t => fwEnds 0 t ∧
      t.rd devB Reg.DEV_BOOT_STATUS_STEP = 7 ∧ t.rd devB Reg.DEV_BOOT_STATUS_STATE = 0 ∧ t.rd devB Reg.DEV_BOOT_STATUS_FW_SOURCE = 3 ∧
      t.rd secB Reg.SEC_STATE_STATE = 1 ∧ t.pwr.replanning = true ∧ t.boot.fw = s.fwp.image.take (leAt s.fwp.image 8 4)) ∧
    (s.fwp.phase = .check → s.fwp.op = 3 → s.fwp.reason = 0 →
      (s.inhibited = true → completes .fwPushDone s (fwEnds 0x0D)) ∧
      (s.inhibited = false → completes .fwPushDone s fun t => t.fwp = { s.fwp with phase := .storing 1 } ∧ t.boot.fw = s.boot.fw)) ∧
    (s.fwp.phase = .check → s.fwp.op = 4 →
      (s.inhibited = true → completes .fwPushDone s (fwEnds 0x0D)) ∧
      (s.inhibited = false → s.fuses.fwFloor < v → s.frontHolds fwSlots s.boot.fw (leAt s.boot.fw 0x3C 4) = true →
        completes .fwPushDone s fun t => fwEnds 0 t ∧ t.fuses.fwFloor = v) ∧
      (s.inhibited = false → v ≤ s.fuses.fwFloor → completes .fwPushDone s fun t => fwEnds 0x0A t ∧ t.fuses = s.fuses)) ∧
    (s.fwp.phase = .storing 9 → completes .fwPushDone s (fwEnds 0)) ∧
    (∀ n : Nat, s.rpl.phase = .idle → s.fwp.phase = .storing n → 1 ≤ n → n ≤ 8 →
      (n ≠ 3 → n ≠ 7 → completes (.storeStepDone ok) s fun t => t.fwp = { s.fwp with phase := .storing (n + 1) } ∧
        t.flash = (s.storeStep fwSlots n s.fwp.image (sealOf fwSlots.code s.fwp.image.length (leAt s.fwp.image 0x3C 4))).flash) ∧
      ((n = 3 ∨ n = 7) → s.readBack fwSlots n = 0 →
        completes (.storeStepDone true) s (fun t => t.fwp = { s.fwp with phase := .storing (n + 1) } ∧ t.flash = s.flash) ∧
        completes (.storeStepDone false) s (fwEnds 4)))

/-- A capture of `source` was taken from the counters of `s` at time `now` (R564). -/
def captured (source now : Nat) (s t : State) : Prop :=
  let gen := (s.rd tabB Reg.TAB_GEN_GEN + 1) % 2 ^ 32
  t.rd tabB Reg.TAB_GEN_GEN = gen ∧ t.shadowGen = gen ∧ t.shadows = s.counterImage ∧
  t.wideAt (tabB + Reg.TAB_LAST) = now % 2 ^ 64 + 2 ^ 64 * gen + 2 ^ 96 * source ∧
  t.wideAt (tabB + Reg.TAB_CAPTURES) = (s.wideAt (tabB + Reg.TAB_CAPTURES) + 1) % 2 ^ 48 ∧ t.rd tabB Reg.TAB_EVENT_CAPTURED = 1

/-- Captures (R564 to R566) and sweeps (R569, R570). -/
def Obligations.CapturesAndSweeps : Prop :=
  ∀ (s : State) (q : Fin 256) (k g : Nat),
    let due := s.rd tabB Reg.TAB_AT_LO_TIME + 2 ^ 32 * s.rd tabB Reg.TAB_AT_HI_TIME
    (s.answers 0 = true →
      completes .tabCapture s (captured 0 s.now s) ∧
      (s.now < due → completes .tabAtArm s fun t => t.rd tabB Reg.TAB_CTRL_AT_PENDING = 1 ∧ t.tabAt = due ∧
        t.shadows = s.shadows ∧ t.rd tabB Reg.TAB_GEN_GEN = s.rd tabB Reg.TAB_GEN_GEN) ∧
      (due ≤ s.now → s.rd picB Reg.PIC_STATE_STATE ≤ 1 → completes .tabAtArm s fun t => captured 1 s.now s t ∧
        t.rd tabB Reg.TAB_CTRL_AT_PENDING = 0 ∧ t.rd tabB Reg.TAB_EVENT_AT_LATE = 1) ∧
      completes .tabAtCancel s (fun t => t.rd tabB Reg.TAB_CTRL_AT_PENDING = 0 ∧ keeps (· = tabB + Reg.TAB_CTRL_AT_PENDING.off) s t)) ∧
    (s.rd tabB Reg.TAB_CTRL_AT_PENDING = 1 → s.pwr.off = false →
      (s.rd picB Reg.PIC_STATE_STATE ≤ 1 → completes .tabAtReached s fun t => captured 1 (max s.now s.tabAt) { s with now := max s.now s.tabAt } t ∧
        t.rd tabB Reg.TAB_CTRL_AT_PENDING = 0 ∧ s.tabAt ≤ t.now) ∧
      (s.rd picB Reg.PIC_STATE_STATE = 2 ∨ s.rd picB Reg.PIC_STATE_STATE = 3 → completes .tabAtReached s fun t =>
        t.shadows = s.shadows ∧ s.tabAt ≤ t.now ∧ keepsRegs s t)) ∧
    (s.rd tabB Reg.TAB_CTRL_AT_PENDING ≠ 1 → completes .tabAtReached s fun t => keeps noRegs s t ∧ keepsWide noRegs s t) ∧
    (s.telemRuns q.val = false → completes (.telemSweep q 1) s fun t => (t.ring q.val).sweep = none ∧ keepsRegs s t) ∧
    (s.telemRuns q.val = true → (s.ring q.val).sweep = none → completes (.telemSweep q 1) s fun t => keeps noRegs s t ∧ keepsWide noRegs s t) ∧
    (s.telemRuns q.val = true → (s.ring q.val).sweep = some (k, g) →
      let rest := s.sweepRest q.val k
      (rest.length ≤ 5 → completes (.telemSweep q 1) s fun t => (t.ring q.val).sweep = none) ∧
      (∀ m : Nat, 5 < rest.length → (rest.take 5).getLast? = some m → completes (.telemSweep q 1) s fun t =>
        (t.ring q.val).sweep = some (m + 1, s.shadowGen)))

/-- The event log (R571, R572, R575) and reads of it (R576). -/
def Obligations.EventLogWrites : Prop :=
  ∀ (s : State) (r : LogRec) (k : Nat) (ok : Bool),
    let x := s.log
    let a := slotAt x.sector x.slot
    let retires := fun (n : Nat) (t : State) => n ∈ t.log.retired ∧ t.rd logB Reg.LOG_EVENT_SECTOR_RETIRED = 1 ∧
      t.wideAt (logB + Reg.LOG_RECORDS) = s.wideAt (logB + Reg.LOG_RECORDS)
    (s.rd logB Reg.LOG_STATUS_BUSY = 1 →
      (x.phase = .body → x.cur = some r →
        completes (.logProgramDone true) s (fun t => t.log.phase = .mark ∧ t.flash = (s.flashProgram a (r.body x.nextSeq)).flash ∧
          t.wideAt (logB + Reg.LOG_RECORDS) = s.wideAt (logB + Reg.LOG_RECORDS)) ∧
        completes (.logProgramDone false) s (retires x.sector)) ∧
      (x.phase = .mark → x.cur = some r →
        completes (.logProgramDone true) s (fun t => t.flash = (s.flashProgram (a + 0x3C) (natLE 4 logMark)).flash ∧
          t.rd logB Reg.LOG_HEAD_SEQ = x.nextSeq % 2 ^ 32 ∧ t.log.nextSeq = x.nextSeq + 1 ∧
          t.wideAt (logB + Reg.LOG_RECORDS) = (s.wideAt (logB + Reg.LOG_RECORDS) + 1) % 2 ^ 48) ∧
        completes (.logProgramDone false) s (retires x.sector)) ∧
      (x.phase = .erase k →
        completes (.logEraseDone true) s (fun t => t.log.sectorSeq = x.sectorSeq + 1 ∧
          t.flash = ((s.flashErase (sectorAt k) 4096).flashProgram (sectorAt k)
            (sectorHeader (((s.headerOf k).map Prod.fst).getD 0 + 1) (x.sectorSeq + 1))).flash ∧
          t.wideAt (logB + Reg.LOG_ERASES) = (s.wideAt (logB + Reg.LOG_ERASES) + 1) % 2 ^ 48) ∧
        completes (.logEraseDone false) s (retires k))) ∧
    (s.rd logB Reg.LOG_STATUS_BUSY = 0 →
      completes (.logProgramDone ok) s (fun t => keeps noRegs s t ∧ keepsWide noRegs s t) ∧
      completes (.logEraseDone ok) s (fun t => keeps noRegs s t ∧ keepsWide noRegs s t)) ∧
    (s.rd logB Reg.LOG_STATUS_READY = 0 → s.pwr.off = false → completes .logScanDone s fun t =>
      t.rd logB Reg.LOG_STATUS_READY = 1 ∧ t.pwr.aonLog = [] ∧ t.log.nextSeq = ((newest s.records).map Prod.fst).getD 0 + 1 ∧ t.flash = s.flash) ∧
    (s.rd logB Reg.LOG_STATUS_READY = 1 → completes .logScanDone s fun t => keeps noRegs s t ∧ keepsWide noRegs s t) ∧
    (s.answers 0 = true → s.rd logB Reg.LOG_RD_STATUS_BUSY = 0 → completes .logRead s fun t => t.rd logB Reg.LOG_RD_STATUS_BUSY = 1 ∧
      t.rd logB Reg.LOG_RD_STATUS_VALID = 0 ∧ t.rd logB Reg.LOG_RD_STATUS_GONE = 0) ∧
    (s.answers 0 = true → s.rd logB Reg.LOG_RD_STATUS_BUSY = 1 → completes .logRead s fun t => keeps noRegs s t ∧ keepsWide noRegs s t) ∧
    (s.rd logB Reg.LOG_RD_STATUS_BUSY = 1 →
      (∀ b : List Byte, s.logRecord (s.rd logB Reg.LOG_RD_SEQ_SEQ) = some b → completes .logReadDone s fun t =>
        t.rd logB Reg.LOG_RD_STATUS_BUSY = 0 ∧ t.rd logB Reg.LOG_RD_STATUS_VALID = 1 ∧
        ∀ n : Fin 16, t.rd (logB + 4 * n.val) Reg.LOG_RD_DATA_DATA = leAt b (4 * n.val) 4 % 2 ^ 32) ∧
      (s.logRecord (s.rd logB Reg.LOG_RD_SEQ_SEQ) = none → completes .logReadDone s fun t =>
        t.rd logB Reg.LOG_RD_STATUS_BUSY = 0 ∧ t.rd logB Reg.LOG_RD_STATUS_GONE = 1))

/-- A reply of Barker. -/
def brkSays (code : Nat) (t : State) : Prop := t.brk.code = code

/-- The command counted (R577). -/
def brkCounted (s t : State) : Prop :=
  t.wideAt (brkB + Reg.BRK_COMMANDS) = (s.wideAt (brkB + Reg.BRK_COMMANDS) + 1) % 2 ^ 48

/-- Barker (R577 to R580). -/
def Obligations.BarkerCommands : Prop :=
  ∀ (s : State) (a : BitVec 23) (w : BitVec 26) (p : BitVec 36) (q v : Word) (n : Fin 65) (f : Bool) (m : BitVec 12) (cert : List Byte),
    let level := s.rd brkB Reg.BRK_STATUS_LEVEL
    let c := s.count (brkB + Reg.BRK_COMMANDS) 1
    let words := (List.range n.val).map fun k => a.toNat + 4 * k
    (∀ (i : Instr) (l : Nat), (i, l) ∈ ([(.brkHelp, 0), (.brkId, 0), (.brkState, 0), (.brkFaults, 0), (.brkUnlock cert, 0), (.brkLock, 0), (.brkLog q n, 1),
        (.brkRd a n, 1), (.brkWide a, 1), (.brkCap, 1), (.brkShadow m n, 1), (.brkWr w v, 2), (.brkInject v, 2), (.brkReset, 2), (.brkSrd p n f, 3),
        (.brkSwr p v f, 3)] : List (Instr × Nat)) →
      (s.brkUp = false → completes i s fun t => keeps noRegs s t ∧ keepsWide noRegs s t) ∧
      (s.brkUp = true → level < l → completes i s fun t => brkSays 2 t ∧ brkCounted s t ∧ t.brk.words = [] ∧
        t.wideAt (brkB + Reg.BRK_REFUSED) = (s.wideAt (brkB + Reg.BRK_REFUSED) + 1) % 2 ^ 48 ∧ t.rd brkB Reg.BRK_EVENT_REFUSED = 1)) ∧
    (s.brkUp = false → completes .brkUnknownCommand s (fun t => keeps noRegs s t) ∧ completes .brkRxOverrun s (fun t => keeps noRegs s t)) ∧
    (s.brkUp = true →
      completes .brkUnknownCommand s (fun t => brkSays 1 t ∧ keepsRegs s t) ∧
      completes .brkRxOverrun s (fun t => brkSays 5 t ∧ t.rd brkB Reg.BRK_EVENT_OVERRUN = 1) ∧
      completes .brkHelp s (fun t => brkSays 0 t ∧ brkCounted s t ∧ keepsRegs s t) ∧
      completes .brkId s (fun t => brkSays 0 t ∧ brkCounted s t ∧ keepsRegs s t ∧
        t.brk.words = c.readWord devB :: wordsLE 2 s.fuses.deviceId ++ [c.readWord (devB + 0x18)]) ∧
      completes .brkState s (fun t => brkSays 0 t ∧ brkCounted s t ∧ keepsRegs s t ∧
        t.brk.words = [c.readWord (devB + 0x10), c.readWord picB, c.readWord rplB, c.readWord snB, s.readyPin.toNat]) ∧
      completes .brkFaults s (fun t => brkSays 0 t ∧ brkCounted s t ∧ keepsRegs s t ∧
        t.brk.words = [c.readWord (snB + 0x18), c.readWord (snB + 0x1C)] ++ wordsLE 4 (s.wideAt (snB + Reg.SN_LAST))) ∧
      completes .brkLock s (fun t => brkSays 0 t ∧ brkCounted s t ∧ t.rd secB Reg.SEC_STATE_DEBUG_NORMAL = 0 ∧ t.rd secB Reg.SEC_STATE_DEBUG_SECURE = 0) ∧
      (cert.length ≠ 160 → completes (.brkUnlock cert) s fun t => brkSays 3 t ∧ brkCounted s t) ∧
      (cert.length = 160 → s.rd secB Reg.SEC_STATE_STATE = 1 →
        (∀ r : Nat, s.certCheck cert = some r → completes (.brkUnlock cert) s fun t => brkSays 6 t ∧ t.brk.reason = r ∧ keepsRegs s t) ∧
        (s.certCheck cert = none → completes (.brkUnlock cert) s fun t => brkSays 0 t ∧
          t.rd secB Reg.SEC_STATE_DEBUG_SECURE = (if byteAt cert 6 = 2 then 1 else 0) ∧
          t.rd secB Reg.SEC_STATE_DEBUG_NORMAL = (if byteAt cert 6 = 1 then 1 else 0) ∧ t.sec.certOpens = byteAt cert 7))) ∧
    (s.brkUp = true → 1 ≤ level →
      (n.val = 0 ∨ 64 < n.val → completes (.brkLog q n) s (brkSays 3) ∧ completes (.brkRd a n) s (brkSays 3) ∧ completes (.brkShadow m n) s (brkSays 3)) ∧
      (1 ≤ n.val → n.val ≤ 64 → completes (.brkLog q n) s (fun t => brkSays 0 t ∧ brkCounted s t ∧ keepsRegs s t) ∧
        (m.toNat + n.val ≤ 2576 → completes (.brkShadow m n) s fun t => brkSays 0 t ∧ keepsRegs s t ∧ t.brk.words.length = 3 * n.val) ∧
        (a.toNat % 4 = 0 → words.any brkShut = true → completes (.brkRd a n) s fun t => brkSays 4 t ∧ keepsRegs s t) ∧
        (a.toNat % 4 = 0 → words.any brkShut = false → completes (.brkRd a n) s fun t => brkSays 0 t ∧ keepsRegs s t ∧
          t.brk.words = words.map c.readWord)) ∧
      (a.toNat % 4 ≠ 0 → completes (.brkWide a) s (brkSays 3)) ∧
      (a.toNat % 4 = 0 → completes (.brkWide a) s fun t => brkCounted s t ∧
        ((t.brk.code = 0 ∧ ∃ k x : Nat, t.brk.words = wordsLE k x) ∨ (t.brk.code = 4 ∧ t.brk.words = []))) ∧
      completes .brkCap s (fun t => brkSays 0 t ∧ captured 3 s.now c t)) ∧
    (s.brkUp = true → 2 ≤ level →
      (w.toNat % 4 ≠ 0 → completes (.brkWr w v) s (brkSays 3)) ∧
      (w.toNat % 4 = 0 → w.toNat < 0x1000 → completes (.brkWr w v) s (brkSays 0)) ∧
      (injectable.contains (bitsOf v.toNat 0 5) = true → completes (.brkInject v) s fun t => brkSays 0 t ∧
        t.wideAt (snB + Reg.SN_INJECTIONS) = (s.wideAt (snB + Reg.SN_INJECTIONS) + 1) % 2 ^ 48) ∧
      (injectable.contains (bitsOf v.toNat 0 5) = false → completes (.brkInject v) s fun t => brkSays 3 t ∧ keepsRegs s t) ∧
      completes .brkReset s (fun t => brkSays 0 t ∧ t.rd devB Reg.DEV_BOOT_STATUS_STEP = 2 ∧ t.plan = none)) ∧
    (s.brkUp = true → 3 ≤ level →
      (1 ≤ n.val → n.val ≤ 64 → p.toNat % 4 = 0 → completes (.brkSrd p n false) s fun t => keepsRegs s t ∧
        (∀ bs : List Byte, s.secureBytes p.toNat (4 * n.val) = some bs → brkSays 0 t ∧
          t.brk.words = (List.range n.val).map fun k => leAt bs (4 * k) 4) ∧
        (s.secureBytes p.toNat (4 * n.val) = none → brkSays 4 t)) ∧
      (p.toNat % 4 ≠ 0 → completes (.brkSrd p n f) s (brkSays 3) ∧ completes (.brkSwr p v f) s (brkSays 3)) ∧
      (p.toNat % 4 = 0 → s.secureOwn p.toNat 4 = true → p.toNat + 4 ≤ s.potBase → completes (.brkSwr p v false) s fun t => brkSays 0 t ∧
        t.dramBytes p.toNat 4 = natLE 4 v.toNat ∧ keepsRegs s t) ∧
      (p.toNat % 4 = 0 → s.secureOwn p.toNat 4 = false → completes (.brkSwr p v false) s fun t => brkSays 4 t ∧ t.dram = s.dram ∧ keepsRegs s t))
end

