-- ==== Sys2Proof/Laws/State.lean ====
section
/-!
SUPPORT. Each update of the state leaves every field but its own as it is: one lemma per field per update.
-/
namespace Sys2Proof.Machine

variable (s : State)

/-! put -/
@[simp] theorem State.put_pending (a : Nat) (f : Fld) (v : Nat) : (s.put a f v).pending = s.pending := rfl
@[simp] theorem State.put_freeCtr (a : Nat) (f : Fld) (v : Nat) : (s.put a f v).freeCtr = s.freeCtr := rfl
@[simp] theorem State.put_now (a : Nat) (f : Fld) (v : Nat) : (s.put a f v).now = s.now := rfl
@[simp] theorem State.put_act (a : Nat) (f : Fld) (v : Nat) : (s.put a f v).act = s.act := rfl
@[simp] theorem State.put_wide (a : Nat) (f : Fld) (v : Nat) : (s.put a f v).wide = s.wide := rfl
@[simp] theorem State.put_armAt (a : Nat) (f : Fld) (v : Nat) : (s.put a f v).armAt = s.armAt := rfl
@[simp] theorem State.put_hostA (a : Nat) (f : Fld) (v : Nat) : (s.put a f v).hostA = s.hostA := rfl
@[simp] theorem State.put_hostB (a : Nat) (f : Fld) (v : Nat) : (s.put a f v).hostB = s.hostB := rfl
@[simp] theorem State.put_dram (a : Nat) (f : Fld) (v : Nat) : (s.put a f v).dram = s.dram := rfl
@[simp] theorem State.put_flash (a : Nat) (f : Fld) (v : Nat) : (s.put a f v).flash = s.flash := rfl
@[simp] theorem State.put_pot (a : Nat) (f : Fld) (v : Nat) : (s.put a f v).pot = s.pot := rfl
@[simp] theorem State.put_pins (a : Nat) (f : Fld) (v : Nat) : (s.put a f v).pins = s.pins := rfl
@[simp] theorem State.put_msiSent (a : Nat) (f : Fld) (v : Nat) : (s.put a f v).msiSent = s.msiSent := rfl
@[simp] theorem State.put_readData (a : Nat) (f : Fld) (v : Nat) : (s.put a f v).readData = s.readData := rfl
@[simp] theorem State.put_lastRrs (a : Nat) (f : Fld) (v : Nat) : (s.put a f v).lastRrs = s.lastRrs := rfl
@[simp] theorem State.put_plan (a : Nat) (f : Fld) (v : Nat) : (s.put a f v).plan = s.plan := rfl
@[simp] theorem State.put_readyPin (a : Nat) (f : Fld) (v : Nat) : (s.put a f v).readyPin = s.readyPin := rfl
@[simp] theorem State.put_faultLow (a : Nat) (f : Fld) (v : Nat) : (s.put a f v).faultLow = s.faultLow := rfl
@[simp] theorem State.put_wakeLow (a : Nat) (f : Fld) (v : Nat) : (s.put a f v).wakeLow = s.wakeLow := rfl
@[simp] theorem State.put_vsyncOut (a : Nat) (f : Fld) (v : Nat) : (s.put a f v).vsyncOut = s.vsyncOut := rfl
@[simp] theorem State.put_fns (a : Nat) (f : Fld) (v : Nat) : (s.put a f v).fns = s.fns := rfl
@[simp] theorem State.put_portA (a : Nat) (f : Fld) (v : Nat) : (s.put a f v).portA = s.portA := rfl
@[simp] theorem State.put_portB (a : Nat) (f : Fld) (v : Nat) : (s.put a f v).portB = s.portB := rfl
@[simp] theorem State.put_time (a : Nat) (f : Fld) (v : Nat) : (s.put a f v).time = s.time := rfl
@[simp] theorem State.put_mbx (a : Nat) (f : Fld) (v : Nat) : (s.put a f v).mbx = s.mbx := rfl
@[simp] theorem State.put_rings (a : Nat) (f : Fld) (v : Nat) : (s.put a f v).rings = s.rings := rfl
@[simp] theorem State.put_insts (a : Nat) (f : Fld) (v : Nat) : (s.put a f v).insts = s.insts := rfl
@[simp] theorem State.put_fences (a : Nat) (f : Fld) (v : Nat) : (s.put a f v).fences = s.fences := rfl
@[simp] theorem State.put_engines (a : Nat) (f : Fld) (v : Nat) : (s.put a f v).engines = s.engines := rfl
@[simp] theorem State.put_gfxAcc (a : Nat) (f : Fld) (v : Nat) : (s.put a f v).gfxAcc = s.gfxAcc := rfl
@[simp] theorem State.put_cpyAcc (a : Nat) (f : Fld) (v : Nat) : (s.put a f v).cpyAcc = s.cpyAcc := rfl
@[simp] theorem State.put_carx (a : Nat) (f : Fld) (v : Nat) : (s.put a f v).carx = s.carx := rfl
@[simp] theorem State.put_layers (a : Nat) (f : Fld) (v : Nat) : (s.put a f v).layers = s.layers := rfl
@[simp] theorem State.put_heads (a : Nat) (f : Fld) (v : Nat) : (s.put a f v).heads = s.heads := rfl
@[simp] theorem State.put_outs (a : Nat) (f : Fld) (v : Nat) : (s.put a f v).outs = s.outs := rfl
@[simp] theorem State.put_caps (a : Nat) (f : Fld) (v : Nat) : (s.put a f v).caps = s.caps := rfl
@[simp] theorem State.put_chans (a : Nat) (f : Fld) (v : Nat) : (s.put a f v).chans = s.chans := rfl
@[simp] theorem State.put_dramx (a : Nat) (f : Fld) (v : Nat) : (s.put a f v).dramx = s.dramx := rfl
@[simp] theorem State.put_sec (a : Nat) (f : Fld) (v : Nat) : (s.put a f v).sec = s.sec := rfl
@[simp] theorem State.put_streams (a : Nat) (f : Fld) (v : Nat) : (s.put a f v).streams = s.streams := rfl
@[simp] theorem State.put_chimes (a : Nat) (f : Fld) (v : Nat) : (s.put a f v).chimes = s.chimes := rfl
@[simp] theorem State.put_aud (a : Nat) (f : Fld) (v : Nat) : (s.put a f v).aud = s.aud := rfl
@[simp] theorem State.put_tch (a : Nat) (f : Fld) (v : Nat) : (s.put a f v).tch = s.tch := rfl
@[simp] theorem State.put_hap (a : Nat) (f : Fld) (v : Nat) : (s.put a f v).hap = s.hap := rfl
@[simp] theorem State.put_cvu (a : Nat) (f : Fld) (v : Nat) : (s.put a f v).cvu = s.cvu := rfl
@[simp] theorem State.put_sn (a : Nat) (f : Fld) (v : Nat) : (s.put a f v).sn = s.sn := rfl
@[simp] theorem State.put_pwr (a : Nat) (f : Fld) (v : Nat) : (s.put a f v).pwr = s.pwr := rfl
@[simp] theorem State.put_fuses (a : Nat) (f : Fld) (v : Nat) : (s.put a f v).fuses = s.fuses := rfl
@[simp] theorem State.put_rpl (a : Nat) (f : Fld) (v : Nat) : (s.put a f v).rpl = s.rpl := rfl
@[simp] theorem State.put_fwp (a : Nat) (f : Fld) (v : Nat) : (s.put a f v).fwp = s.fwp := rfl
@[simp] theorem State.put_boot (a : Nat) (f : Fld) (v : Nat) : (s.put a f v).boot = s.boot := rfl
@[simp] theorem State.put_shadows (a : Nat) (f : Fld) (v : Nat) : (s.put a f v).shadows = s.shadows := rfl
@[simp] theorem State.put_shadowGen (a : Nat) (f : Fld) (v : Nat) : (s.put a f v).shadowGen = s.shadowGen := rfl
@[simp] theorem State.put_tabAt (a : Nat) (f : Fld) (v : Nat) : (s.put a f v).tabAt = s.tabAt := rfl
@[simp] theorem State.put_log (a : Nat) (f : Fld) (v : Nat) : (s.put a f v).log = s.log := rfl
@[simp] theorem State.put_brk (a : Nat) (f : Fld) (v : Nat) : (s.put a f v).brk = s.brk := rfl

/-! puta -/
@[simp] theorem State.puta_pending (a : Nat) (f : Fld) (v : Nat) : (s.puta a f v).pending = s.pending := rfl
@[simp] theorem State.puta_freeCtr (a : Nat) (f : Fld) (v : Nat) : (s.puta a f v).freeCtr = s.freeCtr := rfl
@[simp] theorem State.puta_now (a : Nat) (f : Fld) (v : Nat) : (s.puta a f v).now = s.now := rfl
@[simp] theorem State.puta_regs (a : Nat) (f : Fld) (v : Nat) : (s.puta a f v).regs = s.regs := rfl
@[simp] theorem State.puta_wide (a : Nat) (f : Fld) (v : Nat) : (s.puta a f v).wide = s.wide := rfl
@[simp] theorem State.puta_armAt (a : Nat) (f : Fld) (v : Nat) : (s.puta a f v).armAt = s.armAt := rfl
@[simp] theorem State.puta_hostA (a : Nat) (f : Fld) (v : Nat) : (s.puta a f v).hostA = s.hostA := rfl
@[simp] theorem State.puta_hostB (a : Nat) (f : Fld) (v : Nat) : (s.puta a f v).hostB = s.hostB := rfl
@[simp] theorem State.puta_dram (a : Nat) (f : Fld) (v : Nat) : (s.puta a f v).dram = s.dram := rfl
@[simp] theorem State.puta_flash (a : Nat) (f : Fld) (v : Nat) : (s.puta a f v).flash = s.flash := rfl
@[simp] theorem State.puta_pot (a : Nat) (f : Fld) (v : Nat) : (s.puta a f v).pot = s.pot := rfl
@[simp] theorem State.puta_pins (a : Nat) (f : Fld) (v : Nat) : (s.puta a f v).pins = s.pins := rfl
@[simp] theorem State.puta_msiSent (a : Nat) (f : Fld) (v : Nat) : (s.puta a f v).msiSent = s.msiSent := rfl
@[simp] theorem State.puta_readData (a : Nat) (f : Fld) (v : Nat) : (s.puta a f v).readData = s.readData := rfl
@[simp] theorem State.puta_lastRrs (a : Nat) (f : Fld) (v : Nat) : (s.puta a f v).lastRrs = s.lastRrs := rfl
@[simp] theorem State.puta_plan (a : Nat) (f : Fld) (v : Nat) : (s.puta a f v).plan = s.plan := rfl
@[simp] theorem State.puta_readyPin (a : Nat) (f : Fld) (v : Nat) : (s.puta a f v).readyPin = s.readyPin := rfl
@[simp] theorem State.puta_faultLow (a : Nat) (f : Fld) (v : Nat) : (s.puta a f v).faultLow = s.faultLow := rfl
@[simp] theorem State.puta_wakeLow (a : Nat) (f : Fld) (v : Nat) : (s.puta a f v).wakeLow = s.wakeLow := rfl
@[simp] theorem State.puta_vsyncOut (a : Nat) (f : Fld) (v : Nat) : (s.puta a f v).vsyncOut = s.vsyncOut := rfl
@[simp] theorem State.puta_fns (a : Nat) (f : Fld) (v : Nat) : (s.puta a f v).fns = s.fns := rfl
@[simp] theorem State.puta_portA (a : Nat) (f : Fld) (v : Nat) : (s.puta a f v).portA = s.portA := rfl
@[simp] theorem State.puta_portB (a : Nat) (f : Fld) (v : Nat) : (s.puta a f v).portB = s.portB := rfl
@[simp] theorem State.puta_time (a : Nat) (f : Fld) (v : Nat) : (s.puta a f v).time = s.time := rfl
@[simp] theorem State.puta_mbx (a : Nat) (f : Fld) (v : Nat) : (s.puta a f v).mbx = s.mbx := rfl
@[simp] theorem State.puta_rings (a : Nat) (f : Fld) (v : Nat) : (s.puta a f v).rings = s.rings := rfl
@[simp] theorem State.puta_insts (a : Nat) (f : Fld) (v : Nat) : (s.puta a f v).insts = s.insts := rfl
@[simp] theorem State.puta_fences (a : Nat) (f : Fld) (v : Nat) : (s.puta a f v).fences = s.fences := rfl
@[simp] theorem State.puta_engines (a : Nat) (f : Fld) (v : Nat) : (s.puta a f v).engines = s.engines := rfl
@[simp] theorem State.puta_gfxAcc (a : Nat) (f : Fld) (v : Nat) : (s.puta a f v).gfxAcc = s.gfxAcc := rfl
@[simp] theorem State.puta_cpyAcc (a : Nat) (f : Fld) (v : Nat) : (s.puta a f v).cpyAcc = s.cpyAcc := rfl
@[simp] theorem State.puta_carx (a : Nat) (f : Fld) (v : Nat) : (s.puta a f v).carx = s.carx := rfl
@[simp] theorem State.puta_layers (a : Nat) (f : Fld) (v : Nat) : (s.puta a f v).layers = s.layers := rfl
@[simp] theorem State.puta_heads (a : Nat) (f : Fld) (v : Nat) : (s.puta a f v).heads = s.heads := rfl
@[simp] theorem State.puta_outs (a : Nat) (f : Fld) (v : Nat) : (s.puta a f v).outs = s.outs := rfl
@[simp] theorem State.puta_caps (a : Nat) (f : Fld) (v : Nat) : (s.puta a f v).caps = s.caps := rfl
@[simp] theorem State.puta_chans (a : Nat) (f : Fld) (v : Nat) : (s.puta a f v).chans = s.chans := rfl
@[simp] theorem State.puta_dramx (a : Nat) (f : Fld) (v : Nat) : (s.puta a f v).dramx = s.dramx := rfl
@[simp] theorem State.puta_sec (a : Nat) (f : Fld) (v : Nat) : (s.puta a f v).sec = s.sec := rfl
@[simp] theorem State.puta_streams (a : Nat) (f : Fld) (v : Nat) : (s.puta a f v).streams = s.streams := rfl
@[simp] theorem State.puta_chimes (a : Nat) (f : Fld) (v : Nat) : (s.puta a f v).chimes = s.chimes := rfl
@[simp] theorem State.puta_aud (a : Nat) (f : Fld) (v : Nat) : (s.puta a f v).aud = s.aud := rfl
@[simp] theorem State.puta_tch (a : Nat) (f : Fld) (v : Nat) : (s.puta a f v).tch = s.tch := rfl
@[simp] theorem State.puta_hap (a : Nat) (f : Fld) (v : Nat) : (s.puta a f v).hap = s.hap := rfl
@[simp] theorem State.puta_cvu (a : Nat) (f : Fld) (v : Nat) : (s.puta a f v).cvu = s.cvu := rfl
@[simp] theorem State.puta_sn (a : Nat) (f : Fld) (v : Nat) : (s.puta a f v).sn = s.sn := rfl
@[simp] theorem State.puta_pwr (a : Nat) (f : Fld) (v : Nat) : (s.puta a f v).pwr = s.pwr := rfl
@[simp] theorem State.puta_fuses (a : Nat) (f : Fld) (v : Nat) : (s.puta a f v).fuses = s.fuses := rfl
@[simp] theorem State.puta_rpl (a : Nat) (f : Fld) (v : Nat) : (s.puta a f v).rpl = s.rpl := rfl
@[simp] theorem State.puta_fwp (a : Nat) (f : Fld) (v : Nat) : (s.puta a f v).fwp = s.fwp := rfl
@[simp] theorem State.puta_boot (a : Nat) (f : Fld) (v : Nat) : (s.puta a f v).boot = s.boot := rfl
@[simp] theorem State.puta_shadows (a : Nat) (f : Fld) (v : Nat) : (s.puta a f v).shadows = s.shadows := rfl
@[simp] theorem State.puta_shadowGen (a : Nat) (f : Fld) (v : Nat) : (s.puta a f v).shadowGen = s.shadowGen := rfl
@[simp] theorem State.puta_tabAt (a : Nat) (f : Fld) (v : Nat) : (s.puta a f v).tabAt = s.tabAt := rfl
@[simp] theorem State.puta_log (a : Nat) (f : Fld) (v : Nat) : (s.puta a f v).log = s.log := rfl
@[simp] theorem State.puta_brk (a : Nat) (f : Fld) (v : Nat) : (s.puta a f v).brk = s.brk := rfl

/-! putWide -/
@[simp] theorem State.putWide_pending (a v : Nat) : (s.putWide a v).pending = s.pending := rfl
@[simp] theorem State.putWide_freeCtr (a v : Nat) : (s.putWide a v).freeCtr = s.freeCtr := rfl
@[simp] theorem State.putWide_now (a v : Nat) : (s.putWide a v).now = s.now := rfl
@[simp] theorem State.putWide_regs (a v : Nat) : (s.putWide a v).regs = s.regs := rfl
@[simp] theorem State.putWide_act (a v : Nat) : (s.putWide a v).act = s.act := rfl
@[simp] theorem State.putWide_armAt (a v : Nat) : (s.putWide a v).armAt = s.armAt := rfl
@[simp] theorem State.putWide_hostA (a v : Nat) : (s.putWide a v).hostA = s.hostA := rfl
@[simp] theorem State.putWide_hostB (a v : Nat) : (s.putWide a v).hostB = s.hostB := rfl
@[simp] theorem State.putWide_dram (a v : Nat) : (s.putWide a v).dram = s.dram := rfl
@[simp] theorem State.putWide_flash (a v : Nat) : (s.putWide a v).flash = s.flash := rfl
@[simp] theorem State.putWide_pot (a v : Nat) : (s.putWide a v).pot = s.pot := rfl
@[simp] theorem State.putWide_pins (a v : Nat) : (s.putWide a v).pins = s.pins := rfl
@[simp] theorem State.putWide_msiSent (a v : Nat) : (s.putWide a v).msiSent = s.msiSent := rfl
@[simp] theorem State.putWide_readData (a v : Nat) : (s.putWide a v).readData = s.readData := rfl
@[simp] theorem State.putWide_lastRrs (a v : Nat) : (s.putWide a v).lastRrs = s.lastRrs := rfl
@[simp] theorem State.putWide_plan (a v : Nat) : (s.putWide a v).plan = s.plan := rfl
@[simp] theorem State.putWide_readyPin (a v : Nat) : (s.putWide a v).readyPin = s.readyPin := rfl
@[simp] theorem State.putWide_faultLow (a v : Nat) : (s.putWide a v).faultLow = s.faultLow := rfl
@[simp] theorem State.putWide_wakeLow (a v : Nat) : (s.putWide a v).wakeLow = s.wakeLow := rfl
@[simp] theorem State.putWide_vsyncOut (a v : Nat) : (s.putWide a v).vsyncOut = s.vsyncOut := rfl
@[simp] theorem State.putWide_fns (a v : Nat) : (s.putWide a v).fns = s.fns := rfl
@[simp] theorem State.putWide_portA (a v : Nat) : (s.putWide a v).portA = s.portA := rfl
@[simp] theorem State.putWide_portB (a v : Nat) : (s.putWide a v).portB = s.portB := rfl
@[simp] theorem State.putWide_time (a v : Nat) : (s.putWide a v).time = s.time := rfl
@[simp] theorem State.putWide_mbx (a v : Nat) : (s.putWide a v).mbx = s.mbx := rfl
@[simp] theorem State.putWide_rings (a v : Nat) : (s.putWide a v).rings = s.rings := rfl
@[simp] theorem State.putWide_insts (a v : Nat) : (s.putWide a v).insts = s.insts := rfl
@[simp] theorem State.putWide_fences (a v : Nat) : (s.putWide a v).fences = s.fences := rfl
@[simp] theorem State.putWide_engines (a v : Nat) : (s.putWide a v).engines = s.engines := rfl
@[simp] theorem State.putWide_gfxAcc (a v : Nat) : (s.putWide a v).gfxAcc = s.gfxAcc := rfl
@[simp] theorem State.putWide_cpyAcc (a v : Nat) : (s.putWide a v).cpyAcc = s.cpyAcc := rfl
@[simp] theorem State.putWide_carx (a v : Nat) : (s.putWide a v).carx = s.carx := rfl
@[simp] theorem State.putWide_layers (a v : Nat) : (s.putWide a v).layers = s.layers := rfl
@[simp] theorem State.putWide_heads (a v : Nat) : (s.putWide a v).heads = s.heads := rfl
@[simp] theorem State.putWide_outs (a v : Nat) : (s.putWide a v).outs = s.outs := rfl
@[simp] theorem State.putWide_caps (a v : Nat) : (s.putWide a v).caps = s.caps := rfl
@[simp] theorem State.putWide_chans (a v : Nat) : (s.putWide a v).chans = s.chans := rfl
@[simp] theorem State.putWide_dramx (a v : Nat) : (s.putWide a v).dramx = s.dramx := rfl
@[simp] theorem State.putWide_sec (a v : Nat) : (s.putWide a v).sec = s.sec := rfl
@[simp] theorem State.putWide_streams (a v : Nat) : (s.putWide a v).streams = s.streams := rfl
@[simp] theorem State.putWide_chimes (a v : Nat) : (s.putWide a v).chimes = s.chimes := rfl
@[simp] theorem State.putWide_aud (a v : Nat) : (s.putWide a v).aud = s.aud := rfl
@[simp] theorem State.putWide_tch (a v : Nat) : (s.putWide a v).tch = s.tch := rfl
@[simp] theorem State.putWide_hap (a v : Nat) : (s.putWide a v).hap = s.hap := rfl
@[simp] theorem State.putWide_cvu (a v : Nat) : (s.putWide a v).cvu = s.cvu := rfl
@[simp] theorem State.putWide_sn (a v : Nat) : (s.putWide a v).sn = s.sn := rfl
@[simp] theorem State.putWide_pwr (a v : Nat) : (s.putWide a v).pwr = s.pwr := rfl
@[simp] theorem State.putWide_fuses (a v : Nat) : (s.putWide a v).fuses = s.fuses := rfl
@[simp] theorem State.putWide_rpl (a v : Nat) : (s.putWide a v).rpl = s.rpl := rfl
@[simp] theorem State.putWide_fwp (a v : Nat) : (s.putWide a v).fwp = s.fwp := rfl
@[simp] theorem State.putWide_boot (a v : Nat) : (s.putWide a v).boot = s.boot := rfl
@[simp] theorem State.putWide_shadows (a v : Nat) : (s.putWide a v).shadows = s.shadows := rfl
@[simp] theorem State.putWide_shadowGen (a v : Nat) : (s.putWide a v).shadowGen = s.shadowGen := rfl
@[simp] theorem State.putWide_tabAt (a v : Nat) : (s.putWide a v).tabAt = s.tabAt := rfl
@[simp] theorem State.putWide_log (a v : Nat) : (s.putWide a v).log = s.log := rfl
@[simp] theorem State.putWide_brk (a v : Nat) : (s.putWide a v).brk = s.brk := rfl

/-! reach -/
@[simp] theorem State.reach_pending (t : Nat) : (s.reach t).pending = s.pending := rfl
@[simp] theorem State.reach_freeCtr (t : Nat) : (s.reach t).freeCtr = s.freeCtr := rfl
@[simp] theorem State.reach_regs (t : Nat) : (s.reach t).regs = s.regs := rfl
@[simp] theorem State.reach_act (t : Nat) : (s.reach t).act = s.act := rfl
@[simp] theorem State.reach_wide (t : Nat) : (s.reach t).wide = s.wide := rfl
@[simp] theorem State.reach_armAt (t : Nat) : (s.reach t).armAt = s.armAt := rfl
@[simp] theorem State.reach_hostA (t : Nat) : (s.reach t).hostA = s.hostA := rfl
@[simp] theorem State.reach_hostB (t : Nat) : (s.reach t).hostB = s.hostB := rfl
@[simp] theorem State.reach_dram (t : Nat) : (s.reach t).dram = s.dram := rfl
@[simp] theorem State.reach_flash (t : Nat) : (s.reach t).flash = s.flash := rfl
@[simp] theorem State.reach_pot (t : Nat) : (s.reach t).pot = s.pot := rfl
@[simp] theorem State.reach_pins (t : Nat) : (s.reach t).pins = s.pins := rfl
@[simp] theorem State.reach_msiSent (t : Nat) : (s.reach t).msiSent = s.msiSent := rfl
@[simp] theorem State.reach_readData (t : Nat) : (s.reach t).readData = s.readData := rfl
@[simp] theorem State.reach_lastRrs (t : Nat) : (s.reach t).lastRrs = s.lastRrs := rfl
@[simp] theorem State.reach_plan (t : Nat) : (s.reach t).plan = s.plan := rfl
@[simp] theorem State.reach_readyPin (t : Nat) : (s.reach t).readyPin = s.readyPin := rfl
@[simp] theorem State.reach_faultLow (t : Nat) : (s.reach t).faultLow = s.faultLow := rfl
@[simp] theorem State.reach_wakeLow (t : Nat) : (s.reach t).wakeLow = s.wakeLow := rfl
@[simp] theorem State.reach_vsyncOut (t : Nat) : (s.reach t).vsyncOut = s.vsyncOut := rfl
@[simp] theorem State.reach_fns (t : Nat) : (s.reach t).fns = s.fns := rfl
@[simp] theorem State.reach_portA (t : Nat) : (s.reach t).portA = s.portA := rfl
@[simp] theorem State.reach_portB (t : Nat) : (s.reach t).portB = s.portB := rfl
@[simp] theorem State.reach_time (t : Nat) : (s.reach t).time = s.time := rfl
@[simp] theorem State.reach_mbx (t : Nat) : (s.reach t).mbx = s.mbx := rfl
@[simp] theorem State.reach_rings (t : Nat) : (s.reach t).rings = s.rings := rfl
@[simp] theorem State.reach_insts (t : Nat) : (s.reach t).insts = s.insts := rfl
@[simp] theorem State.reach_fences (t : Nat) : (s.reach t).fences = s.fences := rfl
@[simp] theorem State.reach_engines (t : Nat) : (s.reach t).engines = s.engines := rfl
@[simp] theorem State.reach_gfxAcc (t : Nat) : (s.reach t).gfxAcc = s.gfxAcc := rfl
@[simp] theorem State.reach_cpyAcc (t : Nat) : (s.reach t).cpyAcc = s.cpyAcc := rfl
@[simp] theorem State.reach_carx (t : Nat) : (s.reach t).carx = s.carx := rfl
@[simp] theorem State.reach_layers (t : Nat) : (s.reach t).layers = s.layers := rfl
@[simp] theorem State.reach_heads (t : Nat) : (s.reach t).heads = s.heads := rfl
@[simp] theorem State.reach_outs (t : Nat) : (s.reach t).outs = s.outs := rfl
@[simp] theorem State.reach_caps (t : Nat) : (s.reach t).caps = s.caps := rfl
@[simp] theorem State.reach_chans (t : Nat) : (s.reach t).chans = s.chans := rfl
@[simp] theorem State.reach_dramx (t : Nat) : (s.reach t).dramx = s.dramx := rfl
@[simp] theorem State.reach_sec (t : Nat) : (s.reach t).sec = s.sec := rfl
@[simp] theorem State.reach_streams (t : Nat) : (s.reach t).streams = s.streams := rfl
@[simp] theorem State.reach_chimes (t : Nat) : (s.reach t).chimes = s.chimes := rfl
@[simp] theorem State.reach_aud (t : Nat) : (s.reach t).aud = s.aud := rfl
@[simp] theorem State.reach_tch (t : Nat) : (s.reach t).tch = s.tch := rfl
@[simp] theorem State.reach_hap (t : Nat) : (s.reach t).hap = s.hap := rfl
@[simp] theorem State.reach_cvu (t : Nat) : (s.reach t).cvu = s.cvu := rfl
@[simp] theorem State.reach_sn (t : Nat) : (s.reach t).sn = s.sn := rfl
@[simp] theorem State.reach_pwr (t : Nat) : (s.reach t).pwr = s.pwr := rfl
@[simp] theorem State.reach_fuses (t : Nat) : (s.reach t).fuses = s.fuses := rfl
@[simp] theorem State.reach_rpl (t : Nat) : (s.reach t).rpl = s.rpl := rfl
@[simp] theorem State.reach_fwp (t : Nat) : (s.reach t).fwp = s.fwp := rfl
@[simp] theorem State.reach_boot (t : Nat) : (s.reach t).boot = s.boot := rfl
@[simp] theorem State.reach_shadows (t : Nat) : (s.reach t).shadows = s.shadows := rfl
@[simp] theorem State.reach_shadowGen (t : Nat) : (s.reach t).shadowGen = s.shadowGen := rfl
@[simp] theorem State.reach_tabAt (t : Nat) : (s.reach t).tabAt = s.tabAt := rfl
@[simp] theorem State.reach_log (t : Nat) : (s.reach t).log = s.log := rfl
@[simp] theorem State.reach_brk (t : Nat) : (s.reach t).brk = s.brk := rfl

/-! setPage -/
@[simp] theorem State.setPage_pending (p e : Nat) : (s.setPage p e).pending = s.pending := rfl
@[simp] theorem State.setPage_freeCtr (p e : Nat) : (s.setPage p e).freeCtr = s.freeCtr := rfl
@[simp] theorem State.setPage_now (p e : Nat) : (s.setPage p e).now = s.now := rfl
@[simp] theorem State.setPage_regs (p e : Nat) : (s.setPage p e).regs = s.regs := rfl
@[simp] theorem State.setPage_act (p e : Nat) : (s.setPage p e).act = s.act := rfl
@[simp] theorem State.setPage_wide (p e : Nat) : (s.setPage p e).wide = s.wide := rfl
@[simp] theorem State.setPage_armAt (p e : Nat) : (s.setPage p e).armAt = s.armAt := rfl
@[simp] theorem State.setPage_hostA (p e : Nat) : (s.setPage p e).hostA = s.hostA := rfl
@[simp] theorem State.setPage_hostB (p e : Nat) : (s.setPage p e).hostB = s.hostB := rfl
@[simp] theorem State.setPage_dram (p e : Nat) : (s.setPage p e).dram = s.dram := rfl
@[simp] theorem State.setPage_flash (p e : Nat) : (s.setPage p e).flash = s.flash := rfl
@[simp] theorem State.setPage_pins (p e : Nat) : (s.setPage p e).pins = s.pins := rfl
@[simp] theorem State.setPage_msiSent (p e : Nat) : (s.setPage p e).msiSent = s.msiSent := rfl
@[simp] theorem State.setPage_readData (p e : Nat) : (s.setPage p e).readData = s.readData := rfl
@[simp] theorem State.setPage_lastRrs (p e : Nat) : (s.setPage p e).lastRrs = s.lastRrs := rfl
@[simp] theorem State.setPage_plan (p e : Nat) : (s.setPage p e).plan = s.plan := rfl
@[simp] theorem State.setPage_readyPin (p e : Nat) : (s.setPage p e).readyPin = s.readyPin := rfl
@[simp] theorem State.setPage_faultLow (p e : Nat) : (s.setPage p e).faultLow = s.faultLow := rfl
@[simp] theorem State.setPage_wakeLow (p e : Nat) : (s.setPage p e).wakeLow = s.wakeLow := rfl
@[simp] theorem State.setPage_vsyncOut (p e : Nat) : (s.setPage p e).vsyncOut = s.vsyncOut := rfl
@[simp] theorem State.setPage_fns (p e : Nat) : (s.setPage p e).fns = s.fns := rfl
@[simp] theorem State.setPage_portA (p e : Nat) : (s.setPage p e).portA = s.portA := rfl
@[simp] theorem State.setPage_portB (p e : Nat) : (s.setPage p e).portB = s.portB := rfl
@[simp] theorem State.setPage_time (p e : Nat) : (s.setPage p e).time = s.time := rfl
@[simp] theorem State.setPage_mbx (p e : Nat) : (s.setPage p e).mbx = s.mbx := rfl
@[simp] theorem State.setPage_rings (p e : Nat) : (s.setPage p e).rings = s.rings := rfl
@[simp] theorem State.setPage_insts (p e : Nat) : (s.setPage p e).insts = s.insts := rfl
@[simp] theorem State.setPage_fences (p e : Nat) : (s.setPage p e).fences = s.fences := rfl
@[simp] theorem State.setPage_engines (p e : Nat) : (s.setPage p e).engines = s.engines := rfl
@[simp] theorem State.setPage_gfxAcc (p e : Nat) : (s.setPage p e).gfxAcc = s.gfxAcc := rfl
@[simp] theorem State.setPage_cpyAcc (p e : Nat) : (s.setPage p e).cpyAcc = s.cpyAcc := rfl
@[simp] theorem State.setPage_carx (p e : Nat) : (s.setPage p e).carx = s.carx := rfl
@[simp] theorem State.setPage_layers (p e : Nat) : (s.setPage p e).layers = s.layers := rfl
@[simp] theorem State.setPage_heads (p e : Nat) : (s.setPage p e).heads = s.heads := rfl
@[simp] theorem State.setPage_outs (p e : Nat) : (s.setPage p e).outs = s.outs := rfl
@[simp] theorem State.setPage_caps (p e : Nat) : (s.setPage p e).caps = s.caps := rfl
@[simp] theorem State.setPage_chans (p e : Nat) : (s.setPage p e).chans = s.chans := rfl
@[simp] theorem State.setPage_dramx (p e : Nat) : (s.setPage p e).dramx = s.dramx := rfl
@[simp] theorem State.setPage_sec (p e : Nat) : (s.setPage p e).sec = s.sec := rfl
@[simp] theorem State.setPage_streams (p e : Nat) : (s.setPage p e).streams = s.streams := rfl
@[simp] theorem State.setPage_chimes (p e : Nat) : (s.setPage p e).chimes = s.chimes := rfl
@[simp] theorem State.setPage_aud (p e : Nat) : (s.setPage p e).aud = s.aud := rfl
@[simp] theorem State.setPage_tch (p e : Nat) : (s.setPage p e).tch = s.tch := rfl
@[simp] theorem State.setPage_hap (p e : Nat) : (s.setPage p e).hap = s.hap := rfl
@[simp] theorem State.setPage_cvu (p e : Nat) : (s.setPage p e).cvu = s.cvu := rfl
@[simp] theorem State.setPage_sn (p e : Nat) : (s.setPage p e).sn = s.sn := rfl
@[simp] theorem State.setPage_pwr (p e : Nat) : (s.setPage p e).pwr = s.pwr := rfl
@[simp] theorem State.setPage_fuses (p e : Nat) : (s.setPage p e).fuses = s.fuses := rfl
@[simp] theorem State.setPage_rpl (p e : Nat) : (s.setPage p e).rpl = s.rpl := rfl
@[simp] theorem State.setPage_fwp (p e : Nat) : (s.setPage p e).fwp = s.fwp := rfl
@[simp] theorem State.setPage_boot (p e : Nat) : (s.setPage p e).boot = s.boot := rfl
@[simp] theorem State.setPage_shadows (p e : Nat) : (s.setPage p e).shadows = s.shadows := rfl
@[simp] theorem State.setPage_shadowGen (p e : Nat) : (s.setPage p e).shadowGen = s.shadowGen := rfl
@[simp] theorem State.setPage_tabAt (p e : Nat) : (s.setPage p e).tabAt = s.tabAt := rfl
@[simp] theorem State.setPage_log (p e : Nat) : (s.setPage p e).log = s.log := rfl
@[simp] theorem State.setPage_brk (p e : Nat) : (s.setPage p e).brk = s.brk := rfl

/-! setFence -/
@[simp] theorem State.setFence_pending (i n : Nat) (f : Fence) : (s.setFence i n f).pending = s.pending := rfl
@[simp] theorem State.setFence_freeCtr (i n : Nat) (f : Fence) : (s.setFence i n f).freeCtr = s.freeCtr := rfl
@[simp] theorem State.setFence_now (i n : Nat) (f : Fence) : (s.setFence i n f).now = s.now := rfl
@[simp] theorem State.setFence_regs (i n : Nat) (f : Fence) : (s.setFence i n f).regs = s.regs := rfl
@[simp] theorem State.setFence_act (i n : Nat) (f : Fence) : (s.setFence i n f).act = s.act := rfl
@[simp] theorem State.setFence_wide (i n : Nat) (f : Fence) : (s.setFence i n f).wide = s.wide := rfl
@[simp] theorem State.setFence_armAt (i n : Nat) (f : Fence) : (s.setFence i n f).armAt = s.armAt := rfl
@[simp] theorem State.setFence_hostA (i n : Nat) (f : Fence) : (s.setFence i n f).hostA = s.hostA := rfl
@[simp] theorem State.setFence_hostB (i n : Nat) (f : Fence) : (s.setFence i n f).hostB = s.hostB := rfl
@[simp] theorem State.setFence_dram (i n : Nat) (f : Fence) : (s.setFence i n f).dram = s.dram := rfl
@[simp] theorem State.setFence_flash (i n : Nat) (f : Fence) : (s.setFence i n f).flash = s.flash := rfl
@[simp] theorem State.setFence_pot (i n : Nat) (f : Fence) : (s.setFence i n f).pot = s.pot := rfl
@[simp] theorem State.setFence_pins (i n : Nat) (f : Fence) : (s.setFence i n f).pins = s.pins := rfl
@[simp] theorem State.setFence_msiSent (i n : Nat) (f : Fence) : (s.setFence i n f).msiSent = s.msiSent := rfl
@[simp] theorem State.setFence_readData (i n : Nat) (f : Fence) : (s.setFence i n f).readData = s.readData := rfl
@[simp] theorem State.setFence_lastRrs (i n : Nat) (f : Fence) : (s.setFence i n f).lastRrs = s.lastRrs := rfl
@[simp] theorem State.setFence_plan (i n : Nat) (f : Fence) : (s.setFence i n f).plan = s.plan := rfl
@[simp] theorem State.setFence_readyPin (i n : Nat) (f : Fence) : (s.setFence i n f).readyPin = s.readyPin := rfl
@[simp] theorem State.setFence_faultLow (i n : Nat) (f : Fence) : (s.setFence i n f).faultLow = s.faultLow := rfl
@[simp] theorem State.setFence_wakeLow (i n : Nat) (f : Fence) : (s.setFence i n f).wakeLow = s.wakeLow := rfl
@[simp] theorem State.setFence_vsyncOut (i n : Nat) (f : Fence) : (s.setFence i n f).vsyncOut = s.vsyncOut := rfl
@[simp] theorem State.setFence_fns (i n : Nat) (f : Fence) : (s.setFence i n f).fns = s.fns := rfl
@[simp] theorem State.setFence_portA (i n : Nat) (f : Fence) : (s.setFence i n f).portA = s.portA := rfl
@[simp] theorem State.setFence_portB (i n : Nat) (f : Fence) : (s.setFence i n f).portB = s.portB := rfl
@[simp] theorem State.setFence_time (i n : Nat) (f : Fence) : (s.setFence i n f).time = s.time := rfl
@[simp] theorem State.setFence_mbx (i n : Nat) (f : Fence) : (s.setFence i n f).mbx = s.mbx := rfl
@[simp] theorem State.setFence_rings (i n : Nat) (f : Fence) : (s.setFence i n f).rings = s.rings := rfl
@[simp] theorem State.setFence_insts (i n : Nat) (f : Fence) : (s.setFence i n f).insts = s.insts := rfl
@[simp] theorem State.setFence_engines (i n : Nat) (f : Fence) : (s.setFence i n f).engines = s.engines := rfl
@[simp] theorem State.setFence_gfxAcc (i n : Nat) (f : Fence) : (s.setFence i n f).gfxAcc = s.gfxAcc := rfl
@[simp] theorem State.setFence_cpyAcc (i n : Nat) (f : Fence) : (s.setFence i n f).cpyAcc = s.cpyAcc := rfl
@[simp] theorem State.setFence_carx (i n : Nat) (f : Fence) : (s.setFence i n f).carx = s.carx := rfl
@[simp] theorem State.setFence_layers (i n : Nat) (f : Fence) : (s.setFence i n f).layers = s.layers := rfl
@[simp] theorem State.setFence_heads (i n : Nat) (f : Fence) : (s.setFence i n f).heads = s.heads := rfl
@[simp] theorem State.setFence_outs (i n : Nat) (f : Fence) : (s.setFence i n f).outs = s.outs := rfl
@[simp] theorem State.setFence_caps (i n : Nat) (f : Fence) : (s.setFence i n f).caps = s.caps := rfl
@[simp] theorem State.setFence_chans (i n : Nat) (f : Fence) : (s.setFence i n f).chans = s.chans := rfl
@[simp] theorem State.setFence_dramx (i n : Nat) (f : Fence) : (s.setFence i n f).dramx = s.dramx := rfl
@[simp] theorem State.setFence_sec (i n : Nat) (f : Fence) : (s.setFence i n f).sec = s.sec := rfl
@[simp] theorem State.setFence_streams (i n : Nat) (f : Fence) : (s.setFence i n f).streams = s.streams := rfl
@[simp] theorem State.setFence_chimes (i n : Nat) (f : Fence) : (s.setFence i n f).chimes = s.chimes := rfl
@[simp] theorem State.setFence_aud (i n : Nat) (f : Fence) : (s.setFence i n f).aud = s.aud := rfl
@[simp] theorem State.setFence_tch (i n : Nat) (f : Fence) : (s.setFence i n f).tch = s.tch := rfl
@[simp] theorem State.setFence_hap (i n : Nat) (f : Fence) : (s.setFence i n f).hap = s.hap := rfl
@[simp] theorem State.setFence_cvu (i n : Nat) (f : Fence) : (s.setFence i n f).cvu = s.cvu := rfl
@[simp] theorem State.setFence_sn (i n : Nat) (f : Fence) : (s.setFence i n f).sn = s.sn := rfl
@[simp] theorem State.setFence_pwr (i n : Nat) (f : Fence) : (s.setFence i n f).pwr = s.pwr := rfl
@[simp] theorem State.setFence_fuses (i n : Nat) (f : Fence) : (s.setFence i n f).fuses = s.fuses := rfl
@[simp] theorem State.setFence_rpl (i n : Nat) (f : Fence) : (s.setFence i n f).rpl = s.rpl := rfl
@[simp] theorem State.setFence_fwp (i n : Nat) (f : Fence) : (s.setFence i n f).fwp = s.fwp := rfl
@[simp] theorem State.setFence_boot (i n : Nat) (f : Fence) : (s.setFence i n f).boot = s.boot := rfl
@[simp] theorem State.setFence_shadows (i n : Nat) (f : Fence) : (s.setFence i n f).shadows = s.shadows := rfl
@[simp] theorem State.setFence_shadowGen (i n : Nat) (f : Fence) : (s.setFence i n f).shadowGen = s.shadowGen := rfl
@[simp] theorem State.setFence_tabAt (i n : Nat) (f : Fence) : (s.setFence i n f).tabAt = s.tabAt := rfl
@[simp] theorem State.setFence_log (i n : Nat) (f : Fence) : (s.setFence i n f).log = s.log := rfl
@[simp] theorem State.setFence_brk (i n : Nat) (f : Fence) : (s.setFence i n f).brk = s.brk := rfl

/-! setRing -/
@[simp] theorem State.setRing_pending (k : Nat) (x : RingX) : (s.setRing k x).pending = s.pending := rfl
@[simp] theorem State.setRing_freeCtr (k : Nat) (x : RingX) : (s.setRing k x).freeCtr = s.freeCtr := rfl
@[simp] theorem State.setRing_now (k : Nat) (x : RingX) : (s.setRing k x).now = s.now := rfl
@[simp] theorem State.setRing_regs (k : Nat) (x : RingX) : (s.setRing k x).regs = s.regs := rfl
@[simp] theorem State.setRing_act (k : Nat) (x : RingX) : (s.setRing k x).act = s.act := rfl
@[simp] theorem State.setRing_wide (k : Nat) (x : RingX) : (s.setRing k x).wide = s.wide := rfl
@[simp] theorem State.setRing_armAt (k : Nat) (x : RingX) : (s.setRing k x).armAt = s.armAt := rfl
@[simp] theorem State.setRing_hostA (k : Nat) (x : RingX) : (s.setRing k x).hostA = s.hostA := rfl
@[simp] theorem State.setRing_hostB (k : Nat) (x : RingX) : (s.setRing k x).hostB = s.hostB := rfl
@[simp] theorem State.setRing_dram (k : Nat) (x : RingX) : (s.setRing k x).dram = s.dram := rfl
@[simp] theorem State.setRing_flash (k : Nat) (x : RingX) : (s.setRing k x).flash = s.flash := rfl
@[simp] theorem State.setRing_pot (k : Nat) (x : RingX) : (s.setRing k x).pot = s.pot := rfl
@[simp] theorem State.setRing_pins (k : Nat) (x : RingX) : (s.setRing k x).pins = s.pins := rfl
@[simp] theorem State.setRing_msiSent (k : Nat) (x : RingX) : (s.setRing k x).msiSent = s.msiSent := rfl
@[simp] theorem State.setRing_readData (k : Nat) (x : RingX) : (s.setRing k x).readData = s.readData := rfl
@[simp] theorem State.setRing_lastRrs (k : Nat) (x : RingX) : (s.setRing k x).lastRrs = s.lastRrs := rfl
@[simp] theorem State.setRing_plan (k : Nat) (x : RingX) : (s.setRing k x).plan = s.plan := rfl
@[simp] theorem State.setRing_readyPin (k : Nat) (x : RingX) : (s.setRing k x).readyPin = s.readyPin := rfl
@[simp] theorem State.setRing_faultLow (k : Nat) (x : RingX) : (s.setRing k x).faultLow = s.faultLow := rfl
@[simp] theorem State.setRing_wakeLow (k : Nat) (x : RingX) : (s.setRing k x).wakeLow = s.wakeLow := rfl
@[simp] theorem State.setRing_vsyncOut (k : Nat) (x : RingX) : (s.setRing k x).vsyncOut = s.vsyncOut := rfl
@[simp] theorem State.setRing_fns (k : Nat) (x : RingX) : (s.setRing k x).fns = s.fns := rfl
@[simp] theorem State.setRing_portA (k : Nat) (x : RingX) : (s.setRing k x).portA = s.portA := rfl
@[simp] theorem State.setRing_portB (k : Nat) (x : RingX) : (s.setRing k x).portB = s.portB := rfl
@[simp] theorem State.setRing_time (k : Nat) (x : RingX) : (s.setRing k x).time = s.time := rfl
@[simp] theorem State.setRing_mbx (k : Nat) (x : RingX) : (s.setRing k x).mbx = s.mbx := rfl
@[simp] theorem State.setRing_insts (k : Nat) (x : RingX) : (s.setRing k x).insts = s.insts := rfl
@[simp] theorem State.setRing_fences (k : Nat) (x : RingX) : (s.setRing k x).fences = s.fences := rfl
@[simp] theorem State.setRing_engines (k : Nat) (x : RingX) : (s.setRing k x).engines = s.engines := rfl
@[simp] theorem State.setRing_gfxAcc (k : Nat) (x : RingX) : (s.setRing k x).gfxAcc = s.gfxAcc := rfl
@[simp] theorem State.setRing_cpyAcc (k : Nat) (x : RingX) : (s.setRing k x).cpyAcc = s.cpyAcc := rfl
@[simp] theorem State.setRing_carx (k : Nat) (x : RingX) : (s.setRing k x).carx = s.carx := rfl
@[simp] theorem State.setRing_layers (k : Nat) (x : RingX) : (s.setRing k x).layers = s.layers := rfl
@[simp] theorem State.setRing_heads (k : Nat) (x : RingX) : (s.setRing k x).heads = s.heads := rfl
@[simp] theorem State.setRing_outs (k : Nat) (x : RingX) : (s.setRing k x).outs = s.outs := rfl
@[simp] theorem State.setRing_caps (k : Nat) (x : RingX) : (s.setRing k x).caps = s.caps := rfl
@[simp] theorem State.setRing_chans (k : Nat) (x : RingX) : (s.setRing k x).chans = s.chans := rfl
@[simp] theorem State.setRing_dramx (k : Nat) (x : RingX) : (s.setRing k x).dramx = s.dramx := rfl
@[simp] theorem State.setRing_sec (k : Nat) (x : RingX) : (s.setRing k x).sec = s.sec := rfl
@[simp] theorem State.setRing_streams (k : Nat) (x : RingX) : (s.setRing k x).streams = s.streams := rfl
@[simp] theorem State.setRing_chimes (k : Nat) (x : RingX) : (s.setRing k x).chimes = s.chimes := rfl
@[simp] theorem State.setRing_aud (k : Nat) (x : RingX) : (s.setRing k x).aud = s.aud := rfl
@[simp] theorem State.setRing_tch (k : Nat) (x : RingX) : (s.setRing k x).tch = s.tch := rfl
@[simp] theorem State.setRing_hap (k : Nat) (x : RingX) : (s.setRing k x).hap = s.hap := rfl
@[simp] theorem State.setRing_cvu (k : Nat) (x : RingX) : (s.setRing k x).cvu = s.cvu := rfl
@[simp] theorem State.setRing_sn (k : Nat) (x : RingX) : (s.setRing k x).sn = s.sn := rfl
@[simp] theorem State.setRing_pwr (k : Nat) (x : RingX) : (s.setRing k x).pwr = s.pwr := rfl
@[simp] theorem State.setRing_fuses (k : Nat) (x : RingX) : (s.setRing k x).fuses = s.fuses := rfl
@[simp] theorem State.setRing_rpl (k : Nat) (x : RingX) : (s.setRing k x).rpl = s.rpl := rfl
@[simp] theorem State.setRing_fwp (k : Nat) (x : RingX) : (s.setRing k x).fwp = s.fwp := rfl
@[simp] theorem State.setRing_boot (k : Nat) (x : RingX) : (s.setRing k x).boot = s.boot := rfl
@[simp] theorem State.setRing_shadows (k : Nat) (x : RingX) : (s.setRing k x).shadows = s.shadows := rfl
@[simp] theorem State.setRing_shadowGen (k : Nat) (x : RingX) : (s.setRing k x).shadowGen = s.shadowGen := rfl
@[simp] theorem State.setRing_tabAt (k : Nat) (x : RingX) : (s.setRing k x).tabAt = s.tabAt := rfl
@[simp] theorem State.setRing_log (k : Nat) (x : RingX) : (s.setRing k x).log = s.log := rfl
@[simp] theorem State.setRing_brk (k : Nat) (x : RingX) : (s.setRing k x).brk = s.brk := rfl

/-! setInst -/
@[simp] theorem State.setInst_pending (k : Nat) (x : InstX) : (s.setInst k x).pending = s.pending := rfl
@[simp] theorem State.setInst_freeCtr (k : Nat) (x : InstX) : (s.setInst k x).freeCtr = s.freeCtr := rfl
@[simp] theorem State.setInst_now (k : Nat) (x : InstX) : (s.setInst k x).now = s.now := rfl
@[simp] theorem State.setInst_regs (k : Nat) (x : InstX) : (s.setInst k x).regs = s.regs := rfl
@[simp] theorem State.setInst_act (k : Nat) (x : InstX) : (s.setInst k x).act = s.act := rfl
@[simp] theorem State.setInst_wide (k : Nat) (x : InstX) : (s.setInst k x).wide = s.wide := rfl
@[simp] theorem State.setInst_armAt (k : Nat) (x : InstX) : (s.setInst k x).armAt = s.armAt := rfl
@[simp] theorem State.setInst_hostA (k : Nat) (x : InstX) : (s.setInst k x).hostA = s.hostA := rfl
@[simp] theorem State.setInst_hostB (k : Nat) (x : InstX) : (s.setInst k x).hostB = s.hostB := rfl
@[simp] theorem State.setInst_dram (k : Nat) (x : InstX) : (s.setInst k x).dram = s.dram := rfl
@[simp] theorem State.setInst_flash (k : Nat) (x : InstX) : (s.setInst k x).flash = s.flash := rfl
@[simp] theorem State.setInst_pot (k : Nat) (x : InstX) : (s.setInst k x).pot = s.pot := rfl
@[simp] theorem State.setInst_pins (k : Nat) (x : InstX) : (s.setInst k x).pins = s.pins := rfl
@[simp] theorem State.setInst_msiSent (k : Nat) (x : InstX) : (s.setInst k x).msiSent = s.msiSent := rfl
@[simp] theorem State.setInst_readData (k : Nat) (x : InstX) : (s.setInst k x).readData = s.readData := rfl
@[simp] theorem State.setInst_lastRrs (k : Nat) (x : InstX) : (s.setInst k x).lastRrs = s.lastRrs := rfl
@[simp] theorem State.setInst_plan (k : Nat) (x : InstX) : (s.setInst k x).plan = s.plan := rfl
@[simp] theorem State.setInst_readyPin (k : Nat) (x : InstX) : (s.setInst k x).readyPin = s.readyPin := rfl
@[simp] theorem State.setInst_faultLow (k : Nat) (x : InstX) : (s.setInst k x).faultLow = s.faultLow := rfl
@[simp] theorem State.setInst_wakeLow (k : Nat) (x : InstX) : (s.setInst k x).wakeLow = s.wakeLow := rfl
@[simp] theorem State.setInst_vsyncOut (k : Nat) (x : InstX) : (s.setInst k x).vsyncOut = s.vsyncOut := rfl
@[simp] theorem State.setInst_fns (k : Nat) (x : InstX) : (s.setInst k x).fns = s.fns := rfl
@[simp] theorem State.setInst_portA (k : Nat) (x : InstX) : (s.setInst k x).portA = s.portA := rfl
@[simp] theorem State.setInst_portB (k : Nat) (x : InstX) : (s.setInst k x).portB = s.portB := rfl
@[simp] theorem State.setInst_time (k : Nat) (x : InstX) : (s.setInst k x).time = s.time := rfl
@[simp] theorem State.setInst_mbx (k : Nat) (x : InstX) : (s.setInst k x).mbx = s.mbx := rfl
@[simp] theorem State.setInst_rings (k : Nat) (x : InstX) : (s.setInst k x).rings = s.rings := rfl
@[simp] theorem State.setInst_fences (k : Nat) (x : InstX) : (s.setInst k x).fences = s.fences := rfl
@[simp] theorem State.setInst_engines (k : Nat) (x : InstX) : (s.setInst k x).engines = s.engines := rfl
@[simp] theorem State.setInst_gfxAcc (k : Nat) (x : InstX) : (s.setInst k x).gfxAcc = s.gfxAcc := rfl
@[simp] theorem State.setInst_cpyAcc (k : Nat) (x : InstX) : (s.setInst k x).cpyAcc = s.cpyAcc := rfl
@[simp] theorem State.setInst_carx (k : Nat) (x : InstX) : (s.setInst k x).carx = s.carx := rfl
@[simp] theorem State.setInst_layers (k : Nat) (x : InstX) : (s.setInst k x).layers = s.layers := rfl
@[simp] theorem State.setInst_heads (k : Nat) (x : InstX) : (s.setInst k x).heads = s.heads := rfl
@[simp] theorem State.setInst_outs (k : Nat) (x : InstX) : (s.setInst k x).outs = s.outs := rfl
@[simp] theorem State.setInst_caps (k : Nat) (x : InstX) : (s.setInst k x).caps = s.caps := rfl
@[simp] theorem State.setInst_chans (k : Nat) (x : InstX) : (s.setInst k x).chans = s.chans := rfl
@[simp] theorem State.setInst_dramx (k : Nat) (x : InstX) : (s.setInst k x).dramx = s.dramx := rfl
@[simp] theorem State.setInst_sec (k : Nat) (x : InstX) : (s.setInst k x).sec = s.sec := rfl
@[simp] theorem State.setInst_streams (k : Nat) (x : InstX) : (s.setInst k x).streams = s.streams := rfl
@[simp] theorem State.setInst_chimes (k : Nat) (x : InstX) : (s.setInst k x).chimes = s.chimes := rfl
@[simp] theorem State.setInst_aud (k : Nat) (x : InstX) : (s.setInst k x).aud = s.aud := rfl
@[simp] theorem State.setInst_tch (k : Nat) (x : InstX) : (s.setInst k x).tch = s.tch := rfl
@[simp] theorem State.setInst_hap (k : Nat) (x : InstX) : (s.setInst k x).hap = s.hap := rfl
@[simp] theorem State.setInst_cvu (k : Nat) (x : InstX) : (s.setInst k x).cvu = s.cvu := rfl
@[simp] theorem State.setInst_sn (k : Nat) (x : InstX) : (s.setInst k x).sn = s.sn := rfl
@[simp] theorem State.setInst_pwr (k : Nat) (x : InstX) : (s.setInst k x).pwr = s.pwr := rfl
@[simp] theorem State.setInst_fuses (k : Nat) (x : InstX) : (s.setInst k x).fuses = s.fuses := rfl
@[simp] theorem State.setInst_rpl (k : Nat) (x : InstX) : (s.setInst k x).rpl = s.rpl := rfl
@[simp] theorem State.setInst_fwp (k : Nat) (x : InstX) : (s.setInst k x).fwp = s.fwp := rfl
@[simp] theorem State.setInst_boot (k : Nat) (x : InstX) : (s.setInst k x).boot = s.boot := rfl
@[simp] theorem State.setInst_shadows (k : Nat) (x : InstX) : (s.setInst k x).shadows = s.shadows := rfl
@[simp] theorem State.setInst_shadowGen (k : Nat) (x : InstX) : (s.setInst k x).shadowGen = s.shadowGen := rfl
@[simp] theorem State.setInst_tabAt (k : Nat) (x : InstX) : (s.setInst k x).tabAt = s.tabAt := rfl
@[simp] theorem State.setInst_log (k : Nat) (x : InstX) : (s.setInst k x).log = s.log := rfl
@[simp] theorem State.setInst_brk (k : Nat) (x : InstX) : (s.setInst k x).brk = s.brk := rfl

/-! setEngine -/
@[simp] theorem State.setEngine_pending (k : Nat) (x : EngineX) : (s.setEngine k x).pending = s.pending := rfl
@[simp] theorem State.setEngine_freeCtr (k : Nat) (x : EngineX) : (s.setEngine k x).freeCtr = s.freeCtr := rfl
@[simp] theorem State.setEngine_now (k : Nat) (x : EngineX) : (s.setEngine k x).now = s.now := rfl
@[simp] theorem State.setEngine_regs (k : Nat) (x : EngineX) : (s.setEngine k x).regs = s.regs := rfl
@[simp] theorem State.setEngine_act (k : Nat) (x : EngineX) : (s.setEngine k x).act = s.act := rfl
@[simp] theorem State.setEngine_wide (k : Nat) (x : EngineX) : (s.setEngine k x).wide = s.wide := rfl
@[simp] theorem State.setEngine_armAt (k : Nat) (x : EngineX) : (s.setEngine k x).armAt = s.armAt := rfl
@[simp] theorem State.setEngine_hostA (k : Nat) (x : EngineX) : (s.setEngine k x).hostA = s.hostA := rfl
@[simp] theorem State.setEngine_hostB (k : Nat) (x : EngineX) : (s.setEngine k x).hostB = s.hostB := rfl
@[simp] theorem State.setEngine_dram (k : Nat) (x : EngineX) : (s.setEngine k x).dram = s.dram := rfl
@[simp] theorem State.setEngine_flash (k : Nat) (x : EngineX) : (s.setEngine k x).flash = s.flash := rfl
@[simp] theorem State.setEngine_pot (k : Nat) (x : EngineX) : (s.setEngine k x).pot = s.pot := rfl
@[simp] theorem State.setEngine_pins (k : Nat) (x : EngineX) : (s.setEngine k x).pins = s.pins := rfl
@[simp] theorem State.setEngine_msiSent (k : Nat) (x : EngineX) : (s.setEngine k x).msiSent = s.msiSent := rfl
@[simp] theorem State.setEngine_readData (k : Nat) (x : EngineX) : (s.setEngine k x).readData = s.readData := rfl
@[simp] theorem State.setEngine_lastRrs (k : Nat) (x : EngineX) : (s.setEngine k x).lastRrs = s.lastRrs := rfl
@[simp] theorem State.setEngine_plan (k : Nat) (x : EngineX) : (s.setEngine k x).plan = s.plan := rfl
@[simp] theorem State.setEngine_readyPin (k : Nat) (x : EngineX) : (s.setEngine k x).readyPin = s.readyPin := rfl
@[simp] theorem State.setEngine_faultLow (k : Nat) (x : EngineX) : (s.setEngine k x).faultLow = s.faultLow := rfl
@[simp] theorem State.setEngine_wakeLow (k : Nat) (x : EngineX) : (s.setEngine k x).wakeLow = s.wakeLow := rfl
@[simp] theorem State.setEngine_vsyncOut (k : Nat) (x : EngineX) : (s.setEngine k x).vsyncOut = s.vsyncOut := rfl
@[simp] theorem State.setEngine_fns (k : Nat) (x : EngineX) : (s.setEngine k x).fns = s.fns := rfl
@[simp] theorem State.setEngine_portA (k : Nat) (x : EngineX) : (s.setEngine k x).portA = s.portA := rfl
@[simp] theorem State.setEngine_portB (k : Nat) (x : EngineX) : (s.setEngine k x).portB = s.portB := rfl
@[simp] theorem State.setEngine_time (k : Nat) (x : EngineX) : (s.setEngine k x).time = s.time := rfl
@[simp] theorem State.setEngine_mbx (k : Nat) (x : EngineX) : (s.setEngine k x).mbx = s.mbx := rfl
@[simp] theorem State.setEngine_rings (k : Nat) (x : EngineX) : (s.setEngine k x).rings = s.rings := rfl
@[simp] theorem State.setEngine_insts (k : Nat) (x : EngineX) : (s.setEngine k x).insts = s.insts := rfl
@[simp] theorem State.setEngine_fences (k : Nat) (x : EngineX) : (s.setEngine k x).fences = s.fences := rfl
@[simp] theorem State.setEngine_gfxAcc (k : Nat) (x : EngineX) : (s.setEngine k x).gfxAcc = s.gfxAcc := rfl
@[simp] theorem State.setEngine_cpyAcc (k : Nat) (x : EngineX) : (s.setEngine k x).cpyAcc = s.cpyAcc := rfl
@[simp] theorem State.setEngine_carx (k : Nat) (x : EngineX) : (s.setEngine k x).carx = s.carx := rfl
@[simp] theorem State.setEngine_layers (k : Nat) (x : EngineX) : (s.setEngine k x).layers = s.layers := rfl
@[simp] theorem State.setEngine_heads (k : Nat) (x : EngineX) : (s.setEngine k x).heads = s.heads := rfl
@[simp] theorem State.setEngine_outs (k : Nat) (x : EngineX) : (s.setEngine k x).outs = s.outs := rfl
@[simp] theorem State.setEngine_caps (k : Nat) (x : EngineX) : (s.setEngine k x).caps = s.caps := rfl
@[simp] theorem State.setEngine_chans (k : Nat) (x : EngineX) : (s.setEngine k x).chans = s.chans := rfl
@[simp] theorem State.setEngine_dramx (k : Nat) (x : EngineX) : (s.setEngine k x).dramx = s.dramx := rfl
@[simp] theorem State.setEngine_sec (k : Nat) (x : EngineX) : (s.setEngine k x).sec = s.sec := rfl
@[simp] theorem State.setEngine_streams (k : Nat) (x : EngineX) : (s.setEngine k x).streams = s.streams := rfl
@[simp] theorem State.setEngine_chimes (k : Nat) (x : EngineX) : (s.setEngine k x).chimes = s.chimes := rfl
@[simp] theorem State.setEngine_aud (k : Nat) (x : EngineX) : (s.setEngine k x).aud = s.aud := rfl
@[simp] theorem State.setEngine_tch (k : Nat) (x : EngineX) : (s.setEngine k x).tch = s.tch := rfl
@[simp] theorem State.setEngine_hap (k : Nat) (x : EngineX) : (s.setEngine k x).hap = s.hap := rfl
@[simp] theorem State.setEngine_cvu (k : Nat) (x : EngineX) : (s.setEngine k x).cvu = s.cvu := rfl
@[simp] theorem State.setEngine_sn (k : Nat) (x : EngineX) : (s.setEngine k x).sn = s.sn := rfl
@[simp] theorem State.setEngine_pwr (k : Nat) (x : EngineX) : (s.setEngine k x).pwr = s.pwr := rfl
@[simp] theorem State.setEngine_fuses (k : Nat) (x : EngineX) : (s.setEngine k x).fuses = s.fuses := rfl
@[simp] theorem State.setEngine_rpl (k : Nat) (x : EngineX) : (s.setEngine k x).rpl = s.rpl := rfl
@[simp] theorem State.setEngine_fwp (k : Nat) (x : EngineX) : (s.setEngine k x).fwp = s.fwp := rfl
@[simp] theorem State.setEngine_boot (k : Nat) (x : EngineX) : (s.setEngine k x).boot = s.boot := rfl
@[simp] theorem State.setEngine_shadows (k : Nat) (x : EngineX) : (s.setEngine k x).shadows = s.shadows := rfl
@[simp] theorem State.setEngine_shadowGen (k : Nat) (x : EngineX) : (s.setEngine k x).shadowGen = s.shadowGen := rfl
@[simp] theorem State.setEngine_tabAt (k : Nat) (x : EngineX) : (s.setEngine k x).tabAt = s.tabAt := rfl
@[simp] theorem State.setEngine_log (k : Nat) (x : EngineX) : (s.setEngine k x).log = s.log := rfl
@[simp] theorem State.setEngine_brk (k : Nat) (x : EngineX) : (s.setEngine k x).brk = s.brk := rfl

/-! setLayer -/
@[simp] theorem State.setLayer_pending (k : Nat) (x : LayerX) : (s.setLayer k x).pending = s.pending := rfl
@[simp] theorem State.setLayer_freeCtr (k : Nat) (x : LayerX) : (s.setLayer k x).freeCtr = s.freeCtr := rfl
@[simp] theorem State.setLayer_now (k : Nat) (x : LayerX) : (s.setLayer k x).now = s.now := rfl
@[simp] theorem State.setLayer_regs (k : Nat) (x : LayerX) : (s.setLayer k x).regs = s.regs := rfl
@[simp] theorem State.setLayer_act (k : Nat) (x : LayerX) : (s.setLayer k x).act = s.act := rfl
@[simp] theorem State.setLayer_wide (k : Nat) (x : LayerX) : (s.setLayer k x).wide = s.wide := rfl
@[simp] theorem State.setLayer_armAt (k : Nat) (x : LayerX) : (s.setLayer k x).armAt = s.armAt := rfl
@[simp] theorem State.setLayer_hostA (k : Nat) (x : LayerX) : (s.setLayer k x).hostA = s.hostA := rfl
@[simp] theorem State.setLayer_hostB (k : Nat) (x : LayerX) : (s.setLayer k x).hostB = s.hostB := rfl
@[simp] theorem State.setLayer_dram (k : Nat) (x : LayerX) : (s.setLayer k x).dram = s.dram := rfl
@[simp] theorem State.setLayer_flash (k : Nat) (x : LayerX) : (s.setLayer k x).flash = s.flash := rfl
@[simp] theorem State.setLayer_pot (k : Nat) (x : LayerX) : (s.setLayer k x).pot = s.pot := rfl
@[simp] theorem State.setLayer_pins (k : Nat) (x : LayerX) : (s.setLayer k x).pins = s.pins := rfl
@[simp] theorem State.setLayer_msiSent (k : Nat) (x : LayerX) : (s.setLayer k x).msiSent = s.msiSent := rfl
@[simp] theorem State.setLayer_readData (k : Nat) (x : LayerX) : (s.setLayer k x).readData = s.readData := rfl
@[simp] theorem State.setLayer_lastRrs (k : Nat) (x : LayerX) : (s.setLayer k x).lastRrs = s.lastRrs := rfl
@[simp] theorem State.setLayer_plan (k : Nat) (x : LayerX) : (s.setLayer k x).plan = s.plan := rfl
@[simp] theorem State.setLayer_readyPin (k : Nat) (x : LayerX) : (s.setLayer k x).readyPin = s.readyPin := rfl
@[simp] theorem State.setLayer_faultLow (k : Nat) (x : LayerX) : (s.setLayer k x).faultLow = s.faultLow := rfl
@[simp] theorem State.setLayer_wakeLow (k : Nat) (x : LayerX) : (s.setLayer k x).wakeLow = s.wakeLow := rfl
@[simp] theorem State.setLayer_vsyncOut (k : Nat) (x : LayerX) : (s.setLayer k x).vsyncOut = s.vsyncOut := rfl
@[simp] theorem State.setLayer_fns (k : Nat) (x : LayerX) : (s.setLayer k x).fns = s.fns := rfl
@[simp] theorem State.setLayer_portA (k : Nat) (x : LayerX) : (s.setLayer k x).portA = s.portA := rfl
@[simp] theorem State.setLayer_portB (k : Nat) (x : LayerX) : (s.setLayer k x).portB = s.portB := rfl
@[simp] theorem State.setLayer_time (k : Nat) (x : LayerX) : (s.setLayer k x).time = s.time := rfl
@[simp] theorem State.setLayer_mbx (k : Nat) (x : LayerX) : (s.setLayer k x).mbx = s.mbx := rfl
@[simp] theorem State.setLayer_rings (k : Nat) (x : LayerX) : (s.setLayer k x).rings = s.rings := rfl
@[simp] theorem State.setLayer_insts (k : Nat) (x : LayerX) : (s.setLayer k x).insts = s.insts := rfl
@[simp] theorem State.setLayer_fences (k : Nat) (x : LayerX) : (s.setLayer k x).fences = s.fences := rfl
@[simp] theorem State.setLayer_engines (k : Nat) (x : LayerX) : (s.setLayer k x).engines = s.engines := rfl
@[simp] theorem State.setLayer_gfxAcc (k : Nat) (x : LayerX) : (s.setLayer k x).gfxAcc = s.gfxAcc := rfl
@[simp] theorem State.setLayer_cpyAcc (k : Nat) (x : LayerX) : (s.setLayer k x).cpyAcc = s.cpyAcc := rfl
@[simp] theorem State.setLayer_carx (k : Nat) (x : LayerX) : (s.setLayer k x).carx = s.carx := rfl
@[simp] theorem State.setLayer_heads (k : Nat) (x : LayerX) : (s.setLayer k x).heads = s.heads := rfl
@[simp] theorem State.setLayer_outs (k : Nat) (x : LayerX) : (s.setLayer k x).outs = s.outs := rfl
@[simp] theorem State.setLayer_caps (k : Nat) (x : LayerX) : (s.setLayer k x).caps = s.caps := rfl
@[simp] theorem State.setLayer_chans (k : Nat) (x : LayerX) : (s.setLayer k x).chans = s.chans := rfl
@[simp] theorem State.setLayer_dramx (k : Nat) (x : LayerX) : (s.setLayer k x).dramx = s.dramx := rfl
@[simp] theorem State.setLayer_sec (k : Nat) (x : LayerX) : (s.setLayer k x).sec = s.sec := rfl
@[simp] theorem State.setLayer_streams (k : Nat) (x : LayerX) : (s.setLayer k x).streams = s.streams := rfl
@[simp] theorem State.setLayer_chimes (k : Nat) (x : LayerX) : (s.setLayer k x).chimes = s.chimes := rfl
@[simp] theorem State.setLayer_aud (k : Nat) (x : LayerX) : (s.setLayer k x).aud = s.aud := rfl
@[simp] theorem State.setLayer_tch (k : Nat) (x : LayerX) : (s.setLayer k x).tch = s.tch := rfl
@[simp] theorem State.setLayer_hap (k : Nat) (x : LayerX) : (s.setLayer k x).hap = s.hap := rfl
@[simp] theorem State.setLayer_cvu (k : Nat) (x : LayerX) : (s.setLayer k x).cvu = s.cvu := rfl
@[simp] theorem State.setLayer_sn (k : Nat) (x : LayerX) : (s.setLayer k x).sn = s.sn := rfl
@[simp] theorem State.setLayer_pwr (k : Nat) (x : LayerX) : (s.setLayer k x).pwr = s.pwr := rfl
@[simp] theorem State.setLayer_fuses (k : Nat) (x : LayerX) : (s.setLayer k x).fuses = s.fuses := rfl
@[simp] theorem State.setLayer_rpl (k : Nat) (x : LayerX) : (s.setLayer k x).rpl = s.rpl := rfl
@[simp] theorem State.setLayer_fwp (k : Nat) (x : LayerX) : (s.setLayer k x).fwp = s.fwp := rfl
@[simp] theorem State.setLayer_boot (k : Nat) (x : LayerX) : (s.setLayer k x).boot = s.boot := rfl
@[simp] theorem State.setLayer_shadows (k : Nat) (x : LayerX) : (s.setLayer k x).shadows = s.shadows := rfl
@[simp] theorem State.setLayer_shadowGen (k : Nat) (x : LayerX) : (s.setLayer k x).shadowGen = s.shadowGen := rfl
@[simp] theorem State.setLayer_tabAt (k : Nat) (x : LayerX) : (s.setLayer k x).tabAt = s.tabAt := rfl
@[simp] theorem State.setLayer_log (k : Nat) (x : LayerX) : (s.setLayer k x).log = s.log := rfl
@[simp] theorem State.setLayer_brk (k : Nat) (x : LayerX) : (s.setLayer k x).brk = s.brk := rfl

/-! setHead -/
@[simp] theorem State.setHead_pending (k : Nat) (x : HeadX) : (s.setHead k x).pending = s.pending := rfl
@[simp] theorem State.setHead_freeCtr (k : Nat) (x : HeadX) : (s.setHead k x).freeCtr = s.freeCtr := rfl
@[simp] theorem State.setHead_now (k : Nat) (x : HeadX) : (s.setHead k x).now = s.now := rfl
@[simp] theorem State.setHead_regs (k : Nat) (x : HeadX) : (s.setHead k x).regs = s.regs := rfl
@[simp] theorem State.setHead_act (k : Nat) (x : HeadX) : (s.setHead k x).act = s.act := rfl
@[simp] theorem State.setHead_wide (k : Nat) (x : HeadX) : (s.setHead k x).wide = s.wide := rfl
@[simp] theorem State.setHead_armAt (k : Nat) (x : HeadX) : (s.setHead k x).armAt = s.armAt := rfl
@[simp] theorem State.setHead_hostA (k : Nat) (x : HeadX) : (s.setHead k x).hostA = s.hostA := rfl
@[simp] theorem State.setHead_hostB (k : Nat) (x : HeadX) : (s.setHead k x).hostB = s.hostB := rfl
@[simp] theorem State.setHead_dram (k : Nat) (x : HeadX) : (s.setHead k x).dram = s.dram := rfl
@[simp] theorem State.setHead_flash (k : Nat) (x : HeadX) : (s.setHead k x).flash = s.flash := rfl
@[simp] theorem State.setHead_pot (k : Nat) (x : HeadX) : (s.setHead k x).pot = s.pot := rfl
@[simp] theorem State.setHead_pins (k : Nat) (x : HeadX) : (s.setHead k x).pins = s.pins := rfl
@[simp] theorem State.setHead_msiSent (k : Nat) (x : HeadX) : (s.setHead k x).msiSent = s.msiSent := rfl
@[simp] theorem State.setHead_readData (k : Nat) (x : HeadX) : (s.setHead k x).readData = s.readData := rfl
@[simp] theorem State.setHead_lastRrs (k : Nat) (x : HeadX) : (s.setHead k x).lastRrs = s.lastRrs := rfl
@[simp] theorem State.setHead_plan (k : Nat) (x : HeadX) : (s.setHead k x).plan = s.plan := rfl
@[simp] theorem State.setHead_readyPin (k : Nat) (x : HeadX) : (s.setHead k x).readyPin = s.readyPin := rfl
@[simp] theorem State.setHead_faultLow (k : Nat) (x : HeadX) : (s.setHead k x).faultLow = s.faultLow := rfl
@[simp] theorem State.setHead_wakeLow (k : Nat) (x : HeadX) : (s.setHead k x).wakeLow = s.wakeLow := rfl
@[simp] theorem State.setHead_vsyncOut (k : Nat) (x : HeadX) : (s.setHead k x).vsyncOut = s.vsyncOut := rfl
@[simp] theorem State.setHead_fns (k : Nat) (x : HeadX) : (s.setHead k x).fns = s.fns := rfl
@[simp] theorem State.setHead_portA (k : Nat) (x : HeadX) : (s.setHead k x).portA = s.portA := rfl
@[simp] theorem State.setHead_portB (k : Nat) (x : HeadX) : (s.setHead k x).portB = s.portB := rfl
@[simp] theorem State.setHead_time (k : Nat) (x : HeadX) : (s.setHead k x).time = s.time := rfl
@[simp] theorem State.setHead_mbx (k : Nat) (x : HeadX) : (s.setHead k x).mbx = s.mbx := rfl
@[simp] theorem State.setHead_rings (k : Nat) (x : HeadX) : (s.setHead k x).rings = s.rings := rfl
@[simp] theorem State.setHead_insts (k : Nat) (x : HeadX) : (s.setHead k x).insts = s.insts := rfl
@[simp] theorem State.setHead_fences (k : Nat) (x : HeadX) : (s.setHead k x).fences = s.fences := rfl
@[simp] theorem State.setHead_engines (k : Nat) (x : HeadX) : (s.setHead k x).engines = s.engines := rfl
@[simp] theorem State.setHead_gfxAcc (k : Nat) (x : HeadX) : (s.setHead k x).gfxAcc = s.gfxAcc := rfl
@[simp] theorem State.setHead_cpyAcc (k : Nat) (x : HeadX) : (s.setHead k x).cpyAcc = s.cpyAcc := rfl
@[simp] theorem State.setHead_carx (k : Nat) (x : HeadX) : (s.setHead k x).carx = s.carx := rfl
@[simp] theorem State.setHead_layers (k : Nat) (x : HeadX) : (s.setHead k x).layers = s.layers := rfl
@[simp] theorem State.setHead_outs (k : Nat) (x : HeadX) : (s.setHead k x).outs = s.outs := rfl
@[simp] theorem State.setHead_caps (k : Nat) (x : HeadX) : (s.setHead k x).caps = s.caps := rfl
@[simp] theorem State.setHead_chans (k : Nat) (x : HeadX) : (s.setHead k x).chans = s.chans := rfl
@[simp] theorem State.setHead_dramx (k : Nat) (x : HeadX) : (s.setHead k x).dramx = s.dramx := rfl
@[simp] theorem State.setHead_sec (k : Nat) (x : HeadX) : (s.setHead k x).sec = s.sec := rfl
@[simp] theorem State.setHead_streams (k : Nat) (x : HeadX) : (s.setHead k x).streams = s.streams := rfl
@[simp] theorem State.setHead_chimes (k : Nat) (x : HeadX) : (s.setHead k x).chimes = s.chimes := rfl
@[simp] theorem State.setHead_aud (k : Nat) (x : HeadX) : (s.setHead k x).aud = s.aud := rfl
@[simp] theorem State.setHead_tch (k : Nat) (x : HeadX) : (s.setHead k x).tch = s.tch := rfl
@[simp] theorem State.setHead_hap (k : Nat) (x : HeadX) : (s.setHead k x).hap = s.hap := rfl
@[simp] theorem State.setHead_cvu (k : Nat) (x : HeadX) : (s.setHead k x).cvu = s.cvu := rfl
@[simp] theorem State.setHead_sn (k : Nat) (x : HeadX) : (s.setHead k x).sn = s.sn := rfl
@[simp] theorem State.setHead_pwr (k : Nat) (x : HeadX) : (s.setHead k x).pwr = s.pwr := rfl
@[simp] theorem State.setHead_fuses (k : Nat) (x : HeadX) : (s.setHead k x).fuses = s.fuses := rfl
@[simp] theorem State.setHead_rpl (k : Nat) (x : HeadX) : (s.setHead k x).rpl = s.rpl := rfl
@[simp] theorem State.setHead_fwp (k : Nat) (x : HeadX) : (s.setHead k x).fwp = s.fwp := rfl
@[simp] theorem State.setHead_boot (k : Nat) (x : HeadX) : (s.setHead k x).boot = s.boot := rfl
@[simp] theorem State.setHead_shadows (k : Nat) (x : HeadX) : (s.setHead k x).shadows = s.shadows := rfl
@[simp] theorem State.setHead_shadowGen (k : Nat) (x : HeadX) : (s.setHead k x).shadowGen = s.shadowGen := rfl
@[simp] theorem State.setHead_tabAt (k : Nat) (x : HeadX) : (s.setHead k x).tabAt = s.tabAt := rfl
@[simp] theorem State.setHead_log (k : Nat) (x : HeadX) : (s.setHead k x).log = s.log := rfl
@[simp] theorem State.setHead_brk (k : Nat) (x : HeadX) : (s.setHead k x).brk = s.brk := rfl

/-! setOut -/
@[simp] theorem State.setOut_pending (k : Nat) (x : OutX) : (s.setOut k x).pending = s.pending := rfl
@[simp] theorem State.setOut_freeCtr (k : Nat) (x : OutX) : (s.setOut k x).freeCtr = s.freeCtr := rfl
@[simp] theorem State.setOut_now (k : Nat) (x : OutX) : (s.setOut k x).now = s.now := rfl
@[simp] theorem State.setOut_regs (k : Nat) (x : OutX) : (s.setOut k x).regs = s.regs := rfl
@[simp] theorem State.setOut_act (k : Nat) (x : OutX) : (s.setOut k x).act = s.act := rfl
@[simp] theorem State.setOut_wide (k : Nat) (x : OutX) : (s.setOut k x).wide = s.wide := rfl
@[simp] theorem State.setOut_armAt (k : Nat) (x : OutX) : (s.setOut k x).armAt = s.armAt := rfl
@[simp] theorem State.setOut_hostA (k : Nat) (x : OutX) : (s.setOut k x).hostA = s.hostA := rfl
@[simp] theorem State.setOut_hostB (k : Nat) (x : OutX) : (s.setOut k x).hostB = s.hostB := rfl
@[simp] theorem State.setOut_dram (k : Nat) (x : OutX) : (s.setOut k x).dram = s.dram := rfl
@[simp] theorem State.setOut_flash (k : Nat) (x : OutX) : (s.setOut k x).flash = s.flash := rfl
@[simp] theorem State.setOut_pot (k : Nat) (x : OutX) : (s.setOut k x).pot = s.pot := rfl
@[simp] theorem State.setOut_pins (k : Nat) (x : OutX) : (s.setOut k x).pins = s.pins := rfl
@[simp] theorem State.setOut_msiSent (k : Nat) (x : OutX) : (s.setOut k x).msiSent = s.msiSent := rfl
@[simp] theorem State.setOut_readData (k : Nat) (x : OutX) : (s.setOut k x).readData = s.readData := rfl
@[simp] theorem State.setOut_lastRrs (k : Nat) (x : OutX) : (s.setOut k x).lastRrs = s.lastRrs := rfl
@[simp] theorem State.setOut_plan (k : Nat) (x : OutX) : (s.setOut k x).plan = s.plan := rfl
@[simp] theorem State.setOut_readyPin (k : Nat) (x : OutX) : (s.setOut k x).readyPin = s.readyPin := rfl
@[simp] theorem State.setOut_faultLow (k : Nat) (x : OutX) : (s.setOut k x).faultLow = s.faultLow := rfl
@[simp] theorem State.setOut_wakeLow (k : Nat) (x : OutX) : (s.setOut k x).wakeLow = s.wakeLow := rfl
@[simp] theorem State.setOut_vsyncOut (k : Nat) (x : OutX) : (s.setOut k x).vsyncOut = s.vsyncOut := rfl
@[simp] theorem State.setOut_fns (k : Nat) (x : OutX) : (s.setOut k x).fns = s.fns := rfl
@[simp] theorem State.setOut_portA (k : Nat) (x : OutX) : (s.setOut k x).portA = s.portA := rfl
@[simp] theorem State.setOut_portB (k : Nat) (x : OutX) : (s.setOut k x).portB = s.portB := rfl
@[simp] theorem State.setOut_time (k : Nat) (x : OutX) : (s.setOut k x).time = s.time := rfl
@[simp] theorem State.setOut_mbx (k : Nat) (x : OutX) : (s.setOut k x).mbx = s.mbx := rfl
@[simp] theorem State.setOut_rings (k : Nat) (x : OutX) : (s.setOut k x).rings = s.rings := rfl
@[simp] theorem State.setOut_insts (k : Nat) (x : OutX) : (s.setOut k x).insts = s.insts := rfl
@[simp] theorem State.setOut_fences (k : Nat) (x : OutX) : (s.setOut k x).fences = s.fences := rfl
@[simp] theorem State.setOut_engines (k : Nat) (x : OutX) : (s.setOut k x).engines = s.engines := rfl
@[simp] theorem State.setOut_gfxAcc (k : Nat) (x : OutX) : (s.setOut k x).gfxAcc = s.gfxAcc := rfl
@[simp] theorem State.setOut_cpyAcc (k : Nat) (x : OutX) : (s.setOut k x).cpyAcc = s.cpyAcc := rfl
@[simp] theorem State.setOut_carx (k : Nat) (x : OutX) : (s.setOut k x).carx = s.carx := rfl
@[simp] theorem State.setOut_layers (k : Nat) (x : OutX) : (s.setOut k x).layers = s.layers := rfl
@[simp] theorem State.setOut_heads (k : Nat) (x : OutX) : (s.setOut k x).heads = s.heads := rfl
@[simp] theorem State.setOut_caps (k : Nat) (x : OutX) : (s.setOut k x).caps = s.caps := rfl
@[simp] theorem State.setOut_chans (k : Nat) (x : OutX) : (s.setOut k x).chans = s.chans := rfl
@[simp] theorem State.setOut_dramx (k : Nat) (x : OutX) : (s.setOut k x).dramx = s.dramx := rfl
@[simp] theorem State.setOut_sec (k : Nat) (x : OutX) : (s.setOut k x).sec = s.sec := rfl
@[simp] theorem State.setOut_streams (k : Nat) (x : OutX) : (s.setOut k x).streams = s.streams := rfl
@[simp] theorem State.setOut_chimes (k : Nat) (x : OutX) : (s.setOut k x).chimes = s.chimes := rfl
@[simp] theorem State.setOut_aud (k : Nat) (x : OutX) : (s.setOut k x).aud = s.aud := rfl
@[simp] theorem State.setOut_tch (k : Nat) (x : OutX) : (s.setOut k x).tch = s.tch := rfl
@[simp] theorem State.setOut_hap (k : Nat) (x : OutX) : (s.setOut k x).hap = s.hap := rfl
@[simp] theorem State.setOut_cvu (k : Nat) (x : OutX) : (s.setOut k x).cvu = s.cvu := rfl
@[simp] theorem State.setOut_sn (k : Nat) (x : OutX) : (s.setOut k x).sn = s.sn := rfl
@[simp] theorem State.setOut_pwr (k : Nat) (x : OutX) : (s.setOut k x).pwr = s.pwr := rfl
@[simp] theorem State.setOut_fuses (k : Nat) (x : OutX) : (s.setOut k x).fuses = s.fuses := rfl
@[simp] theorem State.setOut_rpl (k : Nat) (x : OutX) : (s.setOut k x).rpl = s.rpl := rfl
@[simp] theorem State.setOut_fwp (k : Nat) (x : OutX) : (s.setOut k x).fwp = s.fwp := rfl
@[simp] theorem State.setOut_boot (k : Nat) (x : OutX) : (s.setOut k x).boot = s.boot := rfl
@[simp] theorem State.setOut_shadows (k : Nat) (x : OutX) : (s.setOut k x).shadows = s.shadows := rfl
@[simp] theorem State.setOut_shadowGen (k : Nat) (x : OutX) : (s.setOut k x).shadowGen = s.shadowGen := rfl
@[simp] theorem State.setOut_tabAt (k : Nat) (x : OutX) : (s.setOut k x).tabAt = s.tabAt := rfl
@[simp] theorem State.setOut_log (k : Nat) (x : OutX) : (s.setOut k x).log = s.log := rfl
@[simp] theorem State.setOut_brk (k : Nat) (x : OutX) : (s.setOut k x).brk = s.brk := rfl

/-! setCap -/
@[simp] theorem State.setCap_pending (k : Nat) (x : CapX) : (s.setCap k x).pending = s.pending := rfl
@[simp] theorem State.setCap_freeCtr (k : Nat) (x : CapX) : (s.setCap k x).freeCtr = s.freeCtr := rfl
@[simp] theorem State.setCap_now (k : Nat) (x : CapX) : (s.setCap k x).now = s.now := rfl
@[simp] theorem State.setCap_regs (k : Nat) (x : CapX) : (s.setCap k x).regs = s.regs := rfl
@[simp] theorem State.setCap_act (k : Nat) (x : CapX) : (s.setCap k x).act = s.act := rfl
@[simp] theorem State.setCap_wide (k : Nat) (x : CapX) : (s.setCap k x).wide = s.wide := rfl
@[simp] theorem State.setCap_armAt (k : Nat) (x : CapX) : (s.setCap k x).armAt = s.armAt := rfl
@[simp] theorem State.setCap_hostA (k : Nat) (x : CapX) : (s.setCap k x).hostA = s.hostA := rfl
@[simp] theorem State.setCap_hostB (k : Nat) (x : CapX) : (s.setCap k x).hostB = s.hostB := rfl
@[simp] theorem State.setCap_dram (k : Nat) (x : CapX) : (s.setCap k x).dram = s.dram := rfl
@[simp] theorem State.setCap_flash (k : Nat) (x : CapX) : (s.setCap k x).flash = s.flash := rfl
@[simp] theorem State.setCap_pot (k : Nat) (x : CapX) : (s.setCap k x).pot = s.pot := rfl
@[simp] theorem State.setCap_pins (k : Nat) (x : CapX) : (s.setCap k x).pins = s.pins := rfl
@[simp] theorem State.setCap_msiSent (k : Nat) (x : CapX) : (s.setCap k x).msiSent = s.msiSent := rfl
@[simp] theorem State.setCap_readData (k : Nat) (x : CapX) : (s.setCap k x).readData = s.readData := rfl
@[simp] theorem State.setCap_lastRrs (k : Nat) (x : CapX) : (s.setCap k x).lastRrs = s.lastRrs := rfl
@[simp] theorem State.setCap_plan (k : Nat) (x : CapX) : (s.setCap k x).plan = s.plan := rfl
@[simp] theorem State.setCap_readyPin (k : Nat) (x : CapX) : (s.setCap k x).readyPin = s.readyPin := rfl
@[simp] theorem State.setCap_faultLow (k : Nat) (x : CapX) : (s.setCap k x).faultLow = s.faultLow := rfl
@[simp] theorem State.setCap_wakeLow (k : Nat) (x : CapX) : (s.setCap k x).wakeLow = s.wakeLow := rfl
@[simp] theorem State.setCap_vsyncOut (k : Nat) (x : CapX) : (s.setCap k x).vsyncOut = s.vsyncOut := rfl
@[simp] theorem State.setCap_fns (k : Nat) (x : CapX) : (s.setCap k x).fns = s.fns := rfl
@[simp] theorem State.setCap_portA (k : Nat) (x : CapX) : (s.setCap k x).portA = s.portA := rfl
@[simp] theorem State.setCap_portB (k : Nat) (x : CapX) : (s.setCap k x).portB = s.portB := rfl
@[simp] theorem State.setCap_time (k : Nat) (x : CapX) : (s.setCap k x).time = s.time := rfl
@[simp] theorem State.setCap_mbx (k : Nat) (x : CapX) : (s.setCap k x).mbx = s.mbx := rfl
@[simp] theorem State.setCap_rings (k : Nat) (x : CapX) : (s.setCap k x).rings = s.rings := rfl
@[simp] theorem State.setCap_insts (k : Nat) (x : CapX) : (s.setCap k x).insts = s.insts := rfl
@[simp] theorem State.setCap_fences (k : Nat) (x : CapX) : (s.setCap k x).fences = s.fences := rfl
@[simp] theorem State.setCap_engines (k : Nat) (x : CapX) : (s.setCap k x).engines = s.engines := rfl
@[simp] theorem State.setCap_gfxAcc (k : Nat) (x : CapX) : (s.setCap k x).gfxAcc = s.gfxAcc := rfl
@[simp] theorem State.setCap_cpyAcc (k : Nat) (x : CapX) : (s.setCap k x).cpyAcc = s.cpyAcc := rfl
@[simp] theorem State.setCap_carx (k : Nat) (x : CapX) : (s.setCap k x).carx = s.carx := rfl
@[simp] theorem State.setCap_layers (k : Nat) (x : CapX) : (s.setCap k x).layers = s.layers := rfl
@[simp] theorem State.setCap_heads (k : Nat) (x : CapX) : (s.setCap k x).heads = s.heads := rfl
@[simp] theorem State.setCap_outs (k : Nat) (x : CapX) : (s.setCap k x).outs = s.outs := rfl
@[simp] theorem State.setCap_chans (k : Nat) (x : CapX) : (s.setCap k x).chans = s.chans := rfl
@[simp] theorem State.setCap_dramx (k : Nat) (x : CapX) : (s.setCap k x).dramx = s.dramx := rfl
@[simp] theorem State.setCap_sec (k : Nat) (x : CapX) : (s.setCap k x).sec = s.sec := rfl
@[simp] theorem State.setCap_streams (k : Nat) (x : CapX) : (s.setCap k x).streams = s.streams := rfl
@[simp] theorem State.setCap_chimes (k : Nat) (x : CapX) : (s.setCap k x).chimes = s.chimes := rfl
@[simp] theorem State.setCap_aud (k : Nat) (x : CapX) : (s.setCap k x).aud = s.aud := rfl
@[simp] theorem State.setCap_tch (k : Nat) (x : CapX) : (s.setCap k x).tch = s.tch := rfl
@[simp] theorem State.setCap_hap (k : Nat) (x : CapX) : (s.setCap k x).hap = s.hap := rfl
@[simp] theorem State.setCap_cvu (k : Nat) (x : CapX) : (s.setCap k x).cvu = s.cvu := rfl
@[simp] theorem State.setCap_sn (k : Nat) (x : CapX) : (s.setCap k x).sn = s.sn := rfl
@[simp] theorem State.setCap_pwr (k : Nat) (x : CapX) : (s.setCap k x).pwr = s.pwr := rfl
@[simp] theorem State.setCap_fuses (k : Nat) (x : CapX) : (s.setCap k x).fuses = s.fuses := rfl
@[simp] theorem State.setCap_rpl (k : Nat) (x : CapX) : (s.setCap k x).rpl = s.rpl := rfl
@[simp] theorem State.setCap_fwp (k : Nat) (x : CapX) : (s.setCap k x).fwp = s.fwp := rfl
@[simp] theorem State.setCap_boot (k : Nat) (x : CapX) : (s.setCap k x).boot = s.boot := rfl
@[simp] theorem State.setCap_shadows (k : Nat) (x : CapX) : (s.setCap k x).shadows = s.shadows := rfl
@[simp] theorem State.setCap_shadowGen (k : Nat) (x : CapX) : (s.setCap k x).shadowGen = s.shadowGen := rfl
@[simp] theorem State.setCap_tabAt (k : Nat) (x : CapX) : (s.setCap k x).tabAt = s.tabAt := rfl
@[simp] theorem State.setCap_log (k : Nat) (x : CapX) : (s.setCap k x).log = s.log := rfl
@[simp] theorem State.setCap_brk (k : Nat) (x : CapX) : (s.setCap k x).brk = s.brk := rfl

/-! setChan -/
@[simp] theorem State.setChan_pending (k : Nat) (x : ChanX) : (s.setChan k x).pending = s.pending := rfl
@[simp] theorem State.setChan_freeCtr (k : Nat) (x : ChanX) : (s.setChan k x).freeCtr = s.freeCtr := rfl
@[simp] theorem State.setChan_now (k : Nat) (x : ChanX) : (s.setChan k x).now = s.now := rfl
@[simp] theorem State.setChan_regs (k : Nat) (x : ChanX) : (s.setChan k x).regs = s.regs := rfl
@[simp] theorem State.setChan_act (k : Nat) (x : ChanX) : (s.setChan k x).act = s.act := rfl
@[simp] theorem State.setChan_wide (k : Nat) (x : ChanX) : (s.setChan k x).wide = s.wide := rfl
@[simp] theorem State.setChan_armAt (k : Nat) (x : ChanX) : (s.setChan k x).armAt = s.armAt := rfl
@[simp] theorem State.setChan_hostA (k : Nat) (x : ChanX) : (s.setChan k x).hostA = s.hostA := rfl
@[simp] theorem State.setChan_hostB (k : Nat) (x : ChanX) : (s.setChan k x).hostB = s.hostB := rfl
@[simp] theorem State.setChan_dram (k : Nat) (x : ChanX) : (s.setChan k x).dram = s.dram := rfl
@[simp] theorem State.setChan_flash (k : Nat) (x : ChanX) : (s.setChan k x).flash = s.flash := rfl
@[simp] theorem State.setChan_pot (k : Nat) (x : ChanX) : (s.setChan k x).pot = s.pot := rfl
@[simp] theorem State.setChan_pins (k : Nat) (x : ChanX) : (s.setChan k x).pins = s.pins := rfl
@[simp] theorem State.setChan_msiSent (k : Nat) (x : ChanX) : (s.setChan k x).msiSent = s.msiSent := rfl
@[simp] theorem State.setChan_readData (k : Nat) (x : ChanX) : (s.setChan k x).readData = s.readData := rfl
@[simp] theorem State.setChan_lastRrs (k : Nat) (x : ChanX) : (s.setChan k x).lastRrs = s.lastRrs := rfl
@[simp] theorem State.setChan_plan (k : Nat) (x : ChanX) : (s.setChan k x).plan = s.plan := rfl
@[simp] theorem State.setChan_readyPin (k : Nat) (x : ChanX) : (s.setChan k x).readyPin = s.readyPin := rfl
@[simp] theorem State.setChan_faultLow (k : Nat) (x : ChanX) : (s.setChan k x).faultLow = s.faultLow := rfl
@[simp] theorem State.setChan_wakeLow (k : Nat) (x : ChanX) : (s.setChan k x).wakeLow = s.wakeLow := rfl
@[simp] theorem State.setChan_vsyncOut (k : Nat) (x : ChanX) : (s.setChan k x).vsyncOut = s.vsyncOut := rfl
@[simp] theorem State.setChan_fns (k : Nat) (x : ChanX) : (s.setChan k x).fns = s.fns := rfl
@[simp] theorem State.setChan_portA (k : Nat) (x : ChanX) : (s.setChan k x).portA = s.portA := rfl
@[simp] theorem State.setChan_portB (k : Nat) (x : ChanX) : (s.setChan k x).portB = s.portB := rfl
@[simp] theorem State.setChan_time (k : Nat) (x : ChanX) : (s.setChan k x).time = s.time := rfl
@[simp] theorem State.setChan_mbx (k : Nat) (x : ChanX) : (s.setChan k x).mbx = s.mbx := rfl
@[simp] theorem State.setChan_rings (k : Nat) (x : ChanX) : (s.setChan k x).rings = s.rings := rfl
@[simp] theorem State.setChan_insts (k : Nat) (x : ChanX) : (s.setChan k x).insts = s.insts := rfl
@[simp] theorem State.setChan_fences (k : Nat) (x : ChanX) : (s.setChan k x).fences = s.fences := rfl
@[simp] theorem State.setChan_engines (k : Nat) (x : ChanX) : (s.setChan k x).engines = s.engines := rfl
@[simp] theorem State.setChan_gfxAcc (k : Nat) (x : ChanX) : (s.setChan k x).gfxAcc = s.gfxAcc := rfl
@[simp] theorem State.setChan_cpyAcc (k : Nat) (x : ChanX) : (s.setChan k x).cpyAcc = s.cpyAcc := rfl
@[simp] theorem State.setChan_carx (k : Nat) (x : ChanX) : (s.setChan k x).carx = s.carx := rfl
@[simp] theorem State.setChan_layers (k : Nat) (x : ChanX) : (s.setChan k x).layers = s.layers := rfl
@[simp] theorem State.setChan_heads (k : Nat) (x : ChanX) : (s.setChan k x).heads = s.heads := rfl
@[simp] theorem State.setChan_outs (k : Nat) (x : ChanX) : (s.setChan k x).outs = s.outs := rfl
@[simp] theorem State.setChan_caps (k : Nat) (x : ChanX) : (s.setChan k x).caps = s.caps := rfl
@[simp] theorem State.setChan_dramx (k : Nat) (x : ChanX) : (s.setChan k x).dramx = s.dramx := rfl
@[simp] theorem State.setChan_sec (k : Nat) (x : ChanX) : (s.setChan k x).sec = s.sec := rfl
@[simp] theorem State.setChan_streams (k : Nat) (x : ChanX) : (s.setChan k x).streams = s.streams := rfl
@[simp] theorem State.setChan_chimes (k : Nat) (x : ChanX) : (s.setChan k x).chimes = s.chimes := rfl
@[simp] theorem State.setChan_aud (k : Nat) (x : ChanX) : (s.setChan k x).aud = s.aud := rfl
@[simp] theorem State.setChan_tch (k : Nat) (x : ChanX) : (s.setChan k x).tch = s.tch := rfl
@[simp] theorem State.setChan_hap (k : Nat) (x : ChanX) : (s.setChan k x).hap = s.hap := rfl
@[simp] theorem State.setChan_cvu (k : Nat) (x : ChanX) : (s.setChan k x).cvu = s.cvu := rfl
@[simp] theorem State.setChan_sn (k : Nat) (x : ChanX) : (s.setChan k x).sn = s.sn := rfl
@[simp] theorem State.setChan_pwr (k : Nat) (x : ChanX) : (s.setChan k x).pwr = s.pwr := rfl
@[simp] theorem State.setChan_fuses (k : Nat) (x : ChanX) : (s.setChan k x).fuses = s.fuses := rfl
@[simp] theorem State.setChan_rpl (k : Nat) (x : ChanX) : (s.setChan k x).rpl = s.rpl := rfl
@[simp] theorem State.setChan_fwp (k : Nat) (x : ChanX) : (s.setChan k x).fwp = s.fwp := rfl
@[simp] theorem State.setChan_boot (k : Nat) (x : ChanX) : (s.setChan k x).boot = s.boot := rfl
@[simp] theorem State.setChan_shadows (k : Nat) (x : ChanX) : (s.setChan k x).shadows = s.shadows := rfl
@[simp] theorem State.setChan_shadowGen (k : Nat) (x : ChanX) : (s.setChan k x).shadowGen = s.shadowGen := rfl
@[simp] theorem State.setChan_tabAt (k : Nat) (x : ChanX) : (s.setChan k x).tabAt = s.tabAt := rfl
@[simp] theorem State.setChan_log (k : Nat) (x : ChanX) : (s.setChan k x).log = s.log := rfl
@[simp] theorem State.setChan_brk (k : Nat) (x : ChanX) : (s.setChan k x).brk = s.brk := rfl

/-! setStream -/
@[simp] theorem State.setStream_pending (k : Nat) (x : StreamX) : (s.setStream k x).pending = s.pending := rfl
@[simp] theorem State.setStream_freeCtr (k : Nat) (x : StreamX) : (s.setStream k x).freeCtr = s.freeCtr := rfl
@[simp] theorem State.setStream_now (k : Nat) (x : StreamX) : (s.setStream k x).now = s.now := rfl
@[simp] theorem State.setStream_regs (k : Nat) (x : StreamX) : (s.setStream k x).regs = s.regs := rfl
@[simp] theorem State.setStream_act (k : Nat) (x : StreamX) : (s.setStream k x).act = s.act := rfl
@[simp] theorem State.setStream_wide (k : Nat) (x : StreamX) : (s.setStream k x).wide = s.wide := rfl
@[simp] theorem State.setStream_armAt (k : Nat) (x : StreamX) : (s.setStream k x).armAt = s.armAt := rfl
@[simp] theorem State.setStream_hostA (k : Nat) (x : StreamX) : (s.setStream k x).hostA = s.hostA := rfl
@[simp] theorem State.setStream_hostB (k : Nat) (x : StreamX) : (s.setStream k x).hostB = s.hostB := rfl
@[simp] theorem State.setStream_dram (k : Nat) (x : StreamX) : (s.setStream k x).dram = s.dram := rfl
@[simp] theorem State.setStream_flash (k : Nat) (x : StreamX) : (s.setStream k x).flash = s.flash := rfl
@[simp] theorem State.setStream_pot (k : Nat) (x : StreamX) : (s.setStream k x).pot = s.pot := rfl
@[simp] theorem State.setStream_pins (k : Nat) (x : StreamX) : (s.setStream k x).pins = s.pins := rfl
@[simp] theorem State.setStream_msiSent (k : Nat) (x : StreamX) : (s.setStream k x).msiSent = s.msiSent := rfl
@[simp] theorem State.setStream_readData (k : Nat) (x : StreamX) : (s.setStream k x).readData = s.readData := rfl
@[simp] theorem State.setStream_lastRrs (k : Nat) (x : StreamX) : (s.setStream k x).lastRrs = s.lastRrs := rfl
@[simp] theorem State.setStream_plan (k : Nat) (x : StreamX) : (s.setStream k x).plan = s.plan := rfl
@[simp] theorem State.setStream_readyPin (k : Nat) (x : StreamX) : (s.setStream k x).readyPin = s.readyPin := rfl
@[simp] theorem State.setStream_faultLow (k : Nat) (x : StreamX) : (s.setStream k x).faultLow = s.faultLow := rfl
@[simp] theorem State.setStream_wakeLow (k : Nat) (x : StreamX) : (s.setStream k x).wakeLow = s.wakeLow := rfl
@[simp] theorem State.setStream_vsyncOut (k : Nat) (x : StreamX) : (s.setStream k x).vsyncOut = s.vsyncOut := rfl
@[simp] theorem State.setStream_fns (k : Nat) (x : StreamX) : (s.setStream k x).fns = s.fns := rfl
@[simp] theorem State.setStream_portA (k : Nat) (x : StreamX) : (s.setStream k x).portA = s.portA := rfl
@[simp] theorem State.setStream_portB (k : Nat) (x : StreamX) : (s.setStream k x).portB = s.portB := rfl
@[simp] theorem State.setStream_time (k : Nat) (x : StreamX) : (s.setStream k x).time = s.time := rfl
@[simp] theorem State.setStream_mbx (k : Nat) (x : StreamX) : (s.setStream k x).mbx = s.mbx := rfl
@[simp] theorem State.setStream_rings (k : Nat) (x : StreamX) : (s.setStream k x).rings = s.rings := rfl
@[simp] theorem State.setStream_insts (k : Nat) (x : StreamX) : (s.setStream k x).insts = s.insts := rfl
@[simp] theorem State.setStream_fences (k : Nat) (x : StreamX) : (s.setStream k x).fences = s.fences := rfl
@[simp] theorem State.setStream_engines (k : Nat) (x : StreamX) : (s.setStream k x).engines = s.engines := rfl
@[simp] theorem State.setStream_gfxAcc (k : Nat) (x : StreamX) : (s.setStream k x).gfxAcc = s.gfxAcc := rfl
@[simp] theorem State.setStream_cpyAcc (k : Nat) (x : StreamX) : (s.setStream k x).cpyAcc = s.cpyAcc := rfl
@[simp] theorem State.setStream_carx (k : Nat) (x : StreamX) : (s.setStream k x).carx = s.carx := rfl
@[simp] theorem State.setStream_layers (k : Nat) (x : StreamX) : (s.setStream k x).layers = s.layers := rfl
@[simp] theorem State.setStream_heads (k : Nat) (x : StreamX) : (s.setStream k x).heads = s.heads := rfl
@[simp] theorem State.setStream_outs (k : Nat) (x : StreamX) : (s.setStream k x).outs = s.outs := rfl
@[simp] theorem State.setStream_caps (k : Nat) (x : StreamX) : (s.setStream k x).caps = s.caps := rfl
@[simp] theorem State.setStream_chans (k : Nat) (x : StreamX) : (s.setStream k x).chans = s.chans := rfl
@[simp] theorem State.setStream_dramx (k : Nat) (x : StreamX) : (s.setStream k x).dramx = s.dramx := rfl
@[simp] theorem State.setStream_sec (k : Nat) (x : StreamX) : (s.setStream k x).sec = s.sec := rfl
@[simp] theorem State.setStream_chimes (k : Nat) (x : StreamX) : (s.setStream k x).chimes = s.chimes := rfl
@[simp] theorem State.setStream_aud (k : Nat) (x : StreamX) : (s.setStream k x).aud = s.aud := rfl
@[simp] theorem State.setStream_tch (k : Nat) (x : StreamX) : (s.setStream k x).tch = s.tch := rfl
@[simp] theorem State.setStream_hap (k : Nat) (x : StreamX) : (s.setStream k x).hap = s.hap := rfl
@[simp] theorem State.setStream_cvu (k : Nat) (x : StreamX) : (s.setStream k x).cvu = s.cvu := rfl
@[simp] theorem State.setStream_sn (k : Nat) (x : StreamX) : (s.setStream k x).sn = s.sn := rfl
@[simp] theorem State.setStream_pwr (k : Nat) (x : StreamX) : (s.setStream k x).pwr = s.pwr := rfl
@[simp] theorem State.setStream_fuses (k : Nat) (x : StreamX) : (s.setStream k x).fuses = s.fuses := rfl
@[simp] theorem State.setStream_rpl (k : Nat) (x : StreamX) : (s.setStream k x).rpl = s.rpl := rfl
@[simp] theorem State.setStream_fwp (k : Nat) (x : StreamX) : (s.setStream k x).fwp = s.fwp := rfl
@[simp] theorem State.setStream_boot (k : Nat) (x : StreamX) : (s.setStream k x).boot = s.boot := rfl
@[simp] theorem State.setStream_shadows (k : Nat) (x : StreamX) : (s.setStream k x).shadows = s.shadows := rfl
@[simp] theorem State.setStream_shadowGen (k : Nat) (x : StreamX) : (s.setStream k x).shadowGen = s.shadowGen := rfl
@[simp] theorem State.setStream_tabAt (k : Nat) (x : StreamX) : (s.setStream k x).tabAt = s.tabAt := rfl
@[simp] theorem State.setStream_log (k : Nat) (x : StreamX) : (s.setStream k x).log = s.log := rfl
@[simp] theorem State.setStream_brk (k : Nat) (x : StreamX) : (s.setStream k x).brk = s.brk := rfl

/-! setChimeOf -/
@[simp] theorem State.setChimeOf_pending (k : Nat) (x : ChimeX) : (s.setChimeOf k x).pending = s.pending := rfl
@[simp] theorem State.setChimeOf_freeCtr (k : Nat) (x : ChimeX) : (s.setChimeOf k x).freeCtr = s.freeCtr := rfl
@[simp] theorem State.setChimeOf_now (k : Nat) (x : ChimeX) : (s.setChimeOf k x).now = s.now := rfl
@[simp] theorem State.setChimeOf_regs (k : Nat) (x : ChimeX) : (s.setChimeOf k x).regs = s.regs := rfl
@[simp] theorem State.setChimeOf_act (k : Nat) (x : ChimeX) : (s.setChimeOf k x).act = s.act := rfl
@[simp] theorem State.setChimeOf_wide (k : Nat) (x : ChimeX) : (s.setChimeOf k x).wide = s.wide := rfl
@[simp] theorem State.setChimeOf_armAt (k : Nat) (x : ChimeX) : (s.setChimeOf k x).armAt = s.armAt := rfl
@[simp] theorem State.setChimeOf_hostA (k : Nat) (x : ChimeX) : (s.setChimeOf k x).hostA = s.hostA := rfl
@[simp] theorem State.setChimeOf_hostB (k : Nat) (x : ChimeX) : (s.setChimeOf k x).hostB = s.hostB := rfl
@[simp] theorem State.setChimeOf_dram (k : Nat) (x : ChimeX) : (s.setChimeOf k x).dram = s.dram := rfl
@[simp] theorem State.setChimeOf_flash (k : Nat) (x : ChimeX) : (s.setChimeOf k x).flash = s.flash := rfl
@[simp] theorem State.setChimeOf_pot (k : Nat) (x : ChimeX) : (s.setChimeOf k x).pot = s.pot := rfl
@[simp] theorem State.setChimeOf_pins (k : Nat) (x : ChimeX) : (s.setChimeOf k x).pins = s.pins := rfl
@[simp] theorem State.setChimeOf_msiSent (k : Nat) (x : ChimeX) : (s.setChimeOf k x).msiSent = s.msiSent := rfl
@[simp] theorem State.setChimeOf_readData (k : Nat) (x : ChimeX) : (s.setChimeOf k x).readData = s.readData := rfl
@[simp] theorem State.setChimeOf_lastRrs (k : Nat) (x : ChimeX) : (s.setChimeOf k x).lastRrs = s.lastRrs := rfl
@[simp] theorem State.setChimeOf_plan (k : Nat) (x : ChimeX) : (s.setChimeOf k x).plan = s.plan := rfl
@[simp] theorem State.setChimeOf_readyPin (k : Nat) (x : ChimeX) : (s.setChimeOf k x).readyPin = s.readyPin := rfl
@[simp] theorem State.setChimeOf_faultLow (k : Nat) (x : ChimeX) : (s.setChimeOf k x).faultLow = s.faultLow := rfl
@[simp] theorem State.setChimeOf_wakeLow (k : Nat) (x : ChimeX) : (s.setChimeOf k x).wakeLow = s.wakeLow := rfl
@[simp] theorem State.setChimeOf_vsyncOut (k : Nat) (x : ChimeX) : (s.setChimeOf k x).vsyncOut = s.vsyncOut := rfl
@[simp] theorem State.setChimeOf_fns (k : Nat) (x : ChimeX) : (s.setChimeOf k x).fns = s.fns := rfl
@[simp] theorem State.setChimeOf_portA (k : Nat) (x : ChimeX) : (s.setChimeOf k x).portA = s.portA := rfl
@[simp] theorem State.setChimeOf_portB (k : Nat) (x : ChimeX) : (s.setChimeOf k x).portB = s.portB := rfl
@[simp] theorem State.setChimeOf_time (k : Nat) (x : ChimeX) : (s.setChimeOf k x).time = s.time := rfl
@[simp] theorem State.setChimeOf_mbx (k : Nat) (x : ChimeX) : (s.setChimeOf k x).mbx = s.mbx := rfl
@[simp] theorem State.setChimeOf_rings (k : Nat) (x : ChimeX) : (s.setChimeOf k x).rings = s.rings := rfl
@[simp] theorem State.setChimeOf_insts (k : Nat) (x : ChimeX) : (s.setChimeOf k x).insts = s.insts := rfl
@[simp] theorem State.setChimeOf_fences (k : Nat) (x : ChimeX) : (s.setChimeOf k x).fences = s.fences := rfl
@[simp] theorem State.setChimeOf_engines (k : Nat) (x : ChimeX) : (s.setChimeOf k x).engines = s.engines := rfl
@[simp] theorem State.setChimeOf_gfxAcc (k : Nat) (x : ChimeX) : (s.setChimeOf k x).gfxAcc = s.gfxAcc := rfl
@[simp] theorem State.setChimeOf_cpyAcc (k : Nat) (x : ChimeX) : (s.setChimeOf k x).cpyAcc = s.cpyAcc := rfl
@[simp] theorem State.setChimeOf_carx (k : Nat) (x : ChimeX) : (s.setChimeOf k x).carx = s.carx := rfl
@[simp] theorem State.setChimeOf_layers (k : Nat) (x : ChimeX) : (s.setChimeOf k x).layers = s.layers := rfl
@[simp] theorem State.setChimeOf_heads (k : Nat) (x : ChimeX) : (s.setChimeOf k x).heads = s.heads := rfl
@[simp] theorem State.setChimeOf_outs (k : Nat) (x : ChimeX) : (s.setChimeOf k x).outs = s.outs := rfl
@[simp] theorem State.setChimeOf_caps (k : Nat) (x : ChimeX) : (s.setChimeOf k x).caps = s.caps := rfl
@[simp] theorem State.setChimeOf_chans (k : Nat) (x : ChimeX) : (s.setChimeOf k x).chans = s.chans := rfl
@[simp] theorem State.setChimeOf_dramx (k : Nat) (x : ChimeX) : (s.setChimeOf k x).dramx = s.dramx := rfl
@[simp] theorem State.setChimeOf_sec (k : Nat) (x : ChimeX) : (s.setChimeOf k x).sec = s.sec := rfl
@[simp] theorem State.setChimeOf_streams (k : Nat) (x : ChimeX) : (s.setChimeOf k x).streams = s.streams := rfl
@[simp] theorem State.setChimeOf_aud (k : Nat) (x : ChimeX) : (s.setChimeOf k x).aud = s.aud := rfl
@[simp] theorem State.setChimeOf_tch (k : Nat) (x : ChimeX) : (s.setChimeOf k x).tch = s.tch := rfl
@[simp] theorem State.setChimeOf_hap (k : Nat) (x : ChimeX) : (s.setChimeOf k x).hap = s.hap := rfl
@[simp] theorem State.setChimeOf_cvu (k : Nat) (x : ChimeX) : (s.setChimeOf k x).cvu = s.cvu := rfl
@[simp] theorem State.setChimeOf_sn (k : Nat) (x : ChimeX) : (s.setChimeOf k x).sn = s.sn := rfl
@[simp] theorem State.setChimeOf_pwr (k : Nat) (x : ChimeX) : (s.setChimeOf k x).pwr = s.pwr := rfl
@[simp] theorem State.setChimeOf_fuses (k : Nat) (x : ChimeX) : (s.setChimeOf k x).fuses = s.fuses := rfl
@[simp] theorem State.setChimeOf_rpl (k : Nat) (x : ChimeX) : (s.setChimeOf k x).rpl = s.rpl := rfl
@[simp] theorem State.setChimeOf_fwp (k : Nat) (x : ChimeX) : (s.setChimeOf k x).fwp = s.fwp := rfl
@[simp] theorem State.setChimeOf_boot (k : Nat) (x : ChimeX) : (s.setChimeOf k x).boot = s.boot := rfl
@[simp] theorem State.setChimeOf_shadows (k : Nat) (x : ChimeX) : (s.setChimeOf k x).shadows = s.shadows := rfl
@[simp] theorem State.setChimeOf_shadowGen (k : Nat) (x : ChimeX) : (s.setChimeOf k x).shadowGen = s.shadowGen := rfl
@[simp] theorem State.setChimeOf_tabAt (k : Nat) (x : ChimeX) : (s.setChimeOf k x).tabAt = s.tabAt := rfl
@[simp] theorem State.setChimeOf_log (k : Nat) (x : ChimeX) : (s.setChimeOf k x).log = s.log := rfl
@[simp] theorem State.setChimeOf_brk (k : Nat) (x : ChimeX) : (s.setChimeOf k x).brk = s.brk := rfl

/-! setTouch -/
@[simp] theorem State.setTouch_pending (k : Nat) (x : TouchX) : (s.setTouch k x).pending = s.pending := rfl
@[simp] theorem State.setTouch_freeCtr (k : Nat) (x : TouchX) : (s.setTouch k x).freeCtr = s.freeCtr := rfl
@[simp] theorem State.setTouch_now (k : Nat) (x : TouchX) : (s.setTouch k x).now = s.now := rfl
@[simp] theorem State.setTouch_regs (k : Nat) (x : TouchX) : (s.setTouch k x).regs = s.regs := rfl
@[simp] theorem State.setTouch_act (k : Nat) (x : TouchX) : (s.setTouch k x).act = s.act := rfl
@[simp] theorem State.setTouch_wide (k : Nat) (x : TouchX) : (s.setTouch k x).wide = s.wide := rfl
@[simp] theorem State.setTouch_armAt (k : Nat) (x : TouchX) : (s.setTouch k x).armAt = s.armAt := rfl
@[simp] theorem State.setTouch_hostA (k : Nat) (x : TouchX) : (s.setTouch k x).hostA = s.hostA := rfl
@[simp] theorem State.setTouch_hostB (k : Nat) (x : TouchX) : (s.setTouch k x).hostB = s.hostB := rfl
@[simp] theorem State.setTouch_dram (k : Nat) (x : TouchX) : (s.setTouch k x).dram = s.dram := rfl
@[simp] theorem State.setTouch_flash (k : Nat) (x : TouchX) : (s.setTouch k x).flash = s.flash := rfl
@[simp] theorem State.setTouch_pot (k : Nat) (x : TouchX) : (s.setTouch k x).pot = s.pot := rfl
@[simp] theorem State.setTouch_pins (k : Nat) (x : TouchX) : (s.setTouch k x).pins = s.pins := rfl
@[simp] theorem State.setTouch_msiSent (k : Nat) (x : TouchX) : (s.setTouch k x).msiSent = s.msiSent := rfl
@[simp] theorem State.setTouch_readData (k : Nat) (x : TouchX) : (s.setTouch k x).readData = s.readData := rfl
@[simp] theorem State.setTouch_lastRrs (k : Nat) (x : TouchX) : (s.setTouch k x).lastRrs = s.lastRrs := rfl
@[simp] theorem State.setTouch_plan (k : Nat) (x : TouchX) : (s.setTouch k x).plan = s.plan := rfl
@[simp] theorem State.setTouch_readyPin (k : Nat) (x : TouchX) : (s.setTouch k x).readyPin = s.readyPin := rfl
@[simp] theorem State.setTouch_faultLow (k : Nat) (x : TouchX) : (s.setTouch k x).faultLow = s.faultLow := rfl
@[simp] theorem State.setTouch_wakeLow (k : Nat) (x : TouchX) : (s.setTouch k x).wakeLow = s.wakeLow := rfl
@[simp] theorem State.setTouch_vsyncOut (k : Nat) (x : TouchX) : (s.setTouch k x).vsyncOut = s.vsyncOut := rfl
@[simp] theorem State.setTouch_fns (k : Nat) (x : TouchX) : (s.setTouch k x).fns = s.fns := rfl
@[simp] theorem State.setTouch_portA (k : Nat) (x : TouchX) : (s.setTouch k x).portA = s.portA := rfl
@[simp] theorem State.setTouch_portB (k : Nat) (x : TouchX) : (s.setTouch k x).portB = s.portB := rfl
@[simp] theorem State.setTouch_time (k : Nat) (x : TouchX) : (s.setTouch k x).time = s.time := rfl
@[simp] theorem State.setTouch_mbx (k : Nat) (x : TouchX) : (s.setTouch k x).mbx = s.mbx := rfl
@[simp] theorem State.setTouch_rings (k : Nat) (x : TouchX) : (s.setTouch k x).rings = s.rings := rfl
@[simp] theorem State.setTouch_insts (k : Nat) (x : TouchX) : (s.setTouch k x).insts = s.insts := rfl
@[simp] theorem State.setTouch_fences (k : Nat) (x : TouchX) : (s.setTouch k x).fences = s.fences := rfl
@[simp] theorem State.setTouch_engines (k : Nat) (x : TouchX) : (s.setTouch k x).engines = s.engines := rfl
@[simp] theorem State.setTouch_gfxAcc (k : Nat) (x : TouchX) : (s.setTouch k x).gfxAcc = s.gfxAcc := rfl
@[simp] theorem State.setTouch_cpyAcc (k : Nat) (x : TouchX) : (s.setTouch k x).cpyAcc = s.cpyAcc := rfl
@[simp] theorem State.setTouch_carx (k : Nat) (x : TouchX) : (s.setTouch k x).carx = s.carx := rfl
@[simp] theorem State.setTouch_layers (k : Nat) (x : TouchX) : (s.setTouch k x).layers = s.layers := rfl
@[simp] theorem State.setTouch_heads (k : Nat) (x : TouchX) : (s.setTouch k x).heads = s.heads := rfl
@[simp] theorem State.setTouch_outs (k : Nat) (x : TouchX) : (s.setTouch k x).outs = s.outs := rfl
@[simp] theorem State.setTouch_caps (k : Nat) (x : TouchX) : (s.setTouch k x).caps = s.caps := rfl
@[simp] theorem State.setTouch_chans (k : Nat) (x : TouchX) : (s.setTouch k x).chans = s.chans := rfl
@[simp] theorem State.setTouch_dramx (k : Nat) (x : TouchX) : (s.setTouch k x).dramx = s.dramx := rfl
@[simp] theorem State.setTouch_sec (k : Nat) (x : TouchX) : (s.setTouch k x).sec = s.sec := rfl
@[simp] theorem State.setTouch_streams (k : Nat) (x : TouchX) : (s.setTouch k x).streams = s.streams := rfl
@[simp] theorem State.setTouch_chimes (k : Nat) (x : TouchX) : (s.setTouch k x).chimes = s.chimes := rfl
@[simp] theorem State.setTouch_aud (k : Nat) (x : TouchX) : (s.setTouch k x).aud = s.aud := rfl
@[simp] theorem State.setTouch_hap (k : Nat) (x : TouchX) : (s.setTouch k x).hap = s.hap := rfl
@[simp] theorem State.setTouch_cvu (k : Nat) (x : TouchX) : (s.setTouch k x).cvu = s.cvu := rfl
@[simp] theorem State.setTouch_sn (k : Nat) (x : TouchX) : (s.setTouch k x).sn = s.sn := rfl
@[simp] theorem State.setTouch_pwr (k : Nat) (x : TouchX) : (s.setTouch k x).pwr = s.pwr := rfl
@[simp] theorem State.setTouch_fuses (k : Nat) (x : TouchX) : (s.setTouch k x).fuses = s.fuses := rfl
@[simp] theorem State.setTouch_rpl (k : Nat) (x : TouchX) : (s.setTouch k x).rpl = s.rpl := rfl
@[simp] theorem State.setTouch_fwp (k : Nat) (x : TouchX) : (s.setTouch k x).fwp = s.fwp := rfl
@[simp] theorem State.setTouch_boot (k : Nat) (x : TouchX) : (s.setTouch k x).boot = s.boot := rfl
@[simp] theorem State.setTouch_shadows (k : Nat) (x : TouchX) : (s.setTouch k x).shadows = s.shadows := rfl
@[simp] theorem State.setTouch_shadowGen (k : Nat) (x : TouchX) : (s.setTouch k x).shadowGen = s.shadowGen := rfl
@[simp] theorem State.setTouch_tabAt (k : Nat) (x : TouchX) : (s.setTouch k x).tabAt = s.tabAt := rfl
@[simp] theorem State.setTouch_log (k : Nat) (x : TouchX) : (s.setTouch k x).log = s.log := rfl
@[simp] theorem State.setTouch_brk (k : Nat) (x : TouchX) : (s.setTouch k x).brk = s.brk := rfl

/-! setHapOf -/
@[simp] theorem State.setHapOf_pending (k : Nat) (x : HapX) : (s.setHapOf k x).pending = s.pending := rfl
@[simp] theorem State.setHapOf_freeCtr (k : Nat) (x : HapX) : (s.setHapOf k x).freeCtr = s.freeCtr := rfl
@[simp] theorem State.setHapOf_now (k : Nat) (x : HapX) : (s.setHapOf k x).now = s.now := rfl
@[simp] theorem State.setHapOf_regs (k : Nat) (x : HapX) : (s.setHapOf k x).regs = s.regs := rfl
@[simp] theorem State.setHapOf_act (k : Nat) (x : HapX) : (s.setHapOf k x).act = s.act := rfl
@[simp] theorem State.setHapOf_wide (k : Nat) (x : HapX) : (s.setHapOf k x).wide = s.wide := rfl
@[simp] theorem State.setHapOf_armAt (k : Nat) (x : HapX) : (s.setHapOf k x).armAt = s.armAt := rfl
@[simp] theorem State.setHapOf_hostA (k : Nat) (x : HapX) : (s.setHapOf k x).hostA = s.hostA := rfl
@[simp] theorem State.setHapOf_hostB (k : Nat) (x : HapX) : (s.setHapOf k x).hostB = s.hostB := rfl
@[simp] theorem State.setHapOf_dram (k : Nat) (x : HapX) : (s.setHapOf k x).dram = s.dram := rfl
@[simp] theorem State.setHapOf_flash (k : Nat) (x : HapX) : (s.setHapOf k x).flash = s.flash := rfl
@[simp] theorem State.setHapOf_pot (k : Nat) (x : HapX) : (s.setHapOf k x).pot = s.pot := rfl
@[simp] theorem State.setHapOf_pins (k : Nat) (x : HapX) : (s.setHapOf k x).pins = s.pins := rfl
@[simp] theorem State.setHapOf_msiSent (k : Nat) (x : HapX) : (s.setHapOf k x).msiSent = s.msiSent := rfl
@[simp] theorem State.setHapOf_readData (k : Nat) (x : HapX) : (s.setHapOf k x).readData = s.readData := rfl
@[simp] theorem State.setHapOf_lastRrs (k : Nat) (x : HapX) : (s.setHapOf k x).lastRrs = s.lastRrs := rfl
@[simp] theorem State.setHapOf_plan (k : Nat) (x : HapX) : (s.setHapOf k x).plan = s.plan := rfl
@[simp] theorem State.setHapOf_readyPin (k : Nat) (x : HapX) : (s.setHapOf k x).readyPin = s.readyPin := rfl
@[simp] theorem State.setHapOf_faultLow (k : Nat) (x : HapX) : (s.setHapOf k x).faultLow = s.faultLow := rfl
@[simp] theorem State.setHapOf_wakeLow (k : Nat) (x : HapX) : (s.setHapOf k x).wakeLow = s.wakeLow := rfl
@[simp] theorem State.setHapOf_vsyncOut (k : Nat) (x : HapX) : (s.setHapOf k x).vsyncOut = s.vsyncOut := rfl
@[simp] theorem State.setHapOf_fns (k : Nat) (x : HapX) : (s.setHapOf k x).fns = s.fns := rfl
@[simp] theorem State.setHapOf_portA (k : Nat) (x : HapX) : (s.setHapOf k x).portA = s.portA := rfl
@[simp] theorem State.setHapOf_portB (k : Nat) (x : HapX) : (s.setHapOf k x).portB = s.portB := rfl
@[simp] theorem State.setHapOf_time (k : Nat) (x : HapX) : (s.setHapOf k x).time = s.time := rfl
@[simp] theorem State.setHapOf_mbx (k : Nat) (x : HapX) : (s.setHapOf k x).mbx = s.mbx := rfl
@[simp] theorem State.setHapOf_rings (k : Nat) (x : HapX) : (s.setHapOf k x).rings = s.rings := rfl
@[simp] theorem State.setHapOf_insts (k : Nat) (x : HapX) : (s.setHapOf k x).insts = s.insts := rfl
@[simp] theorem State.setHapOf_fences (k : Nat) (x : HapX) : (s.setHapOf k x).fences = s.fences := rfl
@[simp] theorem State.setHapOf_engines (k : Nat) (x : HapX) : (s.setHapOf k x).engines = s.engines := rfl
@[simp] theorem State.setHapOf_gfxAcc (k : Nat) (x : HapX) : (s.setHapOf k x).gfxAcc = s.gfxAcc := rfl
@[simp] theorem State.setHapOf_cpyAcc (k : Nat) (x : HapX) : (s.setHapOf k x).cpyAcc = s.cpyAcc := rfl
@[simp] theorem State.setHapOf_carx (k : Nat) (x : HapX) : (s.setHapOf k x).carx = s.carx := rfl
@[simp] theorem State.setHapOf_layers (k : Nat) (x : HapX) : (s.setHapOf k x).layers = s.layers := rfl
@[simp] theorem State.setHapOf_heads (k : Nat) (x : HapX) : (s.setHapOf k x).heads = s.heads := rfl
@[simp] theorem State.setHapOf_outs (k : Nat) (x : HapX) : (s.setHapOf k x).outs = s.outs := rfl
@[simp] theorem State.setHapOf_caps (k : Nat) (x : HapX) : (s.setHapOf k x).caps = s.caps := rfl
@[simp] theorem State.setHapOf_chans (k : Nat) (x : HapX) : (s.setHapOf k x).chans = s.chans := rfl
@[simp] theorem State.setHapOf_dramx (k : Nat) (x : HapX) : (s.setHapOf k x).dramx = s.dramx := rfl
@[simp] theorem State.setHapOf_sec (k : Nat) (x : HapX) : (s.setHapOf k x).sec = s.sec := rfl
@[simp] theorem State.setHapOf_streams (k : Nat) (x : HapX) : (s.setHapOf k x).streams = s.streams := rfl
@[simp] theorem State.setHapOf_chimes (k : Nat) (x : HapX) : (s.setHapOf k x).chimes = s.chimes := rfl
@[simp] theorem State.setHapOf_aud (k : Nat) (x : HapX) : (s.setHapOf k x).aud = s.aud := rfl
@[simp] theorem State.setHapOf_tch (k : Nat) (x : HapX) : (s.setHapOf k x).tch = s.tch := rfl
@[simp] theorem State.setHapOf_cvu (k : Nat) (x : HapX) : (s.setHapOf k x).cvu = s.cvu := rfl
@[simp] theorem State.setHapOf_sn (k : Nat) (x : HapX) : (s.setHapOf k x).sn = s.sn := rfl
@[simp] theorem State.setHapOf_pwr (k : Nat) (x : HapX) : (s.setHapOf k x).pwr = s.pwr := rfl
@[simp] theorem State.setHapOf_fuses (k : Nat) (x : HapX) : (s.setHapOf k x).fuses = s.fuses := rfl
@[simp] theorem State.setHapOf_rpl (k : Nat) (x : HapX) : (s.setHapOf k x).rpl = s.rpl := rfl
@[simp] theorem State.setHapOf_fwp (k : Nat) (x : HapX) : (s.setHapOf k x).fwp = s.fwp := rfl
@[simp] theorem State.setHapOf_boot (k : Nat) (x : HapX) : (s.setHapOf k x).boot = s.boot := rfl
@[simp] theorem State.setHapOf_shadows (k : Nat) (x : HapX) : (s.setHapOf k x).shadows = s.shadows := rfl
@[simp] theorem State.setHapOf_shadowGen (k : Nat) (x : HapX) : (s.setHapOf k x).shadowGen = s.shadowGen := rfl
@[simp] theorem State.setHapOf_tabAt (k : Nat) (x : HapX) : (s.setHapOf k x).tabAt = s.tabAt := rfl
@[simp] theorem State.setHapOf_log (k : Nat) (x : HapX) : (s.setHapOf k x).log = s.log := rfl
@[simp] theorem State.setHapOf_brk (k : Nat) (x : HapX) : (s.setHapOf k x).brk = s.brk := rfl

/-! setUnit -/
@[simp] theorem State.setUnit_pending (k : Nat) (x : CvuX) : (s.setUnit k x).pending = s.pending := rfl
@[simp] theorem State.setUnit_freeCtr (k : Nat) (x : CvuX) : (s.setUnit k x).freeCtr = s.freeCtr := rfl
@[simp] theorem State.setUnit_now (k : Nat) (x : CvuX) : (s.setUnit k x).now = s.now := rfl
@[simp] theorem State.setUnit_regs (k : Nat) (x : CvuX) : (s.setUnit k x).regs = s.regs := rfl
@[simp] theorem State.setUnit_act (k : Nat) (x : CvuX) : (s.setUnit k x).act = s.act := rfl
@[simp] theorem State.setUnit_wide (k : Nat) (x : CvuX) : (s.setUnit k x).wide = s.wide := rfl
@[simp] theorem State.setUnit_armAt (k : Nat) (x : CvuX) : (s.setUnit k x).armAt = s.armAt := rfl
@[simp] theorem State.setUnit_hostA (k : Nat) (x : CvuX) : (s.setUnit k x).hostA = s.hostA := rfl
@[simp] theorem State.setUnit_hostB (k : Nat) (x : CvuX) : (s.setUnit k x).hostB = s.hostB := rfl
@[simp] theorem State.setUnit_dram (k : Nat) (x : CvuX) : (s.setUnit k x).dram = s.dram := rfl
@[simp] theorem State.setUnit_flash (k : Nat) (x : CvuX) : (s.setUnit k x).flash = s.flash := rfl
@[simp] theorem State.setUnit_pot (k : Nat) (x : CvuX) : (s.setUnit k x).pot = s.pot := rfl
@[simp] theorem State.setUnit_pins (k : Nat) (x : CvuX) : (s.setUnit k x).pins = s.pins := rfl
@[simp] theorem State.setUnit_msiSent (k : Nat) (x : CvuX) : (s.setUnit k x).msiSent = s.msiSent := rfl
@[simp] theorem State.setUnit_readData (k : Nat) (x : CvuX) : (s.setUnit k x).readData = s.readData := rfl
@[simp] theorem State.setUnit_lastRrs (k : Nat) (x : CvuX) : (s.setUnit k x).lastRrs = s.lastRrs := rfl
@[simp] theorem State.setUnit_plan (k : Nat) (x : CvuX) : (s.setUnit k x).plan = s.plan := rfl
@[simp] theorem State.setUnit_readyPin (k : Nat) (x : CvuX) : (s.setUnit k x).readyPin = s.readyPin := rfl
@[simp] theorem State.setUnit_faultLow (k : Nat) (x : CvuX) : (s.setUnit k x).faultLow = s.faultLow := rfl
@[simp] theorem State.setUnit_wakeLow (k : Nat) (x : CvuX) : (s.setUnit k x).wakeLow = s.wakeLow := rfl
@[simp] theorem State.setUnit_vsyncOut (k : Nat) (x : CvuX) : (s.setUnit k x).vsyncOut = s.vsyncOut := rfl
@[simp] theorem State.setUnit_fns (k : Nat) (x : CvuX) : (s.setUnit k x).fns = s.fns := rfl
@[simp] theorem State.setUnit_portA (k : Nat) (x : CvuX) : (s.setUnit k x).portA = s.portA := rfl
@[simp] theorem State.setUnit_portB (k : Nat) (x : CvuX) : (s.setUnit k x).portB = s.portB := rfl
@[simp] theorem State.setUnit_time (k : Nat) (x : CvuX) : (s.setUnit k x).time = s.time := rfl
@[simp] theorem State.setUnit_mbx (k : Nat) (x : CvuX) : (s.setUnit k x).mbx = s.mbx := rfl
@[simp] theorem State.setUnit_rings (k : Nat) (x : CvuX) : (s.setUnit k x).rings = s.rings := rfl
@[simp] theorem State.setUnit_insts (k : Nat) (x : CvuX) : (s.setUnit k x).insts = s.insts := rfl
@[simp] theorem State.setUnit_fences (k : Nat) (x : CvuX) : (s.setUnit k x).fences = s.fences := rfl
@[simp] theorem State.setUnit_engines (k : Nat) (x : CvuX) : (s.setUnit k x).engines = s.engines := rfl
@[simp] theorem State.setUnit_gfxAcc (k : Nat) (x : CvuX) : (s.setUnit k x).gfxAcc = s.gfxAcc := rfl
@[simp] theorem State.setUnit_cpyAcc (k : Nat) (x : CvuX) : (s.setUnit k x).cpyAcc = s.cpyAcc := rfl
@[simp] theorem State.setUnit_carx (k : Nat) (x : CvuX) : (s.setUnit k x).carx = s.carx := rfl
@[simp] theorem State.setUnit_layers (k : Nat) (x : CvuX) : (s.setUnit k x).layers = s.layers := rfl
@[simp] theorem State.setUnit_heads (k : Nat) (x : CvuX) : (s.setUnit k x).heads = s.heads := rfl
@[simp] theorem State.setUnit_outs (k : Nat) (x : CvuX) : (s.setUnit k x).outs = s.outs := rfl
@[simp] theorem State.setUnit_caps (k : Nat) (x : CvuX) : (s.setUnit k x).caps = s.caps := rfl
@[simp] theorem State.setUnit_chans (k : Nat) (x : CvuX) : (s.setUnit k x).chans = s.chans := rfl
@[simp] theorem State.setUnit_dramx (k : Nat) (x : CvuX) : (s.setUnit k x).dramx = s.dramx := rfl
@[simp] theorem State.setUnit_sec (k : Nat) (x : CvuX) : (s.setUnit k x).sec = s.sec := rfl
@[simp] theorem State.setUnit_streams (k : Nat) (x : CvuX) : (s.setUnit k x).streams = s.streams := rfl
@[simp] theorem State.setUnit_chimes (k : Nat) (x : CvuX) : (s.setUnit k x).chimes = s.chimes := rfl
@[simp] theorem State.setUnit_aud (k : Nat) (x : CvuX) : (s.setUnit k x).aud = s.aud := rfl
@[simp] theorem State.setUnit_tch (k : Nat) (x : CvuX) : (s.setUnit k x).tch = s.tch := rfl
@[simp] theorem State.setUnit_hap (k : Nat) (x : CvuX) : (s.setUnit k x).hap = s.hap := rfl
@[simp] theorem State.setUnit_sn (k : Nat) (x : CvuX) : (s.setUnit k x).sn = s.sn := rfl
@[simp] theorem State.setUnit_pwr (k : Nat) (x : CvuX) : (s.setUnit k x).pwr = s.pwr := rfl
@[simp] theorem State.setUnit_fuses (k : Nat) (x : CvuX) : (s.setUnit k x).fuses = s.fuses := rfl
@[simp] theorem State.setUnit_rpl (k : Nat) (x : CvuX) : (s.setUnit k x).rpl = s.rpl := rfl
@[simp] theorem State.setUnit_fwp (k : Nat) (x : CvuX) : (s.setUnit k x).fwp = s.fwp := rfl
@[simp] theorem State.setUnit_boot (k : Nat) (x : CvuX) : (s.setUnit k x).boot = s.boot := rfl
@[simp] theorem State.setUnit_shadows (k : Nat) (x : CvuX) : (s.setUnit k x).shadows = s.shadows := rfl
@[simp] theorem State.setUnit_shadowGen (k : Nat) (x : CvuX) : (s.setUnit k x).shadowGen = s.shadowGen := rfl
@[simp] theorem State.setUnit_tabAt (k : Nat) (x : CvuX) : (s.setUnit k x).tabAt = s.tabAt := rfl
@[simp] theorem State.setUnit_log (k : Nat) (x : CvuX) : (s.setUnit k x).log = s.log := rfl
@[simp] theorem State.setUnit_brk (k : Nat) (x : CvuX) : (s.setUnit k x).brk = s.brk := rfl

/-! setFn -/
@[simp] theorem State.setFn_pending (k : Nat) (x : FnCfg) : (s.setFn k x).pending = s.pending := rfl
@[simp] theorem State.setFn_freeCtr (k : Nat) (x : FnCfg) : (s.setFn k x).freeCtr = s.freeCtr := rfl
@[simp] theorem State.setFn_now (k : Nat) (x : FnCfg) : (s.setFn k x).now = s.now := rfl
@[simp] theorem State.setFn_regs (k : Nat) (x : FnCfg) : (s.setFn k x).regs = s.regs := rfl
@[simp] theorem State.setFn_act (k : Nat) (x : FnCfg) : (s.setFn k x).act = s.act := rfl
@[simp] theorem State.setFn_wide (k : Nat) (x : FnCfg) : (s.setFn k x).wide = s.wide := rfl
@[simp] theorem State.setFn_armAt (k : Nat) (x : FnCfg) : (s.setFn k x).armAt = s.armAt := rfl
@[simp] theorem State.setFn_hostA (k : Nat) (x : FnCfg) : (s.setFn k x).hostA = s.hostA := rfl
@[simp] theorem State.setFn_hostB (k : Nat) (x : FnCfg) : (s.setFn k x).hostB = s.hostB := rfl
@[simp] theorem State.setFn_dram (k : Nat) (x : FnCfg) : (s.setFn k x).dram = s.dram := rfl
@[simp] theorem State.setFn_flash (k : Nat) (x : FnCfg) : (s.setFn k x).flash = s.flash := rfl
@[simp] theorem State.setFn_pot (k : Nat) (x : FnCfg) : (s.setFn k x).pot = s.pot := rfl
@[simp] theorem State.setFn_pins (k : Nat) (x : FnCfg) : (s.setFn k x).pins = s.pins := rfl
@[simp] theorem State.setFn_msiSent (k : Nat) (x : FnCfg) : (s.setFn k x).msiSent = s.msiSent := rfl
@[simp] theorem State.setFn_readData (k : Nat) (x : FnCfg) : (s.setFn k x).readData = s.readData := rfl
@[simp] theorem State.setFn_lastRrs (k : Nat) (x : FnCfg) : (s.setFn k x).lastRrs = s.lastRrs := rfl
@[simp] theorem State.setFn_plan (k : Nat) (x : FnCfg) : (s.setFn k x).plan = s.plan := rfl
@[simp] theorem State.setFn_readyPin (k : Nat) (x : FnCfg) : (s.setFn k x).readyPin = s.readyPin := rfl
@[simp] theorem State.setFn_faultLow (k : Nat) (x : FnCfg) : (s.setFn k x).faultLow = s.faultLow := rfl
@[simp] theorem State.setFn_wakeLow (k : Nat) (x : FnCfg) : (s.setFn k x).wakeLow = s.wakeLow := rfl
@[simp] theorem State.setFn_vsyncOut (k : Nat) (x : FnCfg) : (s.setFn k x).vsyncOut = s.vsyncOut := rfl
@[simp] theorem State.setFn_portA (k : Nat) (x : FnCfg) : (s.setFn k x).portA = s.portA := rfl
@[simp] theorem State.setFn_portB (k : Nat) (x : FnCfg) : (s.setFn k x).portB = s.portB := rfl
@[simp] theorem State.setFn_time (k : Nat) (x : FnCfg) : (s.setFn k x).time = s.time := rfl
@[simp] theorem State.setFn_mbx (k : Nat) (x : FnCfg) : (s.setFn k x).mbx = s.mbx := rfl
@[simp] theorem State.setFn_rings (k : Nat) (x : FnCfg) : (s.setFn k x).rings = s.rings := rfl
@[simp] theorem State.setFn_insts (k : Nat) (x : FnCfg) : (s.setFn k x).insts = s.insts := rfl
@[simp] theorem State.setFn_fences (k : Nat) (x : FnCfg) : (s.setFn k x).fences = s.fences := rfl
@[simp] theorem State.setFn_engines (k : Nat) (x : FnCfg) : (s.setFn k x).engines = s.engines := rfl
@[simp] theorem State.setFn_gfxAcc (k : Nat) (x : FnCfg) : (s.setFn k x).gfxAcc = s.gfxAcc := rfl
@[simp] theorem State.setFn_cpyAcc (k : Nat) (x : FnCfg) : (s.setFn k x).cpyAcc = s.cpyAcc := rfl
@[simp] theorem State.setFn_carx (k : Nat) (x : FnCfg) : (s.setFn k x).carx = s.carx := rfl
@[simp] theorem State.setFn_layers (k : Nat) (x : FnCfg) : (s.setFn k x).layers = s.layers := rfl
@[simp] theorem State.setFn_heads (k : Nat) (x : FnCfg) : (s.setFn k x).heads = s.heads := rfl
@[simp] theorem State.setFn_outs (k : Nat) (x : FnCfg) : (s.setFn k x).outs = s.outs := rfl
@[simp] theorem State.setFn_caps (k : Nat) (x : FnCfg) : (s.setFn k x).caps = s.caps := rfl
@[simp] theorem State.setFn_chans (k : Nat) (x : FnCfg) : (s.setFn k x).chans = s.chans := rfl
@[simp] theorem State.setFn_dramx (k : Nat) (x : FnCfg) : (s.setFn k x).dramx = s.dramx := rfl
@[simp] theorem State.setFn_sec (k : Nat) (x : FnCfg) : (s.setFn k x).sec = s.sec := rfl
@[simp] theorem State.setFn_streams (k : Nat) (x : FnCfg) : (s.setFn k x).streams = s.streams := rfl
@[simp] theorem State.setFn_chimes (k : Nat) (x : FnCfg) : (s.setFn k x).chimes = s.chimes := rfl
@[simp] theorem State.setFn_aud (k : Nat) (x : FnCfg) : (s.setFn k x).aud = s.aud := rfl
@[simp] theorem State.setFn_tch (k : Nat) (x : FnCfg) : (s.setFn k x).tch = s.tch := rfl
@[simp] theorem State.setFn_hap (k : Nat) (x : FnCfg) : (s.setFn k x).hap = s.hap := rfl
@[simp] theorem State.setFn_cvu (k : Nat) (x : FnCfg) : (s.setFn k x).cvu = s.cvu := rfl
@[simp] theorem State.setFn_sn (k : Nat) (x : FnCfg) : (s.setFn k x).sn = s.sn := rfl
@[simp] theorem State.setFn_pwr (k : Nat) (x : FnCfg) : (s.setFn k x).pwr = s.pwr := rfl
@[simp] theorem State.setFn_fuses (k : Nat) (x : FnCfg) : (s.setFn k x).fuses = s.fuses := rfl
@[simp] theorem State.setFn_rpl (k : Nat) (x : FnCfg) : (s.setFn k x).rpl = s.rpl := rfl
@[simp] theorem State.setFn_fwp (k : Nat) (x : FnCfg) : (s.setFn k x).fwp = s.fwp := rfl
@[simp] theorem State.setFn_boot (k : Nat) (x : FnCfg) : (s.setFn k x).boot = s.boot := rfl
@[simp] theorem State.setFn_shadows (k : Nat) (x : FnCfg) : (s.setFn k x).shadows = s.shadows := rfl
@[simp] theorem State.setFn_shadowGen (k : Nat) (x : FnCfg) : (s.setFn k x).shadowGen = s.shadowGen := rfl
@[simp] theorem State.setFn_tabAt (k : Nat) (x : FnCfg) : (s.setFn k x).tabAt = s.tabAt := rfl
@[simp] theorem State.setFn_log (k : Nat) (x : FnCfg) : (s.setFn k x).log = s.log := rfl
@[simp] theorem State.setFn_brk (k : Nat) (x : FnCfg) : (s.setFn k x).brk = s.brk := rfl

/-! An update of an entry is its setter on the updated entry. -/
@[simp] theorem State.modRing_eq (k : Nat) (g : RingX → RingX) : s.modRing k g = s.setRing k (g (s.ring k)) := rfl
@[simp] theorem State.modInst_eq (k : Nat) (g : InstX → InstX) : s.modInst k g = s.setInst k (g (s.inst k)) := rfl
@[simp] theorem State.modEngine_eq (k : Nat) (g : EngineX → EngineX) : s.modEngine k g = s.setEngine k (g (s.engine k)) := rfl
@[simp] theorem State.modLayer_eq (k : Nat) (g : LayerX → LayerX) : s.modLayer k g = s.setLayer k (g (s.layer k)) := rfl
@[simp] theorem State.modHead_eq (k : Nat) (g : HeadX → HeadX) : s.modHead k g = s.setHead k (g (s.head k)) := rfl
@[simp] theorem State.modOut_eq (k : Nat) (g : OutX → OutX) : s.modOut k g = s.setOut k (g (s.out k)) := rfl
@[simp] theorem State.modCap_eq (k : Nat) (g : CapX → CapX) : s.modCap k g = s.setCap k (g (s.cap k)) := rfl
@[simp] theorem State.modChan_eq (k : Nat) (g : ChanX → ChanX) : s.modChan k g = s.setChan k (g (s.chan k)) := rfl
@[simp] theorem State.modStream_eq (k : Nat) (g : StreamX → StreamX) : s.modStream k g = s.setStream k (g (s.stream k)) := rfl
@[simp] theorem State.modChimeOf_eq (k : Nat) (g : ChimeX → ChimeX) : s.modChimeOf k g = s.setChimeOf k (g (s.chimeOf k)) := rfl
@[simp] theorem State.modTouch_eq (k : Nat) (g : TouchX → TouchX) : s.modTouch k g = s.setTouch k (g (s.touch k)) := rfl
@[simp] theorem State.modHapOf_eq (k : Nat) (g : HapX → HapX) : s.modHapOf k g = s.setHapOf k (g (s.hapOf k)) := rfl
@[simp] theorem State.modUnit_eq (k : Nat) (g : CvuX → CvuX) : s.modUnit k g = s.setUnit k (g (s.unit k)) := rfl
@[simp] theorem State.modFn_eq (k : Nat) (g : FnCfg → FnCfg) : s.modFn k g = s.setFn k (g (s.fn k)) := rfl

end Sys2Proof.Machine
end

