-- ==== Sys2Proof/Laws/Store.lean ====
section
/-!
SUPPORT. Laws of the sparse keyed map and of the memories: a read after a write, and the canonical form, which every
operation keeps.
-/
namespace Sys2Proof.Machine

/-! ## Reading after a write -/

@[simp] theorem KMap.find_insert_self {α : Type} (m : KMap α) (k : Nat) (v : α) : KMap.find (KMap.insert m k v) k = some v := by
  induction m with
  | nil => simp [KMap.insert, KMap.find]
  | cons e m ih =>
    obtain ⟨a, w⟩ := e
    unfold KMap.insert
    split
    · simp [KMap.find]
    · split <;> simp [KMap.find, *]

theorem KMap.find_insert_ne {α : Type} (m : KMap α) {k j : Nat} (v : α) (h : k ≠ j) :
    KMap.find (KMap.insert m k v) j = KMap.find m j := by
  induction m with
  | nil => simp [KMap.insert, KMap.find, h]
  | cons e m ih =>
    obtain ⟨a, w⟩ := e
    unfold KMap.insert
    split
    · next e => subst e; simp [KMap.find, h]
    · split <;> simp [KMap.find, h, ih]

@[simp] theorem KMap.find_erase_self {α : Type} (m : KMap α) (k : Nat) : KMap.find (KMap.erase m k) k = none := by
  induction m with
  | nil => simp [KMap.erase, KMap.find]
  | cons e m ih =>
    obtain ⟨a, w⟩ := e
    unfold KMap.erase
    split
    · exact ih
    · next e => simp [KMap.find, e, ih]

theorem KMap.find_erase_ne {α : Type} (m : KMap α) {k j : Nat} (h : k ≠ j) : KMap.find (KMap.erase m k) j = KMap.find m j := by
  induction m with
  | nil => simp [KMap.erase]
  | cons e m ih =>
    obtain ⟨a, w⟩ := e
    unfold KMap.erase
    split
    · next e => subst e; simp [KMap.find, h, ih]
    · simp [KMap.find, ih]

/-- A key reads as what was last written to it. -/
@[simp] theorem KMap.get_set_self {α : Type} [DecidableEq α] (d : Nat → α) (m : KMap α) (k : Nat) (v : α) :
    KMap.get d (KMap.set d m k v) k = v := by
  unfold KMap.set KMap.get
  split
  · next e => simp [e]
  · simp

/-- A write leaves every other key as it reads. -/
theorem KMap.get_set_ne {α : Type} [DecidableEq α] (d : Nat → α) (m : KMap α) {k j : Nat} (v : α) (h : k ≠ j) :
    KMap.get d (KMap.set d m k v) j = KMap.get d m j := by
  unfold KMap.set KMap.get
  split
  · rw [KMap.find_erase_ne m h]
  · rw [KMap.find_insert_ne m v h]

theorem KMap.get_set {α : Type} [DecidableEq α] (d : Nat → α) (m : KMap α) (k j : Nat) (v : α) :
    KMap.get d (KMap.set d m k v) j = if k = j then v else KMap.get d m j := by
  split
  · next e => subst e; simp
  · next e => exact KMap.get_set_ne d m v e

/-! ## The canonical form -/

theorem KMap.wfFrom_mono {α : Type} [DecidableEq α] {d : Nat → α} {m : KMap α} {lo lo' : Nat} (h : KMap.wfFrom d lo m = true)
    (hl : lo' ≤ lo) : KMap.wfFrom d lo' m = true := by
  cases m with
  | nil => rfl
  | cons e m =>
    obtain ⟨a, v⟩ := e
    simp only [KMap.wfFrom, Bool.and_eq_true, decide_eq_true_eq] at h ⊢
    exact ⟨⟨by omega, h.1.2⟩, h.2⟩

theorem KMap.wfFrom_insert {α : Type} [DecidableEq α] {d : Nat → α} {m : KMap α} {lo k : Nat} {v : α}
    (h : KMap.wfFrom d lo m = true) (hk : lo ≤ k) (hv : v ≠ d k) : KMap.wfFrom d lo (KMap.insert m k v) = true := by
  induction m generalizing lo with
  | nil => simp [KMap.insert, KMap.wfFrom, hk, hv]
  | cons e m ih =>
    obtain ⟨a, w⟩ := e
    simp only [KMap.wfFrom, Bool.and_eq_true, decide_eq_true_eq] at h
    unfold KMap.insert
    split
    · next e => subst e; simp [KMap.wfFrom, hk, hv, h.2]
    · split
      · simp only [KMap.wfFrom, Bool.and_eq_true, decide_eq_true_eq]
        exact ⟨⟨hk, hv⟩, ⟨by omega, h.1.2⟩, h.2⟩
      · simp only [KMap.wfFrom, Bool.and_eq_true, decide_eq_true_eq]
        exact ⟨h.1, ih h.2 (by omega)⟩

theorem KMap.wfFrom_erase {α : Type} [DecidableEq α] {d : Nat → α} {m : KMap α} {lo k : Nat}
    (h : KMap.wfFrom d lo m = true) : KMap.wfFrom d lo (KMap.erase m k) = true := by
  induction m generalizing lo with
  | nil => rfl
  | cons e m ih =>
    obtain ⟨a, w⟩ := e
    simp only [KMap.wfFrom, Bool.and_eq_true, decide_eq_true_eq] at h
    unfold KMap.erase
    split
    · exact KMap.wfFrom_mono (ih h.2) (by omega)
    · simp only [KMap.wfFrom, Bool.and_eq_true, decide_eq_true_eq]
      exact ⟨h.1, ih h.2⟩

/-- A write of one key keeps the canonical form. -/
theorem KMap.wf_set {α : Type} [DecidableEq α] {d : Nat → α} {m : KMap α} (h : KMap.wf d m = true) (k : Nat) (v : α) :
    KMap.wf d (KMap.set d m k v) = true := by
  unfold KMap.set KMap.wf
  split
  · exact KMap.wfFrom_erase h
  · next e => exact KMap.wfFrom_insert h (Nat.zero_le _) e

theorem KMap.wfFrom_filter {α : Type} [DecidableEq α] {d : Nat → α} {m : KMap α} {lo : Nat} (f : Nat × α → Bool)
    (h : KMap.wfFrom d lo m = true) : KMap.wfFrom d lo (m.filter f) = true := by
  induction m generalizing lo with
  | nil => rfl
  | cons e m ih =>
    obtain ⟨a, w⟩ := e
    simp only [KMap.wfFrom, Bool.and_eq_true, decide_eq_true_eq] at h
    rw [List.filter_cons]
    split
    · simp only [KMap.wfFrom, Bool.and_eq_true, decide_eq_true_eq]
      exact ⟨h.1, ih h.2⟩
    · exact KMap.wfFrom_mono (ih h.2) (by omega)

theorem KMap.wf_filter {α : Type} [DecidableEq α] {d : Nat → α} {m : KMap α} (f : Nat × α → Bool) (h : KMap.wf d m = true) :
    KMap.wf d (m.filter f) = true := KMap.wfFrom_filter f h

theorem cellsOf_wf (d : Nat → Byte) (a : Nat) (bs : List Byte) : KMap.wfFrom d a (cellsOf d a bs) = true := by
  induction bs generalizing a with
  | nil => rfl
  | cons b bs ih =>
    unfold cellsOf
    split
    · exact KMap.wfFrom_mono (ih (a + 1)) (by omega)
    · next e => simp [KMap.wfFrom, e, ih]

theorem cellsOf_lt (d : Nat → Byte) (a : Nat) (bs : List Byte) : ∀ e ∈ cellsOf d a bs, e.1 < a + bs.length := by
  induction bs generalizing a with
  | nil => simp [cellsOf]
  | cons b bs ih =>
    intro e h
    unfold cellsOf at h
    simp only [List.length_cons]
    split at h
    · have := ih _ e h; omega
    · rcases List.mem_cons.mp h with rfl | h
      · simp
      · have := ih _ e h; omega

/-- Two canonical pieces, the second above the first, are canonical together. -/
theorem KMap.wfFrom_append {α : Type} [DecidableEq α] {d : Nat → α} {m n : KMap α} {lo mid : Nat} (hm : KMap.wfFrom d lo m = true)
    (hn : KMap.wfFrom d mid n = true) (hl : lo ≤ mid) (hb : ∀ e ∈ m, e.1 < mid) : KMap.wfFrom d lo (m ++ n) = true := by
  induction m generalizing lo with
  | nil => exact KMap.wfFrom_mono hn hl
  | cons e m ih =>
    obtain ⟨a, w⟩ := e
    simp only [KMap.wfFrom, Bool.and_eq_true, decide_eq_true_eq] at hm
    have ha := hb (a, w) (by simp)
    simp only [List.cons_append, KMap.wfFrom, Bool.and_eq_true, decide_eq_true_eq]
    exact ⟨hm.1, ih hm.2 (by simpa using ha) fun e he => hb e (List.mem_cons_of_mem _ he)⟩

theorem KMap.wfFrom_lift {α : Type} [DecidableEq α] {d : Nat → α} {m : KMap α} {lo mid : Nat} (h : KMap.wfFrom d lo m = true)
    (hb : ∀ e ∈ m, mid ≤ e.1) : KMap.wfFrom d mid m = true := by
  cases m with
  | nil => rfl
  | cons e m =>
    obtain ⟨a, w⟩ := e
    simp only [KMap.wfFrom, Bool.and_eq_true, decide_eq_true_eq] at h ⊢
    exact ⟨⟨hb (a, w) (by simp), h.1.2⟩, h.2⟩

/-- Writing bytes keeps the canonical form of a memory. -/
theorem Memory.wf_writeBytes {d : Nat → Byte} {m : List Host.Cell} (h : Memory.wf d m = true) (a : Nat) (bs : List Byte) :
    Memory.wf d (KMap.writeBytes d m a bs) = true := by
  unfold Memory.wf KMap.wf KMap.writeBytes at *
  rw [List.append_assoc]
  refine KMap.wfFrom_append (mid := a) (KMap.wfFrom_filter _ h) ?_ (Nat.zero_le _) (by simp)
  exact KMap.wfFrom_append (mid := a + bs.length) (cellsOf_wf d a bs)
    (KMap.wfFrom_lift (KMap.wfFrom_filter _ h) (by simp)) (by omega) (cellsOf_lt d a bs)

/-! ## Bytes after a write -/

theorem KMap.find_append {α : Type} (m n : KMap α) (k : Nat) :
    KMap.find (m ++ n) k = (KMap.find m k).orElse fun _ => KMap.find n k := by
  induction m with
  | nil => simp [KMap.find]
  | cons e m ih =>
    obtain ⟨a, w⟩ := e
    simp only [List.cons_append, KMap.find]
    split <;> simp [ih]

theorem KMap.find_filter_true {α : Type} (m : KMap α) (f : Nat × α → Bool) (k : Nat) (h : ∀ v, f (k, v) = true) :
    KMap.find (m.filter f) k = KMap.find m k := by
  induction m with
  | nil => rfl
  | cons e m ih =>
    obtain ⟨a, w⟩ := e
    rw [List.filter_cons]
    by_cases e : a = k
    · subst e; simp [h, KMap.find]
    · split <;> simp [KMap.find, e, ih]

theorem KMap.find_filter_false {α : Type} (m : KMap α) (f : Nat × α → Bool) (k : Nat) (h : ∀ v, f (k, v) = false) :
    KMap.find (m.filter f) k = none := by
  induction m with
  | nil => rfl
  | cons e m ih =>
    obtain ⟨a, w⟩ := e
    rw [List.filter_cons]
    by_cases e : a = k
    · subst e; simp [h, ih]
    · split <;> simp [KMap.find, e, ih]

theorem cellsOf_find_out (d : Nat → Byte) (a k : Nat) (bs : List Byte) (h : k < a ∨ a + bs.length ≤ k) :
    KMap.find (cellsOf d a bs) k = none := by
  induction bs generalizing a with
  | nil => rfl
  | cons b bs ih =>
    simp only [List.length_cons] at h
    unfold cellsOf
    split
    · exact ih _ (by omega)
    · simp [KMap.find, show a ≠ k by omega, ih (a + 1) (by omega)]

theorem cellsOf_get_in (d : Nat → Byte) (a n : Nat) (bs : List Byte) (h : n < bs.length) :
    (KMap.find (cellsOf d a bs) (a + n)).getD (d (a + n)) = bs[n] := by
  induction bs generalizing a n with
  | nil => simp at h
  | cons b bs ih =>
    unfold cellsOf
    cases n with
    | zero =>
      split
      · next e => rw [cellsOf_find_out _ _ _ _ (by omega)]; simp [e]
      · simp [KMap.find]
    | succ n =>
      have := ih (a + 1) n (by simpa using h)
      rw [show a + 1 + n = a + (n + 1) by omega] at this
      split
      · simpa using this
      · simpa [KMap.find] using this

/-- A byte outside the written ones reads as before. -/
theorem KMap.get_writeBytes_out (d : Nat → Byte) (m : KMap Byte) (a k : Nat) (bs : List Byte) (h : k < a ∨ a + bs.length ≤ k) :
    KMap.get d (KMap.writeBytes d m a bs) k = KMap.get d m k := by
  unfold KMap.get KMap.writeBytes
  rw [KMap.find_append, KMap.find_append, cellsOf_find_out d a k bs h]
  rcases h with h | h
  · rw [KMap.find_filter_true m _ k (by simp [h]), KMap.find_filter_false m _ k (by simp; omega)]; simp
  · rw [KMap.find_filter_false m _ k (by simp; omega), KMap.find_filter_true m _ k (by simp [h])]; simp

/-- A byte that was written reads as the byte written. -/
theorem KMap.get_writeBytes_in (d : Nat → Byte) (m : KMap Byte) (a n : Nat) (bs : List Byte) (h : n < bs.length) :
    KMap.get d (KMap.writeBytes d m a bs) (a + n) = bs[n] := by
  unfold KMap.get KMap.writeBytes
  rw [KMap.find_append, KMap.find_append, KMap.find_filter_false m _ _ (by simp),
    KMap.find_filter_false m (fun e => decide (a + bs.length ≤ e.1)) _ (by simp; omega)]
  simpa using cellsOf_get_in d a n bs h

/-- Reading part of what was written. -/
theorem KMap.readBytes_writeBytes_in (d : Nat → Byte) (m : KMap Byte) (a : Nat) (bs : List Byte) :
    ∀ n k, k + n ≤ bs.length → KMap.readBytes d (KMap.writeBytes d m a bs) (a + k) n = (bs.drop k).take n := by
  intro n
  induction n with
  | zero => intro k _; simp [KMap.readBytes]
  | succ n ih =>
    intro k h
    have hk : k < bs.length := by omega
    rw [KMap.readBytes, KMap.get_writeBytes_in d m a k bs hk, show a + k + 1 = a + (k + 1) by omega, ih (k + 1) (by omega),
      List.drop_eq_getElem_cons hk, List.take_succ_cons]

/-- Reading back what was written. -/
theorem KMap.readBytes_writeBytes (d : Nat → Byte) (m : KMap Byte) (a : Nat) (bs : List Byte) :
    KMap.readBytes d (KMap.writeBytes d m a bs) a bs.length = bs := by
  simpa using KMap.readBytes_writeBytes_in d m a bs bs.length 0 (by omega)

/-- Reading bytes that a write left alone. -/
theorem KMap.readBytes_writeBytes_out (d : Nat → Byte) (m : KMap Byte) (a : Nat) (bs : List Byte) :
    ∀ n k, k + n ≤ a ∨ a + bs.length ≤ k → KMap.readBytes d (KMap.writeBytes d m a bs) k n = KMap.readBytes d m k n := by
  intro n
  induction n with
  | zero => intro k _; rfl
  | succ n ih => intro k h; rw [KMap.readBytes, KMap.readBytes, KMap.get_writeBytes_out d m a k bs (by omega), ih (k + 1) (by omega)]

end Sys2Proof.Machine
end

