-- ==== Sys2Proof/Laws/Regs.lean ====
section
/-!
SUPPORT. Laws of the register file: what a write of one field leaves, what raising a flag leaves, and what the derived outputs that
end every command leave.
-/
namespace Sys2Proof.Machine

variable (s : State)

/-! ## Fields -/

/-- A field reads as it was written, cut to its width. -/
@[simp] theorem State.rd_put_self (a : Nat) (f : Fld) (v : Nat) : (s.put a f v).rd a f = v % 2 ^ f.w := by
  simp [State.rd, State.put]

/-- A write of one field leaves every other field. -/
theorem State.rd_put_ne {a b : Nat} {f g : Fld} (v : Nat) (h : fkey (a + f.off) f.lo ≠ fkey (b + g.off) g.lo) :
    (s.put a f v).rd b g = s.rd b g := KMap.get_set_ne _ _ _ h

/-- A write of one field leaves the registers at every other address. -/
theorem State.rd_put_addr {a b : Nat} {f g : Fld} (v : Nat) (hf : f.lo < 32) (hg : g.lo < 32) (h : a + f.off ≠ b + g.off) :
    (s.put a f v).rd b g = s.rd b g := s.rd_put_ne v (by unfold fkey; omega)

theorem State.rd_put (a b : Nat) (f g : Fld) (v : Nat) :
    (s.put a f v).rd b g = if fkey (a + f.off) f.lo = fkey (b + g.off) g.lo then v % 2 ^ f.w else s.rd b g := KMap.get_set _ _ _ _ _

@[simp] theorem State.rda_puta_self (a : Nat) (f : Fld) (v : Nat) : (s.puta a f v).rda a f = v % 2 ^ f.w := by
  simp [State.rda, State.puta]
theorem State.rda_puta_ne {a b : Nat} {f g : Fld} (v : Nat) (h : fkey (a + f.off) f.lo ≠ fkey (b + g.off) g.lo) :
    (s.puta a f v).rda b g = s.rda b g := KMap.get_set_ne _ _ _ h

@[simp] theorem State.wideAt_putWide_self (a v : Nat) : (s.putWide a v).wideAt a = v := by simp [State.wideAt, State.putWide]
theorem State.wideAt_putWide_ne {a b : Nat} (v : Nat) (h : a ≠ b) : (s.putWide a v).wideAt b = s.wideAt b := KMap.get_set_ne _ _ _ h

/-- A counter counts modulo 2^48. -/
@[simp] theorem State.wideAt_count_self (a n : Nat) : (s.count a n).wideAt a = (s.wideAt a + n) % 2 ^ 48 := by simp [State.count]
theorem State.wideAt_count_ne {a b : Nat} (n : Nat) (h : a ≠ b) : (s.count a n).wideAt b = s.wideAt b := by
  unfold State.count; exact s.wideAt_putWide_ne _ h
@[simp] theorem State.rd_count (a n b : Nat) (f : Fld) : (s.count a n).rd b f = s.rd b f := rfl
@[simp] theorem State.rda_count (a n b : Nat) (f : Fld) : (s.count a n).rda b f = s.rda b f := rfl

@[simp] theorem State.rda_put (a : Nat) (f : Fld) (v : Nat) (b : Nat) (g : Fld) : (s.put a f v).rda b g = s.rda b g := rfl
@[simp] theorem State.wideAt_put (a : Nat) (f : Fld) (v : Nat) (b : Nat) : (s.put a f v).wideAt b = s.wideAt b := rfl
@[simp] theorem State.rd_puta (a : Nat) (f : Fld) (v : Nat) (b : Nat) (g : Fld) : (s.puta a f v).rd b g = s.rd b g := rfl
@[simp] theorem State.wideAt_puta (a : Nat) (f : Fld) (v : Nat) (b : Nat) : (s.puta a f v).wideAt b = s.wideAt b := rfl
@[simp] theorem State.rd_putWide (a v : Nat) (b : Nat) (g : Fld) : (s.putWide a v).rd b g = s.rd b g := rfl
@[simp] theorem State.rda_putWide (a v : Nat) (b : Nat) (g : Fld) : (s.putWide a v).rda b g = s.rda b g := rfl
@[simp] theorem State.rd_reach (t : Nat) (b : Nat) (g : Fld) : (s.reach t).rd b g = s.rd b g := rfl
@[simp] theorem State.rda_reach (t : Nat) (b : Nat) (g : Fld) : (s.reach t).rda b g = s.rda b g := rfl
@[simp] theorem State.wideAt_reach (t : Nat) (b : Nat) : (s.reach t).wideAt b = s.wideAt b := rfl
@[simp] theorem State.rd_setPage (p e : Nat) (b : Nat) (g : Fld) : (s.setPage p e).rd b g = s.rd b g := rfl
@[simp] theorem State.rda_setPage (p e : Nat) (b : Nat) (g : Fld) : (s.setPage p e).rda b g = s.rda b g := rfl
@[simp] theorem State.wideAt_setPage (p e : Nat) (b : Nat) : (s.setPage p e).wideAt b = s.wideAt b := rfl
@[simp] theorem State.rd_setFence (i n : Nat) (x : Fence) (b : Nat) (g : Fld) : (s.setFence i n x).rd b g = s.rd b g := rfl
@[simp] theorem State.rda_setFence (i n : Nat) (x : Fence) (b : Nat) (g : Fld) : (s.setFence i n x).rda b g = s.rda b g := rfl
@[simp] theorem State.wideAt_setFence (i n : Nat) (x : Fence) (b : Nat) : (s.setFence i n x).wideAt b = s.wideAt b := rfl
@[simp] theorem State.rd_setRing (k : Nat) (x : RingX) (b : Nat) (g : Fld) : (s.setRing k x).rd b g = s.rd b g := rfl
@[simp] theorem State.rda_setRing (k : Nat) (x : RingX) (b : Nat) (g : Fld) : (s.setRing k x).rda b g = s.rda b g := rfl
@[simp] theorem State.wideAt_setRing (k : Nat) (x : RingX) (b : Nat) : (s.setRing k x).wideAt b = s.wideAt b := rfl
@[simp] theorem State.rd_setInst (k : Nat) (x : InstX) (b : Nat) (g : Fld) : (s.setInst k x).rd b g = s.rd b g := rfl
@[simp] theorem State.rda_setInst (k : Nat) (x : InstX) (b : Nat) (g : Fld) : (s.setInst k x).rda b g = s.rda b g := rfl
@[simp] theorem State.wideAt_setInst (k : Nat) (x : InstX) (b : Nat) : (s.setInst k x).wideAt b = s.wideAt b := rfl
@[simp] theorem State.rd_setEngine (k : Nat) (x : EngineX) (b : Nat) (g : Fld) : (s.setEngine k x).rd b g = s.rd b g := rfl
@[simp] theorem State.rda_setEngine (k : Nat) (x : EngineX) (b : Nat) (g : Fld) : (s.setEngine k x).rda b g = s.rda b g := rfl
@[simp] theorem State.wideAt_setEngine (k : Nat) (x : EngineX) (b : Nat) : (s.setEngine k x).wideAt b = s.wideAt b := rfl
@[simp] theorem State.rd_setLayer (k : Nat) (x : LayerX) (b : Nat) (g : Fld) : (s.setLayer k x).rd b g = s.rd b g := rfl
@[simp] theorem State.rda_setLayer (k : Nat) (x : LayerX) (b : Nat) (g : Fld) : (s.setLayer k x).rda b g = s.rda b g := rfl
@[simp] theorem State.wideAt_setLayer (k : Nat) (x : LayerX) (b : Nat) : (s.setLayer k x).wideAt b = s.wideAt b := rfl
@[simp] theorem State.rd_setHead (k : Nat) (x : HeadX) (b : Nat) (g : Fld) : (s.setHead k x).rd b g = s.rd b g := rfl
@[simp] theorem State.rda_setHead (k : Nat) (x : HeadX) (b : Nat) (g : Fld) : (s.setHead k x).rda b g = s.rda b g := rfl
@[simp] theorem State.wideAt_setHead (k : Nat) (x : HeadX) (b : Nat) : (s.setHead k x).wideAt b = s.wideAt b := rfl
@[simp] theorem State.rd_setOut (k : Nat) (x : OutX) (b : Nat) (g : Fld) : (s.setOut k x).rd b g = s.rd b g := rfl
@[simp] theorem State.rda_setOut (k : Nat) (x : OutX) (b : Nat) (g : Fld) : (s.setOut k x).rda b g = s.rda b g := rfl
@[simp] theorem State.wideAt_setOut (k : Nat) (x : OutX) (b : Nat) : (s.setOut k x).wideAt b = s.wideAt b := rfl
@[simp] theorem State.rd_setCap (k : Nat) (x : CapX) (b : Nat) (g : Fld) : (s.setCap k x).rd b g = s.rd b g := rfl
@[simp] theorem State.rda_setCap (k : Nat) (x : CapX) (b : Nat) (g : Fld) : (s.setCap k x).rda b g = s.rda b g := rfl
@[simp] theorem State.wideAt_setCap (k : Nat) (x : CapX) (b : Nat) : (s.setCap k x).wideAt b = s.wideAt b := rfl
@[simp] theorem State.rd_setChan (k : Nat) (x : ChanX) (b : Nat) (g : Fld) : (s.setChan k x).rd b g = s.rd b g := rfl
@[simp] theorem State.rda_setChan (k : Nat) (x : ChanX) (b : Nat) (g : Fld) : (s.setChan k x).rda b g = s.rda b g := rfl
@[simp] theorem State.wideAt_setChan (k : Nat) (x : ChanX) (b : Nat) : (s.setChan k x).wideAt b = s.wideAt b := rfl
@[simp] theorem State.rd_setStream (k : Nat) (x : StreamX) (b : Nat) (g : Fld) : (s.setStream k x).rd b g = s.rd b g := rfl
@[simp] theorem State.rda_setStream (k : Nat) (x : StreamX) (b : Nat) (g : Fld) : (s.setStream k x).rda b g = s.rda b g := rfl
@[simp] theorem State.wideAt_setStream (k : Nat) (x : StreamX) (b : Nat) : (s.setStream k x).wideAt b = s.wideAt b := rfl
@[simp] theorem State.rd_setChimeOf (k : Nat) (x : ChimeX) (b : Nat) (g : Fld) : (s.setChimeOf k x).rd b g = s.rd b g := rfl
@[simp] theorem State.rda_setChimeOf (k : Nat) (x : ChimeX) (b : Nat) (g : Fld) : (s.setChimeOf k x).rda b g = s.rda b g := rfl
@[simp] theorem State.wideAt_setChimeOf (k : Nat) (x : ChimeX) (b : Nat) : (s.setChimeOf k x).wideAt b = s.wideAt b := rfl
@[simp] theorem State.rd_setTouch (k : Nat) (x : TouchX) (b : Nat) (g : Fld) : (s.setTouch k x).rd b g = s.rd b g := rfl
@[simp] theorem State.rda_setTouch (k : Nat) (x : TouchX) (b : Nat) (g : Fld) : (s.setTouch k x).rda b g = s.rda b g := rfl
@[simp] theorem State.wideAt_setTouch (k : Nat) (x : TouchX) (b : Nat) : (s.setTouch k x).wideAt b = s.wideAt b := rfl
@[simp] theorem State.rd_setHapOf (k : Nat) (x : HapX) (b : Nat) (g : Fld) : (s.setHapOf k x).rd b g = s.rd b g := rfl
@[simp] theorem State.rda_setHapOf (k : Nat) (x : HapX) (b : Nat) (g : Fld) : (s.setHapOf k x).rda b g = s.rda b g := rfl
@[simp] theorem State.wideAt_setHapOf (k : Nat) (x : HapX) (b : Nat) : (s.setHapOf k x).wideAt b = s.wideAt b := rfl
@[simp] theorem State.rd_setUnit (k : Nat) (x : CvuX) (b : Nat) (g : Fld) : (s.setUnit k x).rd b g = s.rd b g := rfl
@[simp] theorem State.rda_setUnit (k : Nat) (x : CvuX) (b : Nat) (g : Fld) : (s.setUnit k x).rda b g = s.rda b g := rfl
@[simp] theorem State.wideAt_setUnit (k : Nat) (x : CvuX) (b : Nat) : (s.setUnit k x).wideAt b = s.wideAt b := rfl
@[simp] theorem State.rd_setFn (k : Nat) (x : FnCfg) (b : Nat) (g : Fld) : (s.setFn k x).rd b g = s.rd b g := rfl
@[simp] theorem State.rda_setFn (k : Nat) (x : FnCfg) (b : Nat) (g : Fld) : (s.setFn k x).rda b g = s.rda b g := rfl
@[simp] theorem State.wideAt_setFn (k : Nat) (x : FnCfg) (b : Nat) : (s.setFn k x).wideAt b = s.wideAt b := rfl
@[simp] theorem State.ring_setRing_self (k : Nat) (x : RingX) : (s.setRing k x).ring k = x := by simp [State.ring, State.setRing]
theorem State.ring_setRing_ne {k j : Nat} (x : RingX) (h : k ≠ j) : (s.setRing k x).ring j = s.ring j := KMap.get_set_ne _ _ _ h
@[simp] theorem State.ring_put (a : Nat) (f : Fld) (v k : Nat) : (s.put a f v).ring k = s.ring k := rfl
@[simp] theorem State.inst_setInst_self (k : Nat) (x : InstX) : (s.setInst k x).inst k = x := by simp [State.inst, State.setInst]
theorem State.inst_setInst_ne {k j : Nat} (x : InstX) (h : k ≠ j) : (s.setInst k x).inst j = s.inst j := KMap.get_set_ne _ _ _ h
@[simp] theorem State.inst_put (a : Nat) (f : Fld) (v k : Nat) : (s.put a f v).inst k = s.inst k := rfl
@[simp] theorem State.engine_setEngine_self (k : Nat) (x : EngineX) : (s.setEngine k x).engine k = x := by simp [State.engine, State.setEngine]
theorem State.engine_setEngine_ne {k j : Nat} (x : EngineX) (h : k ≠ j) : (s.setEngine k x).engine j = s.engine j := KMap.get_set_ne _ _ _ h
@[simp] theorem State.engine_put (a : Nat) (f : Fld) (v k : Nat) : (s.put a f v).engine k = s.engine k := rfl
@[simp] theorem State.layer_setLayer_self (k : Nat) (x : LayerX) : (s.setLayer k x).layer k = x := by simp [State.layer, State.setLayer]
theorem State.layer_setLayer_ne {k j : Nat} (x : LayerX) (h : k ≠ j) : (s.setLayer k x).layer j = s.layer j := KMap.get_set_ne _ _ _ h
@[simp] theorem State.layer_put (a : Nat) (f : Fld) (v k : Nat) : (s.put a f v).layer k = s.layer k := rfl
@[simp] theorem State.head_setHead_self (k : Nat) (x : HeadX) : (s.setHead k x).head k = x := by simp [State.head, State.setHead]
theorem State.head_setHead_ne {k j : Nat} (x : HeadX) (h : k ≠ j) : (s.setHead k x).head j = s.head j := KMap.get_set_ne _ _ _ h
@[simp] theorem State.head_put (a : Nat) (f : Fld) (v k : Nat) : (s.put a f v).head k = s.head k := rfl
@[simp] theorem State.out_setOut_self (k : Nat) (x : OutX) : (s.setOut k x).out k = x := by simp [State.out, State.setOut]
theorem State.out_setOut_ne {k j : Nat} (x : OutX) (h : k ≠ j) : (s.setOut k x).out j = s.out j := KMap.get_set_ne _ _ _ h
@[simp] theorem State.out_put (a : Nat) (f : Fld) (v k : Nat) : (s.put a f v).out k = s.out k := rfl
@[simp] theorem State.cap_setCap_self (k : Nat) (x : CapX) : (s.setCap k x).cap k = x := by simp [State.cap, State.setCap]
theorem State.cap_setCap_ne {k j : Nat} (x : CapX) (h : k ≠ j) : (s.setCap k x).cap j = s.cap j := KMap.get_set_ne _ _ _ h
@[simp] theorem State.cap_put (a : Nat) (f : Fld) (v k : Nat) : (s.put a f v).cap k = s.cap k := rfl
@[simp] theorem State.chan_setChan_self (k : Nat) (x : ChanX) : (s.setChan k x).chan k = x := by simp [State.chan, State.setChan]
theorem State.chan_setChan_ne {k j : Nat} (x : ChanX) (h : k ≠ j) : (s.setChan k x).chan j = s.chan j := KMap.get_set_ne _ _ _ h
@[simp] theorem State.chan_put (a : Nat) (f : Fld) (v k : Nat) : (s.put a f v).chan k = s.chan k := rfl
@[simp] theorem State.stream_setStream_self (k : Nat) (x : StreamX) : (s.setStream k x).stream k = x := by simp [State.stream, State.setStream]
theorem State.stream_setStream_ne {k j : Nat} (x : StreamX) (h : k ≠ j) : (s.setStream k x).stream j = s.stream j := KMap.get_set_ne _ _ _ h
@[simp] theorem State.stream_put (a : Nat) (f : Fld) (v k : Nat) : (s.put a f v).stream k = s.stream k := rfl
@[simp] theorem State.chimeOf_setChimeOf_self (k : Nat) (x : ChimeX) : (s.setChimeOf k x).chimeOf k = x := by simp [State.chimeOf, State.setChimeOf]
theorem State.chimeOf_setChimeOf_ne {k j : Nat} (x : ChimeX) (h : k ≠ j) : (s.setChimeOf k x).chimeOf j = s.chimeOf j := KMap.get_set_ne _ _ _ h
@[simp] theorem State.chimeOf_put (a : Nat) (f : Fld) (v k : Nat) : (s.put a f v).chimeOf k = s.chimeOf k := rfl
@[simp] theorem State.touch_setTouch_self (k : Nat) (x : TouchX) : (s.setTouch k x).touch k = x := by simp [State.touch, State.setTouch]
theorem State.touch_setTouch_ne {k j : Nat} (x : TouchX) (h : k ≠ j) : (s.setTouch k x).touch j = s.touch j := KMap.get_set_ne _ _ _ h
@[simp] theorem State.touch_put (a : Nat) (f : Fld) (v k : Nat) : (s.put a f v).touch k = s.touch k := rfl
@[simp] theorem State.hapOf_setHapOf_self (k : Nat) (x : HapX) : (s.setHapOf k x).hapOf k = x := by simp [State.hapOf, State.setHapOf]
theorem State.hapOf_setHapOf_ne {k j : Nat} (x : HapX) (h : k ≠ j) : (s.setHapOf k x).hapOf j = s.hapOf j := KMap.get_set_ne _ _ _ h
@[simp] theorem State.hapOf_put (a : Nat) (f : Fld) (v k : Nat) : (s.put a f v).hapOf k = s.hapOf k := rfl
@[simp] theorem State.unit_setUnit_self (k : Nat) (x : CvuX) : (s.setUnit k x).unit k = x := by simp [State.unit, State.setUnit]
theorem State.unit_setUnit_ne {k j : Nat} (x : CvuX) (h : k ≠ j) : (s.setUnit k x).unit j = s.unit j := KMap.get_set_ne _ _ _ h
@[simp] theorem State.unit_put (a : Nat) (f : Fld) (v k : Nat) : (s.put a f v).unit k = s.unit k := rfl
@[simp] theorem State.fn_setFn_self (k : Nat) (x : FnCfg) : (s.setFn k x).fn k = x := by simp [State.fn, State.setFn]
theorem State.fn_setFn_ne {k j : Nat} (x : FnCfg) (h : k ≠ j) : (s.setFn k x).fn j = s.fn j := KMap.get_set_ne _ _ _ h
@[simp] theorem State.fn_put (a : Nat) (f : Fld) (v k : Nat) : (s.put a f v).fn k = s.fn k := rfl

/-! ## What lies beside the register file -/

@[simp] theorem State.inner_put (a : Nat) (f : Fld) (v : Nat) : (s.put a f v).inner = s.inner := rfl
@[simp] theorem State.inner_putWide (a v : Nat) : (s.putWide a v).inner = s.inner := rfl
@[simp] theorem State.inner_count (a n : Nat) : (s.count a n).inner = s.inner := rfl
@[simp] theorem State.inner_reach (t : Nat) : (s.reach t).inner = s.inner := rfl
@[simp] theorem State.inner_setVecPending (fn v : Nat) (b : Bool) : (s.setVecPending fn v b).inner = s.inner := rfl

@[simp] theorem State.inner_hostWrite (p : Port) (a : Nat) (bs : List Byte) : (s.hostWrite p a bs).inner = s.inner := by
  unfold State.hostWrite; split
  · rfl
  · cases p <;> rfl
@[simp] theorem State.rd_hostWrite (p : Port) (a : Nat) (bs : List Byte) (b : Nat) (g : Fld) : (s.hostWrite p a bs).rd b g = s.rd b g := by
  unfold State.hostWrite; split
  · rfl
  · cases p <;> rfl
@[simp] theorem State.wideAt_hostWrite (p : Port) (a : Nat) (bs : List Byte) (b : Nat) : (s.hostWrite p a bs).wideAt b = s.wideAt b := by
  unfold State.hostWrite; split
  · rfl
  · cases p <;> rfl
@[simp] theorem State.now_hostWrite (p : Port) (a : Nat) (bs : List Byte) : (s.hostWrite p a bs).now = s.now := by
  unfold State.hostWrite; split
  · rfl
  · cases p <;> rfl
/-- A write to a host keeps both memories canonical. -/
theorem State.hostWrite_wf (p : Port) (a : Nat) (bs : List Byte) (ha : Memory.wf hostDefault s.hostA = true)
    (hb : Memory.wf hostDefault s.hostB = true) :
    Memory.wf hostDefault (s.hostWrite p a bs).hostA = true ∧ Memory.wf hostDefault (s.hostWrite p a bs).hostB = true := by
  unfold State.hostWrite; split
  · exact ⟨ha, hb⟩
  · cases p
    · exact ⟨Memory.wf_writeBytes ha _ _, hb⟩
    · exact ⟨ha, Memory.wf_writeBytes hb _ _⟩
/-- A write to DRAM keeps it canonical. -/
theorem State.dramWrite_wf (a : Nat) (bs : List Byte) (h : Memory.wf dramDefault s.dram = true) :
    Memory.wf dramDefault (s.dramWrite a bs).dram = true := by
  have e : ∀ (l : List Nat) (t : State), (l.foldl (fun s b => s.setPoison b false) t).dram = t.dram := by
    intro l; induction l with
    | nil => intro t; rfl
    | cons x l ih => intro t; rw [List.foldl_cons, ih]; rfl
  simp only [State.dramWrite, State.each, e]
  exact Memory.wf_writeBytes h a bs
/-- A program of the flash keeps it canonical. -/
theorem State.flashProgram_wf (a : Nat) (bs : List Byte) (h : Memory.wf flashDefault s.flash = true) :
    Memory.wf flashDefault (s.flashProgram a bs).flash = true := Memory.wf_writeBytes h a _

@[simp] theorem State.inner_sendMessage (fn v : Nat) : (s.sendMessage fn v).inner = s.inner := by
  unfold State.sendMessage; split
  · exact State.inner_hostWrite _ _ _ _
  · rfl
@[simp] theorem State.rd_sendMessage (fn v b : Nat) (g : Fld) : (s.sendMessage fn v).rd b g = s.rd b g := by
  unfold State.sendMessage; split
  · exact State.rd_hostWrite _ _ _ _ _ _
  · rfl
@[simp] theorem State.wideAt_sendMessage (fn v b : Nat) : (s.sendMessage fn v).wideAt b = s.wideAt b := by
  unfold State.sendMessage; split
  · exact State.wideAt_hostWrite _ _ _ _ _
  · rfl
@[simp] theorem State.now_sendMessage (fn v : Nat) : (s.sendMessage fn v).now = s.now := by
  unfold State.sendMessage; split
  · exact State.now_hostWrite _ _ _ _
  · rfl

/-! ## Interrupts -/

@[simp] theorem State.inner_raiseVec (fn v : Nat) : (s.raiseVec fn v).inner = s.inner := by
  unfold State.raiseVec; split
  · split <;> simp
  · rfl
@[simp] theorem State.wideAt_raiseVec (fn v b : Nat) : (s.raiseVec fn v).wideAt b = s.wideAt b := by
  unfold State.raiseVec; split
  · split
    · rfl
    · simp
  · rfl
@[simp] theorem State.now_raiseVec (fn v : Nat) : (s.raiseVec fn v).now = s.now := by
  unfold State.raiseVec; split
  · split
    · rfl
    · simp
  · rfl

/-- The manager's vector 0 changes no register but the manager's pending bits. -/
theorem State.rd_mgrIrq {b : Nat} {g : Fld} (h : b + g.off ≠ pbaBase 0) (hg : g.lo < 32) : s.mgrIrq.rd b g = s.rd b g := by
  unfold State.mgrIrq State.raiseVec
  split
  · split
    · exact s.rd_put_addr _ (by decide) hg (by simpa using fun e => h e.symm)
    · simp
  · rfl
@[simp] theorem State.inner_mgrIrq : s.mgrIrq.inner = s.inner := s.inner_raiseVec 0 0
@[simp] theorem State.wideAt_mgrIrq (b : Nat) : s.mgrIrq.wideAt b = s.wideAt b := s.wideAt_raiseVec 0 0 b
@[simp] theorem State.now_mgrIrq : s.mgrIrq.now = s.now := s.now_raiseVec 0 0

/-- Whether an address is none of the MSI-X pending-bit words and lies in no window. -/
def offPba (b : Nat) : Prop := b < 0x10000000 ∧ b ≠ pbaBase 0

theorem pbaBase_ge {fn : Nat} (h : fn ≠ 0) : 0x10000000 ≤ pbaBase fn := by
  unfold pbaBase
  rw [if_neg h]
  split
  · simp [winBase, FrameKind.at, FrameKind.base, FrameKind.stride]
  · simp [winBase, FrameKind.at, FrameKind.base, FrameKind.stride]; omega

/-- An interrupt changes no register but a pending-bit word. -/
theorem State.rd_raiseVec (fn v : Nat) {b : Nat} {g : Fld} (h : offPba (b + g.off)) (hg : g.lo < 32) :
    (s.raiseVec fn v).rd b g = s.rd b g := by
  unfold State.raiseVec
  split
  · next hv =>
    split
    · unfold State.setVecPending
      refine s.rd_put_addr _ (by decide) hg ?_
      have e : Reg.MSIX_PBA_WORD.off = 0 := rfl
      by_cases hf : fn = 0
      · subst hf
        have : v / 32 = 0 := by simp only [State.vectors] at hv; simp at hv; omega
        rw [this, e]; exact fun e => h.2 e.symm
      · have := pbaBase_ge hf; have := h.1; omega
    · simp
  · rfl

/-- The interrupt of a block's flag. -/
theorem State.eventIrq_block {a : Nat} (h : frameOf a = .block) (own mgr : Bool) :
    s.eventIrq a own mgr = if own then s.mgrIrq else s := by
  unfold State.eventIrq; rw [h]

/-- Raising a flag outside the rings changes nothing inside. -/
theorem State.inner_eventIrq {a : Nat} (h : ∀ q, frameOf a ≠ .ring q) (own mgr : Bool) : (s.eventIrq a own mgr).inner = s.inner := by
  unfold State.eventIrq
  split
  · cases own <;> simp
  · cases own <;> cases mgr <;> simp
  · next q e => exact absurd e (h q)
theorem State.rd_eventIrq (a : Nat) (own mgr : Bool) {b : Nat} {g : Fld} (h : offPba (b + g.off)) (hg : g.lo < 32) :
    (s.eventIrq a own mgr).rd b g = s.rd b g := by
  unfold State.eventIrq
  split
  · cases own <;> simp [State.rd_mgrIrq _ h.2 hg]
  · cases own <;> cases mgr <;> simp [State.rd_mgrIrq _ h.2 hg, State.rd_raiseVec _ _ _ h hg]
  · cases own
    · rfl
    · simp only [if_true]; split <;> simp [State.rd_raiseVec _ _ _ h hg]
theorem State.wideAt_eventIrq (a : Nat) (own mgr : Bool) (b : Nat) : (s.eventIrq a own mgr).wideAt b = s.wideAt b := by
  unfold State.eventIrq
  split
  · cases own <;> simp
  · cases own <;> cases mgr <;> simp
  · cases own
    · rfl
    · simp only [if_true]; split <;> simp
theorem State.now_eventIrq (a : Nat) (own mgr : Bool) : (s.eventIrq a own mgr).now = s.now := by
  unfold State.eventIrq
  split
  · cases own <;> simp
  · cases own <;> cases mgr <;> simp
  · cases own
    · rfl
    · simp only [if_true]; split <;> simp

theorem notRing_of_block {a : Nat} (h : frameOf a = .block) (q : Nat) : frameOf a ≠ .ring q := by rw [h]; exact nofun

theorem State.inner_raise {a : Nat} (h : ∀ q, frameOf a ≠ .ring q) (f : Fld) : (s.raise a f).inner = s.inner := by
  unfold State.raise; split
  · rfl
  · rw [State.inner_eventIrq _ h]; rfl
@[simp] theorem State.wideAt_raise (a : Nat) (f : Fld) (b : Nat) : (s.raise a f).wideAt b = s.wideAt b := by
  unfold State.raise; split
  · rfl
  · rw [State.wideAt_eventIrq]; rfl
@[simp] theorem State.now_raise (a : Nat) (f : Fld) : (s.raise a f).now = s.now := by
  unfold State.raise; split
  · rfl
  · rw [State.now_eventIrq]; rfl
/-- Raising a flag changes no register but the flag and a pending-bit word. -/
theorem State.rd_raise_ne {a b : Nat} {f g : Fld} (h : offPba (b + g.off)) (hg : g.lo < 32)
    (hk : fkey (a + f.off) f.lo ≠ fkey (b + g.off) g.lo) : (s.raise a f).rd b g = s.rd b g := by
  unfold State.raise; split
  · rfl
  · rw [State.rd_eventIrq _ _ _ _ h hg, State.rd_put_ne _ _ hk]
/-- The same of a block's flag, for every register. -/
theorem State.rd_raise_block {a b : Nat} {f g : Fld} (hb : frameOf a = .block) (h : b + g.off ≠ pbaBase 0) (hg : g.lo < 32)
    (hk : fkey (a + f.off) f.lo ≠ fkey (b + g.off) g.lo) : (s.raise a f).rd b g = s.rd b g := by
  unfold State.raise; split
  · rfl
  · rw [State.eventIrq_block _ hb]
    split
    · rw [State.rd_mgrIrq _ h hg, State.rd_put_ne _ _ hk]
    · rw [State.rd_put_ne _ _ hk]
/-- A raised flag reads 1. -/
theorem State.rd_raise_self {a : Nat} {f : Fld} (h : offPba (a + f.off)) (hg : f.lo < 32) (hw : 0 < f.w) : (s.raise a f).rd a f = 1 := by
  unfold State.raise; split
  · assumption
  · rw [State.rd_eventIrq _ _ _ _ h hg, State.rd_put_self]
    exact Nat.mod_eq_of_lt (Nat.one_lt_two_pow (by omega))
/-- A flag that is set stays set when another is raised. -/
theorem State.rd_raise_mono {a b : Nat} {f g : Fld} (h : offPba (b + g.off)) (hg : g.lo < 32) (hw : f.w = 1) (h1 : s.rd b g = 1) :
    (s.raise a f).rd b g = 1 := by
  unfold State.raise; split
  · exact h1
  · rw [State.rd_eventIrq _ _ _ _ h hg, State.rd_put]
    split
    · simp [hw]
    · exact h1

/-! ## The derived outputs -/

@[simp] theorem State.inner_guaranteeLook : s.guaranteeLook.inner = s.inner := by
  unfold State.guaranteeLook; split
  · rfl
  · exact s.inner_raise (notRing_of_block (by decide)) _
@[simp] theorem State.inner_statusLook : s.statusLook.inner = s.inner := by
  unfold State.statusLook; dsimp only; simp only [State.inner_put]
@[simp] theorem State.inner_pinsLook : s.pinsLook.inner = s.inner := by
  unfold State.pinsLook; dsimp only; split <;> rfl
@[simp] theorem State.inner_bootLook : s.bootLook.inner = s.inner := by
  unfold State.bootLook; split
  · exact State.inner_put _ _ _ _
  · rfl

theorem State.rd_guaranteeLook {b : Nat} {g : Fld} (h : ¬ outputReg (b + g.off)) (hg : g.lo < 32) :
    s.guaranteeLook.rd b g = s.rd b g := by
  unfold State.guaranteeLook; split
  · rfl
  · refine s.rd_raise_block (by decide) (fun e => h (by simp [outputReg, e])) hg ?_
    have e : snB + Reg.SN_EVENT_GUARANTEE_CHANGE.off ≠ b + g.off := fun e => h (Or.inr (Or.inl (by rw [← e]; rfl)))
    have : Reg.SN_EVENT_GUARANTEE_CHANGE.lo < 32 := by decide
    unfold fkey; omega
theorem State.rd_statusLook {b : Nat} {g : Fld} (h : ¬ outputReg (b + g.off)) (hg : g.lo < 32) : s.statusLook.rd b g = s.rd b g := by
  have e : snB + Reg.SN_STATUS_STOPPED.off ≠ b + g.off := fun e => h (Or.inl e.symm)
  unfold State.statusLook
  dsimp only
  rw [State.rd_put_addr _ _ (by decide) hg (show snB + Reg.SN_STATUS_COND.off ≠ b + g.off from e),
    State.rd_put_addr _ _ (by decide) hg (show snB + Reg.SN_STATUS_PERSIST.off ≠ b + g.off from e),
    State.rd_put_addr _ _ (by decide) hg (show snB + Reg.SN_STATUS_FAULT_N.off ≠ b + g.off from e),
    State.rd_put_addr _ _ (by decide) hg (show snB + Reg.SN_STATUS_GUARANTEE.off ≠ b + g.off from e)]
@[simp] theorem State.rd_pinsLook (b : Nat) (g : Fld) : s.pinsLook.rd b g = s.rd b g := by
  unfold State.pinsLook; dsimp only; split <;> rfl
theorem State.rd_bootLook {b : Nat} {g : Fld} (h : ¬ outputReg (b + g.off)) (hg : g.lo < 32) : s.bootLook.rd b g = s.rd b g := by
  have e : devB + Reg.DEV_BOOT_STATUS_STEP.off ≠ b + g.off := fun e => h (Or.inr (Or.inr (Or.inl e.symm)))
  unfold State.bootLook; split
  · exact s.rd_put_addr _ (by decide) hg e
  · rfl

/-- What ends every command changes no register but those that follow the state. -/
theorem rd_settle {pre post : State} {b : Nat} {g : Fld} (h : ¬ outputReg (b + g.off)) (hg : g.lo < 32) :
    (settle pre post).rd b g = post.rd b g := by
  show (State.look { post with now := max pre.now post.now }).rd b g = post.rd b g
  unfold State.look
  rw [State.rd_bootLook _ h hg, State.rd_pinsLook, State.rd_statusLook _ h hg, State.rd_guaranteeLook _ h hg]
  rfl

@[simp] theorem inner_settle (pre post : State) : (settle pre post).inner = post.inner := by
  show (State.look { post with now := max pre.now post.now }).inner = post.inner
  simp only [State.look, State.inner_bootLook, State.inner_pinsLook, State.inner_statusLook, State.inner_guaranteeLook]
  rfl

/-- No command changes the queue. -/
@[simp] theorem pending_settle (pre post : State) : (settle pre post).pending = pre.pending := rfl

@[simp] theorem State.now_look : s.look.now = s.now := by
  have e1 : ∀ t : State, t.bootLook.now = t.now := by intro t; unfold State.bootLook; split <;> rfl
  have e2 : ∀ t : State, t.pinsLook.now = t.now := by intro t; unfold State.pinsLook; dsimp only; split <;> rfl
  have e3 : ∀ t : State, t.statusLook.now = t.now := fun t => rfl
  have e4 : ∀ t : State, t.guaranteeLook.now = t.now := by intro t; unfold State.guaranteeLook; split <;> simp
  unfold State.look; rw [e1, e2, e3, e4]

/-- The timebase after a command. -/
@[simp] theorem now_settle (pre post : State) : (settle pre post).now = max pre.now post.now :=
  State.now_look { post with now := max pre.now post.now }

/-- A wide value other than the time of READY's last rise is left. -/
theorem wideAt_settle {pre post : State} {b : Nat} (h : b ≠ devB + Reg.DEV_READY_TIME) : (settle pre post).wideAt b = post.wideAt b := by
  show (State.look { post with now := max pre.now post.now }).wideAt b = post.wideAt b
  have e1 : ∀ t : State, t.bootLook.wideAt b = t.wideAt b := by intro t; unfold State.bootLook; split <;> rfl
  have e2 : ∀ t : State, t.pinsLook.wideAt b = t.wideAt b := by
    intro t; unfold State.pinsLook; dsimp only; split
    · exact t.wideAt_putWide_ne _ (Ne.symm h)
    · rfl
  have e3 : ∀ t : State, t.statusLook.wideAt b = t.wideAt b := fun t => rfl
  have e4 : ∀ t : State, t.guaranteeLook.wideAt b = t.wideAt b := by intro t; unfold State.guaranteeLook; split <;> simp
  unfold State.look
  rw [e1, e2, e3, e4]; rfl

/-- The active values are left. -/
@[simp] theorem rda_settle (pre post : State) (b : Nat) (g : Fld) : (settle pre post).rda b g = post.rda b g := by
  have h := congrArg State.act (inner_settle pre post)
  have h : (settle pre post).act = post.act := h
  unfold State.rda; rw [h]

end Sys2Proof.Machine
end

