-- ==== Sys2Proof/Laws/Keeps.lean ====
section
/-!
SUPPORT. How `keeps` and `keepsWide` are shown: each operation over the registers keeps what lies outside the addresses it writes, and so
does what ends every command.
-/
namespace Sys2Proof.Machine

variable {mine : Nat → Prop} {s t : State}

theorem keeps.refl (mine : Nat → Prop) (s : State) : keeps mine s s := ⟨rfl, fun _ _ _ _ _ => rfl⟩

theorem keeps.trans {u : State} (h : keeps mine s t) (h' : keeps mine t u) : keeps mine s u :=
  ⟨h'.inner.trans h.inner, fun b g hg ho hm => (h'.regs b g hg ho hm).trans (h.regs b g hg ho hm)⟩

theorem keeps.put (h : keeps mine s t) {a : Nat} {f : Fld} (v : Nat) (hf : f.lo < 32) (hm : mine (a + f.off)) : keeps mine s (t.put a f v) :=
  ⟨(t.inner_put a f v).trans h.inner, fun b g hg ho hn =>
    (t.rd_put_addr v hf hg fun e => hn (e ▸ hm)).trans (h.regs b g hg ho hn)⟩

theorem keeps.raise (h : keeps mine s t) {a : Nat} {f : Fld} (hb : frameOf a = .block) (hf : f.lo < 32) (hm : mine (a + f.off)) :
    keeps mine s (t.raise a f) :=
  ⟨(t.inner_raise (notRing_of_block hb) f).trans h.inner, fun b g hg ho hn =>
    (t.rd_raise_block hb (fun e => ho (by simp [outputReg, e])) hg (by
      have : a + f.off ≠ b + g.off := fun e => hn (e ▸ hm)
      unfold fkey; omega)).trans (h.regs b g hg ho hn)⟩

theorem keeps.putWide (h : keeps mine s t) (a v : Nat) : keeps mine s (t.putWide a v) := ⟨h.inner, h.regs⟩
theorem keeps.count (h : keeps mine s t) (a n : Nat) : keeps mine s (t.count a n) := ⟨h.inner, h.regs⟩
theorem keeps.reach (h : keeps mine s t) (n : Nat) : keeps mine s (t.reach n) := ⟨h.inner, h.regs⟩

/-- What ends every command keeps what its own effect keeps. -/
theorem keeps.settle (h : keeps mine s t) (pre : State) : keeps mine s (settle pre t) :=
  ⟨(inner_settle pre t).trans h.inner, fun b g hg ho hn => (rd_settle ho hg).trans (h.regs b g hg ho hn)⟩

theorem keepsWide.refl (mine : Nat → Prop) (s : State) : keepsWide mine s s := fun _ _ _ => rfl
theorem keepsWide.put (h : keepsWide mine s t) (a : Nat) (f : Fld) (v : Nat) : keepsWide mine s (t.put a f v) := h
theorem keepsWide.raise (h : keepsWide mine s t) (a : Nat) (f : Fld) : keepsWide mine s (t.raise a f) := fun b hm hr =>
  (t.wideAt_raise a f b).trans (h b hm hr)
theorem keepsWide.putWide (h : keepsWide mine s t) {a : Nat} (v : Nat) (ha : mine a) : keepsWide mine s (t.putWide a v) := fun b hm hr =>
  (t.wideAt_putWide_ne v (fun e : a = b => hm (e ▸ ha))).trans (h b hm hr)
theorem keepsWide.count (h : keepsWide mine s t) {a : Nat} (n : Nat) (ha : mine a) : keepsWide mine s (t.count a n) := fun b hm hr =>
  (t.wideAt_count_ne n (fun e : a = b => hm (e ▸ ha))).trans (h b hm hr)
theorem keepsWide.settle (h : keepsWide mine s t) (pre : State) : keepsWide mine s (settle pre t) := fun b hm hr =>
  (wideAt_settle hr).trans (h b hm hr)

end Sys2Proof.Machine
end

