-- ==== Sys2Proof/Laws/PerInstr.lean ====
section
/-!
SUPPORT. One lemma per command: the command table gives no row any bits, so no word spells the command.
-/
namespace Sys2Proof.Laws.Encoding

/-- No word of any length spells the command. -/
def Statement (i : Instr) : Prop := ∀ nbits w : Nat, decodeTableWord nbits w ≠ some i

theorem registerWrite (w : Win) (off : Nat) (data : List Byte) (be : List Bool) (hw : Bool) : Statement (.registerWrite w off data be hw) := nofun
theorem aliasSetWrite (w : Win) (off : Nat) (data : List Byte) (be : List Bool) (hw : Bool) : Statement (.aliasSetWrite w off data be hw) := nofun
theorem aliasClearWrite (w : Win) (off : Nat) (data : List Byte) (be : List Bool) (hw : Bool) : Statement (.aliasClearWrite w off data be hw) := nofun
theorem aliasToggleWrite (w : Win) (off : Nat) (data : List Byte) (be : List Bool) (hw : Bool) : Statement (.aliasToggleWrite w off data be hw) := nofun
theorem broadcastWrite (op : AliasOp) (sel : Fin 16) (typ : Fin 8) (off : Nat) (data : List Byte) (be : List Bool) : Statement (.broadcastWrite op sel typ off data be) := nofun
theorem broadcastRead (sel : Fin 16) (typ : Fin 8) (off : Nat) : Statement (.broadcastRead sel typ off) := nofun
theorem arm (f : FrameRef) : Statement (.arm f) := nofun
theorem revert (f : FrameRef) : Statement (.revert f) := nofun
theorem idleApply (f : FrameRef) : Statement (.idleApply f) := nofun
theorem mbxRead (m : MbxRef) (code : BitVec 24) : Statement (.mbxRead m code) := nofun
theorem mbxLoad (m : MbxRef) (code : BitVec 24) : Statement (.mbxLoad m code) := nofun
theorem mbxCapture (m : MbxRef) : Statement (.mbxCapture m) := nofun
theorem mbxDataRead (m : MbxRef) (k : Fin 4) : Statement (.mbxDataRead m k) := nofun
theorem db (w : Win) (slot : Fin 16) (v : Word) : Statement (.db w slot v) := nofun
theorem db64 (w : Win) (slot : Fin 16) (lo hi : Word) : Statement (.db64 w slot lo hi) := nofun
theorem configRequest (f : FnRef) (req : CfgReq) : Statement (.configRequest f req) := nofun
theorem apertureRead (addr : BitVec 36) (len : Fin 65) : Statement (.apertureRead addr len) := nofun
theorem apertureWrite (addr : BitVec 36) (data : List Byte) : Statement (.apertureWrite addr data) := nofun
theorem msixUnmask (f : FnId) (vec : Fin 32) : Statement (.msixUnmask f vec) := nofun
theorem perstAssert (p : Port) : Statement (.perstAssert p) := nofun
theorem perstRelease (p : Port) : Statement (.perstRelease p) := nofun
theorem hotReset (p : Port) : Statement (.hotReset p) := nofun
theorem linkDown (p : Port) : Statement (.linkDown p) := nofun
theorem linkUp (p : Port) (gen : Fin 8) (lanes : Fin 16) : Statement (.linkUp p gen lanes) := nofun
theorem vfFlr (i : Fin 64) : Statement (.vfFlr i) := nofun
theorem pfFlr (p : Port) : Statement (.pfFlr p) := nofun
theorem vfEnableClear (p : Port) (numVFs : Fin 65) : Statement (.vfEnableClear p numVFs) := nofun
theorem pmeTurnOff (p : Port) : Statement (.pmeTurnOff p) := nofun
theorem ptmDialogue : Statement (.ptmDialogue) := nofun
theorem ptmResponse (host : Option (BitVec 64)) : Statement (.ptmResponse host) := nofun
theorem hostReadCompletion (q : Fin 256) (data : List Byte) (st : ReadStatus) : Statement (.hostReadCompletion q data st) := nofun
theorem hostReadTimeout (q : Fin 256) : Statement (.hostReadTimeout q) := nofun
theorem ringStart (q : Fin 256) : Statement (.ringStart q) := nofun
theorem ringStop (q : Fin 256) : Statement (.ringStop q) := nofun
theorem ringResume (q : Fin 256) : Statement (.ringResume q) := nofun
theorem ringDisable (q : Fin 256) : Statement (.ringDisable q) := nofun
theorem descriptorFetch (q : Fin 256) : Statement (.descriptorFetch q) := nofun
theorem descriptorArrive (q : Fin 256) (d : BitVec 512) (st : ReadStatus) : Statement (.descriptorArrive q d st) := nofun
theorem fenceWaitSatisfied (q : Fin 256) : Statement (.fenceWaitSatisfied q) := nofun
theorem descriptorComplete (q : Fin 256) (e : WorkEnd) : Statement (.descriptorComplete q e) := nofun
theorem modTimerExpire (q : Fin 256) : Statement (.modTimerExpire q) := nofun
theorem instanceStop (i : Fin 64) : Statement (.instanceStop i) := nofun
theorem instanceStopClear (i : Fin 64) : Statement (.instanceStopClear i) := nofun
theorem quiesced (i : Fin 64) : Statement (.quiesced i) := nofun
theorem instanceReset (i : Fin 64) : Statement (.instanceReset i) := nofun
theorem clearUnclean (i : Fin 64) : Statement (.clearUnclean i) := nofun
theorem resetDone (i : Fin 64) : Statement (.resetDone i) := nofun
theorem scrubDone (i : Fin 64) : Statement (.scrubDone i) := nofun
theorem roundStart (m : Measure) : Statement (.roundStart m) := nofun
theorem voltageConfirmed : Statement (.voltageConfirmed) := nofun
theorem quantumExpiry (e : EngineRef) (t : BitVec 64) : Statement (.quantumExpiry e t) := nofun
theorem urgentPoint (q : Fin 256) (t : BitVec 64) : Statement (.urgentPoint q t) := nofun
theorem preemptPointReached (e : EngineRef) (t : BitVec 64) : Statement (.preemptPointReached e t) := nofun
theorem tileBoundaryTimeout (g : Fin 4) (t : BitVec 64) : Statement (.tileBoundaryTimeout g t) := nofun
theorem contextSaveDone (e : EngineRef) (t : BitVec 64) (restoreOk : Bool) : Statement (.contextSaveDone e t restoreOk) := nofun
theorem testSliceEnd (g : Fin 4) (t : BitVec 64) (failed : Option (Fin 4)) : Statement (.testSliceEnd g t failed) := nofun
theorem jobTimeout (q : Fin 256) : Statement (.jobTimeout q) := nofun
theorem shaderFault (q : Fin 256) (off : Word) : Statement (.shaderFault q off) := nofun
theorem latch (h : Fin 8) (t : BitVec 64) : Statement (.latch h t) := nofun
theorem nop (q : Fin 256) : Statement (.nop q) := nofun
theorem state (q : Fin 256) : Statement (.state q) := nofun
theorem flip (q : Fin 256) : Statement (.flip q) := nofun
theorem coeff (q : Fin 256) : Statement (.coeff q) := nofun
theorem head (q : Fin 256) : Statement (.head q) := nofun
theorem move (q : Fin 256) : Statement (.move q) := nofun
theorem expect (q : Fin 256) : Statement (.expect q) := nofun
theorem gamma (q : Fin 256) : Statement (.gamma q) := nofun
theorem bind (q : Fin 256) : Statement (.bind q) := nofun
theorem commitReadDone (q : Fin 256) (data : List Byte) (st : ReadStatus) : Statement (.commitReadDone q data st) := nofun
theorem layerAssign (k : Fin 64) (v : Word) : Statement (.layerAssign k v) := nofun
theorem cringWrite (h : Fin 8) (v : Word) : Statement (.cringWrite h v) := nofun
theorem composeLineStart (h : Fin 8) (line : BitVec 16) (t : BitVec 64) : Statement (.composeLineStart h line t) := nofun
theorem lineDue (h : Fin 8) (line : BitVec 16) (t : BitVec 64) : Statement (.lineDue h line t) := nofun
theorem frameStart (h : Fin 8) (t : BitVec 64) : Statement (.frameStart h t) := nofun
theorem headPllLock (h : Fin 8) : Statement (.headPllLock h) := nofun
theorem trainAttemptDone (h : Fin 8) (ok : Bool) : Statement (.trainAttemptDone h ok) := nofun
theorem trainRetry (h : Fin 8) : Statement (.trainRetry h) := nofun
theorem hpdIrq (h : Fin 8) (lost : Bool) (cpIrq : Bool) : Statement (.hpdIrq h lost cpIrq) := nofun
theorem hpdUnplug (h : Fin 8) : Statement (.hpdUnplug h) := nofun
theorem hpdPlug (h : Fin 8) (sink : SinkCaps) : Statement (.hpdPlug h sink) := nofun
theorem retrain (h : Fin 8) : Statement (.retrain h) := nofun
theorem auxGo (h : Fin 8) : Statement (.auxGo h) := nofun
theorem auxReply (h : Fin 8) (r : AuxReply) (data : List Byte) : Statement (.auxReply h r data) := nofun
theorem auxTimeout (h : Fin 8) : Statement (.auxTimeout h) := nofun
theorem dsiSleepExitWaitEnd (h : Fin 8) : Statement (.dsiSleepExitWaitEnd h) := nofun
theorem hdcpAuthDone (h : Fin 8) (ok : Bool) (typ1 : Bool) : Statement (.hdcpAuthDone h ok typ1) := nofun
theorem hdcpReauth (h : Fin 8) : Statement (.hdcpReauth h) := nofun
theorem vsyncInEdge (t : BitVec 64) : Statement (.vsyncInEdge t) := nofun
theorem genlockRefMissing (h : Fin 8) : Statement (.genlockRefMissing h) := nofun
theorem holdTimerExpire (h : Fin 8) : Statement (.holdTimerExpire h) := nofun
theorem csiFrameStart (s : Fin 4) (frame : BitVec 16) : Statement (.csiFrameStart s frame) := nofun
theorem csiLinePacket (s : Fin 4) (dt : BitVec 6) (vc : Fin 16) (data : List Byte) (bad : Bool) : Statement (.csiLinePacket s dt vc data bad) := nofun
theorem csiFrameEnd (s : Fin 4) (t : BitVec 64) : Statement (.csiFrameEnd s t) := nofun
theorem overflow (s : Fin 4) : Statement (.overflow s) := nofun
theorem stall (s : Fin 4) : Statement (.stall s) := nofun
theorem render (q : Fin 256) : Statement (.render q) := nofun
theorem dispatch (q : Fin 256) : Statement (.dispatch q) := nofun
theorem context (q : Fin 256) : Statement (.context q) := nofun
theorem gfxTimestamp (q : Fin 256) : Statement (.gfxTimestamp q) := nofun
theorem binningDone (q : Fin 256) (entries : List Nat) (verts : Word) : Statement (.binningDone q entries verts) := nofun
theorem copy (q : Fin 256) : Statement (.copy q) := nofun
theorem fill (q : Fin 256) : Statement (.fill q) := nofun
theorem copy2d (q : Fin 256) : Statement (.copy2d q) := nofun
theorem convert (q : Fin 256) : Statement (.convert q) := nofun
theorem cpyTimestamp (q : Fin 256) : Statement (.cpyTimestamp q) := nofun
theorem dramRequestArrive (r : DramReq) : Statement (.dramRequestArrive r) := nofun
theorem refreshTick (c : Fin 16) (rank : Fin 2) : Statement (.refreshTick c rank) := nofun
theorem requestAgePromote (c : Fin 16) : Statement (.requestAgePromote c) := nofun
theorem mr4Poll (c : Fin 16) : Statement (.mr4Poll c) := nofun
theorem mr4Result (c : Fin 16) (rank : Fin 2) (band : Fin 3) : Statement (.mr4Result c rank band) := nofun
theorem limitWrite (v : Word) : Statement (.limitWrite v) := nofun
theorem disturbWindowEnd (c : Fin 16) : Statement (.disturbWindowEnd c) := nofun
theorem rankPowerDown (c : Fin 16) (rank : Fin 2) : Statement (.rankPowerDown c rank) := nofun
theorem channelSelfRefresh (c : Fin 16) : Statement (.channelSelfRefresh c) := nofun
theorem dramReadReturn (port : Fin 24) (inst : BitVec 8) (addr : BitVec 36) (r : EccRead) : Statement (.dramReadReturn port inst addr r) := nofun
theorem patrolRead (r : EccRead) : Statement (.patrolRead r) := nofun
theorem recentreDue : Statement (.recentreDue) := nofun
theorem recentreNow : Statement (.recentreNow) := nofun
theorem recentreProbe (c : Fin 16) (rank : Fin 2) (lane : Fin 2) (wr : Bool) (centre width : Fin 128) : Statement (.recentreProbe c rank lane wr centre width) := nofun
theorem trainingDone (r : TrainResult) : Statement (.trainingDone r) := nofun
theorem dramInitDone : Statement (.dramInitDone) := nofun
theorem pageAssign (c : FnId) : Statement (.pageAssign c) := nofun
theorem pageRelease (c : FnId) : Statement (.pageRelease c) := nofun
theorem pageFlags (c : FnId) : Statement (.pageFlags c) := nofun
theorem pageQuery (c : FnId) : Statement (.pageQuery c) := nofun
theorem debugUnlock (c : FnId) : Statement (.debugUnlock c) := nofun
theorem debugRevoke (c : FnId) : Statement (.debugRevoke c) := nofun
theorem potBatchCommit (c : FnId) : Statement (.potBatchCommit c) := nofun
theorem pinRelease (page : BitVec 24) : Statement (.pinRelease page) := nofun
theorem pageScrubDone (page : BitVec 24) : Statement (.pageScrubDone page) := nofun
theorem secureHeartbeat : Statement (.secureHeartbeat) := nofun
theorem secureWatchdogExpire : Statement (.secureWatchdogExpire) := nofun
theorem secureCallTimeout (c : FnId) : Statement (.secureCallTimeout c) := nofun
theorem secLockstepFail : Statement (.secLockstepFail) := nofun
theorem secureReleaseDone : Statement (.secureReleaseDone) := nofun
theorem secureReboot : Statement (.secureReboot) := nofun
theorem secureBootDone (tableOk : Bool) : Statement (.secureBootDone tableOk) := nofun
theorem debugLock : Statement (.debugLock) := nofun
theorem heldRequestRelease : Statement (.heldRequestRelease) := nofun
theorem sampleTick (ins : List (Nat × List Word)) (readBack : List Word) (overC : Bool) : Statement (.sampleTick ins readBack overC) := nofun
theorem periodBoundary (t : BitVec 64) : Statement (.periodBoundary t) := nofun
theorem nodeWordWrite (n : Fin 512) (word : Fin 3) (v : Word) : Statement (.nodeWordWrite n word v) := nofun
theorem compiled (fits : Bool) (t : BitVec 64) : Statement (.compiled fits t) := nofun
theorem swapped : Statement (.swapped) := nofun
theorem play (q : Fin 256) : Statement (.play q) := nofun
theorem record (q : Fin 256) : Statement (.record q) := nofun
theorem control (q : Fin 256) : Statement (.control q) := nofun
theorem audioCoeff (q : Fin 256) : Statement (.audioCoeff q) := nofun
theorem chime (q : Fin 256) : Statement (.chime q) := nofun
theorem chimeClipEnd (i : Fin 64) : Statement (.chimeClipEnd i) := nofun
theorem portClock (p : Fin 6) : Statement (.portClock p) := nofun
theorem portClockReturn (p : Fin 6) : Statement (.portClockReturn p) := nofun
theorem headsetInsert (j : Fin 2) : Statement (.headsetInsert j) := nofun
theorem headsetClassified (j : Fin 2) (typ : Fin 4) (line : Bool) : Statement (.headsetClassified j typ line) := nofun
theorem headsetRemove (j : Fin 2) : Statement (.headsetRemove j) := nofun
theorem buttonPress (j : Fin 2) (mv : BitVec 16) : Statement (.buttonPress j mv) := nofun
theorem buttonRelease (j : Fin 2) : Statement (.buttonRelease j) := nofun
theorem touchAttention (t : Fin 8) : Statement (.touchAttention t) := nofun
theorem touchReport (t : Fin 8) (data : List Byte) (nack : Bool) : Statement (.touchReport t data nack) := nofun
theorem clockStretchTimeout (t : Fin 8) : Statement (.clockStretchTimeout t) := nofun
theorem touchStale (t : Fin 8) : Statement (.touchStale t) := nofun
theorem hapTrig (i : Fin 64) (v : Word) : Statement (.hapTrig i v) := nofun
theorem hapTrigger (a : Fin 8) (v : Word) : Statement (.hapTrigger a v) := nofun
theorem hapCalibrate (a : Fin 8) : Statement (.hapCalibrate a) := nofun
theorem hapTest (a : Fin 8) : Statement (.hapTest a) := nofun
theorem hapRecover (a : Fin 8) : Statement (.hapRecover a) := nofun
theorem hapStop (a : Fin 8) : Statement (.hapStop a) := nofun
theorem bemfZeroCrossing (a : Fin 8) (amplitudeMv : BitVec 16) : Statement (.bemfZeroCrossing a amplitudeMv) := nofun
theorem calibrationDone (a : Fin 8) (fRes rDc : BitVec 16) (atEnd : Bool) : Statement (.calibrationDone a fRes rDc atEnd) := nofun
theorem testDone (a : Fin 8) (settled : Bool) : Statement (.testDone a settled) := nofun
theorem hapIdleProbe (a : Fin 8) (rMohm : BitVec 16) : Statement (.hapIdleProbe a rMohm) := nofun
theorem hapOvercurrent (a : Fin 8) : Statement (.hapOvercurrent a) := nofun
theorem hapRecoveryTimer (a : Fin 8) : Statement (.hapRecoveryTimer a) := nofun
theorem cvuIntervalEnd (u : Fin 64) (tagHead : BitVec 8) (tagSeq : BitVec 64) (agree : Bool) : Statement (.cvuIntervalEnd u tagHead tagSeq agree) := nofun
theorem cvuMissingTimeout (u : Fin 64) (t : BitVec 64) : Statement (.cvuMissingTimeout u t) := nofun
theorem clockMonitorTrip (domain : Byte) : Statement (.clockMonitorTrip domain) := nofun
theorem voltageMonitorTrip (rail : Byte) : Statement (.voltageMonitorTrip rail) := nofun
theorem faultPinMismatch : Statement (.faultPinMismatch) := nofun
theorem aonWatchdogExpire : Statement (.aonWatchdogExpire) := nofun
theorem rmLockstepFail : Statement (.rmLockstepFail) := nofun
theorem ringmasterRestart : Statement (.ringmasterRestart) := nofun
theorem configComparePass (diff : Option (Fin 7)) : Statement (.configComparePass diff) := nofun
theorem snStop : Statement (.snStop) := nofun
theorem snRelease : Statement (.snRelease) := nofun
theorem snReqStop (i : Fin 64) : Statement (.snReqStop i) := nofun
theorem snReqRelease (i : Fin 64) : Statement (.snReqRelease i) := nofun
theorem snInject (v : Word) : Statement (.snInject v) := nofun
theorem faultFlagsClear (v : Word) : Statement (.faultFlagsClear v) := nofun
theorem reqDoze : Statement (.reqDoze) := nofun
theorem reqStandby : Statement (.reqStandby) := nofun
theorem reqDeep : Statement (.reqDeep) := nofun
theorem cancel : Statement (.cancel) := nofun
theorem wake : Statement (.wake) := nofun
theorem devReset : Statement (.devReset) := nofun
theorem dozeIdleTimeout : Statement (.dozeIdleTimeout) := nofun
theorem autoStandbyTimeout : Statement (.autoStandbyTimeout) := nofun
theorem deepSTimeout : Statement (.deepSTimeout) := nofun
theorem wakeInAssert (n : Fin 4) : Statement (.wakeInAssert n) := nofun
theorem pcieWakeInAssert : Statement (.pcieWakeInAssert) := nofun
theorem picAlarmExpire : Statement (.picAlarmExpire) := nofun
theorem sleepBlockAnswer (declines : Bool) : Statement (.sleepBlockAnswer declines) := nofun
theorem sleepAnswerTimeout : Statement (.sleepAnswerTimeout) := nofun
theorem sleepRetry : Statement (.sleepRetry) := nofun
theorem sleepEntryDone : Statement (.sleepEntryDone) := nofun
theorem oscillatorStable : Statement (.oscillatorStable) := nofun
theorem oscillatorTimeout : Statement (.oscillatorTimeout) := nofun
theorem pgoodRise (n : Fin 6) : Statement (.pgoodRise n) := nofun
theorem pgoodTimeout (n : Fin 6) : Statement (.pgoodTimeout n) := nofun
theorem railRetry : Statement (.railRetry) := nofun
theorem pgoodFall (n : Fin 6) : Statement (.pgoodFall n) := nofun
theorem refclkTimeout : Statement (.refclkTimeout) := nofun
theorem wakeCoreReady (digestOk restoreOk : Bool) : Statement (.wakeCoreReady digestOk restoreOk) := nofun
theorem sensorTrip (n : Fin 32) : Statement (.sensorTrip n) := nofun
theorem pwrWarnAssert : Statement (.pwrWarnAssert) := nofun
theorem pwrWarnRelease : Statement (.pwrWarnRelease) := nofun
theorem writeInhibitEnd : Statement (.writeInhibitEnd) := nofun
theorem capOvershoot : Statement (.capOvershoot) := nofun
theorem xtal32kStop : Statement (.xtal32kStop) := nofun
theorem replanDue : Statement (.replanDue) := nofun
theorem replan : Statement (.replan) := nofun
theorem replanDone (dGfx dCore : BitVec 10) : Statement (.replanDone dGfx dCore) := nofun
theorem vddAonRise : Statement (.vddAonRise) := nofun
theorem vddAonResetFall : Statement (.vddAonResetFall) := nofun
theorem vddAonInhibitFall : Statement (.vddAonInhibitFall) := nofun
theorem bootStepDone (r : BootResult) : Statement (.bootStepDone r) := nofun
theorem fwRun : Statement (.fwRun) := nofun
theorem fwRunAndStore : Statement (.fwRunAndStore) := nofun
theorem fwStore : Statement (.fwStore) := nofun
theorem fwRaiseFloor : Statement (.fwRaiseFloor) := nofun
theorem validate : Statement (.validate) := nofun
theorem apply : Statement (.apply) := nofun
theorem store : Statement (.store) := nofun
theorem applyAndStore : Statement (.applyAndStore) := nofun
theorem raiseFloor : Statement (.raiseFloor) := nofun
theorem rplDmaDone (data : List Byte) (st : ReadStatus) : Statement (.rplDmaDone data st) := nofun
theorem rplOperationDone : Statement (.rplOperationDone) := nofun
theorem storeStepDone (ok : Bool) : Statement (.storeStepDone ok) := nofun
theorem tabCapture : Statement (.tabCapture) := nofun
theorem tabAtArm : Statement (.tabAtArm) := nofun
theorem tabAtCancel : Statement (.tabAtCancel) := nofun
theorem tabAtReached : Statement (.tabAtReached) := nofun
theorem telemSweep (q : Fin 256) (n : Fin 512) : Statement (.telemSweep q n) := nofun
theorem logProgramDone (verified : Bool) : Statement (.logProgramDone verified) := nofun
theorem logEraseDone (ok : Bool) : Statement (.logEraseDone ok) := nofun
theorem logScanDone : Statement (.logScanDone) := nofun
theorem logRead : Statement (.logRead) := nofun
theorem logReadDone : Statement (.logReadDone) := nofun
theorem brkHelp : Statement (.brkHelp) := nofun
theorem brkId : Statement (.brkId) := nofun
theorem brkState : Statement (.brkState) := nofun
theorem brkFaults : Statement (.brkFaults) := nofun
theorem brkUnlock (cert : List Byte) : Statement (.brkUnlock cert) := nofun
theorem brkLock : Statement (.brkLock) := nofun
theorem brkLog (seq : Word) (n : Fin 65) : Statement (.brkLog seq n) := nofun
theorem brkRd (addr : BitVec 23) (n : Fin 65) : Statement (.brkRd addr n) := nofun
theorem brkWide (addr : BitVec 23) : Statement (.brkWide addr) := nofun
theorem brkCap : Statement (.brkCap) := nofun
theorem brkShadow (n : BitVec 12) (count : Fin 65) : Statement (.brkShadow n count) := nofun
theorem brkWr (addr : BitVec 26) (v : Word) : Statement (.brkWr addr v) := nofun
theorem brkInject (v : Word) : Statement (.brkInject v) := nofun
theorem brkReset : Statement (.brkReset) := nofun
theorem brkSrd (addr : BitVec 36) (n : Fin 65) (frame : Bool) : Statement (.brkSrd addr n frame) := nofun
theorem brkSwr (addr : BitVec 36) (v : Word) (frame : Bool) : Statement (.brkSwr addr v frame) := nofun
theorem brkUnknownCommand : Statement (.brkUnknownCommand) := nofun
theorem brkRxOverrun : Statement (.brkRxOverrun) := nofun
theorem commandSlot (c : Fin 16) : Statement (.commandSlot c) := nofun
theorem senseSample (a : Fin 8) (mv ma : BitVec 16) : Statement (.senseSample a mv ma) := nofun
theorem sramScrub (group : Byte) (errs : Fin 3) : Statement (.sramScrub group errs) := nofun
theorem persistConditionEnd (source : Fin 32) (index : BitVec 16) : Statement (.persistConditionEnd source index) := nofun
theorem vddAonInhibitRise : Statement (.vddAonInhibitRise) := nofun
theorem fwDmaDone (data : List Byte) (st : ReadStatus) : Statement (.fwDmaDone data st) := nofun
theorem fwPushDone : Statement (.fwPushDone) := nofun
theorem aspmL1Entry (p : Port) : Statement (.aspmL1Entry p) := nofun

end Sys2Proof.Laws.Encoding
end

