-- ==== Sys2Proof/WellFormed.lean ====
section
/-!
DEFINITION. Which command terms describe something the outside can send: the data of an access has a byte enable
for every byte and a length the access can have, a packet or a certificate has the length its rule gives.
The operands that a type already bounds need no check. The machine itself is total: it gives ill-formed terms a
meaning too.
-/
namespace Sys2Proof

/-- A register access: 1 to 64 bytes, one byte enable each, inside a 12 MiB window (R76, R90, R91). -/
def wfAccess (off : Nat) (data : List Byte) (be : List Bool) : Bool :=
  decide (data.length = be.length) && decide (1 ≤ data.length) && decide (data.length ≤ 64) && decide (off < 0xC00000)

/-- Data of a read that came back (R127): nothing comes with an error. -/
def wfRead (data : List Byte) : ReadStatus → Bool
  | .error => data.isEmpty
  | _ => true

/-- A DRAM request: a write carries 1 to 64 bytes that stay in the block, a read none (R357). -/
def wfDram (r : DramReq) : Bool :=
  if r.write then decide (1 ≤ r.data.length) && decide (r.addr.toNat % 64 + r.data.length ≤ 64) else r.data.isEmpty

/-- Well-formed commands. -/
def wf : Instr → Bool
  | .registerWrite _ off d be _ => wfAccess off d be
  | .aliasSetWrite _ off d be _ => wfAccess off d be
  | .aliasClearWrite _ off d be _ => wfAccess off d be
  | .aliasToggleWrite _ off d be _ => wfAccess off d be
  | .broadcastWrite _ _ _ off d be => wfAccess off d be
  | .broadcastRead _ _ off => decide (off % 4 = 0) && decide (off < 0x10000)
  | .apertureWrite _ d => decide (1 ≤ d.length) && decide (d.length ≤ 512)
  | .apertureRead _ n => decide (1 ≤ n.val)
  | .hostReadCompletion _ d st => wfRead d st
  | .commitReadDone _ d st => wfRead d st
  | .rplDmaDone d st => wfRead d st
  | .fwDmaDone d st => wfRead d st
  | .csiLinePacket _ _ _ d _ => decide (d.length ≤ 65535)
  | .roundStart m => decide (m.temps.length = 32) && decide (m.peaks.length = 32) && decide (m.fullMw.length = 5)
  | .dramRequestArrive r => wfDram r
  | .auxReply _ _ d => decide (d.length ≤ 16)
  | .touchReport _ d _ => decide (d.length ≤ 128)
  | .brkUnlock c => decide (c.length = 160)
  | .brkShadow _ n => decide (1 ≤ n.val)
  | _ => true

end Sys2Proof
end

