-- ==== Sys2Proof/Tests/Slice0.lean ====
section
/-!
SUPPORT. Tests: the spec's worked examples, one step each of a few commands, an ill-formed term for every check of `wf`, and for every
obligation with hypotheses a theorem `wit_<Name>` that shows states and operands which meet the hypotheses of each of its clauses.
-/
namespace Sys2Proof.Tests
open Sys2Proof Sys2Proof.Machine

/-! ## States to start from -/

/-- A manager whose function is ready and a Ringplan block past AWAITING_STRUCTURE. -/
def up : State := ((State.reset.put rplB Reg.RPL_STATE_STATE 3).put devB Reg.DEV_BOOT_STATUS_STATE 1).setFn 0 { ready := true }
/-- `up` in another power state. -/
def inPower (st : Nat) : State := up.put picB Reg.PIC_STATE_STATE st
/-- `s` with other state of Piccolo. -/
def withPwr (s : State) (x : PwrX) : State := { s with pwr := x }
/-- A plan of two instances: 0 of class S with eight rings from ring 8, 3 with eight rings from ring 16. -/
def wPlan : Plan :=
  { insts := [{ inst := 0, cls := 1, rings := 8, vectors := 8 }, { inst := 3, rings := 8, vectors := 8 }] }
/-- `up` with the plan applied. -/
def planned : State := { up with plan := some wPlan }
/-- `planned` with port A linked and the virtual functions of its two instances on and ready. -/
def linked : State :=
  let f : FnCfg := { ready := true, busMaster := true, msixEnable := true, numVFs := 2, vfEnable := true }
  ((((planned.put pciB Reg.PCI_PORT_A_STATUS_STATE 2).setFn 0 f).setFn 2 f).setFn 5 f |>.setInstState 0 Machine.ready).setInstState 3 Machine.ready
/-- Ring `q` of type `t` with 2^4 entries in state `st`, its fields and what it holds. -/
def ringAs (s : State) (q t st : Nat) (x : RingX := {}) : State :=
  ((((s.putBoth (ringBase q) Reg.RING_CFG_TYPE t).putBoth (ringBase q) Reg.RING_CFG_LOG2_ENTRIES 4).put (ringBase q) Reg.RING_STATE_STATE st)).setRing q x
/-- Descriptor 0: opcode `op`, phase `ph`, and `more` from offset 0x20. -/
def dsc (op : Nat) (ph : DPhase) (more : Nat := 0) : Desc := { idx := 0, words := BitVec.ofNat 512 (op + more * 2 ^ 256), phase := ph }
/-- `linked` with descriptor `d` first on ring 8 of type `t`, held by engine `e`. -/
def onEngine (t e : Nat) (d : Desc) (x : RingX := {}) (y : EngineX := {}) : State :=
  { ringAs linked 8 t 1 { x with fetched := [d] } with engines := [(e, { y with holder := .job 8 0 d.secure })] }
/-- A plan with heads, layers, a guarded region, a capture port and check-value units of instance 0. -/
def showPlan : Plan :=
  let head (h t : Nat) : HeadRec :=
    { head := h, owner := 0, portType := t, lanes := 4, linkRate := 2, lead := 2, ownerWritable := 7, hActive := 8, hTotal := 10, vActive := 4, vTotal := 6, pixelKhz := 1000, latchLine := 5 }
  { wPlan with
    heads := [head 0 1, head 2 3, head 5 2]
    layers := [{ layer := 0, owner := 0, head := 0, flags := 4, capture := 0xFF, maxBpp := 4, maxWidth := 8, maxHeight := 4, headMask := 0x25 },
               { layer := 3, owner := 0, head := 0xF, flags := 4, capture := 0, maxBpp := 4, maxWidth := 8, maxHeight := 4, headMask := 0x01 }]
    lineStore := [8, 0, 8, 0, 0, 8, 0, 0]
    guarded := [{ region := 0, head := 0, owner := 0, cvu := 0, x := 0, y := 1, w := 4, h := 2, mode := 0 }]
    caps := [{ port := 0, lanes := 4, laneMbps := 1000, dataType := 0x24, vc := 0, layer := 3, owner := 0, width := 4, height := 2 }]
    cvus := [{ unit := 0, owner := 0, snoop := 4, arg := 0, width := 32, poly := 0x04C11DB7, init := 0xFFFFFFFF, xorout := 0xFFFFFFFF }] }
/-- `linked` with `showPlan`, its heads' geometry in their registers, and head 0 in the link state given. -/
def showing (link : Nat) (x : HeadX := {}) (o : OutX := {}) : State :=
  let g (h : Nat) (s : State) : State := ((s.putBoth (headBase h) Reg.HEAD_V_V_ACTIVE 4).putBoth (headBase h) Reg.HEAD_COMP_STATUS_LEAD 2).putBoth (headBase h) Reg.HEAD_CRING_RING 0xFF
  let s := g 5 (g 2 (g 0 { linked with plan := some showPlan }))
  (((s.put (headBase 0) Reg.HEAD_STATE_LINK link).modHead 0 fun _ => x).modOut 0 fun _ => o)
/-- An audio graph of instance 0: a stream, a gain, a filter, a chime player, a port, clips and both headset codecs. -/
def wAudio : AudioRec :=
  { hsEnable := 3
    nodes := [{ node := 0, typ := 6, channels := 1 }, { node := 1, typ := 0x10, channels := 1, inputs := 1, param := [1, 2, 3, 4] },
      { node := 2, typ := 0x13, channels := 1, inputs := 1, param := [0, 0, 1, 0] }, { node := 3, typ := 0x1A, channels := 1, flags := 1 },
      { node := 4, typ := 0x10, channels := 1, owner := 3, inputs := 1 }]
    edges := [{ src := 0, dst := 1, input := 0 }]
    sched := [{ node := 0, step := 0, core := 0 }, { node := 1, step := 1, core := 0 }]
    ports := [{ port := 0, role := 1 }]
    clips := [{ frames := 4, channels := 1 }, { frames := 4, channels := 1, loop := 1 }] }
/-- A plan with that graph, touch ports and haptic channels of instance 0. -/
def feelPlan : Plan :=
  { wPlan with
    audio := some wAudio
    touch := [{ port := 0, bus := 0, reportMax := 4, lenOff := 0xFF, countOff := 0, contactOff := 4, contactSize := 4, maxContacts := 2, fSeq := 0xFF, staleMs := 10 },
      { port := 1, bus := 1, reportMax := 4, lenOff := 0xFF, countOff := 0, contactOff := 4, contactSize := 4, maxContacts := 2, fSeq := 0x700, staleMs := 10 }]
    haps := [{ channel := 0, rMin := 2, rMax := 40, iMaxMa := 200, fNom := 200, ratedMv := 1000, overdriveMv := 1500, bridgeMv := 3000, bemfRatedMv := 500 }]
    slots := [{ slot := 1, segments := 1, segs := [(1000, 2)] }] }
/-- `linked` with `feelPlan`. -/
def feeling : State := { linked with plan := some feelPlan }
/-! ## The spec's worked examples -/

/-- The mapping example beside R355: device address 0x1234_5678 of 16 GiB in one rank. -/
theorem test_dram_place : placeOf 32768 0x12345678 = { channel := 0, rank := 0, bank := 12, row := 601, block := 10 } := by decide +kernel
/-- The table base of a device with 15.5 GiB usable (example beside R397). -/
theorem test_pot_base : (State.reset.put dmcB Reg.DMC_USABLE_MIB 15872).potBase = 0x3DF840000 := by decide +kernel
/-- The budgets of the example beside R191: class B 10, S 100, P 500, G 360 per mille. -/
theorem test_cut_factors : cutFactors 1000 10 100 500 360 = (1000, 1000, 0) ∧ cutFactors 800 10 100 500 360 = (527, 1000, 1) ∧
    cutFactors 450 10 100 500 360 = (0, 680, 2) ∧ cutFactors 110 10 100 500 360 = (0, 0, 2) := by decide +kernel
/-- The blending example beside R234: straight alpha 128 over a background of 0x20_2020. -/
theorem test_blend : effAlpha 2 128 255 = 128 ∧ [1023, 514, 0].map (fun c => blend1 2 c 128 255 128) = [578, 322, 64] ∧
    [255, 128, 0, 0x20].map (expand10 8) = [1023, 514, 0, 128] := by decide +kernel
/-- The rings of the example beside R148: two ports and instances of 4, 6, 4, 4, 8 and seven times 4 rings. -/
def tram : State :=
  { State.reset with
    fuses := { State.reset.fuses with laneMode := 1 }
    plan := some { insts := [4, 6, 4, 4, 8, 4, 4, 4, 4, 4, 4, 4].zipIdx.map fun (e : Nat × Nat) => { inst := e.2, rings := e.1, port := if e.2 < 4 then 0 else 1 } } }
theorem test_ring_numbers : (List.range 6).map (fun i => ((tram.ringsOf (fnOfInst i)).head?, (tram.ringsOf (fnOfInst i)).getLast?)) =
    [(some 16, some 19), (some 20, some 25), (some 26, some 29), (some 30, some 33), (some 34, some 41), (some 42, some 45)] ∧
    tram.ringAt (fnOfInst 5) 2 = some 44 ∧ tram.fnPort (fnOfInst 5) = .b := by decide +kernel
/-- The fill of the example beside R153: 48, with 16 entries free; the doorbell value 0x231 would make it 65. -/
theorem test_fill : fillOf 1 0x220 0x1F0 = 48 ∧ fillOf 1 0x231 0x1F0 = 65 ∧ fillOf 1 0x230 0x1F0 = 64 := by decide +kernel
/-- The fold block of the example beside R495: head 1, region at X 3200, Y 1800, frame 1,000,000. -/
theorem test_fold_block :
    ({ up with plan := some { guarded := [{ region := 0, head := 1, cvu := 2, x := 3200, y := 1800, w := 512, h := 256 }],
                              cvus := [{ unit := 2, snoop := 1, width := 32, flags := 0x37 }] } } : State).foldBlock 2 1000000 =
      [0x01, 0, 0, 0, 0x80, 0x0C, 0x08, 0x07, 0x40, 0x42, 0x0F, 0, 0, 0, 0, 0] := by decide +kernel

/-! ## One step each -/

/-- A write through the clear alias cannot withdraw ARM: kind 0x01 in the head's frame (example beside R87). -/
theorem test_clear_alias_on_arm :
    ∃ t, exec (.aliasClearWrite .mgr 0xD0034 [1, 0, 0, 0] [true, true, true, true] false) up = .next t ∧
      t.rd (headBase 5) Reg.ERR_ACCESS_ERR = 1 ∧ t.rd (headBase 5) Reg.ERR_ACCESS_KIND = 1 := ⟨_, rfl, by decide +kernel⟩
/-- A ring of 64 entries at DEV_IDX 0x1F0 and HOST_IDX 0x220. -/
def ring44 : State :=
  ((((linked.putBoth (ringBase 8) Reg.RING_CFG_TYPE 1).putBoth (ringBase 8) Reg.RING_CFG_LOG2_ENTRIES 6).put (ringBase 8) Reg.RING_STATE_STATE 1).put
    (ringBase 8) Reg.RING_HOST_IDX_INDEX 0x220).put (ringBase 8) Reg.RING_DEV_IDX_INDEX 0x1F0
/-- A doorbell past the ring's length halts it and is not taken (example beside R153). -/
theorem test_doorbell_overrun :
    ∃ t, exec (.db (.vf 0) 0 0x231) ring44 = .next t ∧ t.ringState 8 = halted ∧ t.hostIdx 8 = 0x220 := ⟨_, rfl, by decide +kernel⟩
/-- One that fills the ring exactly is taken. -/
theorem test_doorbell_full :
    ∃ t, exec (.db (.vf 0) 0 0x230) ring44 = .next t ∧ t.ringState 8 = running ∧ t.hostIdx 8 = 0x230 := ⟨_, rfl, by decide +kernel⟩
/-- SN_CTRL[STOP] stops the outputs (R505). -/
theorem test_sn_stop : ∃ t, exec .snStop up = .next t ∧ t.rd snB Reg.SN_STATUS_STOPPED = 1 := ⟨_, rfl, by decide +kernel⟩
/-- A Ringmaster lockstep failure leaves its flag, and persists until the restart (R37, R503). -/
theorem test_rm_lockstep : ∃ t, exec .rmLockstepFail up = .next t ∧ bitSet (t.rd snB Reg.SN_FAULT_FLAGS_FLAGS) srcRmLockstep = true ∧
    bitSet (t.rd snB Reg.SN_PERSIST_PERSIST) srcRmLockstep = true := ⟨_, rfl, by decide +kernel⟩
/-- A refresh interval raises the owed count of an awake rank by one (R367). -/
theorem test_refresh_tick : ∃ t, exec (.refreshTick 3 0) (up.put dmcB Reg.DMC_STATUS_STATE 3) = .next t ∧ t.owed 3 0 = 1 := ⟨_, rfl, by decide +kernel⟩
/-- A step of an empty queue lets one nanosecond pass; of a queue it takes the front command. -/
theorem test_step_front : ∃ t, step { up with pending := [.snStop, .hotReset .a] } = .next t ∧ t.pending = [.hotReset .a] ∧
    t.rd snB Reg.SN_STATUS_STOPPED = 1 := ⟨_, rfl, by decide +kernel⟩

/-! ## Ill-formed commands -/

theorem test_wf_access_lengths : wf (.registerWrite .mgr 0 [1, 2] [true] false) = false := by decide +kernel
theorem test_wf_access_empty : wf (.aliasSetWrite .mgr 0 [] [] false) = false := by decide +kernel
theorem test_wf_access_offset : wf (.aliasToggleWrite .mgr 0xC00000 [1] [true] false) = false := by decide +kernel
theorem test_wf_access_long : wf (.aliasClearWrite .mgr 0 (List.replicate 65 0) (List.replicate 65 true) false) = false := by decide +kernel
theorem test_wf_access : wf (.registerWrite .mgr 0x404 [1, 2, 3, 4] [true, true, true, true] false) = true := by decide +kernel
theorem test_wf_broadcast : wf (.broadcastRead 1 2 0x36) = false ∧ wf (.broadcastRead 1 2 0x10000) = false ∧ wf (.broadcastRead 1 2 0x34) = true := by decide +kernel
theorem test_wf_aperture : wf (.apertureWrite 0 []) = false ∧ wf (.apertureRead 0 0) = false ∧ wf (.apertureRead 0 64) = true := by decide +kernel
theorem test_wf_reads : wf (.hostReadCompletion 0 [1] .error) = false ∧ wf (.commitReadDone 0 [1] .error) = false ∧ wf (.rplDmaDone [1] .error) = false ∧
    wf (.fwDmaDone [1] .error) = false ∧ wf (.fwDmaDone [1] .ok) = true := by decide +kernel
theorem test_wf_line : wf (.csiLinePacket 0 0x24 0 (List.replicate 65536 0) false) = false := by rw [wf, List.length_replicate]; rfl
theorem test_wf_round : wf (.roundStart {}) = false := by decide +kernel
theorem test_wf_dram : wf (.dramRequestArrive { port := 0, urg := 0, cls := 0, inst := 0, secure := false, addr := 63, write := true, data := [1, 2], scrub := false }) = false := by decide +kernel
theorem test_wf_aux : wf (.auxReply 0 .ack (List.replicate 17 0)) = false := by decide +kernel
theorem test_wf_touch : wf (.touchReport 0 (List.replicate 129 0) false) = false := by decide +kernel
theorem test_wf_barker : wf (.brkUnlock [1]) = false ∧ wf (.brkShadow 0 0) = false := by decide +kernel

/-! ## Decoding: no row of the table has bits -/

theorem test_decode_none : decodeTableWord 0 0 = none ∧ decodeTableWord 32 0xFFFFFFFF = none := by decide +kernel
theorem test_fetch_word : up.withFetchWord 32 5 = up := by decide +kernel

/-! ## What each obligation assumes can be met -/

set_option maxRecDepth 10000
set_option Elab.async false

namespace PlainRegister
def states : List State := [State.reset, up]
def st (k : Nat) : State := states.getD k State.reset
/-- What `Obligations.PlainRegister` assumes is met, clause by clause. -/
theorem wit_PlainRegister :
    ∃ (s : State), s.answers 0 = true ∧ s.rd logB Reg.LOG_RD_SEQ_SEQ < 2 ^ 32 :=
  ⟨(st 1), by decide +kernel⟩
end PlainRegister

namespace BroadcastView
def states : List State := [up, (linked.put devB Reg.DEV_BGRP_LO_MEMBERS 0xA), planned]
def st (k : Nat) : State := states.getD k State.reset
/-- What `Obligations.BroadcastView` assumes is met, clause by clause. -/
theorem wit_BroadcastView :
    ∃ (s : State) (sel : Fin 16) (typ : Fin 8) (off : Nat) (k : FrameKind) (ns : List Nat), s.answers 0 = true ∧ s.bcast sel.val typ.val (4 * off) = Bcast.members k ns ∧ ∀ n ∈ ns, s.readWord (k.at n + 4 * off) = s.readWord (k.at (ns.headD 0) + 4 * off) :=
  ⟨(st 0), 0, 0, 0, (FrameKind.head), ([0, 1, 2, 3, 4, 5, 6, 7]), by decide +kernel⟩
end BroadcastView

namespace ArmRevertApply
def states : List State :=
  let h := (up.put (hapChB 0) Reg.CTRL_ARM 1).put (hapChB 5) Reg.CTRL_ARM 1
  [up, h, { h with plan := some wPlan, now := 9 }, (h.put (hapChB 0) Reg.APPLY_APPLIED 4294967295).put carB Reg.CTRL_ARM 1]
def st (k : Nat) : State := states.getD k State.reset
/-- What `Obligations.ArmRevertApply` assumes is met, clause by clause. -/
theorem wit_ArmRevertApply :
    ∃ (s : State) (f : FrameRef) (a : Fin 8), s.answers 0 = true ∧ s.awaiting = false ∧ plainFrame f ∧ s.armed (hapChB a.val) = true ∧ s.hapActive a.val = false ∧ s.reservedShadow (hapChB a.val) = none :=
  ⟨(st 1), (FrameRef.car), 0, by dsimp only [plainFrame]; decide +kernel⟩
end ArmRevertApply

namespace MailboxRead
def states : List State :=
  [up, { up.putWide (picB + Reg.PIC_WAKES) 77 with mbx := [(0, some (picB + Reg.PIC_WAKES))] }, { up.putWide (tabB + Reg.TAB_LAST) 77 with mbx := [(0, some (tabB + Reg.TAB_LAST))] }, { up with mbx := [(0, some 0x60010)] }, { up.putWide 0x60010 0x123456789AB with mbx := [(0, some 0x60010)] }, ((up.put (mbxB 0) Reg.MBX_STATUS_VALID 1).put (mbxB 0) Reg.MBX_STATUS_WORDS 2).put (mbxB 0) Reg.MBX_DATA_DATA 7]
def st (k : Nat) : State := states.getD k State.reset
/-- What `Obligations.MailboxRead` assumes is met, clause by clause. -/
theorem wit_MailboxRead :
    (∃ (s : State) (code : BitVec 24), s.answers 0 = true ∧ code.toNat % 4 = 0 ∧ (s.wideValue 0 code.toNat).isSome = true) ∧
    (∃ (s : State) (code : BitVec 24) (w : Nat) (v : Nat), s.answers 0 = true ∧ code.toNat % 4 = 0 ∧
      KMap.get (fun _ => none) s.mbx 0 = some code.toNat ∧ s.wideValue 0 code.toNat = some (w, v) ∧ w ≤ 4) ∧
    (∃ (s : State) (code : BitVec 24), s.answers 0 = true ∧ code.toNat % 4 = 0 ∧ s.rd (mbxB 0) Reg.MBX_STATUS_VALID = 1) ∧
    (∃ (s : State) (code : BitVec 24), s.answers 0 = true ∧ code.toNat % 4 = 0 ∧
      ∃ p ∈ s.mbxSlot 0 code.toNat, s.mbxSlot 0 code.toNat = some (p.1, p.2) ∧ p.2.cnt = true ∧ s.slotHeld p.1 = false ∧
      p.1 ≠ devB + Reg.DEV_READY_TIME) :=
  ⟨⟨(st 0), (0x580040#24), by decide +kernel⟩,
    ⟨(st 1), (0x060090#24), 2, 77, by decide +kernel⟩,
    ⟨(st 5), (0x000000#24), by decide +kernel⟩,
    ⟨(st 0), (0x060080#24), by decide +kernel⟩⟩
end MailboxRead

namespace HostIndexWrites
def states : List State :=
  [up, linked] ++ [0, 1, 2, 3, 4].map (ringAs linked 8 1) ++ [ringAs linked 8 6 1, (ringAs linked 8 1 1).put (ringBase 8) Reg.RING_DEV_IDX_INDEX 0xFFFFFFFF, ringAs linked 0 7 0, ringAs linked 9 2 0,
   { ringAs linked 8 1 1 with fuses := { laneMode := 1 } }]
def st (k : Nat) : State := states.getD k State.reset
/-- What `Obligations.HostIndexWrites` assumes is met, clause by clause. -/
theorem wit_HostIndexWrites :
    (∃ (s : State) (q : Fin 256) (w : Win) (slot : Fin 16), s.awaiting = false ∧ s.answers (winFn w) = true ∧ s.parkedTo 1 = false ∧
      s.doorbellRing w slot.val = some q.val ∧ s.ringState q.val = disabled) ∧
    (∃ (s : State) (q : Fin 256) (v : Word) (w : Win) (slot : Fin 16), s.awaiting = false ∧ s.answers (winFn w) = true ∧ s.parkedTo 1 = false ∧
      s.doorbellRing w slot.val = some q.val ∧ s.ringState q.val ≠ disabled ∧
      fillOf (s.ringType q.val) (BitVec.toNat v) (s.devIdx q.val) ≤ s.entries q.val) ∧
    (∃ (s : State) (q : Fin 256) (v : Word) (w : Win) (slot : Fin 16), s.awaiting = false ∧ s.answers (winFn w) = true ∧ s.parkedTo 1 = false ∧
      s.doorbellRing w slot.val = some q.val ∧ s.ringState q.val ≠ disabled ∧
      s.entries q.val < fillOf (s.ringType q.val) (BitVec.toNat v) (s.devIdx q.val) ∧ s.ringState q.val = running) ∧
    (∃ (s : State) (q : Fin 256) (v : Word) (w : Win) (slot : Fin 16), s.awaiting = false ∧ s.answers (winFn w) = true ∧ s.parkedTo 1 = false ∧
      s.doorbellRing w slot.val = some q.val ∧ s.ringState q.val ≠ disabled ∧
      s.entries q.val < fillOf (s.ringType q.val) (BitVec.toNat v) (s.devIdx q.val) ∧ s.ringState q.val ≠ running) ∧
    (∃ (s : State) (q : Fin 256), s.awaiting = false ∧ s.answers 0 = true ∧ (s.ringOwner q.val).isSome = true ∧ s.ringState q.val = disabled) ∧
    (∃ (s : State) (q : Fin 256) (v : Word), s.awaiting = false ∧ s.answers 0 = true ∧ (s.ringOwner q.val).isSome = true ∧
      s.ringState q.val ≠ disabled ∧ fillOf (s.ringType q.val) (BitVec.toNat v) (s.devIdx q.val) ≤ s.entries q.val) ∧
    (∃ (s : State) (q : Fin 256) (v : Word), s.awaiting = false ∧ s.answers 0 = true ∧ (s.ringOwner q.val).isSome = true ∧
      s.ringState q.val ≠ disabled ∧ s.entries q.val < fillOf (s.ringType q.val) (BitVec.toNat v) (s.devIdx q.val) ∧ s.ringState q.val = running) ∧
    (∃ (s : State) (q : Fin 256) (v : Word), s.awaiting = false ∧ s.answers 0 = true ∧ (s.ringOwner q.val).isSome = true ∧
      s.ringState q.val ≠ disabled ∧ s.entries q.val < fillOf (s.ringType q.val) (BitVec.toNat v) (s.devIdx q.val) ∧ s.ringState q.val ≠ running) ∧
    (∃ (s : State) (q : Fin 256), s.awaiting = false ∧ ∃ p ∈ s.ringOwner q.val, s.answers 0 = true ∧ s.ringOwner q.val = some (p.1, p.2) ∧
      s.ringState q.val = disabled ∧ s.armed (ringBase q.val) = false ∧ s.ringType q.val ≠ 0 ∧ s.ringType q.val < 8 ∧
      s.typeAllowed p.1 (s.ringType q.val) = true ∧ s.ringReady q.val = true) :=
  ⟨⟨(st 1), 8, (Win.vf 0), 0, by decide +kernel⟩,
    ⟨(st 3), 8, (0x00000000#32), (Win.vf 0), 0, by decide +kernel⟩,
    ⟨(st 3), 8, (0x0000007f#32), (Win.vf 0), 0, by decide +kernel⟩,
    ⟨(st 4), 8, (0x0000007f#32), (Win.vf 0), 0, by decide +kernel⟩,
    ⟨(st 0), 0, by decide +kernel⟩,
    ⟨(st 3), 8, (0x00000000#32), by decide +kernel⟩,
    ⟨(st 3), 8, (0x0000007f#32), by decide +kernel⟩,
    ⟨(st 4), 8, (0x0000007f#32), by decide +kernel⟩,
    ⟨(st 2), 8, by decide +kernel⟩⟩
end HostIndexWrites

namespace DoorbellRearm
def states : List State :=
  [up, linked] ++ [0, 1, 2, 3, 4].map (ringAs linked 8 1) ++ [ringAs linked 8 6 1, (ringAs linked 8 1 1).put (ringBase 8) Reg.RING_DEV_IDX_INDEX 0xFFFFFFFF, ringAs linked 0 7 0, ringAs linked 9 2 0,
   { ringAs linked 8 1 1 with fuses := { laneMode := 1 } }]
def st (k : Nat) : State := states.getD k State.reset
/-- What `Obligations.DoorbellRearm` assumes is met, clause by clause. -/
theorem wit_DoorbellRearm :
    (∃ (s : State) (w : Win) (slot : Fin 16) (q : Fin 256) (lo : Word), s.answers (winFn w) = true ∧ s.parkedTo 1 = false ∧ s.awaiting = false ∧
      s.doorbellRing w slot.val = some q.val ∧ (s.ring q.val).pend = 0 ∧ s.hostIdxOk q.val (BitVec.toNat lo) = true) ∧
    (∃ (s : State) (w : Win) (slot : Fin 16) (q : Fin 256) (lo : Word), s.answers (winFn w) = true ∧ s.parkedTo 1 = false ∧ s.awaiting = false ∧
      s.doorbellRing w slot.val = some q.val ∧ (s.ring q.val).pend = 0 ∧ s.hostIdxOk q.val (BitVec.toNat lo) = false ∧ s.ringState q.val ≠ running ∧
      s.ringState q.val ≠ disabled) :=
  ⟨⟨(st 3), (Win.vf 0), 0, 8, (0x00000000#32), by decide +kernel⟩,
    ⟨(st 4), (Win.vf 0), 0, 8, (0x00000011#32), by decide +kernel⟩⟩
end DoorbellRearm

namespace RingTriggers
def states : List State := [ringAs linked 0 7 2, ringAs linked 0 0 0, (ringAs linked 0 7 3).put (ringBase 0) Reg.RING_STATE_CAUSE 1, (ringAs linked 16 1 3).put (ringBase 16) Reg.RING_STATE_CAUSE 1] ++
  [up, linked] ++ [0, 1, 2, 3, 4].map (ringAs linked 8 1) ++ [ringAs linked 8 6 1, (ringAs linked 8 1 1).put (ringBase 8) Reg.RING_DEV_IDX_INDEX 0xFFFFFFFF, ringAs linked 0 7 0, ringAs linked 9 2 0,
   { ringAs linked 8 1 1 with fuses := { laneMode := 1 } }]
def st (k : Nat) : State := states.getD k State.reset
/-- What `Obligations.RingTriggers` assumes is met, clause by clause. -/
theorem wit_RingTriggers :
    (∃ (s : State) (q : Fin 256), ∃ p ∈ s.ringOwner q.val, ringQuiet s q.val ∧ s.ringOwner q.val = some (p.1, p.2) ∧ s.ringState q.val = disabled ∧
      s.armed (ringBase q.val) = false ∧ s.ringType q.val ≠ 0 ∧ s.ringType q.val < 8 ∧ noneHeld s q.val = true ∧
      s.typeAllowed p.1 (s.ringType q.val) = true ∧ s.ringReady q.val = true) ∧
    (∃ (s : State) (q : Fin 256), ∃ p ∈ s.ringOwner q.val, ringQuiet s q.val ∧ s.ringOwner q.val = some (p.1, p.2) ∧ s.ringState q.val = disabled ∧
      s.armed (ringBase q.val) = false ∧ (s.ringType q.val = 0 ∨ s.typeAllowed p.1 (s.ringType q.val) = false ∨ s.ringReady q.val = false)) ∧
    (∃ (s : State) (q : Fin 256), ∃ p ∈ s.ringOwner q.val, ringQuiet s q.val ∧ s.ringOwner q.val = some (p.1, p.2) ∧ s.ringState q.val = running ∧
      s.ringReady q.val = true) ∧
    (∃ (s : State) (q : Fin 256), ∃ p ∈ s.ringOwner q.val, ringQuiet s q.val ∧ s.ringOwner q.val = some (p.1, p.2) ∧ (s.ringState q.val = stopped ∧
      s.rd (ringBase q.val) Reg.RING_STATE_CAUSE = 1 ∨ s.ringState q.val = halted) ∧ s.ringReady q.val = true ∧
      noneHeld s q.val = true) ∧
    (∃ (s : State) (q : Fin 256), ∃ p ∈ s.ringOwner q.val, ringQuiet s q.val ∧ s.ringOwner q.val = some (p.1, p.2) ∧
      (s.ringState q.val = stopped ∨ s.ringState q.val = halted)) :=
  ⟨⟨(st 6), 8, by dsimp only [ringQuiet]; decide +kernel⟩,
    ⟨(st 0), 8, by dsimp only [ringQuiet]; decide +kernel⟩,
    ⟨(st 7), 8, by dsimp only [ringQuiet]; decide +kernel⟩,
    ⟨(st 2), 0, by dsimp only [ringQuiet]; decide +kernel⟩,
    ⟨(st 2), 0, by dsimp only [ringQuiet]; decide +kernel⟩⟩
end RingTriggers

namespace RingFlow
def states : List State :=
  let d : Desc := { idx := 0, words := 0 }
  [linked, (ringAs linked 8 1 1).put (ringBase 8) Reg.RING_HOST_IDX_INDEX 3, ringAs linked 8 1 1 { fetching := true }, ringAs linked 8 2 1 { fetching := true }, ringAs linked 16 3 1 { fetching := true },
   ringAs linked 8 1 1 { fetched := [{ d with phase := .waiting }] }, ringAs linked 8 1 1 { fetched := [{ d with phase := .ready }] }, ringAs linked 8 3 1 { fetched := [{ d with phase := .ready }] },
   { ringAs linked 8 2 1 { fetched := [{ d with phase := .running, binned := true }] } with engines := [(4, { holder := .job 8 0 false })] },
   (ringAs linked 8 1 1 { pend := 2, firstPend := 77 }).putBoth (ringBase 8) Reg.RING_MOD_TIME_US 5, (ringAs linked 0 6 1 { pend := 2, firstPend := 77 }).putBoth (ringBase 0) Reg.RING_MOD_TIME_US 65535]
def st (k : Nat) : State := states.getD k State.reset
/-- What `Obligations.RingFlow` assumes is met, clause by clause. -/
theorem wit_RingFlow :
    (∃ (s : State) (q : Fin 256), s.ringState q.val = running ∧ (s.ring q.val).fetching = false ∧ isSubmission (s.ringType q.val) = true ∧
      s.ringReady q.val = true ∧ s.fill q.val ≠ 0 ∧ s.armed (ringBase q.val) = false) ∧
    (∃ (s : State) (q : Fin 256) (w : BitVec 512), (s.ring q.val).fetching = true ∧ s.rda (ringBase q.val) Reg.RING_BASE_LO_LOC = 0 ∧
      ((s.modRing q.val fun r => { fetched := r.fetched, disablePending := r.disablePending, startPending := r.startPending, pend := r.pend, firstPend := r.firstPend, oneshotOff := r.oneshotOff, lost := r.lost, sweepNext := r.sweepNext, sweep := r.sweep, mixed := r.mixed, est := r.est, saveArea := r.saveArea }).takeIn q.val { idx := s.devIdx q.val, words := w }).passed = none) ∧
    (∃ (s : State) (q : Fin 256), ∃ d ∈ List.find? (fun d => decide (d.phase = DPhase.waiting)) (s.ring q.val).fetched, ∃ i ∈ s.ringInst q.val, d.waitValue ≤ (s.fence i d.waitSlot).value) ∧
    (∃ (s : State) (q : Fin 256), ∃ d ∈ s.nextReady q.val, d.opcode = 0) ∧
    (∃ (s : State) (q : Fin 256), ∃ d ∈ List.find? (fun d => decide (d.phase = DPhase.running)) (s.ring q.val).fetched, s.holds q.val d.idx = true ∧
      s.ringType q.val = 2 ∧ d.binned = true) ∧
    (∃ (s : State) (q : Fin 256), (s.ring q.val).pend ≠ 0 ∧ s.rda (ringBase q.val) Reg.RING_MOD_TIME_US ≠ 0 ∧ s.ringType q.val ≠ 5) :=
  ⟨⟨(st 1), 8, by decide +kernel⟩,
    ⟨(st 2), 8, (0x00000000000000000000000000000000000000000000000000000000000000000000000000000000000000000000000000000000000000000000000000000000#512), by decide +kernel⟩,
    ⟨(st 5), 8, by decide +kernel⟩,
    ⟨(st 6), 8, by decide +kernel⟩,
    ⟨(st 8), 8, by decide +kernel⟩,
    ⟨(st 9), 8, by decide +kernel⟩⟩
end RingFlow

namespace HostReads
def states : List State :=
  let d : Desc := { idx := 0, words := 1, phase := .running }
  [linked, ringAs linked 8 2 1 { fetched := [d] }, ringAs linked 9 4 1 { fetched := [{ d with phase := .armed }] }]
def st (k : Nat) : State := states.getD k State.reset
/-- What `Obligations.HostReads` assumes is met, clause by clause. -/
theorem wit_HostReads :
    (∃ (s : State) (q : Fin 256), s.ringType q.val = 2) ∧
    (∃ (s : State) (q : Fin 256), s.ringType q.val = 4) :=
  ⟨⟨(st 1), 8, by decide +kernel⟩,
    ⟨(st 2), 9, by decide +kernel⟩⟩
end HostReads

namespace InstanceStops
def states : List State := [linked, ringAs linked 8 1 1 { fetched := [{ idx := 0, words := 1, phase := .ready }] }] ++ [0, 1, 2, 3, 4].map fun k => linked.setInstState 3 k
def st (k : Nat) : State := states.getD k State.reset
/-- What `Obligations.InstanceStops` assumes is met, clause by clause. -/
theorem wit_InstanceStops :
    (∃ (s : State) (i : Fin 64), s.answers 0 = true ∧ s.awaiting = false ∧ s.p.has i.val = true ∧ s.instState i.val = ready) ∧
    (∃ (s : State) (i : Fin 64), s.answers 0 = true ∧ s.awaiting = false ∧ s.p.has i.val = true ∧ s.instState i.val = quiesced) ∧
    (∃ (s : State) (i : Fin 64), s.answers 0 = true ∧ s.awaiting = false ∧ s.p.has i.val = true ∧ s.instState i.val = stopping) ∧
    (∃ (s : State) (i : Fin 64), s.answers 0 = true ∧ s.awaiting = false ∧ s.p.has i.val = true ∧ s.instState i.val = resetting) :=
  ⟨⟨(st 0), 0, by decide +kernel⟩,
    ⟨(st 5), 3, by decide +kernel⟩,
    ⟨(st 4), 3, by decide +kernel⟩,
    ⟨(st 6), 3, by decide +kernel⟩⟩
end InstanceStops

namespace ResetEnds
def states : List State := [linked, linked.put (instBase 0) Reg.INST_STATUS_SCRUBBING 1, (linked.setInstState 3 Machine.resetting).put (instBase 3) Reg.INST_STOP_STOP 1, { linked.setInstState 1 Machine.stopping with plan := some { wPlan with insts := [{ inst := 1 }] } }] ++ [0, 1, 2, 3, 4].map fun k => linked.setInstState 3 k
def st (k : Nat) : State := states.getD k State.reset
/-- What `Obligations.ResetEnds` assumes is met, clause by clause. -/
theorem wit_ResetEnds :
    (∃ (s : State) (i : Fin 64), s.instState i.val = resetting ∧ (s.rd (instBase i.val) Reg.INST_STOP_STOP = 1 ∨ s.hostThere i.val = false)) ∧
    (∃ (s : State) (i : Fin 64), s.instState i.val = resetting ∧ s.rd (instBase i.val) Reg.INST_STOP_STOP = 0 ∧ s.hostThere i.val = true) ∧
    (∃ (s : State) (i : Fin 64), s.rd (instBase i.val) Reg.INST_STATUS_SCRUBBING = 1 ∧ s.sec.releases = []) ∧
    (∃ (s : State) (i : Fin 64), s.instState i.val = stopping ∧ s.ringsOf (fnOfInst i.val) = [] ∧ (s.inst i.val).resetAfter = false ∧
      (s.inst i.val).lossAfter = false ∧ (s.inst i.val).stopCleared = false) :=
  ⟨⟨(st 2), 3, by decide +kernel⟩,
    ⟨(st 8), 3, by decide +kernel⟩,
    ⟨(st 1), 0, by decide +kernel⟩,
    ⟨(st 3), 1, by decide +kernel⟩⟩
end ResetEnds

namespace ApertureAccess
def states : List State :=
  let u := linked.put dmcB Reg.DMC_USABLE_MIB 1024
  [linked, u, { u with pot := [(0, 3 + 2 ^ 12), (1, 3)], dram := [⟨0, 4⟩, ⟨8190, 5⟩] }, { u with pot := [(0, 3), (1, 3)], dramx := { poison := [(0, true)] } }, u.put pciB Reg.PCI_APERTURE_LO_BASE_LO 3]
def st (k : Nat) : State := states.getD k State.reset
/-- What `Obligations.ApertureAccess` assumes is met, clause by clause. -/
theorem wit_ApertureAccess :
    (∃ (s : State) (off : BitVec 36) (bs : List Byte), s.apertureOpen off.toNat bs.length = true ∧
      s.mayAccess Who.mgr true (s.apertureAddr off.toNat) bs.length = true) ∧
    (∃ (s : State) (off : BitVec 36) (n : Fin 65), s.apertureOpen off.toNat n.val = true ∧
      s.mayAccess Who.mgr false (s.apertureAddr off.toNat) n.val = true ∧ (blocksOf (s.apertureAddr off.toNat) n.val).any s.poisoned = false) ∧
    (∃ (s : State) (off : BitVec 36) (n : Fin 65), s.apertureOpen off.toNat n.val = true ∧
      s.mayAccess Who.mgr false (s.apertureAddr off.toNat) n.val = false ∧
      ((pagesOf (s.apertureAddr off.toNat) n.val).any fun p => entryBad (s.entry p)) = false) ∧
    (∃ (s : State) (off : BitVec 36) (bs : List Byte), s.apertureOpen off.toNat bs.length = true ∧
      s.mayAccess Who.mgr true (s.apertureAddr off.toNat) bs.length = false ∧
      ((pagesOf (s.apertureAddr off.toNat) bs.length).any fun p => entryBad (s.entry p)) = false) :=
  ⟨⟨(st 0), (0x000000000#36), ([]), by decide +kernel⟩,
    ⟨(st 0), (0x000000000#36), 0, by decide +kernel⟩,
    ⟨(st 0), (0x000000000#36), 1, by decide +kernel⟩,
    ⟨(st 0), (0x000000000#36), ([0x01#8]), by decide +kernel⟩⟩
end ApertureAccess

namespace UnmaskSends
def states : List State :=
  let p (fn v : Nat) (s : State) : State := s.put (pbaBase fn + 4 * (v / 32)) Reg.MSIX_PBA_WORD (2 ^ (v % 32))
  [linked, p 0 1 linked, p 0 0 linked, p 2 7 linked, p 5 0 linked, (p 0 31 linked).put (msixBase 0 + 16 * 31 + 12) Reg.MSIX_TABLE_WORD 1]
def st (k : Nat) : State := states.getD k State.reset
/-- What `Obligations.UnmaskSends` assumes is met, clause by clause. -/
theorem wit_UnmaskSends :
    ∃ (s : State) (f : FnId) (v : Fin 32), s.answers (fnNum f) = true ∧ v.val < s.vectors (fnNum f) ∧ s.vectors (fnNum f) ≤ 32 ∧ s.vecPending (fnNum f) v.val = true ∧ (s.fn (fnNum f)).msixEnable = true ∧ (s.fn (fnNum f)).msixMaskAll = false ∧ (s.fn (fnNum f)).d3hot = false ∧ (s.fn (fnNum f)).busMaster = true ∧ s.portOpen (s.fnPort (fnNum f)) = true ∧ (fnNum f ≠ 0 ∨ v.val ≠ 0) :=
  ⟨(st 1), (FnId.mgr), 1, by decide +kernel⟩
end UnmaskSends

namespace ConfigAnswers
def states : List State := [linked, linked.setFn 0 {}, State.reset.put pciB Reg.PCI_PORT_A_STATUS_STATE 2,
  { linked with fuses := { laneMode := 1 } }.put pciB Reg.PCI_PORT_B_STATUS_STATE 2, ({ linked with fuses := { laneMode := 1 } }.put pciB Reg.PCI_PORT_B_STATUS_STATE 2).setFn 1 { ready := true }]
def st (k : Nat) : State := states.getD k State.reset
/-- What `Obligations.ConfigAnswers` assumes is met, clause by clause. -/
theorem wit_ConfigAnswers :
    (∃ (s : State) (p : Port), s.portThere p = true ∧ s.linkLive p = true ∧ s.pwr.off = false ∧ (s.started && !s.fnExists (s.portPf p)) = false ∧
      s.fnTakes (s.portPf p) = false) ∧
    (∃ (s : State) (p : Port), s.portThere p = true ∧ s.linkLive p = true ∧ s.pwr.off = false ∧ (s.started && !s.fnExists (s.portPf p)) = false ∧
      s.fnTakes (s.portPf p) = true) :=
  ⟨⟨(st 1), (Port.a), by decide +kernel⟩,
    ⟨(st 0), (Port.a), by decide +kernel⟩⟩
end ConfigAnswers

namespace PortLosses
def states : List State :=
  let duo := { linked with fuses := { laneMode := 1 } }.put pciB Reg.PCI_PORT_B_STATUS_STATE 2
  [linked, State.reset, duo, State.reset.setPortX .a { perst := true }, linked.setFn 0 { ready := true, aspmL1 := true }, linked.setPortX .a { inL2 := true },
   (linked.put pciB Reg.PCI_PORT_A_STATUS_STATE 0).put devB Reg.DEV_BOOT_STATUS_STEP 9]
def st (k : Nat) : State := states.getD k State.reset
/-- What `Obligations.PortLosses` assumes is met, clause by clause. -/
theorem wit_PortLosses :
    (∃ (s : State) (p : Port), s.portThere p = true ∧ s.linkLive p = true ∧ (s.fn (s.portPf p)).aspmL1 = true) ∧
    (∃ (s : State) (p : Port), s.portThere p = true ∧ (s.portX p).perst = false ∧ s.pwr.off = false ∧ (s.portX p).inL2 = false) ∧
    (∃ (s : State) (p : Port), s.portThere p = true ∧ (s.portX p).perst = true ∧ s.pwr.off = false ∧ (s.portX p).inL2 = false ∧ s.started = false) ∧
    (∃ (s : State) (p : Port) (gen : Fin 8) (lanes : Fin 16), s.portThere p = true ∧ s.mayTrain p = true ∧ s.linkFits gen.val lanes.val = true) ∧
    (∃ (s : State) (p : Port) (i : Fin 64), s.portThere p = true ∧ s.fnTakes (fnOfInst i.val) = true ∧ s.instState i.val ≠ resetting) ∧
    (∃ (s : State) (p : Port), s.portThere p = true ∧ s.fnTakes (s.portPf p) = true ∧ (s.fn (s.portPf p)).vfEnable = false) :=
  ⟨⟨(st 4), (Port.a), by decide +kernel⟩,
    ⟨(st 0), (Port.a), by decide +kernel⟩,
    ⟨(st 3), (Port.a), by decide +kernel⟩,
    ⟨(st 6), (Port.a), 1, 1, by decide +kernel⟩,
    ⟨(st 0), (Port.a), 0, by decide +kernel⟩,
    ⟨(st 4), (Port.a), by decide +kernel⟩⟩
end PortLosses

namespace PtmFollows
def states : List State :=
  let w (n : Nat) : State := linked.setPortX .a { ptmWaiting := true, ptmFails := n }
  [linked, linked.setFn 0 { ready := true, ptmEnable := true }, w 0, w 1, w 2, { w 1 with now := 3000000, plan := none }, { w 2 with now := 1 }]
def st (k : Nat) : State := states.getD k State.reset
/-- What `Obligations.PtmFollows` assumes is met, clause by clause. -/
theorem wit_PtmFollows :
    (∃ (s : State), ∃ p ∈ s.ptmSource, s.atPending = false ∧ s.portThere p = true ∧ s.linkLive p = true ∧ (s.fn (s.portPf p)).ptmEnable = true) ∧
    (∃ (s : State) (host : BitVec 64), ∃ p ∈ s.ptmSource, s.atPending = false ∧ (s.portX p).ptmWaiting = true ∧
      (p = Port.b → s.portA.ptmWaiting = false) ∧ s.now + 1000000 < host.toNat) ∧
    (∃ (s : State) (host : BitVec 64), ∃ p ∈ s.ptmSource, s.atPending = false ∧ (s.portX p).ptmWaiting = true ∧
      (p = Port.b → s.portA.ptmWaiting = false) ∧ host.toNat + 1000000 < s.now) ∧
    (∃ (s : State), ∃ p ∈ s.ptmSource, s.atPending = false ∧ (s.portX p).ptmWaiting = true ∧ (p = Port.b → s.portA.ptmWaiting = false) ∧
      (s.portX p).ptmFails < 2) ∧
    (∃ (s : State), ∃ p ∈ s.ptmSource, s.atPending = false ∧ (s.portX p).ptmWaiting = true ∧ (p = Port.b → s.portA.ptmWaiting = false) ∧
      (s.portX p).ptmFails = 2 ∧ s.time.freeRun = false) :=
  ⟨⟨(st 1), by decide +kernel⟩,
    ⟨(st 2), (0x00000000004c4b40#64), by decide +kernel⟩,
    ⟨(st 5), (0x0000000000000000#64), by decide +kernel⟩,
    ⟨(st 2), by decide +kernel⟩,
    ⟨(st 4), by decide +kernel⟩⟩
end PtmFollows

namespace QuantumAndPoints
def states : List State :=
  let acct (s : State) : State := { s with gfxAcc := [(0, { entitled := 1000000000 }), (3, { entitled := 1000000000 })], cpyAcc := [(0, { entitled := 1000000000 }), (3, { entitled := 1000000000 })] }
  let g := onEngine 1 0 (dsc 1 .running) {}
  let c := onEngine 2 4 (dsc 1 .running) {}
  let other (t : Nat) (s : State) : State := ringAs s 16 t 1 { fetched := [dsc 1 .ready] }
  [linked, g, c, acct (other 1 g), acct (other 2 c), onEngine 1 0 (dsc 1 .running) {} { incoming := some (.test true), requestAt := 5 },
   onEngine 1 2 (dsc 1 .running) {} { incoming := some (.job 16 0 false) }, onEngine 2 5 (dsc 1 .running) {} { incoming := some .idle, requestAt := 5 }]
def st (k : Nat) : State := states.getD k State.reset
/-- What `Obligations.QuantumAndPoints` assumes is met, clause by clause. -/
theorem wit_QuantumAndPoints :
    (∃ (s : State) (er : EngineRef) (t : BitVec 64) (q : Nat) (idx : Nat) (sec : Bool), (s.engine (engNum er)).holder = Holder.job q idx sec ∧
      (s.engine (engNum er)).incoming = none ∧ (s.engine (engNum er)).quantum + 250000 ≤ max s.now t.toNat) ∧
    (∃ (s : State) (er : EngineRef) (q : Nat) (idx : Nat) (sec : Bool), (s.engine (engNum er)).holder = Holder.job q idx sec ∧
      ∃ d ∈ s.desc q idx, (s.engine (engNum er)).incoming.isSome = true ∧ d.discard = false ∧ d.limitHit = false) ∧
    (∃ (s : State) (er : EngineRef) (t : BitVec 64) (q : Nat) (idx : Nat) (sec : Bool) (g : Fin 4), (s.engine (engNum er)).holder = Holder.job q idx sec ∧
      er = EngineRef.group g ∧ (s.engine (engNum er)).incoming.isSome = true ∧ (s.engine (engNum er)).atPoint = false ∧
      (s.engine (engNum er)).requestAt + 30000 ≤ max s.now t.toNat) :=
  ⟨⟨(st 1), (EngineRef.group 0), (0x00000000000493e0#64), 8, 0, false, by decide +kernel⟩,
    ⟨(st 5), (EngineRef.group 0), 8, 0, false, by decide +kernel⟩,
    ⟨(st 5), (EngineRef.group 0), (0x00000000000493e0#64), 8, 0, false, 0, by decide +kernel⟩⟩
end QuantumAndPoints

namespace SwitchesAndSlices
def states : List State :=
  let g := onEngine 1 0 { dsc 1 .running with charged := 10 ^ 12 } {} { incoming := some (.job 16 0 false), atPoint := true }
  [linked, g, onEngine 1 0 (dsc 1 .running) {} { incoming := some .idle, atPoint := true, since := 9 }, onEngine 2 4 (dsc 1 .running) {} { incoming := some (.test true), atPoint := true },
   g.put gfxB Reg.GFX_CFG_JOB_LIMIT_MS 5, { linked with engines := [(0, { holder := .test false }), (2, { holder := .test true })] },
   { ringAs linked 16 1 1 { fetched := [{ dsc 1 .ready with target := some 5, words := BitVec.ofNat 512 (1 + 2 ^ 8 * 2) }] } with plan := some { wPlan with heads := [{ head := 0, owner := 3, portType := 1, vTotal := 100 }] } }]
def st (k : Nat) : State := states.getD k State.reset
/-- What `Obligations.SwitchesAndSlices` assumes is met, clause by clause. -/
theorem wit_SwitchesAndSlices :
    (∃ (s : State) (er : EngineRef) (t' : BitVec 64), ∃ next ∈ (s.engine (engNum er)).incoming, (s.engine (engNum er)).atPoint = true ∧
      (s.reach t'.toNat).preemptNs (isGfx (engNum er)) < (s.reach t'.toNat).now - (s.engine (engNum er)).requestAt) ∧
    (∃ (s : State) (qr : Fin 256) (t : BitVec 64), ∃ d ∈ (s.reach t.toNat).jobOf (decide ((s.reach t.toNat).ringType qr.val = 1)) qr.val, (s.reach t.toNat).urgent (decide ((s.reach t.toNat).ringType qr.val = 1)) qr.val d = true) ∧
    (∃ (s : State) (g : Fin 4) (b : Bool), (s.engine g.val).holder = Holder.test b) ∧
    (∃ (s : State) (qr : Fin 256), ∃ d ∈ List.find? (fun d => decide (d.phase = DPhase.running)) (s.chargeAll.ring qr.val).fetched, s.chargeAll.ringType qr.val = 1 ∧
      s.rd gfxB Reg.GFX_CFG_JOB_LIMIT_MS ≠ 0 ∧ s.rd gfxB Reg.GFX_CFG_JOB_LIMIT_MS * 16000000 < d.charged) ∧
    (∃ (s : State) (qr : Fin 256), ∃ d ∈ List.find? (fun d => decide (d.phase = DPhase.running)) (s.ring qr.val).fetched, s.ringType qr.val = 1) :=
  ⟨⟨(st 1), (EngineRef.group 0), (0x00000000000493e0#64), by decide +kernel⟩,
    ⟨(st 6), 16, (0x0000000000000000#64), by decide +kernel⟩,
    ⟨(st 5), 0, false, by decide +kernel⟩,
    ⟨(st 1), 8, by decide +kernel⟩,
    ⟨(st 1), 8, by decide +kernel⟩⟩
end SwitchesAndSlices

namespace RoundsStart
def states : List State := [State.reset, up, linked, { linked with now := 123456789 }, { inPower 2 with plan := some wPlan }, { inPower 1 with plan := some wPlan },
  { onEngine 1 0 (dsc 1 .running) with now := 999999 }]
def st (k : Nat) : State := states.getD k State.reset
/-- What `Obligations.RoundsStart` assumes is met, clause by clause. -/
theorem wit_RoundsStart :
    (∃ (s : State), s.pwr.off = false ∧ s.applied = false) ∧
    (∃ (s : State), s.pwr.off = false ∧ s.roundsRun = true ∧ (s.passTo s.nextMs).roundsRun = true ∧ (s.passTo s.nextMs).sweepRound.roundsRun = true) :=
  ⟨⟨(st 0), by decide +kernel⟩,
    ⟨(st 2), by decide +kernel⟩⟩
end RoundsStart

namespace GraphicsWork
def gs : List (State × Desc) :=
  let mk (d : Desc) (x : RingX) : State × Desc := (onEngine 1 0 d x, d)
  let hold (d : Desc) (x : RingX) : State × Desc := (ringAs linked 8 1 1 { x with fetched := [d] }, d)
  [mk (dsc 1 .ready) {}, mk (dsc 1 .ready) { saveArea := 4096 }, mk (dsc 2 .ready) {}, mk (dsc 2 .ready (2 ^ 64 + 2 ^ 96 + 2 ^ 112)) { saveArea := 4096 }, mk (dsc 2 .ready (2 ^ 64 + 2 ^ 96 + 2 ^ 112 + 5)) { saveArea := 4096 },
   hold (dsc 3 .ready (2 ^ 64 * 8192)) { saveArea := 4096 }, hold { dsc 3 .ready (2 ^ 64 * 8192) with saved := true } { saveArea := 4096 }, hold (dsc 4 .ready (2 ^ 64 * 8192)) {},
   mk (dsc 1 .running) { saveArea := 4096 }]
def states : List State := gs.map Prod.fst
def st (k : Nat) : State := states.getD k State.reset
/-- What `Obligations.GraphicsWork` assumes is met, clause by clause. -/
theorem wit_GraphicsWork :
    (∃ (s : State) (q : Fin 256) (d : Desc), s.startOn q.val 1 1 = some d ∧ (s.ring q.val).saveArea = 0 ∧ d.secure = false) ∧
    (∃ (s : State) (q : Fin 256) (d : Desc), s.startOn q.val 1 1 = some d ∧ (s.ring q.val).saveArea ≠ 0) ∧
    (∃ (s : State) (q : Fin 256) (d : Desc), s.startOn q.val 1 2 = some d ∧ (s.ring q.val).saveArea = 0 ∧ d.secure = false) ∧
    (∃ (s : State) (q : Fin 256) (d : Desc), s.startOn q.val 1 2 = some d ∧ (s.ring q.val).saveArea ≠ 0 ∧ d.f 48 8 = 0 ∧ d.f 40 4 ≠ 0 ∧ d.f 44 2 ≠ 0 ∧
      d.f 46 2 ≠ 0) ∧
    (∃ (s : State) (q : Fin 256) (d : Desc), s.nextOp q.val 1 3 = some d ∧ s.isFirst q.val d.idx = true ∧
      (s.ring q.val).fetched.any Desc.saved = false) ∧
    (∃ (s : State) (q : Fin 256) (d : Desc), s.nextOp q.val 1 3 = some d ∧ s.isFirst q.val d.idx = true ∧
      (s.ring q.val).fetched.any Desc.saved = true ∧ d.f 40 8 ≠ (s.ring q.val).saveArea) ∧
    (∃ (s : State) (q : Fin 256) (d : Desc), s.nextOp q.val 1 4 = some d ∧ s.isFirst q.val d.idx = true) ∧
    (∃ (s : State) (q : Fin 256) (d : Desc), List.find? (fun d => !d.isDone) (s.ring q.val).fetched = some d ∧ s.ringType q.val = 1 ∧ d.opcode = 1 ∧
      d.phase = DPhase.running ∧ d.binned = false ∧ s.holds q.val d.idx = true) :=
  ⟨⟨(st 0), 8, (dsc 1 (DPhase.ready) 0), by decide +kernel⟩,
    ⟨(st 1), 8, (dsc 1 (DPhase.ready) 0), by decide +kernel⟩,
    ⟨(st 2), 8, (dsc 2 (DPhase.ready) 0), by decide +kernel⟩,
    ⟨(st 3), 8, (dsc 2 (DPhase.ready) 5192376086697360339612163582722048), by decide +kernel⟩,
    ⟨(st 5), 8, (dsc 3 (DPhase.ready) 151115727451828646838272), by decide +kernel⟩,
    ⟨(st 6), 8, ({ idx := 0, words := 0x00000000000000000000000000000000000000000000200000000000000000000000000000000000000000000000000000000000000000000000000000000003#512, phase := DPhase.ready, target := none, passed := none, deferred := 0, discard := false, missed := false, charged := 0, cycles := 0, limitHit := false, saved := true, binned := false, outcomes := [], got := [] }), by decide +kernel⟩,
    ⟨(st 7), 8, (dsc 4 (DPhase.ready) 151115727451828646838272), by decide +kernel⟩,
    ⟨(st 8), 8, (dsc 1 (DPhase.running) 0), by decide +kernel⟩⟩
end GraphicsWork

namespace CopyWork
def gs : List (State × Desc) :=
  let mk (d : Desc) (x : RingX) : State × Desc := (onEngine 2 4 d x, d)
  let hold (d : Desc) (x : RingX) : State × Desc := (ringAs linked 8 2 1 { x with fetched := [d] }, d)
  [mk (dsc 1 .ready) {}, mk (dsc 2 .ready (2 ^ 32 * 64)) {}, mk (dsc 3 .ready (2 ^ 32 + 7)) {}, mk (dsc 4 .ready (1 + 2 ^ 8 + 2 ^ 32 * 4 + 2 ^ 48)) {}, mk (dsc 4 .ready (0)) {},  mk (dsc 4 .ready (1 + 2 ^ 8)) {},
   hold (dsc 5 .ready) {}, hold (dsc 5 .ready (2 ^ 64 * 8192)) {}]
def states : List State := gs.map Prod.fst
def st (k : Nat) : State := states.getD k State.reset
/-- What `Obligations.CopyWork` assumes is met, clause by clause. -/
theorem wit_CopyWork :
    (∃ (s : State) (q : Fin 256) (d : Desc), s.startOn q.val 2 1 = some d) ∧
    (∃ (s : State) (q : Fin 256) (d : Desc), s.startOn q.val 2 2 = some d) ∧
    (∃ (s : State) (q : Fin 256) (d : Desc), s.startOn q.val 2 3 = some d) ∧
    (∃ (s : State) (q : Fin 256) (d : Desc), s.startOn q.val 2 4 = some d ∧ convSrc (d.b 32) = true ∧ convDst (d.b 33) = true ∧ d.f 36 2 ≠ 0 ∧
      d.f 38 2 ≠ 0) ∧
    (∃ (s : State) (q : Fin 256) (d : Desc), s.startOn q.val 2 4 = some d ∧ convSrc (d.b 32) = false) ∧
    (∃ (s : State) (q : Fin 256) (d : Desc), s.startOn q.val 2 4 = some d ∧ convSrc (d.b 32) = true ∧ convDst (d.b 33) = true ∧ d.f 36 2 = 0) ∧
    (∃ (s : State) (q : Fin 256) (d : Desc), ∃ p ∈ s.ringOwner q.val, s.nextOp q.val 2 5 = some d ∧ s.isFirst q.val d.idx = true ∧ dstDram d = false ∧
      s.ringOwner q.val = some (p.1, p.2)) :=
  ⟨⟨(st 0), 8, (dsc 1 (DPhase.ready) 0), by decide +kernel⟩,
    ⟨(st 1), 8, (dsc 2 (DPhase.ready) 274877906944), by decide +kernel⟩,
    ⟨(st 2), 8, (dsc 3 (DPhase.ready) 4294967303), by decide +kernel⟩,
    ⟨(st 3), 8, (dsc 4 (DPhase.ready) 281492156580097), by decide +kernel⟩,
    ⟨(st 4), 8, (dsc 4 (DPhase.ready) 0), by decide +kernel⟩,
    ⟨(st 5), 8, (dsc 4 (DPhase.ready) 257), by decide +kernel⟩,
    ⟨(st 6), 8, (dsc 5 (DPhase.ready) 0), by decide +kernel⟩⟩
end CopyWork

namespace CommitCommands
def gs : List (State × Desc) :=
  let mk (q : Nat) (d : Desc) : State × Desc := (ringAs (showing 2) q 3 1 { fetched := [d] }, d)
  let off (q : Nat) (d : Desc) : State × Desc := (ringAs (showing 0) q 3 1 { fetched := [d] }, d)
  [mk 8 (dsc 1 .ready), mk 16 (dsc 1 .ready), mk 8 (dsc 2 .ready), mk 16 (dsc 2 .ready), mk 8 (dsc 3 .ready), mk 8 (dsc 4 .ready), mk 8 (dsc 4 .ready 9), mk 8 (dsc 7 .ready), mk 8 (dsc 8 .ready), mk 8 (dsc 8 .ready (1 * 256)),
   mk 8 (dsc 5 .ready 9), mk 8 (dsc 5 .ready (256 * 3)), mk 8 (dsc 5 .ready (256 * 255)), mk 8 (dsc 5 .ready (256 * 255 + 3)), off 8 (dsc 5 .ready (256 * 2)), mk 8 (dsc 6 .ready 5), mk 8 (dsc 6 .ready (7 * 2 ^ 64 + 99 * 2 ^ 128)),
   ({ ringAs (showing 2 { sentLines := 3 }) 8 3 1 { fetched := [dsc 6 .ready 0] } with now := 5 }, dsc 6 .ready 0), mk 8 (dsc 1 .running), mk 8 (dsc 3 .running), off 8 (dsc 1 .running 3), off 8 (dsc 2 .ready), off 8 (dsc 4 .ready)]
def states : List State := gs.map Prod.fst
def st (k : Nat) : State := states.getD k State.reset
/-- What `Obligations.CommitCommands` assumes is met, clause by clause. -/
theorem wit_CommitCommands :
    (∃ (s : State) (q : Fin 256) (d : Desc), s.commitNext q.val 1 = some d) ∧
    (∃ (s : State) (q : Fin 256) (d : Desc), s.commitNext q.val 2 = some d) ∧
    (∃ (s : State) (q : Fin 256) (d : Desc), s.commitNext q.val 3 = some d) ∧
    (∃ (s : State) (q : Fin 256) (d : Desc), s.commitNext q.val 4 = some d) ∧
    (∃ (s : State) (q : Fin 256) (d : Desc), s.commitNext q.val 7 = some d) ∧
    (∃ (s : State) (q : Fin 256) (d : Desc), s.commitNext q.val 8 = some d ∧ s.isFirst q.val d.idx = true ∧ s.ownsHead q.val (d.b 32) 1 = true) ∧
    (∃ (s : State) (q : Fin 256) (d : Desc), s.commitNext q.val 5 = some d ∧
      (s.ownsLayer q.val (d.b 32) && bitSet (s.p.layer (d.b 32)).flags 2) = false) ∧
    (∃ (s : State) (q : Fin 256) (d : Desc), s.commitNext q.val 5 = some d ∧ s.ownsLayer q.val (d.b 32) = true ∧
      bitSet (s.p.layer (d.b 32)).flags 2 = true ∧ d.b 33 < 8 ∧ s.mayMove (d.b 32) (d.b 33) = false) ∧
    (∃ (s : State) (q : Fin 256) (d : Desc), s.commitNext q.val 5 = some d ∧ s.ownsLayer q.val (d.b 32) = true ∧
      bitSet (s.p.layer (d.b 32)).flags 2 = true ∧ d.b 33 = 255) ∧
    (∃ (s : State) (q : Fin 256) (d : Desc), s.commitNext q.val 6 = some d ∧ s.p.region (d.b 32) = none) ∧
    (∃ (s : State) (q : Fin 256) (d : Desc), s.commitNext q.val 6 = some d ∧ ∃ g ∈ s.p.region (d.b 32), s.ringInst q.val = some g.owner ∧
      s.regionPast g (d.f 40 8) = true) ∧
    (∃ (s : State) (q : Fin 256) (d : Desc), s.commitNext q.val 6 = some d ∧ ∃ g ∈ s.p.region (d.b 32), s.ringInst q.val = some g.owner ∧
      s.regionPast g (d.f 40 8) = false ∧ (s.unit g.cvu).expects = []) ∧
    (∃ (s : State) (q : Fin 256) (d : Desc) (data : List Byte), s.ringType q.val = 3 ∧
      List.find? (fun d => decide (d.phase = DPhase.running)) (s.ring q.val).fetched = some d ∧ bitSet (d.b 33) 0 = false ∧
      data.length = commitLen d.opcode) ∧
    (∃ (s : State) (q : Fin 256) (d : Desc) (data : List Byte), s.ringType q.val = 3 ∧
      List.find? (fun d => decide (d.phase = DPhase.running)) (s.ring q.val).fetched = some d ∧ bitSet (d.b 33) 0 = false ∧
      data.length ≠ commitLen d.opcode) :=
  ⟨⟨(st 0), 8, (dsc 1 (DPhase.ready) 0), by decide +kernel⟩,
    ⟨(st 2), 8, (dsc 2 (DPhase.ready) 0), by decide +kernel⟩,
    ⟨(st 4), 8, (dsc 3 (DPhase.ready) 0), by decide +kernel⟩,
    ⟨(st 5), 8, (dsc 4 (DPhase.ready) 0), by decide +kernel⟩,
    ⟨(st 7), 8, (dsc 7 (DPhase.ready) 0), by decide +kernel⟩,
    ⟨(st 8), 8, (dsc 8 (DPhase.ready) 0), by decide +kernel⟩,
    ⟨(st 10), 8, (dsc 5 (DPhase.ready) 9), by decide +kernel⟩,
    ⟨(st 11), 8, (dsc 5 (DPhase.ready) 768), by decide +kernel⟩,
    ⟨(st 12), 8, (dsc 5 (DPhase.ready) 65280), by decide +kernel⟩,
    ⟨(st 15), 8, (dsc 6 (DPhase.ready) 5), by decide +kernel⟩,
    ⟨(st 17), 8, (dsc 6 (DPhase.ready) 0), by decide +kernel⟩,
    ⟨(st 16), 8, (dsc 6 (DPhase.ready) 33687954325172907883003213344261019795456), by decide +kernel⟩,
    ⟨(st 18), 8, (dsc 1 (DPhase.running) 0), (List.replicate 128 0), by decide +kernel⟩,
    ⟨(st 18), 8, (dsc 1 (DPhase.running) 0), ([]), by decide +kernel⟩⟩
end CommitCommands

namespace AssignAndBinding
def states : List State := [showing 2, showing 0, (showing 2).put rplB Reg.RPL_STATE_STATE 2, ringAs ((showing 2).setInstState 0 0) 8 3 1, ringAs { (showing 2) with plan := some { showPlan with heads := [{ head := 0, owner := 0, portType := 1 }] } } 8 3 1]
def st (k : Nat) : State := states.getD k State.reset
/-- What `Obligations.AssignAndBinding` assumes is met, clause by clause. -/
theorem wit_AssignAndBinding :
    (∃ (s : State) (k : Fin 64) (v : Word), s.answers 0 = true ∧ s.awaiting = false ∧ s.rd (layerBase k.val) Reg.ERR_ACCESS_ERR = 0 ∧
      8 ≤ BitVec.toNat v % 16 ∧ BitVec.toNat v % 16 ≠ 15) ∧
    (∃ (s : State) (k : Fin 64) (v : Word), s.answers 0 = true ∧ s.awaiting = false ∧ s.rd (layerBase k.val) Reg.ERR_ACCESS_ERR = 0 ∧
      BitVec.toNat v % 16 < 8 ∧ (s.rplBusy = true ∨ s.mayMove k.val (BitVec.toNat v % 16) = false)) ∧
    (∃ (s : State) (k : Fin 64) (v : Word), s.answers 0 = true ∧ s.awaiting = false ∧ s.rd (layerBase k.val) Reg.ERR_ACCESS_ERR = 0 ∧
      s.rplBusy = true ∧ BitVec.toNat v % 16 = 15) ∧
    (∃ (s : State) (k : Fin 64) (v : Word), s.answers 0 = true ∧ s.awaiting = false ∧ (BitVec.toNat v % 16 < 8 ∨ BitVec.toNat v % 16 = 15) ∧
      s.rplBusy = false ∧ s.mayMove k.val (BitVec.toNat v % 16) = true) ∧
    (∃ (s : State) (h : Fin 8) (v : Word), s.answers 0 = true ∧ s.awaiting = false ∧ s.rplBusy = false ∧
      (BitVec.toNat v % 256 = 255 ∨ s.ringInst (BitVec.toNat v % 256) = some (s.p.head h.val).owner ∧ s.ringType (BitVec.toNat v % 256) = 3 ∧
      s.p.headUsed h.val = true) ∧ (bitSet (s.p.head h.val).ownerWritable 1 = false ∨ s.ownerIdle (s.p.head h.val).owner = true)) ∧
    (∃ (s : State) (h : Fin 8), s.answers 0 = true ∧ s.awaiting = false ∧ s.rplBusy = true ∧ s.rd (headBase h.val) Reg.ERR_ACCESS_ERR = 0) :=
  ⟨⟨(st 0), 0, (0x00000008#32), by decide +kernel⟩,
    ⟨(st 0), 0, (0x00000000#32), by decide +kernel⟩,
    ⟨(st 2), 0, (0x0000000f#32), by decide +kernel⟩,
    ⟨(st 0), 0, (0x00000002#32), by decide +kernel⟩,
    ⟨(st 0), 1, (0x000000ff#32), by decide +kernel⟩,
    ⟨(st 2), 0, by decide +kernel⟩⟩
end AssignAndBinding

namespace FramesAdvance
def states : List State :=
  [showing 0, showing 2, showing 2 { latched := true, next := { content := 1 } }, showing 1, showing 3, showing 4, (showing 2).put picB Reg.PIC_STATE_STATE 1, (showing 2).put picB Reg.PIC_STATE_ENTRY 2,
   showing 0 { locking := true }, (showing 2 { hostMode := .hold, holdEnd := some 77 }), (showing 2).put snB Reg.SN_STATUS_STOPPED 1, showing 2 { uncarried := true, psrCur := (1, 2), sync := 4 },
   (((showing 2).put (layerBase 0) Reg.LAYER_STATUS_HELD 1).put (capB 0) Reg.CAP_STATUS_STATE 2)]
def st (k : Nat) : State := states.getD k State.reset
/-- What `Obligations.FramesAdvance` assumes is met, clause by clause. -/
theorem wit_FramesAdvance :
    (∃ (s : State) (h : Fin 8), s.scans h.val = true ∧ (s.head h.val).latched = false) ∧
    (∃ (s : State) (h : Fin 8), s.scans h.val = true ∧ s.rd picB Reg.PIC_STATE_STATE = 0 ∧ s.parkedTo 7 = false ∧ s.rd snB Reg.SN_STATUS_STOPPED = 0) ∧
    (∃ (s : State) (h : Fin 8), s.scans h.val = true ∧ (s.rd picB Reg.PIC_STATE_STATE ≠ 0 ∨ s.parkedTo 7 = true)) ∧
    (∃ (s : State) (h : Fin 8), (s.head h.val).locking = true ∧ s.p.headUsed h.val = true) ∧
    (∃ (s : State) (h : Fin 8) (y : BitVec 16), s.scans h.val = true ∧ y.toNat < s.vActive h.val ∧ y.toNat < s.lead h.val ∧
      s.rd (headBase h.val) Reg.HEAD_STATE_LINK ≠ 4) ∧
    (∃ (s : State) (h : Fin 8), ∃ e ∈ (s.head h.val).holdEnd, (s.head h.val).hostMode = HostMode.hold) :=
  ⟨⟨(st 1), 0, by decide +kernel⟩,
    ⟨(st 1), 0, by decide +kernel⟩,
    ⟨(st 6), 0, by decide +kernel⟩,
    ⟨(st 8), 0, by decide +kernel⟩,
    ⟨(st 1), 0, (0x0000#16), by decide +kernel⟩,
    ⟨(st 9), 0, by decide +kernel⟩⟩
end FramesAdvance

namespace Genlock
def states : List State := [showing 2 { sync := 1 }, showing 2 { sync := 1, refTime := some 9 }, (showing 2 { sync := 1 }).put (headBase 0) Reg.HEAD_STATE_LOCKED 1, (showing 2 { sync := 2 }).put (headBase 0) Reg.HEAD_STATE_LOCKED 1, showing 0]
def st (k : Nat) : State := states.getD k State.reset
/-- What `Obligations.Genlock` assumes is met, clause by clause. -/
theorem wit_Genlock :
    (∃ (s : State) (h : Fin 8), s.followers 1 0 = [h.val] ∧ (s.head h.val).refTime = none) ∧
    (∃ (s : State) (h : Fin 8), bitsOf (s.head h.val).sync 0 2 ≠ 0 ∧ s.rd (headBase h.val) Reg.HEAD_STATE_LOCKED = 1) ∧
    (∃ (s : State) (h : Fin 8), bitsOf (s.head h.val).sync 0 2 = 0) :=
  ⟨⟨(st 0), 0, by decide +kernel⟩,
    ⟨(st 2), 0, by decide +kernel⟩,
    ⟨(st 0), 5, by decide +kernel⟩⟩
end Genlock

namespace PortTraining
def states : List State :=
  let cur : OutX := { hpdIn := true, current := some (2, 4, false), search := [(1, 2, true)] }
  [showing 1 {} cur, showing 1 {} { cur with search := [] }, showing 1 {} { cur with current := some (3, 2, true) }, (showing 3 {} { hpdIn := true, retryAt := some 99 }).put (headBase 0) Reg.HEAD_STATE_CAUSE 2,
   showing 3, showing 2 {} cur, showing 4 {} cur, showing 1 {} {}, showing 0 {} cur, showing 2 {} { cur with auxWaiting := true }]
def st (k : Nat) : State := states.getD k State.reset
/-- What `Obligations.PortTraining` assumes is met, clause by clause. -/
theorem wit_PortTraining :
    (∃ (s : State) (h : Fin 8) (n : Nat × Nat × Bool) (l : List (Nat × Nat × Bool)), s.isDsi h.val = false ∧
      ∃ p ∈ (s.out h.val).current, s.link h.val = linkTraining ∧ (s.out h.val).search = n :: l) ∧
    (∃ (s : State) (h : Fin 8), s.isDsi h.val = false ∧ ∃ p ∈ (s.out h.val).current, s.link h.val = linkTraining ∧ (s.out h.val).search = []) ∧
    (∃ (s : State) (h : Fin 8), s.isDsi h.val = false ∧ ∃ r ∈ (s.out h.val).retryAt, s.link h.val = linkNoSink ∧
      s.rd (headBase h.val) Reg.HEAD_STATE_CAUSE = 2 ∧ (s.out h.val).hpdIn = true) ∧
    (∃ (s : State) (h : Fin 8), s.isDsi h.val = false ∧ (s.out h.val).hpdIn = false ∧ s.hpdRead h.val = true ∧ s.powerState = 0 ∧ s.entryPhase = 0) ∧
    (∃ (s : State) (h : Fin 8), s.isDsi h.val = false ∧ (s.out h.val).hpdIn = true ∧ s.hpdRead h.val = true ∧ s.link h.val ≠ linkActive ∧
      s.link h.val ≠ linkSelfRefresh) ∧
    (∃ (s : State) (h : Fin 8), s.isDsi h.val = false ∧ (s.out h.val).hpdIn = true ∧ s.hpdRead h.val = true ∧ s.link h.val = linkActive) ∧
    (∃ (s : State) (h : Fin 8), s.isDsi h.val = false ∧ s.answers 0 = true ∧ s.awaiting = false ∧ s.link h.val ≠ linkOff ∧ (s.out h.val).hpdIn = true) :=
  ⟨⟨(st 0), 0, ((1, 2, true)), ([]), by decide +kernel⟩,
    ⟨(st 1), 0, by decide +kernel⟩,
    ⟨(st 3), 0, by decide +kernel⟩,
    ⟨(st 4), 0, by decide +kernel⟩,
    ⟨(st 0), 0, by decide +kernel⟩,
    ⟨(st 5), 0, by decide +kernel⟩,
    ⟨(st 0), 0, by decide +kernel⟩⟩
end PortTraining

namespace AuxAndPanels
def states : List State :=
  let busy (s : State) : State := s.put (outB 0) Reg.OUT_AUX_STATUS_BUSY 1
  [showing 1, busy (showing 2), busy ((showing 2).put (outB 0) Reg.OUT_AUX_REQ_OP 1), busy ((showing 2).put (outB 0) Reg.OUT_AUX_REQ_LEN 15), busy (showing 1 {} { auxWaiting := true }), busy (showing 2 {} { auxRetries := 7 }),
   showing 3 {} { dsiWait := true }, (showing 2).put (outB 0) Reg.OUT_STATUS_HDCP 1, ((showing 2).put (outB 0) Reg.OUT_STATUS_HDCP 1).put (outB 0) Reg.OUT_HDCP_REQUEST 2,
   (((showing 2).put (outB 0) Reg.OUT_STATUS_HDCP 4).put (outB 0) Reg.OUT_HDCP_REQUEST 1).put secB Reg.SEC_STATE_STATE 1]
def st (k : Nat) : State := states.getD k State.reset
/-- What `Obligations.AuxAndPanels` assumes is met, clause by clause. -/
theorem wit_AuxAndPanels :
    (∃ (s : State) (h : Fin 8), s.answers 0 = true ∧ s.awaiting = false ∧ s.rd (outB h.val) Reg.OUT_AUX_STATUS_BUSY = 0 ∧ s.link h.val = linkTraining) ∧
    (∃ (s : State) (h : Fin 8), s.answers 0 = true ∧ s.awaiting = false ∧ s.rd (outB h.val) Reg.OUT_AUX_STATUS_BUSY = 1) ∧
    (∃ (s : State) (h : Fin 8), s.rd (outB h.val) Reg.OUT_AUX_STATUS_BUSY = 1 ∧ (s.out h.val).auxWaiting = false ∧
      s.rd (outB h.val) Reg.OUT_AUX_REQ_OP = 1) ∧
    (∃ (s : State) (h : Fin 8), s.rd (outB h.val) Reg.OUT_AUX_STATUS_BUSY = 1 ∧ (s.out h.val).auxWaiting = false ∧
      s.rd (outB h.val) Reg.OUT_AUX_REQ_OP = 0) ∧
    (∃ (s : State) (h : Fin 8), s.rd (outB h.val) Reg.OUT_AUX_STATUS_BUSY = 1 ∧ (s.out h.val).auxWaiting = false ∧ (s.out h.val).auxRetries < 7) ∧
    (∃ (s : State) (h : Fin 8), (s.out h.val).dsiWait = true) ∧
    (∃ (s : State) (h : Fin 8), s.rd (outB h.val) Reg.OUT_STATUS_HDCP = 1) ∧
    (∃ (s : State) (h : Fin 8), s.rd (outB h.val) Reg.OUT_STATUS_HDCP = 4 ∧ s.portType h.val = 1 ∧ s.link h.val = linkActive ∧
      s.rd (outB h.val) Reg.OUT_HDCP_REQUEST ≠ 0 ∧ s.rd secB Reg.SEC_STATE_STATE = 1 ∧ s.rd secB Reg.SEC_STATE_DEBUG_SECURE = 0) :=
  ⟨⟨(st 0), 0, by decide +kernel⟩,
    ⟨(st 1), 0, by decide +kernel⟩,
    ⟨(st 2), 0, by decide +kernel⟩,
    ⟨(st 1), 0, by decide +kernel⟩,
    ⟨(st 1), 0, by decide +kernel⟩,
    ⟨(st 6), 0, by decide +kernel⟩,
    ⟨(st 7), 0, by decide +kernel⟩,
    ⟨(st 9), 0, by decide +kernel⟩⟩
end AuxAndPanels

namespace CaptureRoute
def states : List State :=
  let c (st : Nat) (x : CapX) : State := ((showing 2).put (capB 0) Reg.CAP_STATUS_STATE st).modCap 0 fun _ => x
  [showing 2, c 1 {}, c 2 { inFrame := true }, c 2 { inFrame := true, lines := 1, writing := 2 }, c 2 { inFrame := true, lines := 2, writing := 1 }, c 3 { inFrame := true, lines := 7 }, c 0 { inFrame := true, lines := 2 }]
def st (k : Nat) : State := states.getD k State.reset
/-- What `Obligations.CaptureRoute` assumes is met, clause by clause. -/
theorem wit_CaptureRoute :
    (∃ (s : State) (c : Fin 4), s.capState c.val ≠ capOff ∧ (s.cap c.val).inFrame = false) ∧
    (∃ (s : State) (c : Fin 4) (dt : BitVec 6) (vc : Fin 16) (data : List Byte), s.capState c.val ≠ capOff ∧ dt.toNat = (s.capRec c.val).dataType ∧
      vc.val = (s.capRec c.val).vc ∧ (s.cap c.val).inFrame = true ∧ data.length = lineBytes (s.capRec c.val).dataType (s.capRec c.val).width ∧
      (s.cap c.val).lines < (s.capRec c.val).height) ∧
    (∃ (s : State) (c : Fin 4) (dt : BitVec 6) (vc : Fin 16) (data : List Byte), s.capState c.val ≠ capOff ∧ dt.toNat = (s.capRec c.val).dataType ∧
      vc.val = (s.capRec c.val).vc ∧ (s.cap c.val).inFrame = true ∧ data.length ≠ lineBytes (s.capRec c.val).dataType (s.capRec c.val).width) ∧
    (∃ (s : State) (c : Fin 4), (s.cap c.val).inFrame = true ∧ (s.cap c.val).lines = (s.capRec c.val).height) ∧
    (∃ (s : State) (c : Fin 4), (s.cap c.val).inFrame = true ∧ (s.cap c.val).lines ≠ (s.capRec c.val).height) ∧
    (∃ (s : State) (c : Fin 4), s.capState c.val = capWaiting ∨ s.capState c.val = capRunning) :=
  ⟨⟨(st 1), 0, by decide +kernel⟩,
    ⟨(st 2), 0, (0x24#6), 0, ([0x07#8, 0x07#8, 0x07#8, 0x07#8, 0x07#8, 0x07#8, 0x07#8, 0x07#8, 0x07#8, 0x07#8, 0x07#8, 0x07#8]), by decide +kernel⟩,
    ⟨(st 2), 0, (0x24#6), 0, ([]), by decide +kernel⟩,
    ⟨(st 4), 0, by decide +kernel⟩,
    ⟨(st 2), 0, by decide +kernel⟩,
    ⟨(st 1), 0, by decide +kernel⟩⟩
end CaptureRoute

namespace DramMaintenance
def dmc : State := (linked.put dmcB Reg.DMC_STATUS_STATE 3).put dmcB Reg.DMC_USABLE_MIB 1024
def qr (a u : Nat) : QReq := { port := 3, urg := u, cls := 1, inst := 0, secure := false, addr := a, write := false }
def states : List State :=
  let c (x : ChanX) : State := (dmc.modChan 0 fun _ => x)
  [dmc, (dmc.put dmcB Reg.DMC_STATUS_TWO_RANKS 1), { c { queue := [qr 0 0, qr 64 1], banks := [(3, { openRow := some 5, table := [(5, 7), (9, 1)] })] } with now := 10 ^ 6 }, (dmc.put (chB 0) Reg.DMCCH_STATUS_RANK0 2),
   c { queue := [qr 0 0], held := [qr 64 2], fx0 := 4 }, dmc.put (chB 0) (owedFld 0) 63, { dmc with now := 5000 }, { dmc.put dmcB Reg.DMC_LP_SR_IDLE_US 5 with now := 10 ^ 9 }]
def st (k : Nat) : State := states.getD k State.reset
/-- What `Obligations.DramMaintenance` assumes is met, clause by clause. -/
theorem wit_DramMaintenance :
    (∃ (s : State) (c : Fin 16) (rank : Fin 2), s.rd dmcB Reg.DMC_STATUS_STATE = 3 ∧ s.ranks.contains rank.val = true ∧
      s.rankAsleep c.val rank.val = false) ∧
    (∃ (s : State) (c : Fin 16) (rank : Fin 2), s.rd dmcB Reg.DMC_STATUS_STATE = 3 ∧ s.ranks.contains rank.val = true ∧
      s.rankAsleep c.val rank.val = true) ∧
    (∃ (s : State) (c : Fin 16) (rank : Fin 2), s.rd dmcB Reg.DMC_STATUS_STATE = 3 ∧ s.ranks.contains rank.val = true ∧ s.rankAsleep c.val 0 = false ∧
      (s.chan c.val).probeEnd + 2000 ≤ s.now) ∧
    (∃ (s : State) (c : Fin 16) (rank : Fin 2), s.rd dmcB Reg.DMC_STATUS_STATE = 3 ∧ s.ranks.contains rank.val = true ∧ s.owed c.val rank.val = 0 ∧
      s.rd (chB c.val) (if rank.val = 0 then Reg.DMCCH_STATUS_RANK0 else Reg.DMCCH_STATUS_RANK1) = 0 ∧
      ((s.chan c.val).queue.any fun r => decide ((QReq.place s r).rank = rank.val)) = false) ∧
    (∃ (s : State) (c : Fin 16) (rank : Fin 2), s.rd dmcB Reg.DMC_STATUS_STATE = 3 ∧ s.ranks.contains rank.val = true ∧
      s.rd picB Reg.PIC_STATE_STATE ≤ 1 ∧ (∀ (h : Fin 8), s.scans h.val = false) ∧ (∀ (p : Fin 4), s.rd (capB p.val) Reg.CAP_STATUS_STATE = 0) ∧
      s.rd dmcB Reg.DMC_LP_SR_IDLE_US ≠ 0 ∧ (s.chan c.val).queue = [] ∧ (s.chan c.val).held = [] ∧ s.rankAsleep c.val 0 = false) :=
  ⟨⟨(st 0), 0, 0, by decide +kernel⟩,
    ⟨(st 3), 0, 0, by decide +kernel⟩,
    ⟨(st 2), 0, 0, by decide +kernel⟩,
    ⟨(st 0), 0, 0, by decide +kernel⟩,
    ⟨(st 0), 0, 0, by decide +kernel⟩⟩
end DramMaintenance

namespace DramLimits
def states : List State := [up, ((up.put dmcB Reg.DMC_STATUS_STATE 3).put (chB 0) (owedFld 0) 7).put (chB 15) (owedFld 0) 63, up.put dmcB Reg.DMC_STATUS_TWO_RANKS 1]
def st (k : Nat) : State := states.getD k State.reset
/-- What `Obligations.DramLimits` assumes is met, clause by clause. -/
theorem wit_DramLimits :
    (∃ (s : State) (v : Word), s.answers 0 = true ∧ s.awaiting = false ∧ 1 ≤ bitsOf (BitVec.toNat v) 0 4 ∧ bitsOf (BitVec.toNat v) 0 4 ≤ 8 ∧
      100 ≤ bitsOf (BitVec.toNat v) 16 14 ∧ bitsOf (BitVec.toNat v) 16 14 ≤ 16000) ∧
    (∃ (s : State) (v : Word), s.answers 0 = true ∧ s.awaiting = false ∧ (bitsOf (BitVec.toNat v) 0 4 = 0 ∨ 8 < bitsOf (BitVec.toNat v) 0 4) ∧
      s.rd dmcB Reg.ERR_ACCESS_ERR = 0 ∧ 100 ≤ bitsOf (BitVec.toNat v) 16 14 ∧ bitsOf (BitVec.toNat v) 16 14 ≤ 16000) :=
  ⟨⟨(st 0), (0x00640001#32), by decide +kernel⟩,
    ⟨(st 0), (0x01f40009#32), by decide +kernel⟩⟩
end DramLimits

namespace DramRequests
def rq (p : Fin 24) (i : BitVec 8) (a : BitVec 36) : DramReq := { port := p, urg := 2, cls := 2, inst := i, secure := false, addr := a, write := false, data := [], scrub := false }
def dmc : State := (linked.put dmcB Reg.DMC_STATUS_STATE 3).put dmcB Reg.DMC_USABLE_MIB 1024
def states : List State :=
  [dmc, { dmc with pot := [(0, 16 + 2048), (1, 16), (2, 19), (3, 3)] }, (dmc.put (chB 0) (owedFld 0) 7).modChan 0 fun x => { x with force0 := true }, (dmc.put dmcB Reg.DMC_PATROL_ENABLE 1).putWide (dmcB + Reg.DMC_PATROL_POS) (2 ^ 30 - 64),
   (dmc.put dmcB Reg.DMC_PATROL_ENABLE 1).put (dmcB) Reg.DMC_REFRESH_LIMIT 8, dmc.put dmcB Reg.DMC_REFRESH_LIMIT 8]
def st (k : Nat) : State := states.getD k State.reset
/-- What `Obligations.DramRequests` assumes is met, clause by clause. -/
theorem wit_DramRequests :
    (∃ (s : State) (r : DramReq), s.rd dmcB Reg.DMC_STATUS_STATE = 3 ∧ unchecked r.port.val = false ∧ r.write = false ∧
      s.mayAccess (reqWho r) false (r.addr.toNat / 64 * 64) 64 = false) ∧
    (∃ (s : State) (r : DramReq), s.rd dmcB Reg.DMC_STATUS_STATE = 3 ∧ unchecked r.port.val = false ∧ r.write = false ∧
      s.mayAccess (reqWho r) false (r.addr.toNat / 64 * 64) 64 = true) ∧
    (∃ (s : State) (c : Fin 16), s.rd dmcB Reg.DMC_STATUS_STATE = 3 ∧ s.rankAsleep c.val 0 = false ∧ (s.chan c.val).forced 0 = true) ∧
    (∃ (s : State) (c : Fin 16), s.rd dmcB Reg.DMC_STATUS_STATE = 3 ∧ (s.chan c.val).queue = [] ∧ (s.chan c.val).mitig = [] ∧
      (∀ r ∈ s.ranks, s.owed c.val r = 0 ∧ (s.chan c.val).forced r = false) ∧ 0 < s.refreshLimit) ∧
    (∃ (s : State) (addr : BitVec 36), s.rd dmcB Reg.DMC_STATUS_STATE = 3 ∧ s.sn.armed = [] ∧ addr.toNat / 64 * 64 + 64 ≤ s.usable ∧
      s.poisoned (addr.toNat / 64) = false) ∧
    (∃ (s : State), s.rd dmcB Reg.DMC_STATUS_STATE = 3 ∧ s.sn.armed = [] ∧ s.rd dmcB Reg.DMC_PATROL_ENABLE = 1 ∧
      s.wideAt (dmcB + Reg.DMC_PATROL_POS) < s.usable ∧ s.poisoned (s.wideAt (dmcB + Reg.DMC_PATROL_POS) / 64) = false ∧
      s.wideAt (dmcB + Reg.DMC_PATROL_POS) + 64 < s.usable) ∧
    (∃ (s : State), s.rd dmcB Reg.DMC_STATUS_STATE = 3 ∧ s.sn.armed = [] ∧ s.rd dmcB Reg.DMC_PATROL_ENABLE = 1 ∧
      s.wideAt (dmcB + Reg.DMC_PATROL_POS) < s.usable ∧ s.poisoned (s.wideAt (dmcB + Reg.DMC_PATROL_POS) / 64) = false ∧
      s.usable ≤ s.wideAt (dmcB + Reg.DMC_PATROL_POS) + 64) :=
  ⟨⟨(st 0), ({ port := 0, urg := 2, cls := 2, inst := 0x00#8, secure := false, addr := 0x000000000#36, write := false, data := [], scrub := false }), by decide +kernel⟩,
    ⟨(st 1), ({ port := 0, urg := 2, cls := 2, inst := 0x00#8, secure := false, addr := 0x000000000#36, write := false, data := [], scrub := false }), by decide +kernel⟩,
    ⟨(st 2), 0, by decide +kernel⟩,
    ⟨(st 0), 0, by decide +kernel⟩,
    ⟨(st 0), (0x000000000#36), by decide +kernel⟩,
    ⟨(st 4), by decide +kernel⟩,
    ⟨(st 3), by decide +kernel⟩⟩
end DramRequests

namespace DramTraining
def states : List State :=
  let st (n : Nat) : State := linked.put dmcB Reg.DMC_STATUS_STATE n
  let r : State := { (st 3).put dmcB Reg.DMC_REFRESH_LIMIT 8 with dramx := { recentring := [(0, 0, 0, true), (15, 0, 1, false)] }, now := 5000 }
  [st 1, st 2, { st 2 with dram := [⟨4, 5⟩], boot := { retained := some wPlan } }, { State.reset.put dmcB Reg.DMC_STATUS_STATE 2 with dram := [⟨4, 5⟩] }, { State.reset.put dmcB Reg.DMC_STATUS_STATE 1 with dram := [⟨4, 5⟩] }, st 3, r]
def st (k : Nat) : State := states.getD k State.reset
/-- What `Obligations.DramTraining` assumes is met, clause by clause. -/
theorem wit_DramTraining :
    (∃ (s : State) (c : Fin 16) (m : BitVec 16), s.rd dmcB Reg.DMC_STATUS_STATE = 1 ∧ m.getLsbD c.val = true) ∧
    (∃ (s : State) (gib : Nat) (ranks : Nat), s.rd dmcB Reg.DMC_STATUS_STATE = 1 ∧ ∃ rows ∈ rowsOfFit gib ranks, True) ∧
    (∃ (s : State), s.rd dmcB Reg.DMC_STATUS_STATE = 2 ∧ s.pwr.wakeFrom ≠ 3 ∧ s.pwr.waking ≠ 6) ∧
    (∃ (s : State), s.rd dmcB Reg.DMC_STATUS_STATE = 3 ∧ s.dramx.recentring ≠ []) ∧
    (∃ (s : State), s.rd dmcB Reg.DMC_STATUS_STATE = 3 ∧ s.answers 0 = true ∧ s.awaiting = false ∧ s.dramx.recentring = []) ∧
    (∃ (s : State) (c : Fin 16) (rank : Fin 2) (lane : Fin 2) (wr : Bool), s.dramx.recentring.contains (c.val, rank.val, lane.val, wr) = true ∧
      (s.chan c.val).queue = [] ∧ (s.chan c.val).held = [] ∧ (s.chan c.val).idleSince + 1000 ≤ s.now ∧ (s.chan c.val).pollDue = false ∧
      (∀ r ∈ s.ranks, s.owed c.val r + 1 < s.refreshLimit) ∧ s.rankAsleep c.val rank.val = false) :=
  ⟨⟨(st 0), 0, (0x0001#16), by decide +kernel⟩,
    ⟨(st 0), 8, 1, by decide +kernel⟩,
    ⟨(st 1), by decide +kernel⟩,
    ⟨(st 6), by decide +kernel⟩,
    ⟨(st 5), by decide +kernel⟩,
    ⟨(st 6), 0, 0, 0, true, by decide +kernel⟩⟩
end DramTraining

namespace PageCallsChecked
def base : State := { (linked.put dmcB Reg.DMC_STATUS_STATE 3).put dmcB Reg.DMC_USABLE_MIB 1024 with pot := [(0, 16), (1, 16), (2, 19), (3, 3), (5, 3 + 1024)] }
def states : List State :=
  let on : State := base.put secB Reg.SEC_STATE_STATE 1
  let arg (c : FnId) (k v : Nat) (s : State) : State := s.put (callBase c + 4 * k) Reg.CALL_ARG_ARG v
  [base, on, base.put (callBase .mgr) Reg.CALL_STATUS_BUSY 1, on.put (callBase (.vf 0)) Reg.CALL_STATUS_BUSY 1, arg .mgr 3 8 on, arg (.vf 0) 3 9 on, arg .mgr 0 3 (arg .mgr 1 1 (arg .mgr 3 7 on)), arg (.vf 0) 1 2 (arg (.vf 0) 3 1 on), arg (.vf 0) 0 2 (arg (.vf 0) 1 1 (arg (.vf 0) 2 1 on)),
   arg .mgr 0 7 (arg .mgr 1 2 (arg .mgr 2 16 on))]
def st (k : Nat) : State := states.getD k State.reset
/-- What `Obligations.PageCallsChecked` assumes is met, clause by clause. -/
theorem wit_PageCallsChecked :
    (∃ (s : State) (c : FnId) (i : Instr), (i = Instr.pageAssign c ∨ i = Instr.pageRelease c ∨ i = Instr.pageFlags c ∨ i = Instr.pageQuery c) ∧
      callReady s c ∧ s.rd secB Reg.SEC_STATE_STATE ≠ 1) ∧
    (∃ (s : State) (c : FnId) (i : Instr), (i = Instr.pageAssign c ∨ i = Instr.pageRelease c ∨ i = Instr.pageFlags c ∨ i = Instr.pageQuery c) ∧
      s.answers (fnNum c) = true ∧ s.awaiting = false ∧ s.caller c = true ∧ s.rd (callBase c) Reg.CALL_STATUS_BUSY = 1) ∧
    (∃ (s : State) (c : FnId) (i : Instr), (i = Instr.pageAssign c ∨ i = Instr.pageRelease c ∨ i = Instr.pageFlags c ∨ i = Instr.pageQuery c) ∧
      callReady s c ∧ s.rd secB Reg.SEC_STATE_STATE = 1 ∧ s.arg c 0 % 2 ^ 24 * 4096 < s.usable ∧
      s.mayName c (ownerOf (s.entry (s.arg c 0 % 2 ^ 24))) = true) ∧
    (∃ (s : State) (c : FnId) (i : Instr), (i = Instr.pageAssign c ∨ i = Instr.pageRelease c ∨ i = Instr.pageFlags c ∨ i = Instr.pageQuery c) ∧
      callReady s c ∧ s.rd secB Reg.SEC_STATE_STATE = 1 ∧ 8 ≤ s.arg c 3) ∧
    (∃ (s : State) (c : FnId) (i : Instr), (i = Instr.pageAssign c ∨ i = Instr.pageRelease c ∨ i = Instr.pageFlags c ∨ i = Instr.pageQuery c) ∧
      callReady s c ∧ s.rd secB Reg.SEC_STATE_STATE = 1 ∧ s.pageArgs c = none ∧ s.arg c 3 < 8 ∧
      ∀ k < s.arg c 1, s.mayName c (ownerOf (s.entry (s.arg c 0 % 2 ^ 24 + k))) = true) :=
  ⟨⟨(st 0), (FnId.mgr), (Instr.pageAssign (FnId.mgr)), by dsimp only [callReady]; decide +kernel⟩,
    ⟨(st 2), (FnId.mgr), (Instr.pageAssign (FnId.mgr)), by decide +kernel⟩,
    ⟨(st 1), (FnId.mgr), (Instr.pageAssign (FnId.mgr)), by dsimp only [callReady]; decide +kernel⟩,
    ⟨(st 4), (FnId.mgr), (Instr.pageAssign (FnId.mgr)), by dsimp only [callReady]; decide +kernel⟩,
    ⟨(st 6), (FnId.mgr), (Instr.pageAssign (FnId.mgr)), by dsimp only [callReady]; decide +kernel⟩⟩
end PageCallsChecked

namespace PageBatches
def base : State := { (linked.put dmcB Reg.DMC_STATUS_STATE 3).put dmcB Reg.DMC_USABLE_MIB 1024 with pot := [(0, 16), (1, 16), (2, 19), (3, 3), (5, 3 + 1024)] }
def states : List State :=
  let b (c : FnId) (x : CallX) : State := { base.put (callBase c) Reg.CALL_STATUS_BUSY 1 with sec := { calls := [(fnNum c, x)] } }
  [base, b .mgr { service := 1, batch := [(7, 16), (1, 16)] }, b .mgr { service := 1, batch := [(7, 16)] }, b (.vf 0) { service := 1, batch := [(7, 1040)] }, b (.vf 0) { service := 2, batch := [(2, 0)] },
   { base with sec := { releases := [⟨2, false, 1⟩] } }, { base with sec := { releases := [⟨2, true, 0⟩, ⟨0, false, 0⟩] }, dram := [⟨8192, 5⟩, ⟨12287, 6⟩, ⟨12288, 7⟩] }, { base with pins := [(5, 0, 3)] }]
def st (k : Nat) : State := states.getD k State.reset
/-- What `Obligations.PageBatches` assumes is met, clause by clause. -/
theorem wit_PageBatches :
    (∃ (s : State) (c : FnId), ∃ k ∈ firstIdx (s.callX c).batch.length fun k => match (s.callX c).batch[k]? with | some e => !s.batchOk (s.callX c).service e | none => false, (s.callX c).batch ≠ [] ∧
      s.rd (callBase c) Reg.CALL_STATUS_BUSY = 1) ∧
    (∃ (s : State) (c : FnId) (a : Nat) (e : Nat), (s.callX c).batch = [(a, e)] ∧ (s.callX c).service = 1 ∧ (s.callX c).pins = false ∧
      s.rd (callBase c) Reg.CALL_STATUS_BUSY = 1 ∧ ownerOf (s.entry a) = 0) ∧
    (∃ (s : State) (p : BitVec 24), ∃ r ∈ List.find? (fun r => decide (r.page = p.toNat)) s.sec.releases, s.pinned p.toNat = false ∧ r.scrub = false) ∧
    (∃ (s : State) (p : BitVec 24), ∃ r ∈ List.find? (fun r => decide (r.page = p.toNat)) s.sec.releases, s.pinned p.toNat = false ∧ r.scrub = true) ∧
    (∃ (s : State) (p : BitVec 24), s.pinned p.toNat = true) :=
  ⟨⟨(st 1), (FnId.mgr), by decide +kernel⟩,
    ⟨(st 2), (FnId.mgr), 7, 16, by decide +kernel⟩,
    ⟨(st 5), (0x000002#24), by decide +kernel⟩,
    ⟨(st 6), (0x000002#24), by decide +kernel⟩,
    ⟨(st 7), (0x000000#24), by decide +kernel⟩⟩
end PageBatches

namespace SecureWorldFails
def states : List State :=
  let st (n : Nat) : State := linked.put secB Reg.SEC_STATE_STATE n
  [st 0, st 1, (st 1).put (callBase .mgr) Reg.CALL_STATUS_BUSY 1, { (st 1).put (callBase (.vf 3)) Reg.CALL_STATUS_BUSY 1 with sec := { calls := [(5, { service := 1, since := 7 })], heartbeat := 99 } }, st 2, (st 2).put secB Reg.SEC_CTRL_AUTO_REBOOT 1, st 3, st 4,
   { st 2 with engines := [(1, { holder := .job 8 0 true })] }, { st 1 with pot := [(0, 16), (1, 1)], sec := { windows := [(0, { first := 0, pages := 1 })] } }, { (showing 2).put secB Reg.SEC_STATE_STATE 1 with boot := { rmDown := true } }]
def st (k : Nat) : State := states.getD k State.reset
/-- What `Obligations.SecureWorldFails` assumes is met, clause by clause. -/
theorem wit_SecureWorldFails :
    (∃ (s : State) (c : FnId), s.rd secB Reg.SEC_STATE_STATE = 1 ∧ s.rd (callBase c) Reg.CALL_STATUS_BUSY = 1) ∧
    (∃ (s : State), s.rd secB Reg.SEC_STATE_STATE = 2 ∧ s.secureRuns = false) ∧
    (∃ (s : State), s.answers 0 = true ∧ s.awaiting = false) ∧
    (∃ (s : State), s.rd secB Reg.SEC_STATE_STATE = 4) :=
  ⟨⟨(st 2), (FnId.mgr), by decide +kernel⟩,
    ⟨(st 4), by decide +kernel⟩,
    ⟨(st 0), by decide +kernel⟩,
    ⟨(st 7), by decide +kernel⟩⟩
end SecureWorldFails

namespace DebugAccess
def states : List State :=
  let on : State := { (linked.put dmcB Reg.DMC_STATUS_STATE 3).put dmcB Reg.DMC_USABLE_MIB 1024 with pot := [(0, 3)] }.put secB Reg.SEC_STATE_STATE 1
  [on, on.put picB Reg.PIC_STATE_INHIBIT 1, { on with fuses := { debugCounter := 63 } }, { on.put secB Reg.SEC_STATE_DEBUG_SECURE 1 with sec := { certOpens := 3, heldReqs := [(0, 1)] } }, { on with sec := { heldReqs := [(1, 0)] }, engines := [(1, { holder := .job 8 0 true })] }]
def st (k : Nat) : State := states.getD k State.reset
/-- What `Obligations.DebugAccess` assumes is met, clause by clause. -/
theorem wit_DebugAccess :
    (∃ (s : State) (c : FnId), s.rd secB Reg.SEC_STATE_STATE = 1 ∧ callReady s c ∧ c ≠ FnId.mgr) ∧
    (∃ (s : State), s.rd secB Reg.SEC_STATE_STATE = 1 ∧ callReady s FnId.mgr ∧ s.fuses.debugCounter < 63 ∧ s.rd picB Reg.PIC_STATE_INHIBIT = 1) ∧
    (∃ (s : State), s.rd secB Reg.SEC_STATE_STATE = 1 ∧ callReady s FnId.mgr ∧ s.fuses.debugCounter < 63 ∧ s.rd picB Reg.PIC_STATE_INHIBIT = 0) ∧
    (∃ (s : State) (b : List Byte), s.rd secB Reg.SEC_STATE_STATE = 1 ∧ ∃ r ∈ s.certCheck b, callReady s FnId.mgr ∧
      s.dramGet Who.mgr (s.arg FnId.mgr 0 + 2 ^ 32 * s.arg FnId.mgr 1) 160 = Got.ok b) ∧
    (∃ (s : State), s.rd secB Reg.SEC_STATE_STATE = 1 ∧ s.answers 0 = true ∧ s.awaiting = false) ∧
    (∃ (s : State), s.rd secB Reg.SEC_STATE_STATE = 1 ∧ s.sec.heldReqs ≠ [] ∧ s.clockHeld = false) :=
  ⟨⟨(st 0), (FnId.vf 0), by dsimp only [callReady]; decide +kernel⟩,
    ⟨(st 1), by dsimp only [callReady]; decide +kernel⟩,
    ⟨(st 0), by dsimp only [callReady]; decide +kernel⟩,
    ⟨(st 0), (List.replicate 160 0), by dsimp only [callReady]; decide +kernel⟩,
    ⟨(st 0), by decide +kernel⟩,
    ⟨(st 3), by decide +kernel⟩⟩
end DebugAccess

namespace AudioClock
def states : List State := [feeling, { feeling with plan := some { feelPlan with insts := [{ inst := 0, cls := 1, rings := 8, vectors := 8, flags := 1 }] } }, feeling.put calB Reg.CAL_STATUS_COMPILING 1, feeling.put calB Reg.CAL_STATUS_STATE 2, (feeling.setInstState 0 1).put calB Reg.ERR_ACCESS_ERR 1, feeling.setInstState 0 0, State.reset]
def st (k : Nat) : State := states.getD k State.reset
/-- What `Obligations.AudioClock` assumes is met, clause by clause. -/
theorem wit_AudioClock :
    (∃ (s : State), s.calRuns = true ∧ s.holders = []) ∧
    (∃ (s : State), s.rd calB Reg.CAL_STATUS_COMPILING = 1) ∧
    (∃ (s : State), s.rd calB Reg.CAL_STATUS_STATE = 2) ∧
    (∃ (s : State) (n : Fin 512), ∃ r ∈ s.p.nodeRec n.val, s.answers 0 = true ∧ s.awaiting = false ∧ s.mgrMayWrite r = false ∧
      s.rd calB Reg.ERR_ACCESS_ERR = 0) ∧
    (∃ (s : State) (n : Fin 512), ∃ r ∈ s.p.nodeRec n.val, s.answers 0 = true ∧ s.awaiting = false ∧ s.mgrMayWrite r = true) :=
  ⟨⟨(st 0), by decide +kernel⟩,
    ⟨(st 2), by decide +kernel⟩,
    ⟨(st 3), by decide +kernel⟩,
    ⟨(st 0), 0, by decide +kernel⟩,
    ⟨(st 5), 0, by decide +kernel⟩⟩
end AudioClock

namespace AudioCommands
def au (op : Nat) (more : Nat := 0) : State := ringAs feeling 8 4 1 { fetched := [dsc op .ready more] }
def states : List State := [au 1, au 2, au 3 (1 + 2 ^ 16 * 1 + 2 ^ 32 * 7), au 3 4, au 3 9, au 4 1, au 4 2, au 4 4, au 4 3, au 5 0xFF, au 5 0, au 5 1, au 5 2, au 5 9,
  feeling.modChimeOf 0 fun x => { x with playing := some { clip := 0, q := 8, idx := 1 }, waiting := some { clip := 1, q := 8, idx := 2 } }, (au 5 0).modChimeOf 0 fun x => { x with playing := some { clip := 1, q := 8, idx := 1 } }]
def st (k : Nat) : State := states.getD k State.reset
/-- What `Obligations.AudioCommands` assumes is met, clause by clause. -/
theorem wit_AudioCommands :
    (∃ (s : State) (q : Fin 256) (d : Desc), s.nextOp q.val 4 1 = some d) ∧
    (∃ (s : State) (q : Fin 256) (d : Desc), s.nextOp q.val 4 2 = some d) ∧
    (∃ (s : State) (q : Fin 256) (d : Desc), s.nextOp q.val 4 3 = some d ∧ s.ownNode q.val (d.f 32 2) = none) ∧
    (∃ (s : State) (q : Fin 256) (d : Desc), s.nextOp q.val 4 3 = some d ∧ ∃ r ∈ s.ownNode q.val (d.f 32 2), True) ∧
    (∃ (s : State) (q : Fin 256) (d : Desc), s.nextOp q.val 4 4 = some d ∧ s.ownNode q.val (d.f 32 2) = none) ∧
    (∃ (s : State) (q : Fin 256) (d : Desc), s.nextOp q.val 4 4 = some d ∧ ∃ r ∈ s.ownNode q.val (d.f 32 2), r.coefLen = 0) ∧
    (∃ (s : State) (q : Fin 256) (d : Desc), s.nextOp q.val 4 4 = some d ∧ ∃ r ∈ s.ownNode q.val (d.f 32 2), r.coefLen ≠ 0 ∧
      bitSet (d.b 34) 0 = false) ∧
    (∃ (s : State) (q : Fin 256) (d : Desc) (i : Fin 64), s.nextOp q.val 4 5 = some d ∧ s.ringInst q.val = some i.val ∧
      (s.chimeNode i.val 26).isSome = true ∧ d.b 32 = 255) ∧
    (∃ (s : State) (q : Fin 256) (d : Desc) (i : Fin 64), s.nextOp q.val 4 5 = some d ∧ s.ringInst q.val = some i.val ∧
      (s.chimeNode i.val 26).isSome = true ∧ d.b 32 ≠ 255 ∧ s.audio.clips.length ≤ d.b 32) ∧
    (∃ (s : State) (q : Fin 256) (d : Desc) (i : Fin 64), s.nextOp q.val 4 5 = some d ∧ s.ringInst q.val = some i.val ∧
      (s.chimeNode i.val 26).isSome = true ∧ d.b 32 < s.audio.clips.length ∧ d.b 32 ≠ 255) ∧
    (∃ (s : State) (i : Fin 64), ∃ c ∈ (s.chimeOf i.val).playing, (s.clip c.clip).loop ≠ 1 ∧ (s.chimeOf i.val).starting = none) :=
  ⟨⟨(st 0), 8, (dsc 1 (DPhase.ready) 0), by decide +kernel⟩,
    ⟨(st 1), 8, (dsc 2 (DPhase.ready) 0), by decide +kernel⟩,
    ⟨(st 3), 8, (dsc 3 (DPhase.ready) 4), by decide +kernel⟩,
    ⟨(st 2), 8, (dsc 3 (DPhase.ready) 30064836609), by decide +kernel⟩,
    ⟨(st 7), 8, (dsc 4 (DPhase.ready) 4), by decide +kernel⟩,
    ⟨(st 5), 8, (dsc 4 (DPhase.ready) 1), by decide +kernel⟩,
    ⟨(st 6), 8, (dsc 4 (DPhase.ready) 2), by decide +kernel⟩,
    ⟨(st 9), 8, (dsc 5 (DPhase.ready) 255), 0, by decide +kernel⟩,
    ⟨(st 12), 8, (dsc 5 (DPhase.ready) 2), 0, by decide +kernel⟩,
    ⟨(st 10), 8, (dsc 5 (DPhase.ready) 0), 0, by decide +kernel⟩,
    ⟨(st 14), 0, by decide +kernel⟩⟩
end AudioCommands

namespace AudioJacks
def hsf (t : Nat) : State := ((feeling.put (hsB 0) Reg.CAL_HS_STATUS_PRESENT 1).put (hsB 0) Reg.CAL_HS_STATUS_TYPE t).put (hsB 0) Reg.CAL_HS_BTN_A 20
def states : List State := [feeling.put calB Reg.CAL_PORT_STATUS_STATE 1, feeling.put calB Reg.CAL_PORT_STATUS_STATE 2, hsf 0, hsf 2, hsf 3, State.reset]
def st (k : Nat) : State := states.getD k State.reset
/-- What `Obligations.AudioJacks` assumes is met, clause by clause. -/
theorem wit_AudioJacks :
    (∃ (s : State) (p : Fin 6), ∃ r ∈ s.audio.portRec p.val, s.calPort p.val = 1 ∧ r.role = 1) ∧
    (∃ (s : State) (p : Fin 6), s.calPort p.val = 2) ∧
    (∃ (s : State), s.parkedTo 5 = false) ∧
    (∃ (s : State) (j : Fin 2), s.hsUsed j.val = true ∧ s.rd (hsB j.val) Reg.CAL_HS_STATUS_PRESENT = 1) ∧
    (∃ (s : State) (j : Fin 2), s.hsUsed j.val = true ∧ s.hasMic j.val = true) :=
  ⟨⟨(st 0), 0, by decide +kernel⟩,
    ⟨(st 1), 0, by decide +kernel⟩,
    ⟨(st 0), by decide +kernel⟩,
    ⟨(st 2), 0, by decide +kernel⟩,
    ⟨(st 3), 0, by decide +kernel⟩⟩
end AudioJacks

namespace TouchReports
def tf (st : Nat) (x : TouchX := {}) : State := let f (t : Nat) (s : State) : State := (s.put (tchPB t) Reg.TCHP_STATUS_STATE st).modTouch t fun _ => x
  f 1 (f 0 feeling)
def states : List State := [tf 1, tf 2, tf 3, tf 1 { contacts := [{ id := 1 }, { id := 5 }], lastGood := 7 }, tf 1 { seq := some 255 }, tf 2 { seq := some 3, badRun := 2 }]
def st (k : Nat) : State := states.getD k State.reset
/-- What `Obligations.TouchReports` assumes is met, clause by clause. -/
theorem wit_TouchReports :
    (∃ (s : State) (t : Fin 8), s.touchOn t.val = true ∧ s.parkedTo 7 = false ∧ s.rd (tchPB t.val) Reg.TCHP_STATUS_STATE ≠ 2 ∧
      (((s.plan <|> s.boot.retained).getD { }).touchRec t.val).isSome = true) ∧
    (∃ (s : State) (t : Fin 8), s.touchOn t.val = true ∧ (s.touchRec t.val).bus = 0 ∧ s.rd (tchPB t.val) Reg.TCHP_STATUS_STATE = 2) ∧
    (∃ (s : State) (t : Fin 8) (data : List Byte), s.touchOn t.val = true ∧ s.partDue (touchPart t.val) = none ∧ (s.touch t.val).failNext = 0 ∧
      reportGood (s.touchRec t.val) (s.touch t.val).seq data = true) ∧
    (∃ (s : State) (t : Fin 8), s.touchOn t.val = true ∧ (s.touch t.val).contacts ≠ []) :=
  ⟨⟨(st 0), 0, by decide +kernel⟩,
    ⟨(st 1), 0, by decide +kernel⟩,
    ⟨(st 0), 0, ([]), by decide +kernel⟩,
    ⟨(st 3), 0, by decide +kernel⟩⟩
end TouchReports

namespace HapticTriggers
def hf (st : Nat) (x : HapX := {}) (s : State := feeling) : State := (s.put (hapChB 0) Reg.HAPCH_STATUS_STATE st).modHapOf 0 fun _ => x
def states : List State := [hf 0, hf 2, hf 3, hf 6, hf 2 {} (feeling.setInstState 0 0), hf 2 {} (feeling.put snB Reg.SN_STATUS_STOPPED 1)]
def st (k : Nat) : State := states.getD k State.reset
/-- What `Obligations.HapticTriggers` assumes is met, clause by clause. -/
theorem wit_HapticTriggers :
    (∃ (s : State) (i : Fin 64) (v : Word), s.answers (fnOfInst i.val) = true ∧ ∀ r ∈ s.p.hapRec (bitsOf (BitVec.toNat v) 8 3), r.owner ≠ i.val) ∧
    (∃ (s : State) (a : Fin 8), s.answers 0 = true ∧ s.awaiting = false ∧ s.hapState a.val ≠ hapReadySt ∧ s.hapState a.val ≠ hapDriving ∧
      s.hapState a.val ≠ hapBraking) ∧
    (∃ (s : State) (a : Fin 8) (v : Word), s.answers 0 = true ∧ s.awaiting = false ∧
      ∃ r ∈ s.p.slotRec (bitsOf (BitVec.toNat v) 0 7), s.hapState a.val = hapReadySt ∧ s.hapOwnerReady a.val = true ∧ s.hapMuted a.val = false) :=
  ⟨⟨(st 0), 0, (0x00000300#32), by decide +kernel⟩,
    ⟨(st 0), 0, by decide +kernel⟩,
    ⟨(st 1), 0, (0x00000001#32), by decide +kernel⟩⟩
end HapticTriggers

namespace HapticHealth
def hf (st : Nat) (x : HapX := {}) (s : State := feeling) : State := (s.put (hapChB 0) Reg.HAPCH_STATUS_STATE st).modHapOf 0 fun _ => x
def states : List State := (List.range 8).map (fun k => hf k) ++ [hf 3 { waiting := some 1 }, hf 2 { injected := some false }, (hf 6).put (hapChB 0) Reg.HAPCH_STATUS_RETRIES 3, (hf 6).put snB Reg.SN_STATUS_STOPPED 1]
def st (k : Nat) : State := states.getD k State.reset
/-- What `Obligations.HapticHealth` assumes is met, clause by clause. -/
theorem wit_HapticHealth :
    (∃ (s : State) (a : Fin 8), s.answers 0 = true ∧ s.awaiting = false ∧ s.hapState a.val = hapReadySt) ∧
    (∃ (s : State) (a : Fin 8), s.answers 0 = true ∧ s.awaiting = false ∧ s.hapState a.val = hapFaulted) ∧
    (∃ (s : State) (a : Fin 8), s.answers 0 = true ∧ s.awaiting = false ∧ s.hapState a.val ≠ hapDriving ∧ s.hapState a.val ≠ hapBraking ∧
      (s.hapOf a.val).waiting = none) ∧
    (∃ (s : State) (a : Fin 8), s.answers 0 = true ∧ s.awaiting = false ∧ s.hapState a.val = hapDriving ∧ (s.hapOf a.val).waiting = none) ∧
    (∃ (s : State) (a : Fin 8) (r : BitVec 16), s.hapState a.val = hapCalibrating ∧ resistanceCause (s.hapRecOf a.val) r.toNat = 0) ∧
    (∃ (s : State) (a : Fin 8) (r : BitVec 16), s.hapState a.val = hapCalibrating ∧ resistanceCause (s.hapRecOf a.val) r.toNat ≠ 0) ∧
    (∃ (s : State) (a : Fin 8), s.hapState a.val = hapTesting) ∧
    (∃ (s : State) (a : Fin 8) (r : BitVec 16), s.hapState a.val = hapReadySt ∧ (s.hapOf a.val).injected = none ∧
      resistanceCause (s.hapRecOf a.val) r.toNat = 0) ∧
    (∃ (s : State) (a : Fin 8) (r : BitVec 16), s.hapState a.val = hapReadySt ∧ (s.hapOf a.val).injected = none ∧
      ¬resistanceCause (s.hapRecOf a.val) r.toNat = 0) ∧
    (∃ (s : State) (a : Fin 8), s.hapActive a.val = true) ∧
    (∃ (s : State) (a : Fin 8) (ma : BitVec 16), s.hapState a.val = hapDriving ∧ (s.hapRecOf a.val).iMaxMa < ma.toInt.natAbs) ∧
    (∃ (s : State) (a : Fin 8), s.hapActive a.val = false) ∧
    (∃ (s : State) (a : Fin 8), s.hapState a.val = hapFaulted ∧ s.rd (hapChB a.val) Reg.HAPCH_STATUS_RETRIES < 3) :=
  ⟨⟨(st 2), 0, by decide +kernel⟩,
    ⟨(st 6), 0, by decide +kernel⟩,
    ⟨(st 0), 0, by decide +kernel⟩,
    ⟨(st 3), 0, by decide +kernel⟩,
    ⟨(st 1), 0, (0x0002#16), by decide +kernel⟩,
    ⟨(st 1), 0, (0x0000#16), by decide +kernel⟩,
    ⟨(st 5), 0, by decide +kernel⟩,
    ⟨(st 2), 0, (0x0002#16), by decide +kernel⟩,
    ⟨(st 2), 0, (0x0000#16), by decide +kernel⟩,
    ⟨(st 1), 0, by decide +kernel⟩,
    ⟨(st 3), 0, (0x7fff#16), by decide +kernel⟩,
    ⟨(st 0), 0, by decide +kernel⟩,
    ⟨(st 6), 0, by decide +kernel⟩⟩
end HapticHealth

namespace SafetyRequests
def states : List State := [feeling, feeling.put snB Reg.SN_STATUS_STOPPED 1, ((feeling.put snB Reg.SN_STATUS_STOPPED 1).put snB Reg.SN_PERSIST_PERSIST 4).put (instBase 0) Reg.ERR_ACCESS_ERR 1, { feeling.setFn 1 { ready := true } with plan := some { feelPlan with safety := feelPlan.safety }, fuses := { feeling.fuses with laneMode := 1 } }]
def st (k : Nat) : State := states.getD k State.reset
/-- What `Obligations.SafetyRequests` assumes is met, clause by clause. -/
theorem wit_SafetyRequests :
    (∃ (s : State) (i : Fin 64), s.answers (fnOfInst i.val) = true ∧ s.awaiting = false ∧ s.rd snB Reg.SN_STATUS_STOPPED ≤ 1 ∧ s.p.cls i.val = 1 ∧
      s.rd snB Reg.SN_PERSIST_PERSIST = 0) ∧
    (∃ (s : State) (i : Fin 64), s.answers (fnOfInst i.val) = true ∧ s.awaiting = false ∧ s.rd snB Reg.SN_STATUS_STOPPED ≤ 1 ∧ s.p.cls i.val = 1 ∧
      s.rd snB Reg.SN_PERSIST_PERSIST ≠ 0) ∧
    (∃ (s : State) (i : Fin 64) (v : Word), s.answers (fnOfInst i.val) = true ∧ s.awaiting = false ∧ s.rd snB Reg.SN_STATUS_STOPPED ≤ 1 ∧
      s.p.cls i.val = 1 ∧ v ≠ 1 ∧ v ≠ 2) ∧
    (∃ (s : State) (i : Fin 64), s.answers (fnOfInst i.val) = true ∧ s.awaiting = false ∧ s.rd snB Reg.SN_STATUS_STOPPED ≤ 1 ∧ s.p.cls i.val = 1 ∧
      s.rd (instBase i.val) Reg.ERR_ACCESS_ERR = 0) ∧
    (∃ (s : State) (i : Fin 64), s.answers (fnOfInst i.val) = true ∧ s.awaiting = false ∧ s.rd snB Reg.SN_STATUS_STOPPED ≤ 1 ∧ s.p.cls i.val ≠ 1) ∧
    (∃ (s : State) (i : Fin 64), s.answers (fnOfInst i.val) = true ∧ s.awaiting = false ∧ s.rd snB Reg.SN_STATUS_STOPPED ≤ 1 ∧ s.answers 1 = true) :=
  ⟨⟨(st 0), 0, by decide +kernel⟩,
    ⟨(st 2), 0, by decide +kernel⟩,
    ⟨(st 0), 0, (0x00000000#32), by decide +kernel⟩,
    ⟨(st 0), 0, by decide +kernel⟩,
    ⟨(st 0), 3, by decide +kernel⟩,
    ⟨(st 3), 0, by decide +kernel⟩⟩
end SafetyRequests

namespace StopsAndReleases
def states : List State := [feeling, feeling.put snB Reg.SN_STATUS_STOPPED 1, ((feeling.put snB Reg.SN_STATUS_STOPPED 1).put snB Reg.SN_PERSIST_PERSIST 4).put (instBase 0) Reg.ERR_ACCESS_ERR 1, feeling.setFn 1 { ready := true }]
def st (k : Nat) : State := states.getD k State.reset
/-- What `Obligations.StopsAndReleases` assumes is met, clause by clause. -/
theorem wit_StopsAndReleases :
    (∃ (s : State), s.answers 0 = true ∧ s.awaiting = false ∧ (fun t => t.rd snB Reg.SN_STATUS_STOPPED) s = 0) ∧
    (∃ (s : State), s.answers 0 = true ∧ s.awaiting = false ∧ s.rd snB Reg.SN_PERSIST_PERSIST = 0 ∧ (fun t => t.rd snB Reg.SN_STATUS_STOPPED) s = 1) ∧
    (∃ (s : State), s.answers 0 = true ∧ s.awaiting = false ∧ s.rd snB Reg.SN_PERSIST_PERSIST ≠ 0) ∧
    (∃ (s : State) (i : Fin 64), s.answers (fnOfInst i.val) = true ∧ s.p.cls i.val = 1 ∧ s.rd snB Reg.SN_PERSIST_PERSIST = 0 ∧
      (fun t => t.rd snB Reg.SN_STATUS_STOPPED) s = 1) ∧
    (∃ (s : State) (i : Fin 64), s.answers (fnOfInst i.val) = true ∧ s.p.cls i.val = 1 ∧ s.rd snB Reg.SN_PERSIST_PERSIST ≠ 0) :=
  ⟨⟨(st 0), by decide +kernel⟩,
    ⟨(st 1), by decide +kernel⟩,
    ⟨(st 2), by decide +kernel⟩,
    ⟨(st 1), 0, by decide +kernel⟩,
    ⟨(st 2), 0, by decide +kernel⟩⟩
end StopsAndReleases

namespace FaultsRecorded
def states : List State := [up, { up with boot := { up.boot with rmDown := true } , sn := { up.sn with persist := [(7, 1), (7, 3), (4, 2)] } }, feeling, (up.put snB Reg.SN_FAULT_FLAGS_FLAGS 0xFFFF).put snB Reg.SN_PERSIST_PERSIST 0x80]
def st (k : Nat) : State := states.getD k State.reset
/-- What `Obligations.FaultsRecorded` assumes is met, clause by clause. -/
theorem wit_FaultsRecorded :
    (persistent srcClock = true) ∧
    (persistent srcVoltage = true) ∧
    (persistent srcFaultPin = true) ∧
    (persistent srcRmLockstep = true) ∧
    (∃ (s : State), s.boot.rmDown = true ∧ s.boot.staged = []) ∧
    (∃ (s : State), s.sn.armed = [] ∧ persistent srcConfig = true) ∧
    (∃ (s : State) (v : Word), s.answers 0 = true ∧ s.awaiting = false ∧ s.rd snB Reg.SN_FAULT_FLAGS_FLAGS < 2 ^ 27 ∧
      s.rd snB Reg.SN_PERSIST_PERSIST < 2 ^ 27 ∧ injectable.contains (bitsOf (BitVec.toNat v) 0 5) = true ∧ bitSet (BitVec.toNat v) 31 = true) ∧
    (∃ (s : State) (v : Word), s.answers 0 = true ∧ s.awaiting = false ∧ s.rd snB Reg.SN_FAULT_FLAGS_FLAGS < 2 ^ 27 ∧
      s.rd snB Reg.SN_PERSIST_PERSIST < 2 ^ 27 ∧ injectable.contains (bitsOf (BitVec.toNat v) 0 5) = false ∧ s.rd snB Reg.ERR_ACCESS_ERR = 0 ∧
      bitSet (BitVec.toNat v) 31 = false) :=
  ⟨by decide +kernel,
    by decide +kernel,
    by decide +kernel,
    by decide +kernel,
    ⟨(st 1), by decide +kernel⟩,
    ⟨(st 0), by decide +kernel⟩,
    ⟨(st 0), (0x80000001#32), by decide +kernel⟩,
    ⟨(st 0), (0x00000000#32), by decide +kernel⟩⟩
end FaultsRecorded

namespace CheckUnits
def ckPlan : Plan := { showPlan with cvus := [{ unit := 0, owner := 0, snoop := 1, arg := 0, width := 32, poly := 0x04C11DB7, init := 0xFFFFFFFF, xorout := 0xFFFFFFFF }, { unit := 1, snoop := 2, arg := 0, width := 16, poly := 0x1021, flags := 64 }] }
def ck (x : CvuX) : State := let s := { showing 2 with plan := some ckPlan }
  ((s.put (cvuB 0) Reg.CVU_STATUS_STATE cvuActive).put (cvuB 1) Reg.CVU_STATUS_STATE cvuActive).modUnit 0 fun _ => x
def states : List State := [ck {}, ck { running := true, v := 0x1234 }, ck { running := true, v := 0xFFFFFFFF, expects := [{ frame := 5, value := 0, q := 8, idx := 3 }] }, ck { running := true, v := 0x1234, expects := [{ frame := 5, value := 0, q := 8, idx := 3 }] }, (ck { running := true }).modUnit 1 fun x => { x with running := true }]
def st (k : Nat) : State := states.getD k State.reset
/-- What `Obligations.CheckUnits` assumes is met, clause by clause. -/
theorem wit_CheckUnits :
    (∃ (s : State) (u : Fin 64) (seq : BitVec 64) (e : Expect), (s.unit u.val).running = true ∧ s.expectMode u.val = true ∧
      (s.unit u.val).expects = [e] ∧ e.frame = seq.toNat ∧ (s.unit u.val).invert = none ∧ (s.unit u.val).disagree = none ∧
      crcEnd (s.cvuOf u.val).width (bitSet (s.cvuOf u.val).flags 1) (s.cvuOf u.val).xorout (s.unit u.val).v = e.value % 2 ^ (s.cvuOf u.val).width) ∧
    (∃ (s : State) (u : Fin 64) (seq : BitVec 64) (e : Expect), (s.unit u.val).running = true ∧ s.expectMode u.val = true ∧
      (s.unit u.val).expects = [e] ∧ e.frame = seq.toNat ∧ (s.unit u.val).invert = none ∧ (s.unit u.val).disagree = none ∧
      crcEnd (s.cvuOf u.val).width (bitSet (s.cvuOf u.val).flags 1) (s.cvuOf u.val).xorout (s.unit u.val).v ≠ e.value % 2 ^ (s.cvuOf u.val).width) ∧
    (∃ (s : State) (u : Fin 64), (s.unit u.val).running = false) ∧
    (∃ (s : State) (u : Fin 64) (t : BitVec 64), ∃ k ∈ s.unitHead u.val, s.unitState u.val = cvuActive ∧ s.expectMode u.val = true ∧
      (s.unit u.val).lastAt + (s.rd (headBase k) Reg.HEAD_PERIOD_NS + 1000000) ≤ t.toNat) :=
  ⟨⟨(st 2), 0, (0x0000000000000005#64), ({ frame := 5, value := 0, q := 8, idx := 3 }), by decide +kernel⟩,
    ⟨(st 3), 0, (0x0000000000000005#64), ({ frame := 5, value := 0, q := 8, idx := 3 }), by decide +kernel⟩,
    ⟨(st 0), 0, by decide +kernel⟩,
    ⟨(st 0), 0, (0x00000000001e8480#64), by decide +kernel⟩⟩
end CheckUnits

namespace SleepRequests
def states : List State :=
  let neg (k : Nat) : State := (up.put picB Reg.PIC_STATE_ENTRY 1).modPwr fun x => { x with parked := k, target := some 2, inARow := k, waking := 0 }
  let doze := { inPower 1 with plan := some { wPlan with power := { wakeMask := 0x7F } } }
  let stb := { inPower 2 with plan := some { wPlan with power := { wakeMask := 0x7F } } }
  let wait := (up.put picB Reg.PIC_STATE_ENTRY 3).modPwr fun x => { x with retryAt := 5000, target := some 3, inARow := 9 }
  let done (t w : Nat) := (up.put picB Reg.PIC_STATE_ENTRY 2).modPwr fun x => { x with target := some t, heldWake := w, parked := 10 }
  [up, doze, stb, { stb with now := 123456789 }.put picB Reg.PIC_ALARM_MS 1, (inPower 3), { (inPower 3) with now := 77 }.put picB Reg.PIC_ALARM_MS 0xFFFFFFFF,
   { up with plan := some { wPlan with power := { dozeMs := 1 } } },
   (up.put picB Reg.PIC_CFG_AUTO_STANDBY 1).setPortX .a { cutOff := true },
   ((inPower 2).put picB Reg.PIC_CFG_DEEP_S 65535), neg 0, { neg 1 with boot := { rmDown := true } }, neg 1, neg 5, neg 6, neg 9, { neg 9 with boot := { rmDown := true }},
   wait, { wait with plan := some wPlan }, done 2 0, done 3 0, done 2 14, done 3 5, done 2 15,
   { stb with pwr := { parked := 10, inARow := 99 } }, (doze.put picB Reg.PIC_STATE_ENTRY 1).modPwr fun x => { x with target := some 3, parked := 4 }]
def st (k : Nat) : State := states.getD k State.reset
/-- What `Obligations.SleepRequests` assumes is met, clause by clause. -/
theorem wit_SleepRequests :
    (∃ (s : State), s.answers 0 = true ∧ s.powerState = 0 ∧ s.powerReady = true) ∧
    (∃ (s : State), s.answers 0 = true ∧ (s.powerReady = true ∧ s.entryPhase = 0 ∧ s.pwr.waking = 0) ∧ s.powerState ≤ 1) ∧
    (∃ (s : State), s.answers 0 = true ∧ (s.entryPhase = 1 ∨ s.entryPhase = 3)) ∧
    (∃ (s : State), s.answers 0 = true ∧ (s.powerReady = true ∧ s.entryPhase = 0 ∧ s.pwr.waking = 0) ∧ s.powerState = 1) ∧
    (∃ (s : State), s.powerState = 0 ∧ s.powerReady = true ∧ s.powerRec.dozeMs ≠ 0 ∧ (∀ (h : Fin 8), s.link h.val ≠ linkActive ∧
      s.link h.val ≠ linkSelfRefresh) ∧ ∀ (c : Fin 4), s.capState c.val ≠ capRunning) ∧
    (∃ (s : State), (s.powerReady = true ∧ s.entryPhase = 0 ∧ s.pwr.waking = 0) ∧ s.powerState ≤ 1 ∧ s.rd picB Reg.PIC_CFG_AUTO_STANDBY = 1 ∧
      s.portList.all s.portAway = true) ∧
    (∃ (s : State), (s.powerReady = true ∧ s.entryPhase = 0 ∧ s.pwr.waking = 0) ∧ s.powerState = 2 ∧ s.rd picB Reg.PIC_CFG_DEEP_S ≠ 0) ∧
    (∃ (s : State), s.entryPhase = 1 ∧ s.pwr.parked = 1 ∧ s.rmBusy = true) ∧
    (∃ (s : State), s.entryPhase = 1 ∧ s.pwr.parked = 1 ∧ s.rmBusy = false) ∧
    (∃ (s : State), s.entryPhase = 1 ∧ s.pwr.parked = 9) ∧
    (∃ (s : State), s.entryPhase = 1 ∧ s.pwr.parked < 7) ∧
    (∃ (s : State), s.entryPhase = 3) ∧
    (∃ (s : State), ∃ g ∈ s.pwr.target, s.entryPhase = 2 ∧ (g = 2 ∨ g = 3)) ∧
    (∃ (s : State) (n : Fin 4), (s.powerState = 2 ∨ s.powerState = 3) ∧ (s.powerReady = true ∧ s.entryPhase = 0 ∧ s.pwr.waking = 0) ∧
      s.pwr.off = false ∧ s.wakeEnabled (n.val + 1) = true) ∧
    (∃ (s : State), (s.powerState = 2 ∨ s.powerState = 3) ∧ (s.powerReady = true ∧ s.entryPhase = 0 ∧ s.pwr.waking = 0) ∧ s.pwr.off = false ∧
      s.wakeEnabled 5 = true) ∧
    (∃ (s : State), (s.powerState = 2 ∨ s.powerState = 3) ∧ (s.powerReady = true ∧ s.entryPhase = 0 ∧ s.pwr.waking = 0) ∧ s.pwr.off = false ∧
      s.rd picB Reg.PIC_ALARM_MS ≠ 0) ∧
    (∃ (s : State) (n : Fin 4), s.wakeEnabled (n.val + 1) = false) ∧
    (∃ (s : State), s.wakeEnabled 5 = false) :=
  ⟨⟨(st 0), by decide +kernel⟩,
    ⟨(st 0), by decide +kernel⟩,
    ⟨(st 9), by decide +kernel⟩,
    ⟨(st 1), by decide +kernel⟩,
    ⟨(st 6), by decide +kernel⟩,
    ⟨(st 7), by decide +kernel⟩,
    ⟨(st 8), by decide +kernel⟩,
    ⟨(st 10), by decide +kernel⟩,
    ⟨(st 11), by decide +kernel⟩,
    ⟨(st 14), by decide +kernel⟩,
    ⟨(st 9), by decide +kernel⟩,
    ⟨(st 16), by decide +kernel⟩,
    ⟨(st 18), by decide +kernel⟩,
    ⟨(st 2), 0, by decide +kernel⟩,
    ⟨(st 2), by decide +kernel⟩,
    ⟨(st 3), by decide +kernel⟩,
    ⟨(st 0), 0, by decide +kernel⟩,
    ⟨(st 0), by decide +kernel⟩⟩
end SleepRequests

namespace WakeSteps
def states : List State :=
  let w (k f e p : Nat) := (inPower f).modPwr fun x => { x with waking := k, wakeFrom := f, enables := e, pgood := p }
  let wk (r : Bool) (f : Nat) : State := { w 4 f 0x3F 0x3F with boot := { retained := if r then some wPlan else none } }
  [w 2 2 0x0D 0x0D, w 2 3 0x3F 0x3F, w 2 3 0x08 0x08, (w 2 3 0x08 0x08).modPwr fun x => { x with oscTries := 1 }, (w 2 2 0x3F 0x3F).modPwr fun x => { x with oscTries := 2 },
   (w 3 2 0x0F 0x0D).modPwr fun x => { x with sequencing := true }, (w 3 3 0x3F 0x1F).modPwr fun x => { x with sequencing := true },
   (w 3 3 0x3F 0x1F).modPwr fun x => { x with sequencing := true, railTries := 3 }, (w 3 2 0x3F 0x1E).modPwr fun x => { x with sequencing := true, railTries := 9 },
   (w 3 2 0x3F 0x1E).modPwr fun x => { x with railWait := true }, (w 8 2 0x3F 0x3F).modPwr fun x => { x with railWait := true }, (w 3 5 0x3F 0x3F).modPwr fun x => { x with railWait := true },
   w 8 2 0x3F 0x3F, w 8 3 0x0C 0x0C, w 8 5 0 0, w 0 0 0x3F 0x3F, w 0 2 0x0D 0x0D, { (w 0 3 0x08 0x08) with dram := [⟨5, 7⟩] }, { (w 0 0 0x3F 0x3F) with dram := [⟨5, 7⟩], plan := some wPlan },
   wk false 2, wk true 3, wk true 2, wk false 3, (wk true 2).put dmcB Reg.DMC_STATUS_STATE 4, (wk true 2).modPwr fun x => { x with lastFail := true, parked := 10, aonLog := [{ kind := 3 }] }]
def st (k : Nat) : State := states.getD k State.reset
/-- What `Obligations.WakeSteps` assumes is met, clause by clause. -/
theorem wit_WakeSteps :
    (∃ (s : State), s.pwr.waking = 2 ∧ s.pwr.oscTries = 0) ∧
    (∃ (s : State), s.pwr.waking = 2 ∧ s.pwr.oscTries ≠ 0 ∧ s.pwr.nextRail ≠ none) ∧
    (∃ (s : State), s.pwr.waking = 2 ∧ s.pwr.oscTries ≠ 0 ∧ s.pwr.nextRail = none) ∧
    (∃ (s : State), s.pwr.sequencing = false) ∧
    (∃ (s : State) (n : Fin 6), s.pwr.sequencing = true ∧ ({ s.pwr with pgood := setBit s.pwr.pgood n.val true }).nextRail = none ∧ s.pwr.waking = 3) ∧
    (∃ (s : State) (n : Fin 6), s.pwr.sequencing = true ∧ bitSet s.pwr.enables n.val = true ∧ bitSet s.pwr.pgood n.val = false ∧ s.pwr.railTries < 3) ∧
    (∃ (s : State) (n : Fin 6), s.pwr.sequencing = true ∧ bitSet s.pwr.enables n.val = true ∧ bitSet s.pwr.pgood n.val = false ∧ 3 ≤ s.pwr.railTries) ∧
    (∃ (s : State), s.pwr.railWait = true ∧ s.pwr.nextRail ≠ none) ∧
    (∃ (s : State), s.pwr.waking = 8) ∧
    (∃ (s : State) (n : Fin 6), bitSet s.pwr.enables n.val = true ∧ bitSet s.pwr.pgood n.val = true ∧ n.val = 3) ∧
    (∃ (s : State), s.pwr.waking = 4 ∧ s.pwr.wakeFrom = 2) ∧
    (∃ (s : State), s.pwr.waking = 4 ∧ s.pwr.wakeFrom = 3 ∧ s.boot.retained.isSome = true) :=
  ⟨⟨(st 0), by decide +kernel⟩,
    ⟨(st 3), by decide +kernel⟩,
    ⟨(st 4), by decide +kernel⟩,
    ⟨(st 0), by decide +kernel⟩,
    ⟨(st 6), 5, by decide +kernel⟩,
    ⟨(st 5), 1, by decide +kernel⟩,
    ⟨(st 7), 5, by decide +kernel⟩,
    ⟨(st 9), by decide +kernel⟩,
    ⟨(st 10), by decide +kernel⟩,
    ⟨(st 0), 3, by decide +kernel⟩,
    ⟨(st 19), by decide +kernel⟩,
    ⟨(st 20), by decide +kernel⟩⟩
end WakeSteps

namespace InhibitAndBellows
def states : List State :=
  let inh := (up.put picB Reg.PIC_STATE_INHIBIT 1).put logB Reg.LOG_STATUS_INHIBITED 1
  [State.reset, up, inh, inh.modPwr fun x => { x with warn := true }, inh.modPwr fun x => { x with inhibitEnding := true, aonLow := true, warn := true },
   inPower 2, inPower 4, { planned with now := 99, pwr := { replanning := true, poweredMs := 86400000, planMs := 5, gGfx := 7, gCore := 250 } },
   { planned with pwr := { poweredMs := 86400000 }, fuses := { gfxSens := 33, coreSens := 50, coreMv := 900 } },
   { up with rpl := { phase := .storing 2, op := 3 }, fwp := { phase := .storing 6, op := 3 } },
   (up.put snB Reg.SN_STOP_MASK_MASK 0xFFFFFFF), { up with pwr := { replanning := true }, boot := { rmDown := true} , fuses := { gfxSens := 33, coreSens := 50, coreMv := 900 }},
   { up with pwr := { waking := 2, wakeFrom := 2, warn := true}}]
def st (k : Nat) : State := states.getD k State.reset
/-- What `Obligations.InhibitAndBellows` assumes is met, clause by clause. -/
theorem wit_InhibitAndBellows :
    (∃ (s : State), s.pwr.off = false ∧ s.inhibited = false ∧ s.pwr.warn = false ∧ s.powerState ≤ 1) ∧
    (∃ (s : State), s.pwr.off = false ∧ s.inhibited = false ∧ s.pwr.aonLow = false) ∧
    (∃ (s : State), s.inhibited = true ∧ s.pwr.aonLow = false) ∧
    (∃ (s : State), s.inhibited = true ∧ s.pwr.warn = false) ∧
    (∃ (s : State), s.pwr.inhibitEnding = true) ∧
    (∃ (s : State), s.pwr.inhibitEnding = false) ∧
    (persistent srcTemp = true) ∧
    (∃ (s : State), 1 < s.powerState) ∧
    (∃ (s : State), s.answers 0 = true ∧ s.awaiting = false) ∧
    (∃ (s : State), s.pwr.planMs + 86400000 ≤ s.pwr.poweredMs ∧ s.entryPhase ≠ 1) ∧
    (∃ (s : State), s.pwr.poweredMs < s.pwr.planMs + 86400000) ∧
    (∃ (s : State), s.pwr.replanning = true) ∧
    (∃ (s : State), s.pwr.replanning = false) :=
  ⟨⟨(st 0), by decide +kernel⟩,
    ⟨(st 0), by decide +kernel⟩,
    ⟨(st 2), by decide +kernel⟩,
    ⟨(st 2), by decide +kernel⟩,
    ⟨(st 4), by decide +kernel⟩,
    ⟨(st 0), by decide +kernel⟩,
    by decide +kernel,
    ⟨(st 5), by decide +kernel⟩,
    ⟨(st 1), by decide +kernel⟩,
    ⟨(st 8), by decide +kernel⟩,
    ⟨(st 0), by decide +kernel⟩,
    ⟨(st 7), by decide +kernel⟩,
    ⟨(st 0), by decide +kernel⟩⟩
end InhibitAndBellows

namespace BootSteps
def states : List State :=
  let b (n : Nat) : State := State.reset.put devB Reg.DEV_BOOT_STATUS_STEP n
  [State.reset, b 1, b 4, b 6, b 7, b 8, b 9, (b 7).modPwr fun x => { x with replanning := true }, (b 4).put devB Reg.DEV_BOOT_FAIL_STEP 3, { b 4 with plan := some wPlan },
   { b 7 with boot := { rmDown := true } }, (b 7).put snB Reg.SN_STOP_MASK_MASK 0xFFFFFFF]
def st (k : Nat) : State := states.getD k State.reset
/-- What `Obligations.BootSteps` assumes is met, clause by clause. -/
theorem wit_BootSteps :
    (∃ (s : State), s.booting = true ∧ s.bootStep = 1) ∧
    (∃ (s : State), s.booting = true ∧ s.bootStep = 4 ∧ s.rd devB Reg.DEV_BOOT_FAIL_STEP = 0) ∧
    (∃ (s : State), s.booting = true ∧ s.bootStep = 6 ∧ s.copyReason fwSlots.front ≠ 0 ∧ s.copyReason fwSlots.back ≠ 0 ∧
      s.rd devB Reg.DEV_BOOT_FAIL_STEP = 0) ∧
    (∃ (s : State), s.booting = true ∧ s.bootStep = 7 ∧ s.pwr.replanning = false) ∧
    (∃ (s : State), s.booting = true ∧ s.bootStep = 7 ∧ s.rd devB Reg.DEV_BOOT_FAIL_STEP = 0) ∧
    (∃ (s : State), s.booting = true ∧ s.bootStep = 7 ∧ persistent srcShader = true) ∧
    (∃ (s : State), s.booting = true ∧ s.bootStep = 8 ∧ (s.slotVerdict rplSlots.front).reason ≠ 0 ∧
      (((s.put rplB Reg.RPL_SLOT_STATUS_A_REASON (s.slotVerdict rplSlots.front).reason).put rplB Reg.RPL_SLOT_STATUS_A_SUBCODE (s.slotVerdict rplSlots.front).sub).slotVerdict rplSlots.back).reason ≠ 0 ∧
      s.rd devB Reg.DEV_BOOT_FAIL_STEP = 0) ∧
    (∃ (s : State), s.booting = true ∧ s.bootStep ≠ 7) :=
  ⟨⟨(st 0), by decide +kernel⟩,
    ⟨(st 2), by decide +kernel⟩,
    ⟨(st 3), by decide +kernel⟩,
    ⟨(st 4), by decide +kernel⟩,
    ⟨(st 4), by decide +kernel⟩,
    ⟨(st 4), by decide +kernel⟩,
    ⟨(st 5), by decide +kernel⟩,
    ⟨(st 0), by decide +kernel⟩⟩
end BootSteps

namespace RingplanPushes
def states : List State :=
  let on := { up with plan := some wPlan }
  let ph (p : PushPhase) (op r : Nat) : State := { on with rpl := { phase := p, op := op, reason := r, image := [1, 2, 3] } }
  let short (s : State) : State := (s.flashProgram (rplSlots.back + 8) (natLE 4 64)).flashProgram (rplSlots.front + 8) (natLE 4 64)
  let fl := (ph .check 5 0).modPwr id
  [up, on, on.put rplB Reg.RPL_PUSH_STATUS_BUSY 1, (on.put rplB Reg.RPL_PUSH_LEN_LEN 1936), (on.put rplB Reg.RPL_PUSH_LEN_LEN 16773120), (on.put rplB Reg.RPL_PUSH_LEN_LEN 16773121), 
   on.put devB Reg.DEV_BOOT_STATUS_STATE 2, { on with boot := { rmDown := true } }, ph .dma 1 0, ph .dma 4 0, ph .check 1 0, (ph .check 2 9).put rplB Reg.RPL_RESULT_REASON 9, (ph .check 4 255).put rplB Reg.RPL_RESULT_REASON 255,
   ph .check 3 0, (ph .check 3 0).put picB Reg.PIC_STATE_INHIBIT 1, fl, fl.put picB Reg.PIC_STATE_INHIBIT 1, { fl with plan := none },
   { fl with plan := some { wPlan with version := 4294967295 } }.flashProgram (rplSlots.front + rplSlots.len) (sealOf rplSlots.code 0 (leAt [] 0x34 4)),
   { ph .applying 2 0 with boot := { parts := 3 } }, ph (.storing 9) 3 0, ph (.storing 1) 3 0, ph (.storing 2) 3 0, ph (.storing 4) 3 0, ph (.storing 6) 4 0, ph (.storing 8) 3 0, short (ph (.storing 3) 3 0), short (ph (.storing 7) 4 0)]
def st (k : Nat) : State := states.getD k State.reset
/-- What `Obligations.RingplanPushes` assumes is met, clause by clause. -/
theorem wit_RingplanPushes :
    (∃ (s : State), s.answers 0 = true ∧ s.rd rplB Reg.RPL_PUSH_STATUS_BUSY = 1) ∧
    (∃ (s : State), s.answers 0 = true ∧ s.rd rplB Reg.RPL_PUSH_STATUS_BUSY = 0 ∧ s.takesPushes = false) ∧
    (∃ (s : State), s.answers 0 = true ∧ s.rd rplB Reg.RPL_PUSH_STATUS_BUSY = 0 ∧ s.takesPushes = true ∧ 1 ≠ 5 ∧
      (s.rd rplB Reg.RPL_PUSH_LEN_LEN < 1936 ∨ 16773120 < s.rd rplB Reg.RPL_PUSH_LEN_LEN)) ∧
    (∃ (s : State), s.answers 0 = true ∧ s.rd rplB Reg.RPL_PUSH_STATUS_BUSY = 0 ∧ s.takesPushes = true ∧ 1 ≠ 5 ∧
      1936 ≤ s.rd rplB Reg.RPL_PUSH_LEN_LEN ∧ s.rd rplB Reg.RPL_PUSH_LEN_LEN ≤ 16773120) ∧
    (∃ (s : State), s.answers 0 = true ∧ s.rd rplB Reg.RPL_PUSH_STATUS_BUSY = 0 ∧ s.takesPushes = true ∧ 2 ≠ 5 ∧
      (s.rd rplB Reg.RPL_PUSH_LEN_LEN < 1936 ∨ 16773120 < s.rd rplB Reg.RPL_PUSH_LEN_LEN)) ∧
    (∃ (s : State), s.answers 0 = true ∧ s.rd rplB Reg.RPL_PUSH_STATUS_BUSY = 0 ∧ s.takesPushes = true ∧ 2 ≠ 5 ∧
      1936 ≤ s.rd rplB Reg.RPL_PUSH_LEN_LEN ∧ s.rd rplB Reg.RPL_PUSH_LEN_LEN ≤ 16773120) ∧
    (∃ (s : State), s.answers 0 = true ∧ s.rd rplB Reg.RPL_PUSH_STATUS_BUSY = 0 ∧ s.takesPushes = true ∧ 3 ≠ 5 ∧
      (s.rd rplB Reg.RPL_PUSH_LEN_LEN < 1936 ∨ 16773120 < s.rd rplB Reg.RPL_PUSH_LEN_LEN)) ∧
    (∃ (s : State), s.answers 0 = true ∧ s.rd rplB Reg.RPL_PUSH_STATUS_BUSY = 0 ∧ s.takesPushes = true ∧ 3 ≠ 5 ∧
      1936 ≤ s.rd rplB Reg.RPL_PUSH_LEN_LEN ∧ s.rd rplB Reg.RPL_PUSH_LEN_LEN ≤ 16773120) ∧
    (∃ (s : State), s.answers 0 = true ∧ s.rd rplB Reg.RPL_PUSH_STATUS_BUSY = 0 ∧ s.takesPushes = true ∧ 4 ≠ 5 ∧
      (s.rd rplB Reg.RPL_PUSH_LEN_LEN < 1936 ∨ 16773120 < s.rd rplB Reg.RPL_PUSH_LEN_LEN)) ∧
    (∃ (s : State), s.answers 0 = true ∧ s.rd rplB Reg.RPL_PUSH_STATUS_BUSY = 0 ∧ s.takesPushes = true ∧ 4 ≠ 5 ∧
      1936 ≤ s.rd rplB Reg.RPL_PUSH_LEN_LEN ∧ s.rd rplB Reg.RPL_PUSH_LEN_LEN ≤ 16773120) ∧
    (∃ (s : State), s.answers 0 = true ∧ s.rd rplB Reg.RPL_PUSH_STATUS_BUSY = 0 ∧ s.takesPushes = true ∧ 5 = 5) ∧
    (∃ (s : State) (st : ReadStatus), s.rpl.phase = PushPhase.dma ∧ st ≠ ReadStatus.ok) ∧
    (∃ (s : State), s.rpl.phase = PushPhase.check ∧ s.rpl.op = 1 ∧ s.rpl.reason = 0) ∧
    (∃ (s : State), s.rpl.phase = PushPhase.check ∧ s.rpl.op ≠ 5 ∧ s.rpl.reason ≠ 0 ∧ s.rd rplB Reg.RPL_RESULT_REASON = s.rpl.reason ∧
      s.rpl.reason < 256) ∧
    (∃ (s : State), s.rpl.phase = PushPhase.check ∧ s.rpl.op = 3 ∧ s.rpl.reason = 0 ∧ s.inhibited = true) ∧
    (∃ (s : State), s.rpl.phase = PushPhase.check ∧ s.rpl.op = 3 ∧ s.rpl.reason = 0 ∧ s.inhibited = false) ∧
    (∃ (s : State), s.rpl.phase = PushPhase.check ∧ s.rpl.op = 5 ∧ s.inhibited = true) ∧
    (∃ (s : State), s.rpl.phase = PushPhase.check ∧ s.rpl.op = 5 ∧ s.inhibited = false ∧ s.applied = true ∧ s.fuses.rplFloor < s.p.version ∧
      s.p.version < 2 ^ 32 ∧ s.frontHolds rplSlots s.p.image (leAt s.p.image 52 4) = true) ∧
    (∃ (s : State), s.rpl.phase = PushPhase.check ∧ s.rpl.op = 5 ∧ s.inhibited = false ∧ (s.applied = false ∨ s.p.version ≤ s.fuses.rplFloor)) ∧
    (∃ (s : State), s.rpl.phase = PushPhase.applying ∧ s.boot.parts ≠ 0) ∧
    (∃ (s : State), s.rpl.phase = PushPhase.storing 9) ∧
    (∃ (s : State) (n : Nat), s.rpl.phase = PushPhase.storing n ∧ 1 ≤ n ∧ n ≤ 8 ∧ n ≠ 3 ∧ n ≠ 7) ∧
    (∃ (s : State) (n : Nat), s.rpl.phase = PushPhase.storing n ∧ 1 ≤ n ∧ n ≤ 8 ∧ (n = 3 ∨ n = 7) ∧ s.readBack rplSlots n ≠ 0) :=
  ⟨⟨(st 2), by decide +kernel⟩,
    ⟨(st 6), by decide +kernel⟩,
    ⟨(st 0), by decide +kernel⟩,
    ⟨(st 3), by decide +kernel⟩,
    ⟨(st 0), by decide +kernel⟩,
    ⟨(st 3), by decide +kernel⟩,
    ⟨(st 0), by decide +kernel⟩,
    ⟨(st 3), by decide +kernel⟩,
    ⟨(st 0), by decide +kernel⟩,
    ⟨(st 3), by decide +kernel⟩,
    ⟨(st 0), by decide +kernel⟩,
    ⟨(st 8), (ReadStatus.error), by decide +kernel⟩,
    ⟨(st 10), by decide +kernel⟩,
    ⟨(st 11), by decide +kernel⟩,
    ⟨(st 14), by decide +kernel⟩,
    ⟨(st 13), by decide +kernel⟩,
    ⟨(st 16), by decide +kernel⟩,
    ⟨(st 18), by decide +kernel⟩,
    ⟨(st 15), by decide +kernel⟩,
    ⟨(st 19), by decide +kernel⟩,
    ⟨(st 20), by decide +kernel⟩,
    ⟨(st 21), 1, by decide +kernel⟩,
    ⟨(st 26), 3, by decide +kernel⟩⟩
end RingplanPushes

namespace FirmwarePushes
/-- A bundle of 160 bytes whose length and header pass. -/
def bundle : List Byte :=
  let h := natLE 4 0x57464B57 ++ natLE 2 1 ++ natLE 2 64 ++ natLE 4 160 ++ natLE 4 5 ++ natLE 2 0x8840 ++ natLE 42 0
  h ++ natLE 4 (crc32c h) ++ natLE 96 0
def putFlash (s : State) (a : Nat) (bs : List Byte) : State := { s with flash := KMap.writeBytes flashDefault s.flash a bs }
def states : List State :=
  let img : List Byte := (List.range 160).map fun n => BitVec.ofNat 8 (n * 7)
  let on := { up with boot := { fw := img } }
  let ph (p : PushPhase) (op r : Nat) : State := { on with fwp := { phase := p, op := op, reason := r, image := img } }
  let fl := (ph .check 4 0).modPwr id
  [up, on, on.put devB Reg.DEV_FW_PUSH_STATUS_BUSY 1, (on.put devB Reg.DEV_FW_PUSH_LEN_LEN 4190208), (on.put devB Reg.DEV_FW_PUSH_LEN_LEN 4190209), 
   on.put devB Reg.DEV_BOOT_STATUS_STATE 2, (on.put devB Reg.DEV_BOOT_STATUS_STATE 2).put devB Reg.DEV_FW_PUSH_LEN_LEN 16777215,  ph .dma 1 0, ph .dma 3 0, ph .check 1 0, ph .check 2 6, ph .check 3 15, 
   ph .check 3 0, (ph .check 3 0).put picB Reg.PIC_STATE_INHIBIT 1, fl, fl.put picB Reg.PIC_STATE_INHIBIT 1, { fl with fuses := { fwFloor := 4294967295 } },
   putFlash (putFlash fl fwSlots.front img) (fwSlots.front + fwSlots.len) (sealOf fwSlots.code 160 (leAt img 0x3C 4)),
   ph (.storing 9) 3 0, ph (.storing 1) 3 0, ph (.storing 2) 3 0, ph (.storing 4) 3 0, ph (.storing 6) 2 0, ph (.storing 8) 3 0, putFlash (ph (.storing 3) 3 0) fwSlots.back bundle, putFlash (ph (.storing 7) 2 0) fwSlots.front bundle]
def st (k : Nat) : State := states.getD k State.reset
/-- What `Obligations.FirmwarePushes` assumes is met, clause by clause. -/
theorem wit_FirmwarePushes :
    (∃ (s : State), s.answers 0 = true ∧ s.rd devB Reg.DEV_FW_PUSH_STATUS_BUSY = 1) ∧
    (∃ (s : State), s.answers 0 = true ∧ s.rd devB Reg.DEV_FW_PUSH_STATUS_BUSY = 0 ∧ s.fwPermits 1 = false) ∧
    (∃ (s : State), s.answers 0 = true ∧ s.rd devB Reg.DEV_FW_PUSH_STATUS_BUSY = 0 ∧ s.fwPermits 1 = true ∧ 1 ≠ 4 ∧
      4190208 < s.rd devB Reg.DEV_FW_PUSH_LEN_LEN) ∧
    (∃ (s : State), s.answers 0 = true ∧ s.rd devB Reg.DEV_FW_PUSH_STATUS_BUSY = 0 ∧ s.fwPermits 1 = true ∧ 1 ≠ 4 ∧
      s.rd devB Reg.DEV_FW_PUSH_LEN_LEN ≤ 4190208) ∧
    (∃ (s : State), s.answers 0 = true ∧ s.rd devB Reg.DEV_FW_PUSH_STATUS_BUSY = 0 ∧ s.fwPermits 2 = false) ∧
    (∃ (s : State), s.answers 0 = true ∧ s.rd devB Reg.DEV_FW_PUSH_STATUS_BUSY = 0 ∧ s.fwPermits 2 = true ∧ 2 ≠ 4 ∧
      4190208 < s.rd devB Reg.DEV_FW_PUSH_LEN_LEN) ∧
    (∃ (s : State), s.answers 0 = true ∧ s.rd devB Reg.DEV_FW_PUSH_STATUS_BUSY = 0 ∧ s.fwPermits 2 = true ∧ 2 ≠ 4 ∧
      s.rd devB Reg.DEV_FW_PUSH_LEN_LEN ≤ 4190208) ∧
    (∃ (s : State), s.answers 0 = true ∧ s.rd devB Reg.DEV_FW_PUSH_STATUS_BUSY = 0 ∧ s.fwPermits 3 = false) ∧
    (∃ (s : State), s.answers 0 = true ∧ s.rd devB Reg.DEV_FW_PUSH_STATUS_BUSY = 0 ∧ s.fwPermits 3 = true ∧ 3 ≠ 4 ∧
      4190208 < s.rd devB Reg.DEV_FW_PUSH_LEN_LEN) ∧
    (∃ (s : State), s.answers 0 = true ∧ s.rd devB Reg.DEV_FW_PUSH_STATUS_BUSY = 0 ∧ s.fwPermits 3 = true ∧ 3 ≠ 4 ∧
      s.rd devB Reg.DEV_FW_PUSH_LEN_LEN ≤ 4190208) ∧
    (∃ (s : State), s.answers 0 = true ∧ s.rd devB Reg.DEV_FW_PUSH_STATUS_BUSY = 0 ∧ s.fwPermits 4 = false) ∧
    (∃ (s : State), s.answers 0 = true ∧ s.rd devB Reg.DEV_FW_PUSH_STATUS_BUSY = 0 ∧ s.fwPermits 4 = true ∧ 4 = 4) ∧
    (∃ (s : State) (st : ReadStatus), s.fwp.phase = PushPhase.dma ∧ st ≠ ReadStatus.ok) ∧
    (∃ (s : State), s.fwp.phase = PushPhase.check ∧ s.fwp.op ≠ 4 ∧ s.fwp.reason ≠ 0 ∧ s.fwp.reason < 16) ∧
    (∃ (s : State), s.fwp.phase = PushPhase.check ∧ s.fwp.op = 1 ∧ s.fwp.reason = 0) ∧
    (∃ (s : State), s.fwp.phase = PushPhase.check ∧ s.fwp.op = 3 ∧ s.fwp.reason = 0 ∧ s.inhibited = true) ∧
    (∃ (s : State), s.fwp.phase = PushPhase.check ∧ s.fwp.op = 3 ∧ s.fwp.reason = 0 ∧ s.inhibited = false) ∧
    (∃ (s : State), s.fwp.phase = PushPhase.check ∧ s.fwp.op = 4 ∧ s.inhibited = true) ∧
    (∃ (s : State), s.fwp.phase = PushPhase.check ∧ s.fwp.op = 4 ∧ s.inhibited = false ∧ s.fuses.fwFloor < leAt s.boot.fw 12 4 ∧
      s.frontHolds fwSlots s.boot.fw (leAt s.boot.fw 60 4) = true) ∧
    (∃ (s : State), s.fwp.phase = PushPhase.check ∧ s.fwp.op = 4 ∧ s.inhibited = false ∧ leAt s.boot.fw 12 4 ≤ s.fuses.fwFloor) ∧
    (∃ (s : State), s.fwp.phase = PushPhase.storing 9) ∧
    (∃ (s : State) (n : Nat), s.rpl.phase = PushPhase.idle ∧ s.fwp.phase = PushPhase.storing n ∧ 1 ≤ n ∧ n ≤ 8 ∧ n ≠ 3 ∧ n ≠ 7) ∧
    (∃ (s : State) (n : Nat), s.rpl.phase = PushPhase.idle ∧ s.fwp.phase = PushPhase.storing n ∧ 1 ≤ n ∧ n ≤ 8 ∧ (n = 3 ∨ n = 7) ∧
      s.readBack fwSlots n = 0) :=
  ⟨⟨(st 2), by decide +kernel⟩,
    ⟨(st 0), by decide +kernel⟩,
    ⟨(st 6), by decide +kernel⟩,
    ⟨(st 5), by decide +kernel⟩,
    ⟨(st 0), by decide +kernel⟩,
    ⟨(st 6), by decide +kernel⟩,
    ⟨(st 5), by decide +kernel⟩,
    ⟨(st 0), by decide +kernel⟩,
    ⟨(st 4), by decide +kernel⟩,
    ⟨(st 1), by decide +kernel⟩,
    ⟨(st 0), by decide +kernel⟩,
    ⟨(st 1), by decide +kernel⟩,
    ⟨(st 7), (ReadStatus.error), by decide +kernel⟩,
    ⟨(st 10), by decide +kernel⟩,
    ⟨(st 9), by decide +kernel⟩,
    ⟨(st 13), by decide +kernel⟩,
    ⟨(st 12), by decide +kernel⟩,
    ⟨(st 15), by decide +kernel⟩,
    ⟨(st 17), by decide +kernel⟩,
    ⟨(st 16), by decide +kernel⟩,
    ⟨(st 18), by decide +kernel⟩,
    ⟨(st 19), 1, by decide +kernel⟩,
    ⟨(st 24), 3, by decide +kernel⟩⟩
end FirmwarePushes

namespace CapturesAndSweeps
def states : List State :=
  let tel (on : Bool) (gr : Nat) (sw : Option (Nat × Nat)) : State := ((((planned.putBoth (ringBase 15) Reg.RING_CFG_TYPE 7).put (ringBase 15) Reg.RING_STATE_STATE 1).put (ringBase 15) Reg.RING_TELEM_GROUPS gr).put (ringBase 15) Reg.RING_TELEM_ON_CAPTURE on.toNat).modRing 15 fun r => { r with sweep := sw }
  let telM (sw : Option (Nat × Nat)) : State := (((planned.putBoth (ringBase 0) Reg.RING_CFG_TYPE 7).put (ringBase 0) Reg.RING_STATE_STATE 1).put (ringBase 0) Reg.RING_TELEM_GROUPS 0x800).modRing 0 fun r => { r with sweep := sw }
  [up, ((up.put tabB Reg.TAB_AT_LO_TIME 5).put tabB Reg.TAB_AT_HI_TIME 1), { up with now := 123456 }.put tabB Reg.TAB_AT_LO_TIME 5, (up.put tabB Reg.TAB_GEN_GEN 4294967295).putWide (devB + Reg.DEV_COLD_STARTS) 77,
   { up.put tabB Reg.TAB_CTRL_AT_PENDING 1 with tabAt := 5000 }, { (inPower 2).put tabB Reg.TAB_CTRL_AT_PENDING 1 with tabAt := 5000 }, { (inPower 3).put tabB Reg.TAB_CTRL_AT_PENDING 1 with tabAt := 5000 },
   { tel true 0xC00 none with now := 10, tabAt := 3 }.put tabB Reg.TAB_CTRL_AT_PENDING 1, telM (some (2564, 4)), telM (some (2573, 0)), tel true 0xC00 (some (0x6B0, 0)), tel true 0 (some (0x6B0, 0)), tel false 0xFFF (some (0x434, 2)), (tel false 0xFFF (some (0x434, 2))).put (ringBase 15) Reg.RING_STATE_STATE 3, tel false 0x1 (some (0, 2)), tel false 0x1 (some (2000, 2))]
def st (k : Nat) : State := states.getD k State.reset
/-- What `Obligations.CapturesAndSweeps` assumes is met, clause by clause. -/
theorem wit_CapturesAndSweeps :
    (∃ (s : State), s.answers 0 = true ∧ s.now < s.rd tabB Reg.TAB_AT_LO_TIME + 2 ^ 32 * s.rd tabB Reg.TAB_AT_HI_TIME) ∧
    (∃ (s : State), s.answers 0 = true ∧ s.rd tabB Reg.TAB_AT_LO_TIME + 2 ^ 32 * s.rd tabB Reg.TAB_AT_HI_TIME ≤ s.now ∧
      s.rd picB Reg.PIC_STATE_STATE ≤ 1) ∧
    (∃ (s : State), s.rd tabB Reg.TAB_CTRL_AT_PENDING = 1 ∧ s.pwr.off = false ∧ s.rd picB Reg.PIC_STATE_STATE ≤ 1) ∧
    (∃ (s : State), s.rd tabB Reg.TAB_CTRL_AT_PENDING = 1 ∧ s.pwr.off = false ∧
      (s.rd picB Reg.PIC_STATE_STATE = 2 ∨ s.rd picB Reg.PIC_STATE_STATE = 3)) ∧
    (∃ (s : State), s.rd tabB Reg.TAB_CTRL_AT_PENDING ≠ 1) ∧
    (∃ (s : State) (q : Fin 256), s.telemRuns q.val = false) ∧
    (∃ (s : State) (q : Fin 256), s.telemRuns q.val = true ∧ (s.ring q.val).sweep = none) ∧
    (∃ (s : State) (q : Fin 256) (k : Nat) (g : Nat), s.telemRuns q.val = true ∧ (s.ring q.val).sweep = some (k, g) ∧
      (s.sweepRest q.val k).length ≤ 5) ∧
    (∃ (s : State) (q : Fin 256) (k : Nat) (g : Nat), s.telemRuns q.val = true ∧ (s.ring q.val).sweep = some (k, g) ∧
      ∃ m ∈ (List.take 5 (s.sweepRest q.val k)).getLast?, 5 < (s.sweepRest q.val k).length) :=
  ⟨⟨(st 1), by decide +kernel⟩,
    ⟨(st 0), by decide +kernel⟩,
    ⟨(st 4), by decide +kernel⟩,
    ⟨(st 5), by decide +kernel⟩,
    ⟨(st 0), by decide +kernel⟩,
    ⟨(st 0), 0, by decide +kernel⟩,
    ⟨(st 7), 15, by decide +kernel⟩,
    ⟨(st 9), 0, 2573, 0, by decide +kernel⟩,
    ⟨(st 8), 0, 2564, 4, by decide +kernel⟩⟩
end CapturesAndSweeps

namespace EventLogWrites
def states : List State :=
  let lg (b : Nat) (x : LogX) : State := { up.put logB Reg.LOG_STATUS_BUSY b with log := x }.put logB Reg.LOG_STATUS_READY 1
  let r : LogRec := { kind := 1, source := 5, data := [1, 2, 3] }
  let two : LogX := { opened := true, ahead := true, staged := [r, { r with kind := 4 }], sector := 1023, slot := 62, nextSeq := 0xFFFFFFFF }
  let written := ((up.flashProgram (sectorAt 3) (sectorHeader 1 9)).flashProgram (slotAt 3 0) (r.body 7)).flashProgram (slotAt 3 0 + 0x3C) (natLE 4 logMark)
  [up, lg 1 { two with phase := .body, cur := some r }, lg 1 { two with phase := .mark, cur := some r }, lg 1 { phase := .erase 7 }, lg 1 { two with phase := .erase 1023 }, lg 0 { two with cur := some r },
   up.put logB Reg.LOG_STATUS_READY 1, { written with pwr := { aonLog := [r] } }, (written.put logB Reg.LOG_RD_STATUS_BUSY 1).put logB Reg.LOG_RD_SEQ_SEQ 7, (written.put logB Reg.LOG_RD_STATUS_BUSY 1).put logB Reg.LOG_RD_SEQ_SEQ 8,
   (lg 1 { two with phase := .mark, cur := some r, lost := 3 }).put picB Reg.PIC_STATE_INHIBIT 1]
def st (k : Nat) : State := states.getD k State.reset
/-- What `Obligations.EventLogWrites` assumes is met, clause by clause. -/
theorem wit_EventLogWrites :
    (∃ (s : State) (r : LogRec), s.rd logB Reg.LOG_STATUS_BUSY = 1 ∧ s.log.phase = LogPhase.body ∧ s.log.cur = some r) ∧
    (∃ (s : State) (r : LogRec), s.rd logB Reg.LOG_STATUS_BUSY = 1 ∧ s.log.phase = LogPhase.mark ∧ s.log.cur = some r) ∧
    (∃ (s : State) (k : Nat), s.rd logB Reg.LOG_STATUS_BUSY = 1 ∧ s.log.phase = LogPhase.erase k) ∧
    (∃ (s : State), s.rd logB Reg.LOG_STATUS_BUSY = 0) ∧
    (∃ (s : State), s.rd logB Reg.LOG_STATUS_READY = 0 ∧ s.pwr.off = false) ∧
    (∃ (s : State), s.rd logB Reg.LOG_STATUS_READY = 1) ∧
    (∃ (s : State), s.answers 0 = true ∧ s.rd logB Reg.LOG_RD_STATUS_BUSY = 0) ∧
    (∃ (s : State), s.answers 0 = true ∧ s.rd logB Reg.LOG_RD_STATUS_BUSY = 1) ∧
    (∃ (s : State), s.rd logB Reg.LOG_RD_STATUS_BUSY = 1 ∧ ∃ b ∈ s.logRecord (s.rd logB Reg.LOG_RD_SEQ_SEQ), True) ∧
    (∃ (s : State), s.rd logB Reg.LOG_RD_STATUS_BUSY = 1 ∧ s.logRecord (s.rd logB Reg.LOG_RD_SEQ_SEQ) = none) :=
  ⟨⟨(st 1), ({ kind := 1, source := 5, index := 65535, time := 0, rep := 0, flags := 0, data := [0x01#8, 0x02#8, 0x03#8] }), by decide +kernel⟩,
    ⟨(st 2), ({ kind := 1, source := 5, index := 65535, time := 0, rep := 0, flags := 0, data := [0x01#8, 0x02#8, 0x03#8] }), by decide +kernel⟩,
    ⟨(st 3), 7, by decide +kernel⟩,
    ⟨(st 0), by decide +kernel⟩,
    ⟨(st 0), by decide +kernel⟩,
    ⟨(st 1), by decide +kernel⟩,
    ⟨(st 0), by decide +kernel⟩,
    ⟨(st 8), by decide +kernel⟩,
    ⟨(st 8), by decide +kernel⟩,
    ⟨(st 9), by decide +kernel⟩⟩
end EventLogWrites

namespace BarkerCommands
def states : List State :=
  let b (l : Nat) : State := ((((up.put brkB Reg.BRK_CFG_ENABLE 1).put devB Reg.DEV_BOOT_STATUS_STEP 10).put brkB Reg.BRK_STATUS_LEVEL l).put secB Reg.SEC_STATE_STATE 1)
  [up, b 0, { b 1 with pwr := { aonLog := [] } }, { b 2 with now := 77 }, { b 3 with pot := [], plan := some wPlan }, (((b 3).put secB Reg.SEC_STATE_DEBUG_SECURE 1).put dmcB Reg.DMC_USABLE_MIB 1024),
   { (b 3).put dmcB Reg.DMC_USABLE_MIB 1024 with pot := [(65536, 1)], dram := [⟨268435457, 9⟩] }]
def st (k : Nat) : State := states.getD k State.reset
/-- What `Obligations.BarkerCommands` assumes is met, clause by clause. -/
theorem wit_BarkerCommands :
    (∃ (s : State), s.brkUp = false) ∧
    (∃ (s : State), s.brkUp = true ∧ s.rd brkB Reg.BRK_STATUS_LEVEL < 1) ∧
    (∃ (s : State), s.brkUp = true ∧ s.rd brkB Reg.BRK_STATUS_LEVEL < 2) ∧
    (∃ (s : State), s.brkUp = true ∧ s.rd brkB Reg.BRK_STATUS_LEVEL < 3) ∧
    (∃ (s : State) (cert : List Byte), s.brkUp = true ∧ cert.length ≠ 160) ∧
    (∃ (s : State) (cert : List Byte), s.brkUp = true ∧ cert.length = 160 ∧ s.rd secB Reg.SEC_STATE_STATE = 1 ∧ ∃ r ∈ s.certCheck cert, True) ∧
    (∃ (s : State) (n : Fin 65), s.brkUp = true ∧ 1 ≤ s.rd brkB Reg.BRK_STATUS_LEVEL ∧ (n.val = 0 ∨ 64 < n.val)) ∧
    (∃ (s : State) (n : Fin 65) (m : BitVec 12), s.brkUp = true ∧ 1 ≤ s.rd brkB Reg.BRK_STATUS_LEVEL ∧ 1 ≤ n.val ∧ n.val ≤ 64 ∧
      m.toNat + n.val ≤ 2576) ∧
    (∃ (s : State) (a : BitVec 23) (n : Fin 65), s.brkUp = true ∧ 1 ≤ s.rd brkB Reg.BRK_STATUS_LEVEL ∧ 1 ≤ n.val ∧ n.val ≤ 64 ∧ a.toNat % 4 = 0 ∧
      (List.map (fun k => a.toNat + 4 * k) (List.range n.val)).any brkShut = true) ∧
    (∃ (s : State) (a : BitVec 23) (n : Fin 65), s.brkUp = true ∧ 1 ≤ s.rd brkB Reg.BRK_STATUS_LEVEL ∧ 1 ≤ n.val ∧ n.val ≤ 64 ∧ a.toNat % 4 = 0 ∧
      (List.map (fun k => a.toNat + 4 * k) (List.range n.val)).any brkShut = false) ∧
    (∃ (s : State) (a : BitVec 23), s.brkUp = true ∧ 1 ≤ s.rd brkB Reg.BRK_STATUS_LEVEL ∧ a.toNat % 4 ≠ 0) ∧
    (∃ (s : State) (w : BitVec 26), s.brkUp = true ∧ 2 ≤ s.rd brkB Reg.BRK_STATUS_LEVEL ∧ w.toNat % 4 ≠ 0) ∧
    (∃ (s : State) (w : BitVec 26), s.brkUp = true ∧ 2 ≤ s.rd brkB Reg.BRK_STATUS_LEVEL ∧ w.toNat % 4 = 0 ∧ w.toNat < 4096) ∧
    (∃ (s : State) (v : Word), s.brkUp = true ∧ 2 ≤ s.rd brkB Reg.BRK_STATUS_LEVEL ∧ injectable.contains (bitsOf (BitVec.toNat v) 0 5) = true) ∧
    (∃ (s : State) (v : Word), s.brkUp = true ∧ 2 ≤ s.rd brkB Reg.BRK_STATUS_LEVEL ∧ injectable.contains (bitsOf (BitVec.toNat v) 0 5) = false) ∧
    (∃ (s : State) (p : BitVec 36) (n : Fin 65), s.brkUp = true ∧ 3 ≤ s.rd brkB Reg.BRK_STATUS_LEVEL ∧ 1 ≤ n.val ∧ n.val ≤ 64 ∧ p.toNat % 4 = 0 ∧
      s.secureBytes p.toNat (4 * n.val) = none) ∧
    (∃ (s : State) (p : BitVec 36), s.brkUp = true ∧ 3 ≤ s.rd brkB Reg.BRK_STATUS_LEVEL ∧ p.toNat % 4 ≠ 0) ∧
    (∃ (s : State) (p : BitVec 36), s.brkUp = true ∧ 3 ≤ s.rd brkB Reg.BRK_STATUS_LEVEL ∧ p.toNat % 4 = 0 ∧ s.secureOwn p.toNat 4 = true ∧
      p.toNat + 4 ≤ s.potBase) ∧
    (∃ (s : State) (p : BitVec 36), s.brkUp = true ∧ 3 ≤ s.rd brkB Reg.BRK_STATUS_LEVEL ∧ p.toNat % 4 = 0 ∧ s.secureOwn p.toNat 4 = false) :=
  ⟨⟨(st 0), by decide +kernel⟩,
    ⟨(st 1), by decide +kernel⟩,
    ⟨(st 1), by decide +kernel⟩,
    ⟨(st 1), by decide +kernel⟩,
    ⟨(st 1), ([]), by decide +kernel⟩,
    ⟨(st 1), (List.replicate 160 1), by decide +kernel⟩,
    ⟨(st 2), 0, by decide +kernel⟩,
    ⟨(st 2), 1, (0x000#12), by decide +kernel⟩,
    ⟨(st 2), (0x500000#23), 1, by decide +kernel⟩,
    ⟨(st 2), (0x000058#23), 1, by decide +kernel⟩,
    ⟨(st 2), (0x000002#23), by decide +kernel⟩,
    ⟨(st 3), (0x0000001#26), by decide +kernel⟩,
    ⟨(st 3), (0x0000054#26), by decide +kernel⟩,
    ⟨(st 3), (0x00000007#32), by decide +kernel⟩,
    ⟨(st 3), (0x0000001f#32), by decide +kernel⟩,
    ⟨(st 4), (0x010000000#36), 1, by decide +kernel⟩,
    ⟨(st 4), (0x000000006#36), by decide +kernel⟩,
    ⟨(st 6), (0x010000000#36), by decide +kernel⟩,
    ⟨(st 4), (0x010000000#36), by decide +kernel⟩⟩
end BarkerCommands

/-! ## Witnesses that a list of samples does not give -/

/-- A state in which the outputs agree, on an empty queue and on one with a command. -/
theorem wit_OutputsFollow :
    (∃ s t : State, outputsAgree s ∧ s.pending = [] ∧ step s = .next t) ∧
    (∃ s t : State, outputsAgree s ∧ s.pending = [.vddAonRise] ∧ step s = .next t) :=
  ⟨⟨{ State.reset with now := 7 }, _, by dsimp only [outputsAgree]; decide +kernel, rfl, rfl⟩,
    ⟨{ State.reset with pending := [.vddAonRise] }, _, by dsimp only [outputsAgree]; decide +kernel, rfl, rfl⟩⟩

/-- A step that ends in a next state, as `Obligations.TimebaseNeverBack` and `Obligations.StepTakesFront` speak of. -/
theorem wit_TimebaseNeverBack : ∃ s t : State, step s = .next t := ⟨up, _, rfl⟩

/-- A certificate for the device as the fuses stand at reset, scope 1, JTAG and the gated levels (R416). -/
def wCert : List Byte :=
  natLE 4 0x54524344 ++ natLE 2 1 ++ [1, 3] ++ natLE 8 State.reset.fuses.deviceId ++ natLE 4 State.reset.fuses.debugCounter ++ natLE 4 0 ++
    List.replicate 136 0
/-- A certificate passes where its signature verifies, which is opaque (log entry 11). -/
theorem wit_BarkerCommands_unlock (h : ∀ k b g, Config.signatureOk k b g = true) :
    ∃ (s : State) (cert : List Byte), s.brkUp = true ∧ cert.length = 160 ∧ s.rd secB Reg.SEC_STATE_STATE = 1 ∧ s.certCheck cert = none := by
  refine ⟨BarkerCommands.st 1, wCert, by decide +kernel, by decide +kernel, by decide +kernel, ?_⟩
  unfold State.certCheck
  dsimp only
  rw [h]
  decide +kernel

/-- A least firmware bundle of 160 bytes (R552). -/
def wBundle : List Byte :=
  let h := natLE 4 0x57464B57 ++ natLE 2 1 ++ natLE 2 64 ++ natLE 4 160 ++ natLE 4 1 ++ natLE 2 0x8840 ++ [0, 0] ++ List.replicate 40 0
  h ++ natLE 4 (crc32c h) ++ List.replicate 96 0
/-- Flash with an image and its seal in one copy of a pair of slots. -/
def sealed (m : SlotPair) (base : Nat) (img : List Byte) (hcrc : Nat) : KMap Byte :=
  KMap.writeBytes flashDefault (KMap.writeBytes flashDefault [] base img) (base + m.len) (sealOf m.code img.length hcrc)
/-- Step `n` of a start, and a state with another flash. -/
def atStep (n : Nat) : State := State.reset.put devB Reg.DEV_BOOT_STATUS_STEP n
def withFlash (s : State) (f : KMap Byte) : State := { s with flash := f }
theorem fwCheck_flash (s : State) (f : KMap Byte) : (withFlash s f).fwCheck = s.fwCheck := rfl
theorem validate_flash (s : State) (f : KMap Byte) : validate (withFlash s f) = validate s := rfl
theorem booting_flash (s : State) (f : KMap Byte) : (withFlash s f).booting = s.booting := rfl
theorem bootStep_flash (s : State) (f : KMap Byte) : (withFlash s f).bootStep = s.bootStep := rfl
/-- A slot holds the image that was put there. -/
theorem slotBody_sealed (s : State) (m : SlotPair) (base hcrc : Nat) (img : List Byte) (h : s.flash = sealed m base img hcrc)
    (hl : leNat ((img.drop 8).take 4) = img.length) (h1 : 64 ≤ img.length) (h2 : img.length ≤ m.len) : s.slotBody base m.len = img := by
  have r : ∀ k n, k + n ≤ img.length → KMap.readBytes flashDefault s.flash (base + k) n = (img.drop k).take n := fun k n hk => by
    rw [h, sealed, KMap.readBytes_writeBytes_out _ _ _ _ _ _ (Or.inl (by omega)), KMap.readBytes_writeBytes_in _ _ _ _ _ _ hk]
  unfold State.slotBody State.flashBytes
  rw [r 8 4 (by omega), hl]
  dsimp only
  rw [if_pos h2, show max img.length 64 = img.length by omega]
  simpa using r 0 img.length (by omega)
/-- Its seal stands behind it. -/
theorem seal_sealed (s : State) (m : SlotPair) (base hcrc : Nat) (img : List Byte) (h : s.flash = sealed m base img hcrc)
    (hs : (sealOf m.code img.length hcrc).length = 16) : s.flashBytes (base + m.len) 16 = sealOf m.code img.length hcrc := by
  unfold State.flashBytes
  rw [h, sealed, ← hs]
  exact KMap.readBytes_writeBytes _ _ _ _
/-- A copy with that bundle passes where its signature verifies. -/
theorem bundle_ok (h : ∀ k b g, Config.signatureOk k b g = true) (base : Nat) (s : State) (hs : s = atStep 6) :
    (withFlash s (sealed fwSlots base wBundle (leAt wBundle 0x3C 4))).copyReason base = 0 := by
  have hb := slotBody_sealed (withFlash s (sealed fwSlots base wBundle (leAt wBundle 0x3C 4))) fwSlots base _ wBundle rfl (by decide +kernel)
    (by decide +kernel) (by decide +kernel)
  have hk := seal_sealed (withFlash s (sealed fwSlots base wBundle (leAt wBundle 0x3C 4))) fwSlots base _ wBundle rfl (by decide +kernel)
  unfold State.copyReason
  rw [hb, hk, fwCheck_flash]
  unfold State.fwCheck
  dsimp only
  rw [h, hs]
  decide +kernel
/-- Step 6 with a bundle that passes in copy 0, and with one in copy 1 only. -/
theorem wit_BootSteps_firmware (h : ∀ k b g, Config.signatureOk k b g = true) :
    (∃ s : State, s.booting = true ∧ s.bootStep = 6 ∧ s.copyReason fwSlots.front = 0) ∧
    (∃ s : State, s.booting = true ∧ s.bootStep = 6 ∧ s.copyReason fwSlots.front ≠ 0 ∧ s.copyReason fwSlots.back = 0) :=
  ⟨⟨withFlash (atStep 6) (sealed fwSlots fwSlots.front wBundle (leAt wBundle 0x3C 4)), by decide +kernel, by decide +kernel, bundle_ok h _ _ rfl⟩,
    ⟨withFlash (atStep 6) (sealed fwSlots fwSlots.back wBundle (leAt wBundle 0x3C 4)), by decide +kernel, by decide +kernel, by decide +kernel,
      bundle_ok h _ _ rfl⟩⟩
/-- Step 8 with an image that validates in slot A: whether one does rests on the opaque signature. -/
theorem wit_BootSteps_slot (img : List Byte) (hcrc : Nat) (hl : leNat ((img.drop 8).take 4) = img.length) (h1 : 64 ≤ img.length)
    (h2 : img.length ≤ rplSlots.len) (hs : (sealOf rplSlots.code img.length hcrc).length = 16)
    (hv : (validate (atStep 8) img rplSlots.len (some (sealOf rplSlots.code img.length hcrc))).reason = 0) :
    ∃ s : State, s.booting = true ∧ s.bootStep = 8 ∧ (s.slotVerdict rplSlots.front).reason = 0 := by
  refine ⟨withFlash (atStep 8) (sealed rplSlots rplSlots.front img hcrc), (booting_flash _ _).trans (by decide +kernel),
    (bootStep_flash _ _).trans (by decide +kernel), ?_⟩
  have hb := slotBody_sealed (withFlash (atStep 8) (sealed rplSlots rplSlots.front img hcrc)) rplSlots rplSlots.front hcrc img rfl hl h1 h2
  have hk := seal_sealed (withFlash (atStep 8) (sealed rplSlots rplSlots.front img hcrc)) rplSlots rplSlots.front hcrc img rfl hs
  unfold State.slotVerdict
  exact (congrArg Verdict.reason (by rw [hb, hk, validate_flash])).trans hv

end Sys2Proof.Tests
end

section
/-! The two equations of a step, one for each shape of the queue. -/
namespace Sys2Proof.Machine

theorem step_of_pending_cons {s : State} {c : Instr} {rest : List Instr} (h : s.pending = c :: rest) :
    step s = exec c { s with pending := rest } := by
  simp only [step, h]

theorem step_of_pending_nil {s : State} (h : s.pending = []) : step s = .next (idleTick s) := by
  simp only [step, h]

/-- Settles O1 by the step's equation for each shape of the queue; the idle tick is log entries 1 and 2. -/
theorem stepTakesFront : Obligations.StepTakesFront := by
  unfold Obligations.StepTakesFront
  constructor
  · intro s c rest hfront
    exact step_of_pending_cons hfront
  · intro s hempty
    exact step_of_pending_nil hempty

end Sys2Proof.Machine
end

section
/-! How a command ends: it answers a next state that `settle` made of its effect; VDD_AON rising ends with `settleAnew` (R131). -/
namespace Sys2Proof.Machine

/-- VDD_AON rising starts the timebase anew (R131). -/
theorem exec_vddAonRise (s : State) : exec .vddAonRise s = .next (settleAnew s (doAonRise s)) := rfl

/-- Every other command ends with `settle`: the case split is over the commands, and the effect is what each meaning hands to `settle`. -/
theorem exec_eq_settle {c : Instr} (hc : c ≠ .vddAonRise) (s : State) : ∃ post, exec c s = .next (settle s post) := by
  cases c with
  | vddAonRise => exact absurd rfl hc
  | _ => exact ⟨_, rfl⟩

end Sys2Proof.Machine
end

section
/-! What the outputs are computed from, and that writing the outputs leaves it. -/
namespace Sys2Proof.Machine

/-! ## What two states with one `inner` share -/

section
variable {s t : State}

theorem plan_eq_of_inner (h : t.inner = s.inner) : t.plan = s.plan := (congrArg State.plan h :)
theorem heads_eq_of_inner (h : t.inner = s.inner) : t.heads = s.heads := (congrArg State.heads h :)
theorem engines_eq_of_inner (h : t.inner = s.inner) : t.engines = s.engines := (congrArg State.engines h :)
theorem sn_eq_of_inner (h : t.inner = s.inner) : t.sn = s.sn := (congrArg State.sn h :)
theorem pwr_eq_of_inner (h : t.inner = s.inner) : t.pwr = s.pwr := (congrArg State.pwr h :)
theorem boot_eq_of_inner (h : t.inner = s.inner) : t.boot = s.boot := (congrArg State.boot h :)
theorem rpl_eq_of_inner (h : t.inner = s.inner) : t.rpl = s.rpl := (congrArg State.rpl h :)

end

/-! ## What the outputs are computed from -/

/-- The register fields that FAULT_N, READY, GUARANTEE and COND are computed from (R12, R488, R503), by key. -/
inductive OutputInput : Nat → Prop
  | flags : OutputInput (fkey (snB + Reg.SN_FAULT_FLAGS_FLAGS.off) Reg.SN_FAULT_FLAGS_FLAGS.lo)
  | stopped : OutputInput (fkey (snB + Reg.SN_STATUS_STOPPED.off) Reg.SN_STATUS_STOPPED.lo)
  | power : OutputInput (fkey (picB + Reg.PIC_STATE_STATE.off) Reg.PIC_STATE_STATE.lo)
  | release : OutputInput (fkey (devB + Reg.DEV_BOOT_STATUS_RELEASE.off) Reg.DEV_BOOT_STATUS_RELEASE.lo)
  | cvuState (u : Nat) : OutputInput (fkey (cvuB u + Reg.CVU_STATUS_STATE.off) Reg.CVU_STATUS_STATE.lo)

/-- The two states agree in everything that the outputs are computed from. -/
structure SameInputs (s t : State) : Prop where
  inner : t.inner = s.inner
  regs : ∀ (b : Nat) (g : Fld), OutputInput (fkey (b + g.off) g.lo) → t.rd b g = s.rd b g

namespace SameInputs

variable {s t u : State}

theorem refl (s : State) : SameInputs s s := ⟨rfl, fun _ _ _ => rfl⟩

theorem trans (h : SameInputs s t) (h' : SameInputs t u) : SameInputs s u :=
  ⟨h'.inner.trans h.inner, fun b g hg => (h'.regs b g hg).trans (h.regs b g hg)⟩

/-- A write of a field that is no input of the outputs. -/
theorem put (h : SameInputs s t) {a : Nat} {f : Fld} (v : Nat) (hf : ¬ OutputInput (fkey (a + f.off) f.lo)) :
    SameInputs s (t.put a f v) :=
  ⟨(t.inner_put a f v).trans h.inner, fun b g hg => (t.rd_put_ne v fun e => hf (e.symm ▸ hg)).trans (h.regs b g hg)⟩

theorem applied_eq (h : SameInputs s t) : t.applied = s.applied := congrArg Option.isSome (plan_eq_of_inner h.inner)
theorem p_eq (h : SameInputs s t) : t.p = s.p := congrArg (fun p => Option.getD p ({} : Plan)) (plan_eq_of_inner h.inner)
theorem head_eq (h : SameInputs s t) (k : Nat) : t.head k = s.head k :=
  congrArg (KMap.get (fun _ => ({} : HeadX)) · k) (heads_eq_of_inner h.inner)

theorem condBits_eq (h : SameInputs s t) : t.condBits = s.condBits := by
  have hu : ∀ u, t.rd (cvuB u) Reg.CVU_STATUS_STATE = s.rd (cvuB u) Reg.CVU_STATUS_STATE := fun u => h.regs _ _ (.cvuState u)
  simp only [State.condBits, h.applied_eq, h.p_eq, sn_eq_of_inner h.inner, h.regs _ _ .release, hu]

theorem guaranteeHolds_eq (h : SameInputs s t) : t.guaranteeHolds = s.guaranteeHolds := by
  simp only [State.guaranteeHolds, h.applied_eq, h.condBits_eq]

theorem faultCond_eq (h : SameInputs s t) : t.faultCond = s.faultCond := by
  simp only [State.faultCond, sn_eq_of_inner h.inner, h.regs _ _ .flags]

theorem readyCond_eq (h : SameInputs s t) : t.readyCond = s.readyCond := by
  simp only [State.readyCond, h.applied_eq, h.p_eq, h.head_eq, pwr_eq_of_inner h.inner, boot_eq_of_inner h.inner, rpl_eq_of_inner h.inner,
    h.regs _ _ .power, h.regs _ _ .stopped]

end SameInputs

/-! ## The fields that the outputs are written to are no inputs -/

/-- A key below the CVU_ frames or within the first eight bytes of a 256-byte frame is no CVU_STATUS. -/
theorem fkey_ne_cvuState {k : Nat} (hk : k % 8192 < 256 ∨ k < fkey (cvuB 0) 0) (u : Nat) :
    k ≠ fkey (cvuB u + Reg.CVU_STATUS_STATE.off) Reg.CVU_STATUS_STATE.lo := by
  simp only [fkey, cvuB, FrameKind.at, FrameKind.base, FrameKind.stride, Reg.CVU_STATUS_STATE] at hk ⊢
  omega

theorem not_outputInput {k : Nat} (hk : (k % 8192 < 256 ∨ k < fkey (cvuB 0) 0) ∧
    k ≠ fkey (snB + Reg.SN_FAULT_FLAGS_FLAGS.off) Reg.SN_FAULT_FLAGS_FLAGS.lo ∧
    k ≠ fkey (snB + Reg.SN_STATUS_STOPPED.off) Reg.SN_STATUS_STOPPED.lo ∧
    k ≠ fkey (picB + Reg.PIC_STATE_STATE.off) Reg.PIC_STATE_STATE.lo ∧
    k ≠ fkey (devB + Reg.DEV_BOOT_STATUS_RELEASE.off) Reg.DEV_BOOT_STATUS_RELEASE.lo) : ¬ OutputInput k := by
  obtain ⟨hcvu, hflags, hstopped, hpower, hrelease⟩ := hk
  intro h
  cases h with
  | flags => exact hflags rfl
  | stopped => exact hstopped rfl
  | power => exact hpower rfl
  | release => exact hrelease rfl
  | cvuState u => exact fkey_ne_cvuState hcvu u rfl

theorem sameInputs_statusLook (s : State) : SameInputs s s.statusLook :=
  ((((SameInputs.refl s).put _ (not_outputInput (by decide))).put _ (not_outputInput (by decide))).put _
    (not_outputInput (by decide))).put _ (not_outputInput (by decide))

theorem sameInputs_pinsLook (s : State) : SameInputs s s.pinsLook := ⟨s.inner_pinsLook, fun b g _ => s.rd_pinsLook b g⟩

theorem sameInputs_bootLook (s : State) : SameInputs s s.bootLook := by
  unfold State.bootLook
  split
  · exact (SameInputs.refl s).put _ (not_outputInput (by decide))
  · exact .refl s

end Sys2Proof.Machine
end

section
/-! The outputs after every command (O4): each of the steps of `State.look` sets its outputs right and keeps those set before. -/
namespace Sys2Proof.Machine

section
variable (s : State)

/-- COND fits its six bits. -/
theorem State.condBits_lt : s.condBits < 2 ^ Reg.SN_STATUS_COND.w := by
  have bit_le : ∀ (b : Bool) (n : Nat), (if b then 2 ^ n else 0) ≤ 2 ^ n := by
    intro b n
    cases b <;> simp
  unfold State.condBits
  split
  · decide
  · calc _ ≤ 2 ^ 0 + 2 ^ 1 + 2 ^ 2 + 2 ^ 3 + 2 ^ 4 + 2 ^ 5 := by
          dsimp only
          gcongr <;> exact bit_le _ _
      _ < 2 ^ Reg.SN_STATUS_COND.w := by decide

theorem State.rd_statusLook_guarantee : s.statusLook.rd snB Reg.SN_STATUS_GUARANTEE = if s.guaranteeHolds then 1 else 0 := by
  unfold State.statusLook
  dsimp only
  rw [State.rd_put_ne _ _ (by decide), State.rd_put_ne _ _ (by decide), State.rd_put_ne _ _ (by decide), State.rd_put_self]
  split <;> rfl

theorem State.rd_statusLook_cond : s.statusLook.rd snB Reg.SN_STATUS_COND = s.condBits :=
  (State.rd_put_self _ _ _ _).trans (Nat.mod_eq_of_lt s.condBits_lt)

theorem State.faultLow_pinsLook : s.pinsLook.faultLow = s.faultCond := by unfold State.pinsLook; dsimp only; split <;> rfl
theorem State.readyPin_pinsLook : s.pinsLook.readyPin = s.readyCond := rfl
theorem State.faultLow_bootLook : s.bootLook.faultLow = s.faultLow := by unfold State.bootLook; split <;> rfl
theorem State.readyPin_bootLook : s.bootLook.readyPin = s.readyPin := by unfold State.bootLook; split <;> rfl
theorem State.rd_bootLook_ne {b : Nat} {g : Fld}
    (h : fkey (devB + Reg.DEV_BOOT_STATUS_STEP.off) Reg.DEV_BOOT_STATUS_STEP.lo ≠ fkey (b + g.off) g.lo) :
    s.bootLook.rd b g = s.rd b g := by
  unfold State.bootLook
  split
  · exact s.rd_put_ne _ h
  · rfl

/-- The status bits, then the pins, then start-up's step 10: each is computed from inputs that those after it leave. -/
theorem outputsAgree_statusLook_pinsLook_bootLook : outputsAgree s.statusLook.pinsLook.bootLook := by
  have hboot : SameInputs s.statusLook.pinsLook s.statusLook.pinsLook.bootLook := sameInputs_bootLook _
  have hpins : SameInputs s.statusLook s.statusLook.pinsLook.bootLook := (sameInputs_pinsLook _).trans hboot
  have hstatus : SameInputs s s.statusLook.pinsLook.bootLook := (sameInputs_statusLook s).trans hpins
  refine ⟨?_, ?_, ?_, ?_⟩
  · rw [State.faultLow_bootLook, State.faultLow_pinsLook, hpins.faultCond_eq]
  · rw [State.readyPin_bootLook, State.readyPin_pinsLook, hpins.readyCond_eq]
  · rw [State.rd_bootLook_ne _ (by decide), State.rd_pinsLook, State.rd_statusLook_guarantee, hstatus.guaranteeHolds_eq]
  · rw [State.rd_bootLook_ne _ (by decide), State.rd_pinsLook, State.rd_statusLook_cond, hstatus.condBits_eq]

/-- Whatever the outputs were, they agree with the state after `look`. -/
theorem outputsAgree_look : outputsAgree s.look := outputsAgree_statusLook_pinsLook_bootLook s.guaranteeLook

end

theorem outputsAgree_settle (pre post : State) : outputsAgree (settle pre post) :=
  outputsAgree_look { post with now := max pre.now post.now }

theorem outputsAgree_settleAnew (pre post : State) : outputsAgree (settleAnew pre post) := outputsAgree_look post

theorem outputsAgree_exec {c : Instr} {s t : State} (h : exec c s = .next t) : outputsAgree t := by
  by_cases hc : c = .vddAonRise
  · subst hc
    rw [exec_vddAonRise] at h
    cases h
    exact outputsAgree_settleAnew _ _
  · obtain ⟨post, hpost⟩ := exec_eq_settle hc s
    rw [hpost] at h
    cases h
    exact outputsAgree_settle _ _

/-- Settles O4: a command brings the outputs into agreement whatever they were, and an idle step changes nothing they follow. -/
theorem outputsFollow : Obligations.OutputsFollow := by
  unfold Obligations.OutputsFollow
  intro s t hs hstep
  cases hq : s.pending with
  | nil =>
    rw [step_of_pending_nil hq] at hstep
    cases hstep
    exact hs
  | cons c rest =>
    rw [step_of_pending_cons hq] at hstep
    exact outputsAgree_exec hstep

end Sys2Proof.Machine
end

section
/-! The start of a round (O24). -/
namespace Sys2Proof.Machine

section
variable (s : State)

theorem State.now_lt_nextMs : s.now < s.nextMs := by unfold State.nextMs; omega

theorem State.now_passTo (t : Nat) : (s.passTo t).now = max s.now t := by unfold State.passTo; dsimp only; split <;> rfl
theorem State.plan_passTo (t : Nat) : (s.passTo t).plan = s.plan := by unfold State.passTo; dsimp only; split <;> rfl
theorem State.engines_passTo (t : Nat) : (s.passTo t).engines = s.engines := by unfold State.passTo; dsimp only; split <;> rfl

theorem State.roundsRun_of_not_applied (h : s.applied = false) : s.roundsRun = false := by simp [State.roundsRun, h]

theorem State.roundBody_of_not_roundsRun (h : s.roundsRun = false) (m : Measure) : s.roundBody m = s := by simp [State.roundBody, h]

theorem State.roundBody_of_roundsRun (h : s.roundsRun = true) (m : Measure) : s.roundBody m =
    (((((((s.chargeAll).applyDecision.blwRound).takeRoundPart).carouselRound).refillBudgets).decideRound m).select) := by
  simp [State.roundBody, h]

theorem doRoundStart_of_not_applied (hon : s.pwr.off = false) (h : s.applied = false) (m : Measure) :
    doRoundStart s m = s.passTo s.nextMs := by
  have hrun : (s.passTo s.nextMs).roundsRun = false :=
    State.roundsRun_of_not_applied _ ((congrArg Option.isSome (s.plan_passTo _)).trans h)
  simp [doRoundStart, hon, hrun, State.roundBody_of_not_roundsRun]

theorem doRoundStart_of_roundsRun (hon : s.pwr.off = false) (h : (s.passTo s.nextMs).roundsRun = true) (m : Measure) :
    doRoundStart s m = (s.passTo s.nextMs).sweepRound.roundBody m := by
  simp [doRoundStart, hon, h]

/-- With no Ringplan applied a round start only lets the time pass to the next whole millisecond. -/
theorem completes_roundStart_of_not_applied (hon : s.pwr.off = false) (h : s.applied = false) (m : Measure) :
    completes (.roundStart m) s fun t => t.now = s.nextMs ∧ t.engines = s.engines := by
  refine ⟨settle s (doRoundStart s m), rfl, ?_⟩
  rw [doRoundStart_of_not_applied s hon h]
  constructor
  · have := s.now_lt_nextMs
    rw [now_settle, State.now_passTo]
    omega
  · calc (settle s (s.passTo s.nextMs)).engines = (s.passTo s.nextMs).engines := engines_eq_of_inner (inner_settle _ _)
      _ = s.engines := s.engines_passTo _

end

/-- Settles O24, clause by clause; that rounds need ON or DOZE is log entry 106, that the sweep comes first log entry 114. -/
theorem roundsStart : Obligations.RoundsStart := by
  unfold Obligations.RoundsStart
  intro s m hon
  refine ⟨fun h => completes_roundStart_of_not_applied s hon h m, fun _ hpass => ?_, ?_⟩
  · refine ⟨settle s (doRoundStart s m), rfl, fun hu => ?_⟩
    rw [doRoundStart_of_roundsRun s hon hpass, State.roundBody_of_roundsRun _ hu]
  · refine ⟨settle s (doVoltageConfirmed s), rfl, ?_, fun b g hg ho => rd_settle ho hg⟩
    exact pwr_eq_of_inner (inner_settle s (doVoltageConfirmed s))

end Sys2Proof.Machine
end

section
/-! Staging a log record (R574) writes the log's status, its LOST event and the manager's pending bits, and acts on the log alone. -/
namespace Sys2Proof.Machine

/-- The state beside the registers without the log and without the records held while the Ringmaster restarts. -/
def State.unlogged (s : State) : State := { s.inner with log := {}, boot := { s.boot with staged := [] } }

/-- The registers that staging a record may write: LOG_STATUS, LOG_EVENT and the pending bits of the manager's vectors. -/
def stagingReg (b : Nat) : Prop :=
  b = logB + Reg.LOG_STATUS_STAGED.off ∨ b = logB + Reg.LOG_EVENT_LOST.off ∨ b = pbaBase 0

/-- `t` differs from `s` at most by what staging a record may change. -/
structure StagesOnly (s t : State) : Prop where
  unlogged : t.unlogged = s.unlogged
  regs : ∀ (b : Nat) (g : Fld), g.lo < 32 → ¬ stagingReg (b + g.off) → t.rd b g = s.rd b g

theorem State.unlogged_eq_of_inner {s t : State} (h : t.inner = s.inner) : t.unlogged = s.unlogged :=
  (congrArg (fun u : State => ({ u with log := {}, boot := { u.boot with staged := [] } } : State)) h :)

namespace StagesOnly

variable {s t : State}

theorem refl (s : State) : StagesOnly s s := ⟨rfl, fun _ _ _ _ => rfl⟩

theorem put (h : StagesOnly s t) {a : Nat} {f : Fld} (v : Nat) (hf : f.lo < 32) (hm : stagingReg (a + f.off)) :
    StagesOnly s (t.put a f v) :=
  ⟨h.unlogged, fun b g hg hn => (t.rd_put_addr v hf hg fun e => hn (e ▸ hm)).trans (h.regs b g hg hn)⟩

theorem setLog (h : StagesOnly s t) (x : LogX) : StagesOnly s { t with log := x } := ⟨h.unlogged, h.regs⟩

theorem hold (h : StagesOnly s t) (l : List LogRec) : StagesOnly s { t with boot := { t.boot with staged := l } } :=
  ⟨h.unlogged, h.regs⟩

theorem count (h : StagesOnly s t) (a n : Nat) : StagesOnly s (t.count a n) := ⟨h.unlogged, h.regs⟩

theorem raiseLost (h : StagesOnly s t) : StagesOnly s (t.raise logB Reg.LOG_EVENT_LOST) := by
  refine ⟨(State.unlogged_eq_of_inner (t.inner_raise (notRing_of_block (by decide)) _)).trans h.unlogged, fun b g hg hn => ?_⟩
  have hne : logB + Reg.LOG_EVENT_LOST.off ≠ b + g.off := fun e => hn (.inr (.inl e.symm))
  have hkey : fkey (logB + Reg.LOG_EVENT_LOST.off) Reg.LOG_EVENT_LOST.lo ≠ fkey (b + g.off) g.lo := by
    have : Reg.LOG_EVENT_LOST.lo < 32 := by decide
    unfold fkey
    omega
  exact (t.rd_raise_block (by decide) (fun e => hn (.inr (.inr e))) hg hkey).trans (h.regs b g hg hn)

theorem logLook (h : StagesOnly s t) : StagesOnly s t.logLook := h.put _ (by decide) (.inl rfl)

theorem stageLost (h : StagesOnly s t) : StagesOnly s t.stageLost := by
  unfold State.stageLost
  split
  · exact (h.setLog _).logLook
  · exact h.logLook

/-- The log's flash work starts with the log's state as given. -/
theorem logRun (h : StagesOnly s t) (x : LogX) : StagesOnly s (State.put { t with log := x } logB Reg.LOG_STATUS_BUSY 1) :=
  (h.setLog x).put _ (by decide) (.inl rfl)

theorem logKick (h : StagesOnly s t) : StagesOnly s t.logKick := by
  unfold State.logKick
  dsimp only
  split
  · exact h
  split
  · exact h.logRun _
  split
  · exact h
  split
  · exact h.logRun _
  split
  · exact h.logRun _
  split
  · exact h.logRun _
  · exact (h.logRun _).stageLost
  · exact h

theorem stageRec (h : StagesOnly s t) (r : LogRec) : StagesOnly s (t.stageRec r) := by
  unfold State.stageRec
  split
  · exact (h.setLog _).logLook.logKick
  · exact ((h.setLog _).count _ _).raiseLost

theorem stage (s : State) (r : LogRec) : StagesOnly s (s.stage r) := by
  unfold State.stage
  dsimp only
  split
  · exact (refl s).hold _
  · exact (refl s).stageRec _

end StagesOnly

end Sys2Proof.Machine
end

section
/-! What ends a command leaves of DEV_BOOT_STATUS: start-up's step 10 begins from step 9 alone (R550). -/
namespace Sys2Proof.Machine

section
variable (s : State) {b : Nat} {g : Fld}

theorem State.rd_guaranteeLook_of_ne (hev : snB + Reg.SN_EVENT_GUARANTEE_CHANGE.off ≠ b + g.off) (hpba : b + g.off ≠ pbaBase 0)
    (hg : g.lo < 32) : s.guaranteeLook.rd b g = s.rd b g := by
  unfold State.guaranteeLook
  split
  · rfl
  · refine s.rd_raise_block (by decide) hpba hg ?_
    have : Reg.SN_EVENT_GUARANTEE_CHANGE.lo < 32 := by decide
    unfold fkey
    omega

theorem State.rd_statusLook_of_ne (hst : snB + Reg.SN_STATUS_STOPPED.off ≠ b + g.off) (hg : g.lo < 32) :
    s.statusLook.rd b g = s.rd b g := by
  have put_status : ∀ (t : State) (f : Fld) (v : Nat), f.off = Reg.SN_STATUS_STOPPED.off → f.lo < 32 → (t.put snB f v).rd b g = t.rd b g :=
    fun t f v hf hlo => t.rd_put_addr v hlo hg (hf ▸ hst)
  unfold State.statusLook
  dsimp only
  rw [put_status _ _ _ (by decide) (by decide), put_status _ _ _ (by decide) (by decide), put_status _ _ _ (by decide) (by decide),
    put_status _ _ _ (by decide) (by decide)]

theorem State.bootLook_of_step_ne (h : s.rd devB Reg.DEV_BOOT_STATUS_STEP ≠ 9) : s.bootLook = s := by
  unfold State.bootLook
  exact if_neg fun h' => h h'.1

end

/-- Outside step 9, what ends a command leaves every field of DEV_BOOT_STATUS. -/
theorem rd_settle_bootStatus (pre : State) {post : State} {g : Fld} (hoff : g.off = Reg.DEV_BOOT_STATUS_STEP.off) (hg : g.lo < 32)
    (hstep : post.rd devB Reg.DEV_BOOT_STATUS_STEP ≠ 9) : (settle pre post).rd devB g = post.rd devB g := by
  have before : ∀ f : Fld, f.off = Reg.DEV_BOOT_STATUS_STEP.off → f.lo < 32 →
      ({ post with now := max pre.now post.now } : State).guaranteeLook.statusLook.pinsLook.rd devB f = post.rd devB f := by
    intro f hf hlo
    rw [State.rd_pinsLook, State.rd_statusLook_of_ne _ (by rw [hf]; decide) hlo,
      State.rd_guaranteeLook_of_ne _ (by rw [hf]; decide) (by rw [hf]; decide) hlo]
    rfl
  show (State.look { post with now := max pre.now post.now }).rd devB g = post.rd devB g
  unfold State.look
  rw [State.bootLook_of_step_ne _ (by rw [before _ rfl (by decide)]; exact hstep), before g hoff hg]

end Sys2Proof.Machine
end

section
/-! The rules of the firmware push (R554): its end, its start, the bundle that runs, its store. -/
namespace Sys2Proof.Machine

section
variable (s : State)

/-! ## What lies beside the registers and the log -/

@[simp] theorem fwp_settle (pre post : State) : (settle pre post).fwp = post.fwp := (congrArg State.fwp (inner_settle pre post) :)
@[simp] theorem fuses_settle (pre post : State) : (settle pre post).fuses = post.fuses := (congrArg State.fuses (inner_settle pre post) :)
@[simp] theorem flash_settle (pre post : State) : (settle pre post).flash = post.flash := (congrArg State.flash (inner_settle pre post) :)

/-! ## The end of an operation -/

/-- A firmware operation's end acts on the push and, beside the registers, on the log alone. -/
@[simp] theorem State.unlogged_fwFinish (r : Nat) : (s.fwFinish r).unlogged = { s.unlogged with fwp := {} } := by
  unfold State.fwFinish
  dsimp only
  exact (State.unlogged_eq_of_inner (State.inner_mgrIrq _)).trans (StagesOnly.stage _ _).unlogged

@[simp] theorem State.fwp_fwFinish (r : Nat) : (s.fwFinish r).fwp = {} := (congrArg State.fwp (s.unlogged_fwFinish r) :)
@[simp] theorem State.fuses_fwFinish (r : Nat) : (s.fwFinish r).fuses = s.fuses := (congrArg State.fuses (s.unlogged_fwFinish r) :)
@[simp] theorem State.pwr_fwFinish (r : Nat) : (s.fwFinish r).pwr = s.pwr := (congrArg State.pwr (s.unlogged_fwFinish r) :)
@[simp] theorem State.boot_fw_fwFinish (r : Nat) : (s.fwFinish r).boot.fw = s.boot.fw :=
  (congrArg (fun u : State => u.boot.fw) (s.unlogged_fwFinish r) :)

/-- The registers of an operation's end: REASON, BUSY and DONE, and those of a record staged. -/
theorem State.rd_fwFinish (r : Nat) {b : Nat} {g : Fld} (hg : g.lo < 32) (h : ¬ stagingReg (b + g.off)) :
    (s.fwFinish r).rd b g = (((s.put devB Reg.DEV_FW_PUSH_STATUS_REASON r).put devB Reg.DEV_FW_PUSH_STATUS_BUSY 0).put
      devB Reg.DEV_FW_PUSH_STATUS_DONE 1).rd b g := by
  unfold State.fwFinish
  dsimp only
  rw [State.rd_mgrIrq _ (fun e => h (.inr (.inr e))) hg, State.rd_put, (StagesOnly.stage _ _).regs b g hg h, ← State.rd_put]
  rfl

theorem State.rd_fwFinish_of_ne (r : Nat) {b : Nat} {g : Fld} (hg : g.lo < 32) (h : ¬ stagingReg (b + g.off))
    (hne : devB + Reg.DEV_FW_PUSH_STATUS_DONE.off ≠ b + g.off) : (s.fwFinish r).rd b g = s.rd b g := by
  rw [s.rd_fwFinish r hg h, State.rd_put_addr _ _ (by decide) hg hne, State.rd_put_addr _ _ (by decide) hg (by exact hne),
    State.rd_put_addr _ _ (by decide) hg (by exact hne)]

theorem not_stagingReg_fwPushStatus : ¬ stagingReg (devB + Reg.DEV_FW_PUSH_STATUS_DONE.off) := by
  unfold stagingReg
  decide

theorem not_outputReg_fwPushStatus : ¬ outputReg (devB + Reg.DEV_FW_PUSH_STATUS_DONE.off) := by
  unfold outputReg
  decide

/-- A field of DEV_FW_PUSH_STATUS after a command. -/
theorem rd_settle_fwPushStatus (pre post : State) {g : Fld} (hoff : g.off = Reg.DEV_FW_PUSH_STATUS_DONE.off) (hg : g.lo < 32) :
    (settle pre post).rd devB g = post.rd devB g := rd_settle (hoff ▸ not_outputReg_fwPushStatus) hg

theorem fwEnds_fwFinish {r : Nat} (hr : r < 256) : fwEnds r (s.fwFinish r) := by
  refine ⟨?_, ?_, ?_, congrArg PushX.phase (s.fwp_fwFinish r)⟩
  · rw [State.rd_fwFinish _ _ (by decide) (by exact not_stagingReg_fwPushStatus), State.rd_put_ne _ _ (by decide), State.rd_put_ne _ _ (by decide),
      State.rd_put_self]
    exact Nat.mod_eq_of_lt hr
  · rw [State.rd_fwFinish _ _ (by decide) (by exact not_stagingReg_fwPushStatus), State.rd_put_ne _ _ (by decide), State.rd_put_self]
    rfl
  · rw [State.rd_fwFinish _ _ (by decide) (by exact not_stagingReg_fwPushStatus), State.rd_put_self]
    rfl

theorem fwEnds_settle {r : Nat} (pre : State) {post : State} (h : fwEnds r post) : fwEnds r (settle pre post) := by
  obtain ⟨hreason, hbusy, hdone, hphase⟩ := h
  refine ⟨?_, ?_, ?_, ?_⟩
  · rwa [rd_settle_fwPushStatus _ _ (by decide) (by decide)]
  · rwa [rd_settle_fwPushStatus _ _ (by decide) (by decide)]
  · rwa [rd_settle_fwPushStatus _ _ (by decide) (by decide)]
  · rwa [fwp_settle]

theorem fwEnds_settle_fwFinish (pre : State) {r : Nat} (hr : r < 256) : fwEnds r (settle pre (s.fwFinish r)) :=
  fwEnds_settle pre (fwEnds_fwFinish s hr)

end

/-! ## GO with an operation -/

section
variable {s : State} {op : Nat}

theorem doFwGo_of_busy (ha : s.answers 0 = true) (hb : s.rd devB Reg.DEV_FW_PUSH_STATUS_BUSY = 1) :
    doFwGo s op = s.put devB Reg.DEV_FW_PUSH_STATUS_REASON 0x0B := by
  simp [doFwGo, State.mgrAny, State.fwGoNow, ha, hb]

theorem State.fwPermits_put_cmd (s : State) (v op : Nat) : (s.put devB Reg.DEV_FW_PUSH_CMD_OP v).fwPermits op = s.fwPermits op := by
  have hstate : (s.put devB Reg.DEV_FW_PUSH_CMD_OP v).bootState = s.bootState := s.rd_put_ne v (by decide)
  simp only [State.fwPermits, State.takesPushes, hstate]
  rfl

/-- GO while no operation is in progress, with the command recorded. -/
theorem doFwGo_of_idle (ha : s.answers 0 = true) (hb : s.rd devB Reg.DEV_FW_PUSH_STATUS_BUSY = 0) :
    doFwGo s op =
      if s.fwPermits op = false then (s.put devB Reg.DEV_FW_PUSH_CMD_OP op).fwFinish 0x0A
      else if op = 4 then ((s.put devB Reg.DEV_FW_PUSH_CMD_OP op).setFwp { phase := .check, op := op }).put devB Reg.DEV_FW_PUSH_STATUS_BUSY 1
      else if 4190208 < s.rd devB Reg.DEV_FW_PUSH_LEN_LEN then (s.put devB Reg.DEV_FW_PUSH_CMD_OP op).fwFinish 1
      else ((s.put devB Reg.DEV_FW_PUSH_CMD_OP op).setFwp { phase := .dma, op := op }).put devB Reg.DEV_FW_PUSH_STATUS_BUSY 1 := by
  have hlen : (s.put devB Reg.DEV_FW_PUSH_CMD_OP op).rd devB Reg.DEV_FW_PUSH_LEN_LEN = s.rd devB Reg.DEV_FW_PUSH_LEN_LEN :=
    s.rd_put_ne op (by decide)
  simp [doFwGo, State.mgrAny, State.fwGoNow, ha, hb, hlen, State.fwPermits_put_cmd]

theorem doFwGo_of_refused (ha : s.answers 0 = true) (hb : s.rd devB Reg.DEV_FW_PUSH_STATUS_BUSY = 0) (hp : s.fwPermits op = false) :
    doFwGo s op = (s.put devB Reg.DEV_FW_PUSH_CMD_OP op).fwFinish 0x0A := by
  rw [doFwGo_of_idle ha hb, if_pos hp]

theorem doFwGo_raiseFloor (ha : s.answers 0 = true) (hb : s.rd devB Reg.DEV_FW_PUSH_STATUS_BUSY = 0) (hp : s.fwPermits 4 = true) :
    doFwGo s 4 =
      ((s.put devB Reg.DEV_FW_PUSH_CMD_OP 4).setFwp { phase := .check, op := 4 }).put devB Reg.DEV_FW_PUSH_STATUS_BUSY 1 := by
  rw [doFwGo_of_idle ha hb, if_neg (by simp [hp]), if_pos rfl]

theorem doFwGo_of_too_long (ha : s.answers 0 = true) (hb : s.rd devB Reg.DEV_FW_PUSH_STATUS_BUSY = 0) (hp : s.fwPermits op = true)
    (hop : op ≠ 4) (hlen : 4190208 < s.rd devB Reg.DEV_FW_PUSH_LEN_LEN) :
    doFwGo s op = (s.put devB Reg.DEV_FW_PUSH_CMD_OP op).fwFinish 1 := by
  rw [doFwGo_of_idle ha hb, if_neg (by simp [hp]), if_neg hop, if_pos hlen]

theorem doFwGo_starts (ha : s.answers 0 = true) (hb : s.rd devB Reg.DEV_FW_PUSH_STATUS_BUSY = 0) (hp : s.fwPermits op = true)
    (hop : op ≠ 4) (hlen : s.rd devB Reg.DEV_FW_PUSH_LEN_LEN ≤ 4190208) :
    doFwGo s op =
      ((s.put devB Reg.DEV_FW_PUSH_CMD_OP op).setFwp { phase := .dma, op := op }).put devB Reg.DEV_FW_PUSH_STATUS_BUSY 1 := by
  rw [doFwGo_of_idle ha hb, if_neg (by simp [hp]), if_neg hop, if_neg (by omega)]

/-- An operation that has started: its entry, BUSY and the command. -/
theorem started_settle (s : State) (x : PushX) (hop : op < 8) :
    let t := settle s (((s.put devB Reg.DEV_FW_PUSH_CMD_OP op).setFwp x).put devB Reg.DEV_FW_PUSH_STATUS_BUSY 1)
    t.fwp = x ∧ t.rd devB Reg.DEV_FW_PUSH_STATUS_BUSY = 1 ∧ t.rd devB Reg.DEV_FW_PUSH_CMD_OP = op := by
  refine ⟨fwp_settle _ _, ?_, ?_⟩
  · rw [rd_settle_fwPushStatus _ _ (by decide) (by decide), State.rd_put_self]
    rfl
  · rw [rd_settle (by unfold outputReg; decide) (by decide), State.rd_put_ne _ _ (by decide)]
    exact (s.rd_put_self _ _ _).trans (Nat.mod_eq_of_lt hop)

/-- Every GO of the firmware push is the start of its operation. -/
theorem exec_fwGo {c : Instr} (h : (c, op) ∈ ([(.fwRun, 1), (.fwRunAndStore, 2), (.fwStore, 3), (.fwRaiseFloor, 4)] : List (Instr × Nat)))
    (s : State) : exec c s = .next (settle s (doFwGo s op)) ∧ op < 8 := by
  simp only [List.mem_cons, Prod.mk.injEq, List.not_mem_nil, or_false] at h
  rcases h with ⟨rfl, rfl⟩ | ⟨rfl, rfl⟩ | ⟨rfl, rfl⟩ | ⟨rfl, rfl⟩ <;> exact ⟨rfl, by decide⟩

end

/-! ## The copy of a bundle -/

section
variable {s : State} (data : List Byte)

theorem doFwDma_of_failed {st : ReadStatus} (hp : s.fwp.phase = .dma) (hst : st ≠ .ok) : doFwDma s data st = s.fwFinish 0x0C := by
  simp [doFwDma, hp, hst]

theorem doFwDma_of_ok (hp : s.fwp.phase = .dma) :
    doFwDma s data .ok = s.setFwp
      { s.fwp with
        phase := .check, image := data.take (leAt data 8 4), reason := s.fwCheck data (s.rd devB Reg.DEV_FW_PUSH_LEN_LEN) none } := by
  simp [doFwDma, hp]

end

/-! ## The bundle that runs -/

section
variable (s : State)

theorem State.rd_setBoot (x : BootX) (b : Nat) (g : Fld) : ({ s with boot := x } : State).rd b g = s.rd b g := rfl

theorem State.rd_clearPersist_of_ne (src idx : Nat) {b : Nat} {g : Fld}
    (h : fkey (snB + Reg.SN_PERSIST_PERSIST.off) Reg.SN_PERSIST_PERSIST.lo ≠ fkey (b + g.off) g.lo) :
    (s.clearPersist src idx).rd b g = s.rd b g := State.rd_put_ne _ _ h

theorem State.rd_startFirmware_source (raw : List Byte) (source : Nat) :
    (s.startFirmware raw source).rd devB Reg.DEV_BOOT_STATUS_FW_SOURCE = source % 4 := by
  unfold State.startFirmware
  rw [State.rd_clearPersist_of_ne _ _ _ (by decide), State.rd_setBoot, State.rd_put_self]
  rfl

/-- The registers of RUN: step 7 of start-up, in progress, from a pushed bundle, with the secure firmware running. -/
theorem State.rd_fwRunNow :
    s.fwRunNow.rd devB Reg.DEV_BOOT_STATUS_STEP = 7 ∧ s.fwRunNow.rd devB Reg.DEV_BOOT_STATUS_STATE = 0 ∧
    s.fwRunNow.rd devB Reg.DEV_BOOT_STATUS_FW_SOURCE = 3 ∧ s.fwRunNow.rd secB Reg.SEC_STATE_STATE = 1 := by
  have hregs : ∀ (b : Nat) (g : Fld), s.fwRunNow.rd b g = ((((s.startFirmware s.fwp.image 3).put devB Reg.DEV_BOOT_STATUS_STEP 7).put
      devB Reg.DEV_BOOT_STATUS_STATE 0).put secB Reg.SEC_STATE_STATE 1).rd b g := fun _ _ => rfl
  refine ⟨?_, ?_, ?_, ?_⟩
  · rw [hregs, State.rd_put_ne _ _ (by decide), State.rd_put_ne _ _ (by decide), State.rd_put_self]
    rfl
  · rw [hregs, State.rd_put_ne _ _ (by decide), State.rd_put_self]
    rfl
  · rw [hregs, State.rd_put_ne _ _ (by decide), State.rd_put_ne _ _ (by decide), State.rd_put_ne _ _ (by decide),
      State.rd_startFirmware_source]
  · rw [hregs, State.rd_put_self]
    rfl

theorem State.replanning_fwRunNow : s.fwRunNow.pwr.replanning = true := rfl
theorem State.boot_fw_fwRunNow : s.fwRunNow.boot.fw = s.fwp.image.take (leAt s.fwp.image 8 4) := rfl

end

/-! ## The stage that ends -/

section
variable {s : State}

theorem doFwDone_of_failed (hp : s.fwp.phase = .check) (hop : s.fwp.op ≠ 4) (hr : s.fwp.reason ≠ 0) :
    doFwDone s = s.fwFinish s.fwp.reason := by
  simp [doFwDone, hp, hop, hr]

theorem doFwDone_of_run (hp : s.fwp.phase = .check) (hop : s.fwp.op = 1) (hr : s.fwp.reason = 0) :
    doFwDone s = s.fwRunNow.fwFinish 0 := by
  simp [doFwDone, hp, hop, hr]

theorem doFwDone_of_store (hp : s.fwp.phase = .check) (hop : s.fwp.op = 3) (hr : s.fwp.reason = 0) : doFwDone s = s.fwStore := by
  simp [doFwDone, hp, hop, hr]

theorem doFwDone_of_stored (hp : s.fwp.phase = .storing 9) : doFwDone s = s.fwFinish 0 := by
  simp [doFwDone, hp]

theorem State.fwStore_of_inhibited (hi : s.inhibited = true) : s.fwStore = s.fwFinish 0x0D := by simp [State.fwStore, hi]

theorem State.fwStore_of_not_inhibited (hi : s.inhibited = false) : s.fwStore = s.setFwp { s.fwp with phase := .storing 1 } := by
  simp [State.fwStore, hi]

theorem doFwDone_floor_of_inhibited (hp : s.fwp.phase = .check) (hop : s.fwp.op = 4) (hi : s.inhibited = true) :
    doFwDone s = s.fwFinish 0x0D := by
  simp [doFwDone, hp, hop, hi]

theorem doFwDone_floor_of_raised (hp : s.fwp.phase = .check) (hop : s.fwp.op = 4) (hi : s.inhibited = false)
    (hv : s.fuses.fwFloor < leAt s.boot.fw 0x0C 4) (hf : s.frontHolds fwSlots s.boot.fw (leAt s.boot.fw 0x3C 4) = true) :
    doFwDone s = (State.put { s with fuses := { s.fuses with fwFloor := leAt s.boot.fw 0x0C 4 } } devB Reg.DEV_FW_FLOOR_FLOOR
      (leAt s.boot.fw 0x0C 4)).fwFinish 0 := by
  simp [doFwDone, hp, hop, hi, hv, hf]

theorem doFwDone_floor_of_not_above (hp : s.fwp.phase = .check) (hop : s.fwp.op = 4) (hi : s.inhibited = false)
    (hv : leAt s.boot.fw 0x0C 4 ≤ s.fuses.fwFloor) : doFwDone s = s.fwFinish 0x0A := by
  simp [doFwDone, hp, hop, hi, Nat.not_lt.mpr hv]

end

/-! ## A step of the store -/

section
variable {s : State} {n : Nat}

theorem State.fwp_storeStep (s : State) (m : SlotPair) (n : Nat) (img sealRec : List Byte) : (s.storeStep m n img sealRec).fwp = s.fwp := by
  unfold State.storeStep
  dsimp only
  split <;> rfl

/-- The read-back steps write nothing. -/
theorem State.storeStep_of_readBack (s : State) (m : SlotPair) (hn : n = 3 ∨ n = 7) (img sealRec : List Byte) :
    s.storeStep m n img sealRec = s := by
  obtain rfl | rfl := hn <;> rfl

theorem doStoreStep_of_write (ok : Bool) (hr : s.rpl.phase = .idle) (hp : s.fwp.phase = .storing n) (hn : n ≤ 8) (h3 : n ≠ 3) (h7 : n ≠ 7) :
    doStoreStep s ok = (s.storeStep fwSlots n s.fwp.image (sealOf fwSlots.code s.fwp.image.length (leAt s.fwp.image 0x3C 4))).setFwp
      { s.fwp with phase := .storing (n + 1) } := by
  simp [doStoreStep, hr, hp, show ¬ 9 ≤ n by omega, h3, h7, State.fwp_storeStep]

theorem doStoreStep_of_readBack (ok : Bool) (hr : s.rpl.phase = .idle) (hp : s.fwp.phase = .storing n) (hn : n = 3 ∨ n = 7)
    (hread : s.readBack fwSlots n = 0) :
    doStoreStep s ok = if ok then s.setFwp { s.fwp with phase := .storing (n + 1) } else s.fwFinish 4 := by
  have h9 : ¬ 9 ≤ n := by omega
  cases ok <;> simp [doStoreStep, hr, hp, h9, hn, hread, State.storeStep_of_readBack]

end

end Sys2Proof.Machine
end

section
/-! The firmware push (O57), a theorem for each of its commands. -/
namespace Sys2Proof.Machine

/-- A command whose effect is `u` completes with what holds once `u` is settled. -/
theorem completes_of_effect {c : Instr} {s post u : State} {Q : State → Prop} (he : exec c s = .next (settle s post)) (hu : post = u)
    (h : Q (settle s u)) : completes c s Q := ⟨settle s post, he, hu ▸ h⟩

/-- A command whose effect is the end of the firmware operation. -/
theorem completes_fwEnds {c : Instr} {s post u : State} {r : Nat} (he : exec c s = .next (settle s post)) (hu : post = u.fwFinish r)
    (hr : r < 256) : completes c s (fwEnds r) := completes_of_effect he hu (fwEnds_settle_fwFinish u s hr)

section
variable {s : State}

/-- A GO while BUSY leaves the operation in progress and gives REASON 0x0B. -/
theorem fwGo_while_busy {c : Instr} {op : Nat} (he : exec c s = .next (settle s (doFwGo s op))) (ha : s.answers 0 = true)
    (hb : s.rd devB Reg.DEV_FW_PUSH_STATUS_BUSY = 1) : completes c s fun t => t.rd devB Reg.DEV_FW_PUSH_STATUS_REASON = 0x0B ∧
      t.rd devB Reg.DEV_FW_PUSH_STATUS_BUSY = 1 ∧ t.fwp = s.fwp := by
  refine completes_of_effect he (doFwGo_of_busy ha hb) ⟨?_, ?_, fwp_settle _ _⟩
  · rw [rd_settle_fwPushStatus _ _ (by decide) (by decide), State.rd_put_self]
    rfl
  · rw [rd_settle_fwPushStatus _ _ (by decide) (by decide), State.rd_put_ne _ _ (by decide), hb]

theorem fwGo_refused {c : Instr} {op : Nat} (he : exec c s = .next (settle s (doFwGo s op))) (ha : s.answers 0 = true)
    (hb : s.rd devB Reg.DEV_FW_PUSH_STATUS_BUSY = 0) (hp : s.fwPermits op = false) : completes c s (fwEnds 0x0A) :=
  completes_fwEnds he (doFwGo_of_refused ha hb hp) (by decide)

theorem fwGo_too_long {c : Instr} {op : Nat} (he : exec c s = .next (settle s (doFwGo s op))) (ha : s.answers 0 = true)
    (hb : s.rd devB Reg.DEV_FW_PUSH_STATUS_BUSY = 0) (hp : s.fwPermits op = true) (hop : op ≠ 4)
    (hlen : 4190208 < s.rd devB Reg.DEV_FW_PUSH_LEN_LEN) : completes c s (fwEnds 1) :=
  completes_fwEnds he (doFwGo_of_too_long ha hb hp hop hlen) (by decide)

/-- RAISE_FLOOR needs no copy: its conditions are checked at once. -/
theorem fwGo_raises_floor {c : Instr} (he : exec c s = .next (settle s (doFwGo s 4))) (ha : s.answers 0 = true)
    (hb : s.rd devB Reg.DEV_FW_PUSH_STATUS_BUSY = 0) (hp : s.fwPermits 4 = true) :
    completes c s fun t => t.fwp.phase = .check ∧ t.fwp.op = 4 ∧ t.rd devB Reg.DEV_FW_PUSH_STATUS_BUSY = 1 := by
  obtain ⟨hx, hbusy, -⟩ := started_settle s { phase := .check, op := 4 } (show 4 < 8 by decide)
  exact completes_of_effect he (doFwGo_raiseFloor ha hb hp) ⟨congrArg PushX.phase hx, congrArg PushX.op hx, hbusy⟩

theorem fwGo_starts {c : Instr} {op : Nat} (he : exec c s = .next (settle s (doFwGo s op))) (hop8 : op < 8) (ha : s.answers 0 = true)
    (hb : s.rd devB Reg.DEV_FW_PUSH_STATUS_BUSY = 0) (hp : s.fwPermits op = true) (hop : op ≠ 4)
    (hlen : s.rd devB Reg.DEV_FW_PUSH_LEN_LEN ≤ 4190208) :
    completes c s fun t => t.fwp.phase = .dma ∧ t.fwp.op = op ∧ t.rd devB Reg.DEV_FW_PUSH_STATUS_BUSY = 1 ∧
      t.rd devB Reg.DEV_FW_PUSH_CMD_OP = op := by
  obtain ⟨hx, hbusy, hcmd⟩ := started_settle s { phase := .dma, op := op } hop8
  exact completes_of_effect he (doFwGo_starts ha hb hp hop hlen) ⟨congrArg PushX.phase hx, congrArg PushX.op hx, hbusy, hcmd⟩

theorem fwDma_fails (data : List Byte) {st : ReadStatus} (hp : s.fwp.phase = .dma) (hst : st ≠ .ok) :
    completes (.fwDmaDone data st) s (fwEnds 0x0C) :=
  completes_fwEnds rfl (doFwDma_of_failed data hp hst) (by decide)

theorem fwDma_arrives (data : List Byte) (hp : s.fwp.phase = .dma) : completes (.fwDmaDone data .ok) s fun t => t.fwp.phase = .check ∧
    t.fwp.op = s.fwp.op ∧ t.fwp.image = data.take (leAt data 8 4) ∧
    t.fwp.reason = s.fwCheck data (s.rd devB Reg.DEV_FW_PUSH_LEN_LEN) none ∧ keepsRegs s t := by
  refine completes_of_effect rfl (doFwDma_of_ok data hp) ?_
  rw [fwp_settle]
  exact ⟨rfl, rfl, rfl, rfl, fun b g hg ho => rd_settle ho hg⟩

/-- RUN: the registers of step 7 and the running bundle outlast the end of the operation. -/
theorem fwRun_done (hp : s.fwp.phase = .check) (hop : s.fwp.op = 1) (hr : s.fwp.reason = 0) : completes .fwPushDone s fun t => fwEnds 0 t ∧
    t.rd devB Reg.DEV_BOOT_STATUS_STEP = 7 ∧ t.rd devB Reg.DEV_BOOT_STATUS_STATE = 0 ∧ t.rd devB Reg.DEV_BOOT_STATUS_FW_SOURCE = 3 ∧
    t.rd secB Reg.SEC_STATE_STATE = 1 ∧ t.pwr.replanning = true ∧ t.boot.fw = s.fwp.image.take (leAt s.fwp.image 8 4) := by
  refine completes_of_effect rfl (doFwDone_of_run hp hop hr) ?_
  obtain ⟨hstep, hstate, hsource, hsec⟩ := s.rd_fwRunNow
  have hdev : ∀ g : Fld, g.off = Reg.DEV_BOOT_STATUS_STEP.off → g.lo < 32 →
      (s.fwRunNow.fwFinish 0).rd devB g = s.fwRunNow.rd devB g := fun g hoff hg =>
    State.rd_fwFinish_of_ne _ _ hg (by rw [hoff]; unfold stagingReg; decide) (by rw [hoff]; decide)
  have hne : (s.fwRunNow.fwFinish 0).rd devB Reg.DEV_BOOT_STATUS_STEP ≠ 9 := by
    rw [hdev _ (by decide) (by decide), hstep]
    decide
  refine ⟨fwEnds_settle_fwFinish _ _ (by decide), ?_, ?_, ?_, ?_, ?_, ?_⟩
  · rw [rd_settle_bootStatus _ (by decide) (by decide) hne, hdev _ (by decide) (by decide), hstep]
  · rw [rd_settle_bootStatus _ (by decide) (by decide) hne, hdev _ (by decide) (by decide), hstate]
  · rw [rd_settle_bootStatus _ (by decide) (by decide) hne, hdev _ (by decide) (by decide), hsource]
  · rw [rd_settle (by unfold outputReg; decide) (by decide),
      State.rd_fwFinish_of_ne _ _ (by decide) (by unfold stagingReg; decide) (by decide), hsec]
  · rw [pwr_eq_of_inner (inner_settle _ _), State.pwr_fwFinish, State.replanning_fwRunNow]
  · rw [boot_eq_of_inner (inner_settle _ _), State.boot_fw_fwFinish, State.boot_fw_fwRunNow]

theorem fwPushDone_ends {u : State} {r : Nat} (h : doFwDone s = u.fwFinish r) (hr : r < 256) : completes .fwPushDone s (fwEnds r) :=
  completes_fwEnds rfl h hr

theorem fwStore_begins (hp : s.fwp.phase = .check) (hop : s.fwp.op = 3) (hr : s.fwp.reason = 0) (hi : s.inhibited = false) :
    completes .fwPushDone s fun t => t.fwp = { s.fwp with phase := .storing 1 } ∧ t.boot.fw = s.boot.fw := by
  have hstore : doFwDone s = s.setFwp { s.fwp with phase := .storing 1 } :=
    (doFwDone_of_store hp hop hr).trans (State.fwStore_of_not_inhibited hi)
  refine completes_of_effect rfl hstore ⟨fwp_settle _ _, ?_⟩
  rw [boot_eq_of_inner (inner_settle _ _)]
  rfl

theorem fwFloor_raised (hp : s.fwp.phase = .check) (hop : s.fwp.op = 4) (hi : s.inhibited = false)
    (hv : s.fuses.fwFloor < leAt s.boot.fw 0x0C 4) (hf : s.frontHolds fwSlots s.boot.fw (leAt s.boot.fw 0x3C 4) = true) :
    completes .fwPushDone s fun t => fwEnds 0 t ∧ t.fuses.fwFloor = leAt s.boot.fw 0x0C 4 := by
  refine completes_of_effect rfl (doFwDone_floor_of_raised hp hop hi hv hf)
    ⟨fwEnds_settle_fwFinish _ _ (by decide), ?_⟩
  rw [fuses_settle, State.fuses_fwFinish]
  rfl

theorem fwFloor_kept (hp : s.fwp.phase = .check) (hop : s.fwp.op = 4) (hi : s.inhibited = false)
    (hv : leAt s.boot.fw 0x0C 4 ≤ s.fuses.fwFloor) : completes .fwPushDone s fun t => fwEnds 0x0A t ∧ t.fuses = s.fuses := by
  refine completes_of_effect rfl (doFwDone_floor_of_not_above hp hop hi hv)
    ⟨fwEnds_settle_fwFinish _ _ (by decide), ?_⟩
  rw [fuses_settle, State.fuses_fwFinish]

variable {n : Nat}

theorem storeStep_writes (ok : Bool) (hr : s.rpl.phase = .idle) (hp : s.fwp.phase = .storing n) (hn : n ≤ 8) (h3 : n ≠ 3) (h7 : n ≠ 7) :
    completes (.storeStepDone ok) s fun t => t.fwp = { s.fwp with phase := .storing (n + 1) } ∧
      t.flash = (s.storeStep fwSlots n s.fwp.image (sealOf fwSlots.code s.fwp.image.length (leAt s.fwp.image 0x3C 4))).flash :=
  completes_of_effect rfl (doStoreStep_of_write ok hr hp hn h3 h7) ⟨fwp_settle _ _, flash_settle _ _⟩

theorem storeStep_reads_back (hr : s.rpl.phase = .idle) (hp : s.fwp.phase = .storing n) (hn : n = 3 ∨ n = 7)
    (hread : s.readBack fwSlots n = 0) :
    completes (.storeStepDone true) s (fun t => t.fwp = { s.fwp with phase := .storing (n + 1) } ∧ t.flash = s.flash) ∧
    completes (.storeStepDone false) s (fwEnds 4) :=
  ⟨completes_of_effect rfl (doStoreStep_of_readBack true hr hp hn hread)
      ⟨fwp_settle _ _, flash_settle _ _⟩,
    completes_fwEnds rfl (doStoreStep_of_readBack false hr hp hn hread) (by decide)⟩

end

/-- Settles O57, clause by clause: what the checks and RAISE_FLOOR's NOT_PERMITTED rest on is log entry 52 (DESIGN CHOICE), the states
and stages of a push log entry 53 (DESIGN CHOICE), the end of a failed copy log entry 54 (DEDUCED), the store's steps log entry 51
(DESIGN CHOICE). -/
theorem firmwarePushes : Obligations.FirmwarePushes := by
  unfold Obligations.FirmwarePushes
  intro s data st ok len v
  refine ⟨?_, ?_, ?_, fwRun_done, ?_, ?_, ?_, ?_⟩
  · intro c op hc ha
    obtain ⟨he, hop8⟩ := exec_fwGo hc s
    refine ⟨fwGo_while_busy he ha, fwGo_refused he ha, fun hb hp => ⟨?_, ?_, ?_⟩⟩
    · rintro rfl
      exact fwGo_raises_floor he ha hb hp
    · exact fwGo_too_long he ha hb hp
    · exact fwGo_starts he hop8 ha hb hp
  · exact fun hp => ⟨fwDma_fails data hp, fwDma_arrives data hp⟩
  · exact fun hp hop hr hlt => fwPushDone_ends (doFwDone_of_failed hp hop hr) (by omega)
  · exact fun hp hop hr =>
      ⟨fun hi => fwPushDone_ends ((doFwDone_of_store hp hop hr).trans (State.fwStore_of_inhibited hi)) (by decide),
        fwStore_begins hp hop hr⟩
  · exact fun hp hop =>
      ⟨fun hi => fwPushDone_ends (doFwDone_floor_of_inhibited hp hop hi) (by decide), fwFloor_raised hp hop, fwFloor_kept hp hop⟩
  · exact fun hp => fwPushDone_ends (doFwDone_of_stored hp) (by decide)
  · exact fun n hr hp _ hn => ⟨storeStep_writes ok hr hp hn, storeStep_reads_back hr hp⟩

end Sys2Proof.Machine
end

section
/-! What ends every command leaves of the active values, the times of ARM, the mailboxes and the data of a read. -/
namespace Sys2Proof.Machine

section
variable (pre post : State)

@[simp] theorem act_settle : (settle pre post).act = post.act := (congrArg State.act (inner_settle pre post) :)
@[simp] theorem armAt_settle : (settle pre post).armAt = post.armAt := (congrArg State.armAt (inner_settle pre post) :)
@[simp] theorem mbx_settle : (settle pre post).mbx = post.mbx := (congrArg State.mbx (inner_settle pre post) :)
@[simp] theorem readData_settle : (settle pre post).readData = post.readData := (congrArg State.readData (inner_settle pre post) :)

end

end Sys2Proof.Machine
end

section
/-! A full-width write of one aligned 32-bit word (R90): one part, with every bit of the word enabled. -/
namespace Sys2Proof.Machine

/-- The write of a 32-bit word at an offset with every byte enabled. -/
def wordWrite (op : AliasOp) (off v : Nat) : Write := { off := off, data := natLE 4 v, be := [true, true, true, true], op := op }

@[simp] theorem length_natLE (n v : Nat) : (natLE n v).length = n := by
  induction n generalizing v with
  | zero => rfl
  | succ n ih => simp [natLE, ih]

section
variable (op : AliasOp) (o v : Nat)

theorem wordsOf_word : wordsOf (4 * o) 4 = [4 * o] := by
  have hfirst : 4 * o / 4 = o := by omega
  have hlast : (4 * o + 4 - 1) / 4 = o := by omega
  rw [wordsOf, if_neg (by decide), hlast, hfirst, Nat.sub_self]
  simp

theorem wordWrite_lanes (off : Nat) : (wordWrite op off v).lanes off = [0, 1, 2, 3] := by
  simp [Write.lanes, Write.on, wordWrite, List.range_succ]

/-- The four little-endian bytes of a 32-bit value, put together again. -/
theorem wordWrite_word (off : Nat) (hv : v < 2 ^ 32) : (wordWrite op off v).word off = (v, 2 ^ 32 - 1) := by
  have hbyte : ∀ b, b < 4 → ((wordWrite op off v).data.getD (off + b - (wordWrite op off v).off) 0).toNat = v / 256 ^ b % 256 := by
    intro b hb
    rw [show off + b - (wordWrite op off v).off = b from Nat.add_sub_cancel_left ..]
    interval_cases b <;> simp [wordWrite, natLE, Nat.div_div_eq_div_mul]
  rw [Write.word, wordWrite_lanes]
  simp only [List.foldl_cons, List.foldl_nil, Prod.mk.injEq]
  rw [hbyte 0 (by decide), hbyte 1 (by decide), hbyte 2 (by decide), hbyte 3 (by decide)]
  constructor
  · omega
  · rfl

theorem wordWrite_full8 (off : Nat) : (wordWrite op off v).full 8 = false := by
  simp [Write.full, wordWrite]

variable {o v} (hv : v < 2 ^ 32)
include hv

/-- A word write through a window that answers is one write of the register there. -/
theorem State.write_word {s : State} {w : Win} {a : Nat} (ha : s.answers (winFn w) = true) (hw : s.winWord w (4 * o) = .reg a) :
    s.write w (wordWrite op (4 * o) v) = s.writeWord a { fn := winFn w, op := op, val := v } := by
  have hoff : (wordWrite op (4 * o) v).off / 4 * 4 = 4 * o := by simp [wordWrite]; omega
  have hlen : (wordWrite op (4 * o) v).data.length = 4 := length_natLE 4 v
  have hpart : s.partChecked w (wordWrite op (4 * o) v) (4 * o) = s.writeWord a { fn := winFn w, op := op, val := v } := by
    simp [State.partChecked, hw, wordWrite_lanes, wordWrite_word op v _ hv, contiguous, State.writePart]
    rfl
  have hfit : ¬ (4 ≤ 4 ∧ 4 < (wordWrite op (4 * o) v).off % 4 + 4) := by simp [wordWrite]
  rw [State.write, ha, hoff, hw, wordWrite_full8, hlen]
  show (if 4 ≤ 4 ∧ 4 < (wordWrite op (4 * o) v).off % 4 + 4 then _ else
    (wordsOf (wordWrite op (4 * o) v).off 4).foldl (fun s o' => s.partChecked w (wordWrite op (4 * o) v) o') s) = _
  rw [if_neg hfit, show (wordWrite op (4 * o) v).off = 4 * o from rfl, wordsOf_word, List.foldl_cons, List.foldl_nil, hpart]

end

end Sys2Proof.Machine
end

section
/-! Broadcast views (O7): a word write is one write to each member, and a read on which the members agree is the lowest member's. -/
namespace Sys2Proof.Machine

section
variable {s : State} {sel typ o : Nat} {k : FrameKind} {ns : List Nat}

theorem State.bcastPart_word (op : AliasOp) {v : Nat} (hv : v < 2 ^ 32) (hb : s.bcast sel typ (4 * o) = .members k ns) :
    s.bcastPart sel typ (wordWrite op (4 * o) v) (4 * o) =
      ns.foldl (fun u n => u.writeWord (k.at n + 4 * o) { op := op, val := v }) s := by
  rw [State.bcastPart, wordWrite_lanes, hb, wordWrite_word op v _ hv]
  rfl

theorem doBroadcastWrite_word (op : AliasOp) {v : Nat} (hv : v < 2 ^ 32) (ha : s.answers 0 = true)
    (hb : s.bcast sel typ (4 * o) = .members k ns) :
    doBroadcastWrite s op sel typ (4 * o) (natLE 4 v) [true, true, true, true] =
      ns.foldl (fun u n => u.writeWord (k.at n + 4 * o) { op := op, val := v }) s := by
  have hfit : ¬ (4 ≤ 4 ∧ 4 < 4 * o % 4 + 4) := by simp
  rw [doBroadcastWrite, ha, length_natLE, wordsOf_word]
  simp only [Bool.not_true, Bool.false_eq_true, if_false, if_neg hfit]
  exact State.bcastPart_word op hv hb

theorem doBroadcastRead_of_agree (ha : s.answers 0 = true) (hb : s.bcast sel typ (4 * o) = .members k ns)
    (hagree : ∀ n ∈ ns, s.readWord (k.at n + 4 * o) = s.readWord (k.at (ns.headD 0) + 4 * o)) :
    doBroadcastRead s sel typ (4 * o) = { s with readData := natLE 4 (s.readWord (k.at (ns.headD 0) + 4 * o)) } := by
  have hoff : 4 * o / 4 * 4 = 4 * o := by omega
  have hother : (ns.filter fun n => decide (s.readWord (k.at n + 4 * o) ≠ s.readWord (k.at (ns.headD 0) + 4 * o))) = [] :=
    List.filter_eq_nil_iff.mpr fun n hn => by simpa using hagree n hn
  simp only [doBroadcastRead, hoff, ha, hb, hother]
  rfl

end

/-- Settles O7: the parts of a word write are one part, and no member disagrees; that the members are written lowest first is log
entry 39 (DESIGN CHOICE). -/
theorem broadcastView : Obligations.BroadcastView := by
  unfold Obligations.BroadcastView
  intro s op sel typ off v k ns ha hb
  exact ⟨completes_of_effect rfl (doBroadcastWrite_word op v.isLt ha hb) rfl,
    fun hagree => completes_of_effect rfl (doBroadcastRead_of_agree ha hb hagree) rfl⟩

end Sys2Proof.Machine
end

section
/-! A register whose one field is plain (R3, R87, R90): LOG_RD_SEQ, written directly and through its aliases (O6). -/
namespace Sys2Proof.Machine

/-- The word that a full-width write makes of an old one. -/
def mergedWord (old v : Word) : AliasOp → Word
  | .normal => v
  | .set => old ||| v
  | .clear => old &&& ~~~v
  | .toggle => old ^^^ v

theorem xor_and_self_eq_and_not {n : Nat} (x y : BitVec n) : x ^^^ (x &&& y) = x &&& ~~~y := by
  ext i hi
  simp only [BitVec.getElem_xor, BitVec.getElem_and, BitVec.getElem_not]
  cases x[i] <;> cases y[i] <;> rfl

theorem merge_toNat (op : AliasOp) (old v : Word) :
    RegWrite.merge { op := op, val := v.toNat } old.toNat = (mergedWord old v op).toNat := by
  have hv : v.toNat &&& (2 ^ 32 - 1) = v.toNat := by rw [Nat.and_two_pow_sub_one_eq_mod, Nat.mod_eq_of_lt v.isLt]
  have ho : old.toNat &&& (2 ^ 32 - 1) = old.toNat := by rw [Nat.and_two_pow_sub_one_eq_mod, Nat.mod_eq_of_lt old.isLt]
  cases op with
  | normal => simp only [RegWrite.merge, mergedWord, hv, ho, Nat.xor_self, Nat.zero_or]
  | set => simp only [RegWrite.merge, mergedWord, hv, BitVec.toNat_or]
  | clear => simp only [RegWrite.merge, mergedWord, hv, ← xor_and_self_eq_and_not, BitVec.toNat_xor, BitVec.toNat_and]
  | toggle => simp only [RegWrite.merge, mergedWord, hv, BitVec.toNat_xor]

/-- A write that acts on no bit leaves the word. -/
theorem mergedWord_of_acts_eq_zero {op : AliasOp} {v : Word} (h : RegWrite.acts { op := op, val := v.toNat } % 2 ^ 32 = 0) (old : Word) :
    mergedWord old v op = old := by
  have hv : op ≠ .normal → v = 0 := by
    intro hop
    rw [RegWrite.acts, if_neg hop, Nat.and_two_pow_sub_one_eq_mod, Nat.mod_mod, Nat.mod_eq_of_lt v.isLt] at h
    exact BitVec.eq_of_toNat_eq h
  cases op with
  | normal => simp [RegWrite.acts] at h
  | set => simp [mergedWord, hv]
  | clear => rw [mergedWord, hv (by decide), show ~~~(0 : Word) = BitVec.allOnes 32 from rfl, BitVec.and_allOnes]
  | toggle => simp [mergedWord, hv]

/-- The one field row of LOG_RD_SEQ, and where it lies. -/
def logSeqRow : FRow := { fld := { off := 20, lo := 0, w := 32 }, ty := .rw, reset := 0, legal := [], stride := 0, count := 1 }
def logSeqLoc : RegLoc := { kind := .log, n := 0, off := 20, a := logSeqAt, base := logB }

theorem regRows_logSeqAt : regRows logSeqAt = [logSeqRow] := by decide
theorem locAt_logSeqAt : locAt logSeqAt = some logSeqLoc := by decide

section
variable (s : State)

/-- LOG_RD_SEQ's field takes the word whole: every value is an encoding. -/
theorem State.fieldLand_logSeq (new : Nat) : s.fieldLand logSeqLoc logSeqRow new = s.put logB Reg.LOG_RD_SEQ_SEQ (bitsOf new 0 32) := rfl

/-- A write that acts on a bit of the word lands in the register's one field. -/
theorem State.foldl_fieldLand_logSeq {acts : Nat} (h : acts % 2 ^ 32 ≠ 0) (new : Nat) :
    ([logSeqRow].filter fun r => decide (bitsOf acts r.fld.lo r.fld.w ≠ 0)).foldl (fun u r => u.fieldLand logSeqLoc r new) s =
      s.put logB Reg.LOG_RD_SEQ_SEQ (new % 2 ^ 32) := by
  have hon : bitsOf acts logSeqRow.fld.lo logSeqRow.fld.w ≠ 0 := by simpa [bitsOf, logSeqRow] using h
  rw [List.filter_eq_self.mpr (by simpa using hon), List.foldl_cons, List.foldl_nil, State.fieldLand_logSeq, bitsOf, Nat.pow_zero, Nat.div_one]

theorem typeFor_logSeq (x : RegWrite) : typeFor x logSeqLoc logSeqRow = .rw := by
  unfold typeFor mgrOnly
  rw [show decide (logSeqLoc.kind = .inst) = false from rfl, Bool.and_false, Bool.false_and]
  rfl

/-- The field takes the merged word if the write acts on a bit of it; nothing bars the write, and nothing is set going. -/
theorem State.regLand_logSeq {x : RegWrite} (hhw : x.hw = false) (ho : s.rd logB Reg.LOG_RD_SEQ_SEQ < 2 ^ 32) :
    s.regLand logSeqLoc x = if x.acts % 2 ^ 32 = 0 then s else
      s.put logB Reg.LOG_RD_SEQ_SEQ (x.merge (s.rd logB Reg.LOG_RD_SEQ_SEQ) % 2 ^ 32) := by
  unfold State.regLand
  extract_lets rows plain rest rest' bits acts old new ctrl wrong checked written
  have hrows : rows = [logSeqRow] := by
    show (regRows logSeqAt).filter _ = _
    rw [regRows_logSeqAt]
    rfl
  have hplain : plain = [logSeqRow] := by
    show rows.filter _ = _
    simp only [hrows, List.filter_cons, typeFor_logSeq]
    rfl
  have hrest' : rest' = [] := by
    show (rows.filter _).filter _ ++ (rows.filter _).filter _ = _
    rw [hrows, hplain]
    rfl
  have hbits : bits = 2 ^ 32 - 1 := by
    show plain.foldl _ 0 &&& _ = _
    rw [hplain]
    rfl
  have hold : old = s.rd logB Reg.LOG_RD_SEQ_SEQ := by
    show plain.foldl _ 0 = _
    rw [hplain, List.foldl_cons, List.foldl_nil, Nat.zero_add]
    exact Nat.mul_one _
  have hacts : acts = x.acts % 2 ^ 32 := by
    show x.acts &&& bits = _
    rw [hbits, Nat.and_two_pow_sub_one_eq_mod]
  have hnew : new = x.merge (s.rd logB Reg.LOG_RD_SEQ_SEQ) % 2 ^ 32 := by
    show (x.merge old &&& bits) ||| (old ^^^ (old &&& bits)) = _
    rw [hold, hbits, Nat.and_two_pow_sub_one_eq_mod, Nat.and_two_pow_sub_one_eq_mod, Nat.mod_eq_of_lt ho, Nat.xor_self, Nat.or_zero]
  have hchecked : checked = s := by
    show (if (_ && rest'.any _) = true then _ else _) = _
    rw [hrest', List.any_nil, Bool.and_false]
    rfl
  have hwritten : written = if x.acts % 2 ^ 32 = 0 then s else
      s.put logB Reg.LOG_RD_SEQ_SEQ (x.merge (s.rd logB Reg.LOG_RD_SEQ_SEQ) % 2 ^ 32) := by
    by_cases h0 : acts = 0
    · rw [if_pos (hacts ▸ h0)]
      exact (if_pos h0).trans hchecked
    · have hany : (plain.any fun r => decide (r.ty = .rwb) && decide (bitsOf acts r.fld.lo r.fld.w ≠ 0)) = false := by
        rw [hplain]
        rfl
      have h0' : acts % 2 ^ 32 ≠ 0 := by
        rw [hacts, Nat.mod_mod]
        exact hacts ▸ h0
      rw [if_neg (hacts ▸ h0)]
      calc written = State.afterWrite (if (plain.any fun r => decide (r.ty = .rwb) && decide (bitsOf acts r.fld.lo r.fld.w ≠ 0)) = true
              then _ else (plain.filter fun r => decide (bitsOf acts r.fld.lo r.fld.w ≠ 0)).foldl
                (fun s r => s.fieldLand logSeqLoc r new) checked) logSeqLoc acts old new _ := if_neg h0
        _ = ([logSeqRow].filter fun r => decide (bitsOf acts r.fld.lo r.fld.w ≠ 0)).foldl (fun s r => s.fieldLand logSeqLoc r new) s := by
          rw [hany, hplain, hchecked]
          rfl
        _ = _ := by rw [State.foldl_fieldLand_logSeq _ h0', hnew, Nat.mod_mod]
  calc _ = if x.op = .normal then rest'.foldl (fun s r => s.fieldAct logSeqLoc r x) written else written := by
        rw [hhw]
        rfl
    _ = written := by rw [hrest', List.foldl_nil, ite_self]
    _ = _ := hwritten

/-- A write of LOG_RD_SEQ with every byte enabled. -/
theorem State.writeWord_logSeq {x : RegWrite} (hhw : x.hw = false) (ho : s.rd logB Reg.LOG_RD_SEQ_SEQ < 2 ^ 32) :
    s.writeWord logSeqAt x = if x.acts % 2 ^ 32 = 0 then s else
      s.put logB Reg.LOG_RD_SEQ_SEQ (x.merge (s.rd logB Reg.LOG_RD_SEQ_SEQ) % 2 ^ 32) := by
  have hopen : (s.awaiting && !openEarly.contains logSeqLoc.kind) = false := Bool.and_false _
  rw [State.writeWord, locAt_logSeqAt, ← s.regLand_logSeq hhw ho]
  simp only [hopen]
  rfl

theorem not_outputReg_logSeq : ¬ outputReg (logB + Reg.LOG_RD_SEQ_SEQ.off) := by
  unfold outputReg
  decide

end

/-- A command whose effect is a full-width write of LOG_RD_SEQ through the manager's window. -/
theorem completes_write_logSeq {c : Instr} {s : State} {op : AliasOp} {v : Word} (ha : s.answers 0 = true)
    (ho : s.rd logB Reg.LOG_RD_SEQ_SEQ < 2 ^ 32) (he : exec c s = .next (settle s (s.write .mgr (wordWrite op logSeqAt v.toNat)))) :
    completes c s fun t =>
      t.rd logB Reg.LOG_RD_SEQ_SEQ = (mergedWord (.ofNat 32 (s.rd logB Reg.LOG_RD_SEQ_SEQ)) v op).toNat ∧ onlyLogSeq s t := by
  have hold : (BitVec.ofNat 32 (s.rd logB Reg.LOG_RD_SEQ_SEQ)).toNat = s.rd logB Reg.LOG_RD_SEQ_SEQ := Nat.mod_eq_of_lt ho
  have hmerge := merge_toNat op (.ofNat 32 (s.rd logB Reg.LOG_RD_SEQ_SEQ)) v
  rw [hold] at hmerge
  have hwrite : s.write .mgr (wordWrite op (4 * (logSeqAt / 4)) v.toNat) = s.writeWord logSeqAt { op := op, val := v.toNat } :=
    State.write_word op v.isLt (w := .mgr) ha rfl
  refine completes_of_effect he (hwrite.trans (s.writeWord_logSeq rfl ho)) ?_
  rw [hmerge, Nat.mod_eq_of_lt (BitVec.isLt _), onlyLogSeq]
  split
  case isTrue hacts =>
    rw [rd_settle not_outputReg_logSeq (by decide), mergedWord_of_acts_eq_zero hacts, hold]
    exact ⟨rfl, (keeps.refl _ s).settle s, (keepsWide.refl _ s).settle s⟩
  case isFalse =>
    rw [rd_settle not_outputReg_logSeq (by decide), State.rd_put_self]
    refine ⟨Nat.mod_eq_of_lt (BitVec.isLt _), ?_, ?_⟩
    · exact ((keeps.refl _ s).put _ (by decide) (by unfold inFrame; decide)).settle s
    · exact ((keepsWide.refl _ s).put _ _ _).settle s

/-- Settles O6: each of the four writes is one write of the register, whose word `mergedWord` gives; that its aliases act on the bits
written as 1 alone is log entry 25 (DESIGN CHOICE). -/
theorem plainRegister : Obligations.PlainRegister := by
  unfold Obligations.PlainRegister
  intro s v ha ho old bs be
  have hold : (BitVec.ofNat 32 old).toNat = old := Nat.mod_eq_of_lt ho
  have hset : (mergedWord (.ofNat 32 old) v .set).toNat = (old ||| v.toNat) := by rw [mergedWord, BitVec.toNat_or, hold]
  have htoggle : (mergedWord (.ofNat 32 old) v .toggle).toNat = (old ^^^ v.toNat) := by rw [mergedWord, BitVec.toNat_xor, hold]
  refine ⟨completes_write_logSeq (op := .normal) ha ho rfl, ?_, completes_write_logSeq (op := .clear) ha ho rfl, ?_⟩
  · rw [← hset]
    exact completes_write_logSeq (op := .set) ha ho rfl
  · rw [← htoggle]
    exact completes_write_logSeq (op := .toggle) ha ho rfl

end Sys2Proof.Machine
end

section
/-! ARM, REVERT and the apply of an idle frame (O8). -/
namespace Sys2Proof.Machine

/-- The address of the frame that a reference names. -/
def frameBase (f : FrameRef) : Nat := (frameRef f).1.at (frameRef f).2

theorem not_outputReg_hapCh (a : Fin 8) {o : Nat} (ho : o < 0x100) : ¬ outputReg (hapChB a.val + o) := by
  have ha := a.isLt
  simp only [outputReg, hapChB, FrameKind.at, FrameKind.base, FrameKind.stride, snB, devB, pbaBase, pciB, if_true,
    Reg.SN_STATUS_STOPPED, Reg.SN_EVENT_FAULT, Reg.DEV_BOOT_STATUS_STEP]
  omega

theorem not_outputReg_ctrl {f : FrameRef} (hf : plainFrame f) : ¬ outputReg (frameBase f + Reg.CTRL_ARM.off) := by
  cases f with
  | car | blw | cal =>
    unfold outputReg
    decide
  | hap a => exact not_outputReg_hapCh a (by decide)
  | ring | head | layer => exact hf.elim

section
variable {s : State} {f : FrameRef}

/-- A write of CTRL reaches a plain frame while the manager's function answers and a Ringplan is in force. -/
theorem State.ctrlReach_plain (ha : s.answers 0 = true) (hw : s.awaiting = false) (hf : plainFrame f) (act : State → State) :
    s.ctrlReach f act = act s := by
  have hreach : ∀ off, s.mgrReach (off := off) act = act s := fun off => by
    rw [State.mgrReach, ha, hw]
    rfl
  cases f with
  | car | blw | cal | hap => exact hreach _
  | ring | head | layer => exact hf.elim

theorem State.armNow_plain (hf : plainFrame f) : s.armNow (frameRef f).1 (frameRef f).2 = s.armFrame (frameBase f) := by
  cases f with
  | car | blw | cal | hap => rfl
  | ring | head | layer => exact hf.elim

/-- The time of ARM, which `armFrame` notes beside CTRL, is no register. -/
theorem State.rd_armFrame (b c : Nat) (g : Fld) : (s.armFrame b).rd c g = (s.put b Reg.CTRL_ARM 1).rd c g := rfl

theorem completes_arm (ha : s.answers 0 = true) (hw : s.awaiting = false) (hf : plainFrame f) :
    completes (.arm f) s fun t => t.rd (frameBase f) Reg.CTRL_ARM = 1 ∧ t.armAt = (s.armFrame (frameBase f)).armAt ∧ t.act = s.act ∧
      ∀ (c : Nat) (g : Fld), g.lo < 32 → ¬ outputReg (c + g.off) → c + g.off ≠ frameBase f + Reg.CTRL_ARM.off → t.rd c g = s.rd c g := by
  refine completes_of_effect rfl ((State.ctrlReach_plain ha hw hf _).trans (State.armNow_plain hf)) ⟨?_, ?_, ?_, ?_⟩
  · rw [rd_settle (not_outputReg_ctrl hf) (by decide), State.rd_armFrame, State.rd_put_self]
    rfl
  · exact armAt_settle _ _
  · exact act_settle _ _
  · intro c g hg ho hne
    rw [rd_settle ho hg, State.rd_armFrame, State.rd_put_addr _ _ (by decide) hg hne.symm]

theorem completes_revert (ha : s.answers 0 = true) (hw : s.awaiting = false) (hf : plainFrame f) :
    completes (.revert f) s fun t => t.rd (frameBase f) Reg.CTRL_ARM = 0 ∧ t.act = s.act := by
  refine completes_of_effect rfl (State.ctrlReach_plain ha hw hf _) ⟨?_, act_settle _ _⟩
  rw [rd_settle (not_outputReg_ctrl hf) (by decide)]
  exact State.rd_put_self _ _ _ _

theorem State.hapIdleApply_of_armed {a : Nat} (harm : s.armed (hapChB a) = true) (hidle : s.hapActive a = false)
    (hok : s.reservedShadow (hapChB a) = none) : s.hapIdleApply a = s.applyFrame (hapChB a) := by
  simp [State.hapIdleApply, harm, hidle, hok]

theorem State.rd_applyFrame_arm (b : Nat) : (s.applyFrame b).rd b Reg.CTRL_ARM = 0 := by
  have hne : fkey (b + Reg.APPLY_APPLIED.off) Reg.APPLY_APPLIED.lo ≠ fkey (b + Reg.CTRL_ARM.off) Reg.CTRL_ARM.lo := by
    simp only [fkey, Reg.APPLY_APPLIED, Reg.CTRL_ARM]
    omega
  rw [State.applyFrame, State.inc, State.rd_put_ne _ _ hne, State.rd_put_self]
  rfl

theorem State.rd_applyFrame_applied (b : Nat) :
    (s.applyFrame b).rd b Reg.APPLY_APPLIED = (s.rd b Reg.APPLY_APPLIED + 1) % 2 ^ Reg.APPLY_APPLIED.w := by
  have hne : b + Reg.CTRL_ARM.off ≠ b + Reg.APPLY_APPLIED.off := by
    simp [Reg.APPLY_APPLIED, Reg.CTRL_ARM]
  rw [State.applyFrame, State.inc, State.rd_put_self, State.rd_put_addr _ _ (by decide) (by decide) hne]
  rfl

theorem completes_idleApply_hap {a : Fin 8} (harm : s.armed (hapChB a.val) = true) (hidle : s.hapActive a.val = false)
    (hok : s.reservedShadow (hapChB a.val) = none) :
    completes (.idleApply (.hap a)) s fun t => t.rd (hapChB a.val) Reg.CTRL_ARM = 0 ∧
      t.rd (hapChB a.val) Reg.APPLY_APPLIED = (s.rd (hapChB a.val) Reg.APPLY_APPLIED + 1) % 2 ^ Reg.APPLY_APPLIED.w ∧
      t.act = (s.takeShadow (hapChB a.val)).act := by
  refine completes_of_effect rfl (State.hapIdleApply_of_armed harm hidle hok) ⟨?_, ?_, act_settle _ _⟩
  · rw [rd_settle (not_outputReg_hapCh a (by decide)) (by decide), State.rd_applyFrame_arm]
  · rw [rd_settle (not_outputReg_hapCh a (by decide)) (by decide), State.rd_applyFrame_applied]

end

/-- Settles O8: the frame's CTRL is reached and is no output; what becomes of a commit whose ARM a REVERT clears is log entry 43
(DESIGN CHOICE), that a haptic channel's idle apply needs no lead time log entry 99 (DESIGN CHOICE). -/
theorem armRevertApply : Obligations.ArmRevertApply := by
  unfold Obligations.ArmRevertApply
  intro s f a ha hw hf
  exact ⟨completes_arm ha hw hf, completes_revert ha hw hf, completes_idleApply_hap⟩

end Sys2Proof.Machine
end

section
/-! The manager's mailbox (O9, R104 to R106): the words of a request, its start, the capture, the data words. -/
namespace Sys2Proof.Machine

theorem not_outputReg_mbx {o : Nat} (ho : o < 0x18) : ¬ outputReg (mbxB 0 + o) := by
  unfold outputReg
  revert o
  decide

section
variable (s : State)

/-- A field of the manager's mailbox after a command. -/
theorem rd_settle_mbx (pre post : State) {g : Fld} (ho : g.off < 0x18) (hg : g.lo < 32) :
    (settle pre post).rd (mbxB 0) g = post.rd (mbxB 0) g := rd_settle (not_outputReg_mbx ho) hg

theorem mbxWord_settle (pre post : State) {j : Nat} (hj : j < 4) : (settle pre post).mbxWord 0 j = post.mbxWord 0 j := by
  have hout : ¬ outputReg (mbxB 0 + 4 * j + Reg.MBX_DATA_DATA.off) := by
    rw [Nat.add_assoc]
    exact not_outputReg_mbx (by simp only [Reg.MBX_DATA_DATA]; omega)
  exact rd_settle hout (by decide)

/-- A field outside the data words is none of them. -/
theorem State.mbxWord_put (f : Fld) (v : Nat) {j : Nat} (hf : f.lo < 32) (ho : f.off < 8) : (s.put (mbxB 0) f v).mbxWord 0 j = s.mbxWord 0 j := by
  refine s.rd_put_addr v hf (by decide) ?_
  simp only [Reg.MBX_DATA_DATA]
  omega

theorem State.mbxWord_mbxHold (fn : Nat) (r : Option Nat) (j : Nat) : (s.mbxHold fn r).mbxWord 0 j = s.mbxWord 0 j := rfl
theorem State.wide_mbxHold (fn : Nat) (r : Option Nat) : (s.mbxHold fn r).wide = s.wide := rfl
theorem State.wide_mbxStatus (fn valid err words : Nat) : (s.mbxStatus fn valid err words).wide = s.wide := rfl
theorem State.mbx_mbxStatus (fn valid err words : Nat) : (s.mbxStatus fn valid err words).mbx = s.mbx := rfl

/-! ## What a code names depends on no mailbox register -/

theorem State.slotHeld_put_mbx (f : Fld) (v a : Nat) (hf : f.lo < 32) (ho : f.off < 0x18) :
    (s.put (mbxB 0) f v).slotHeld a = s.slotHeld a := by
  have hne : mbxB 0 + f.off ≠ rplB + Reg.RPL_STATE_STATE.off := by
    simp only [mbxB, if_true, devB, rplB, FrameKind.base, Reg.RPL_STATE_STATE]
    omega
  have haw : (s.put (mbxB 0) f v).awaiting = s.awaiting := by
    unfold State.awaiting
    rw [s.rd_put_addr v hf (by decide) hne]
  unfold State.slotHeld
  rw [haw]

theorem State.mbxSlot_put_mbx (f : Fld) (v fn code : Nat) : (s.put (mbxB 0) f v).mbxSlot fn code = s.mbxSlot fn code := rfl

theorem State.wideValue_put_mbx (f : Fld) (v code : Nat) (hf : f.lo < 32) (ho : f.off < 0x18) :
    (s.put (mbxB 0) f v).wideValue 0 code = s.wideValue 0 code := by
  unfold State.wideValue
  simp only [State.mbxSlot_put_mbx, s.slotHeld_put_mbx f v _ hf ho]
  rfl

/-! ## A request starts -/

/-- The state in which a request starts: MBX_REQ holds it, an earlier one is discarded, and VALID is clear. -/
def State.mbxStarted (op code : Nat) : State :=
  (((s.put (mbxB 0) Reg.MBX_REQ_OFFSET (code / 4)).put (mbxB 0) Reg.MBX_REQ_OP op).mbxHold 0 none).put (mbxB 0) Reg.MBX_STATUS_VALID 0

theorem State.wide_mbxStarted (op code : Nat) : (s.mbxStarted op code).wide = s.wide := rfl

theorem State.rd_mbxStarted_valid (op code : Nat) : (s.mbxStarted op code).rd (mbxB 0) Reg.MBX_STATUS_VALID = 0 :=
  State.rd_put_self _ _ _ _

theorem State.mbxSlot_mbxStarted (op code : Nat) : (s.mbxStarted op code).mbxSlot 0 code = s.mbxSlot 0 code := rfl

theorem State.slotHeld_mbxStarted (op code a : Nat) : (s.mbxStarted op code).slotHeld a = s.slotHeld a := by
  calc (s.mbxStarted op code).slotHeld a
      = ((s.put (mbxB 0) Reg.MBX_REQ_OFFSET (code / 4)).put (mbxB 0) Reg.MBX_REQ_OP op).slotHeld a :=
        State.slotHeld_put_mbx _ _ _ _ (by decide) (by decide)
    _ = s.slotHeld a := by
      rw [State.slotHeld_put_mbx _ _ _ _ (by decide) (by decide), State.slotHeld_put_mbx _ _ _ _ (by decide) (by decide)]

theorem State.wideValue_mbxStarted (op code : Nat) : (s.mbxStarted op code).wideValue 0 code = s.wideValue 0 code := by
  calc (s.mbxStarted op code).wideValue 0 code
      = ((s.put (mbxB 0) Reg.MBX_REQ_OFFSET (code / 4)).put (mbxB 0) Reg.MBX_REQ_OP op).wideValue 0 code :=
        State.wideValue_put_mbx _ _ _ _ (by decide) (by decide)
    _ = s.wideValue 0 code := by
      rw [State.wideValue_put_mbx _ _ _ _ (by decide) (by decide), State.wideValue_put_mbx _ _ _ _ (by decide) (by decide)]

theorem State.mbxWord_mbxStarted (op code j : Nat) : (s.mbxStarted op code).mbxWord 0 j = s.mbxWord 0 j := by
  rw [State.mbxStarted, State.mbxWord_put _ _ _ (by decide) (by decide), State.mbxWord_mbxHold, State.mbxWord_put _ _ _ (by decide) (by decide),
    State.mbxWord_put _ _ _ (by decide) (by decide)]

variable {s} {op code : Nat} (ha : s.answers 0 = true) (hcode : code % 4 = 0) (hlt : code < 2 ^ 24)
include ha hcode hlt

/-- A request through the manager's mailbox acts on the code it was written with. -/
theorem State.mbxRequest_mgr (hop : op < 4) : s.mbxRequest .mgr op code =
    if op = 1 then (s.mbxStarted op code).mbxDoLoad 0 code
    else if (s.wideValue 0 code).isSome then (s.mbxStarted op code).mbxHold 0 (some code) else (s.mbxStarted op code).mbxFail 0 := by
  have hasked : 4 * ((s.put (mbxB 0) Reg.MBX_REQ_OFFSET (code / 4)).put (mbxB 0) Reg.MBX_REQ_OP op).rd (mbxB 0) Reg.MBX_REQ_OFFSET = code := by
    rw [State.rd_put_ne _ _ (by decide), State.rd_put_self]
    simp only [Reg.MBX_REQ_OFFSET]
    omega
  have hop' : (s.mbxStarted op code).rd (mbxB 0) Reg.MBX_REQ_OP = op := by
    rw [State.mbxStarted, State.rd_put_ne _ _ (by decide)]
    exact (State.rd_put_self _ _ _ _).trans (Nat.mod_eq_of_lt hop)
  have hreach : ¬ (mbxFn .mgr ≠ 66 ∧ (!s.answers (mbxFn .mgr)) = true) := by
    rw [show mbxFn .mgr = 0 from rfl, ha]
    simp
  rw [State.mbxRequest]
  simp only [if_neg hreach]
  unfold State.mbxStart
  extract_lets asked started
  have hstarted : started = s.mbxStarted op code := rfl
  rw [hstarted, show asked = code from hasked, show mbxFn .mgr = 0 from rfl, hop', State.wideValue_mbxStarted]

theorem doMbxRead_mgr (hw : (s.wideValue 0 code).isSome = true) :
    doMbxRead s .mgr code = (s.mbxStarted 0 code).mbxHold 0 (some code) := by
  rw [doMbxRead, State.mbxRequest_mgr ha hcode hlt (by decide), if_neg (by decide), if_pos hw]

theorem doMbxLoad_mgr {a : Nat} {r : WRow} (hslot : s.mbxSlot 0 code = some (a, r)) (hcnt : r.cnt = true) (hheld : s.slotHeld a = false) :
    doMbxLoad s .mgr code =
      (((s.mbxStarted 1 code).putWide a ((s.mbxWord 0 0 + 2 ^ 32 * s.mbxWord 0 1) % 2 ^ 48)).mbxHold 0 none).mbxStatus 0 1 0 0 := by
  rw [doMbxLoad, State.mbxRequest_mgr ha hcode hlt (by decide), if_pos rfl, State.mbxDoLoad, State.mbxSlot_mbxStarted, hslot]
  simp [hcnt, State.slotHeld_mbxStarted, hheld, State.mbxWord_mbxStarted]

end

/-! ## The capture -/

section
variable (s : State)

/-- The first n data words written with `g`. -/
theorem State.mbxWord_each_put (g : Nat → Nat) (n j : Nat) :
    (s.each (List.range n) fun u k => u.put (mbxB 0 + 4 * k) Reg.MBX_DATA_DATA (g k)).mbxWord 0 j =
      if j < n then g j % 2 ^ 32 else s.mbxWord 0 j := by
  induction n with
  | zero => rfl
  | succ n ih =>
    rw [State.each, List.range_succ, List.foldl_append, List.foldl_cons, List.foldl_nil]
    by_cases hj : j = n
    · subst hj
      rw [if_pos (Nat.lt_succ_self j)]
      exact State.rd_put_self _ _ _ _
    · have hne : mbxB 0 + 4 * n + Reg.MBX_DATA_DATA.off ≠ mbxB 0 + 4 * j + Reg.MBX_DATA_DATA.off := by omega
      rw [State.mbxWord, State.rd_put_addr _ _ (by decide) (by decide) hne]
      refine ih.trans (if_congr ?_ rfl rfl)
      omega

theorem State.mbxWord_mbxStatus (valid err words j : Nat) : (s.mbxStatus 0 valid err words).mbxWord 0 j = s.mbxWord 0 j := by
  rw [State.mbxStatus, State.mbxWord_put _ _ _ (by decide) (by decide), State.mbxWord_put _ _ _ (by decide) (by decide),
    State.mbxWord_put _ _ _ (by decide) (by decide)]

theorem State.mbxWord_mbxFill (w v j : Nat) (hj : j < 4) :
    (s.mbxFill 0 w v).mbxWord 0 j = if j < w then v / 2 ^ (32 * j) % 2 ^ 32 else 0 := by
  rw [State.mbxFill, State.mbxWord_mbxStatus, State.mbxWord_mbxHold, State.mbxWord_each_put, if_pos hj, apply_ite (· % 2 ^ 32), Nat.zero_mod]

theorem State.rd_mbxStatus_valid (valid err words : Nat) : (s.mbxStatus 0 valid err words).rd (mbxB 0) Reg.MBX_STATUS_VALID = valid % 2 := by
  rw [State.mbxStatus, State.rd_put_ne _ _ (by decide), State.rd_put_ne _ _ (by decide), State.rd_put_self]
  rfl

theorem State.rd_mbxStatus_err (valid err words : Nat) : (s.mbxStatus 0 valid err words).rd (mbxB 0) Reg.MBX_STATUS_ERR = err % 2 := by
  rw [State.mbxStatus, State.rd_put_ne _ _ (by decide), State.rd_put_self]
  rfl

theorem State.rd_mbxStatus_words (valid err words : Nat) : (s.mbxStatus 0 valid err words).rd (mbxB 0) Reg.MBX_STATUS_WORDS = words % 16 := by
  rw [State.mbxStatus, State.rd_put_self]
  rfl

/-- The request in hand after one is held or let go. -/
theorem State.mbx_mbxHold (r : Option Nat) : KMap.get (fun _ => none) (s.mbxHold 0 r).mbx 0 = r := KMap.get_set_self _ _ _ _

variable {s} {code w v : Nat}

theorem doMbxCapture_mgr (hreq : KMap.get (fun _ => none) s.mbx 0 = some code) (hw : s.wideValue 0 code = some (w, v)) :
    doMbxCapture s .mgr = s.mbxFill 0 w v := by
  rw [doMbxCapture]
  simp only [show mbxFn .mgr = 0 from rfl, hreq, hw]

/-! ## The data words -/

theorem doMbxDataRead_mgr (ha : s.answers 0 = true) (hvalid : s.rd (mbxB 0) Reg.MBX_STATUS_VALID = 1) (k : Nat) :
    doMbxDataRead s .mgr k = if s.rd (mbxB 0) Reg.MBX_STATUS_WORDS = k + 1
      then State.put { s with readData := natLE 4 (s.mbxWord 0 k) } (mbxB 0) Reg.MBX_STATUS_VALID 0
      else { s with readData := natLE 4 (s.mbxWord 0 k) } := by
  have hreach : ¬ (mbxFn .mgr = 66 ∨ (!s.answers (mbxFn .mgr)) = true) := by
    rw [show mbxFn .mgr = 0 from rfl, ha]
    simp
  have hne : ¬ s.rd (mbxB (mbxFn .mgr)) Reg.MBX_STATUS_VALID = 0 := by
    rw [show mbxFn .mgr = 0 from rfl, hvalid]
    decide
  rw [doMbxDataRead]
  simp only [if_neg hreach, if_neg hne]
  rfl

end

/-! ## The commands -/

section
variable {s : State} {code : BitVec 24} {w v : Nat}

theorem keepsWide.of_wide_eq {mine : Nat → Prop} {s t u : State} (h : keepsWide mine s t) (hu : u.wide = t.wide) : keepsWide mine s u :=
  fun b hm hr => (congrArg (KMap.get (fun _ => 0) · b) hu).trans (h b hm hr)

theorem mbxRead_holds_request (ha : s.answers 0 = true) (hcode : code.toNat % 4 = 0) (hw : (s.wideValue 0 code.toNat).isSome = true) :
    completes (.mbxRead .mgr code) s fun t => t.rd (mbxB 0) Reg.MBX_STATUS_VALID = 0 ∧
      KMap.get (fun _ => none) t.mbx 0 = some code.toNat ∧ keepsWide noRegs s t := by
  refine completes_of_effect rfl (doMbxRead_mgr ha hcode code.isLt hw) ⟨?_, ?_, ?_⟩
  · rw [rd_settle_mbx _ _ (by decide) (by decide)]
    exact State.rd_mbxStarted_valid _ _ _
  · rw [mbx_settle, State.mbx_mbxHold]
  · exact ((keepsWide.refl noRegs s).of_wide_eq ((State.wide_mbxHold _ _ _).trans (State.wide_mbxStarted _ _ _))).settle s

theorem mbxCapture_fills (hreq : KMap.get (fun _ => none) s.mbx 0 = some code.toNat) (hv : s.wideValue 0 code.toNat = some (w, v))
    (hw : w ≤ 4) :
    completes (.mbxCapture .mgr) s fun t => t.rd (mbxB 0) Reg.MBX_STATUS_VALID = 1 ∧ t.rd (mbxB 0) Reg.MBX_STATUS_ERR = 0 ∧
      t.rd (mbxB 0) Reg.MBX_STATUS_WORDS = w ∧ KMap.get (fun _ => none) t.mbx 0 = none ∧
      ∀ j, j < 4 → t.mbxWord 0 j = if j < w then v / 2 ^ (32 * j) % 2 ^ 32 else 0 := by
  refine completes_of_effect rfl (doMbxCapture_mgr hreq hv) ⟨?_, ?_, ?_, ?_, ?_⟩
  · rw [rd_settle_mbx _ _ (by decide) (by decide), State.mbxFill, State.rd_mbxStatus_valid]
  · rw [rd_settle_mbx _ _ (by decide) (by decide), State.mbxFill, State.rd_mbxStatus_err]
  · rw [rd_settle_mbx _ _ (by decide) (by decide), State.mbxFill, State.rd_mbxStatus_words]
    exact Nat.mod_eq_of_lt (by omega)
  · rw [mbx_settle, State.mbxFill, State.mbx_mbxStatus, State.mbx_mbxHold]
  · intro j hj
    rw [mbxWord_settle _ _ hj, State.mbxWord_mbxFill _ _ _ _ hj]

theorem mbxDataRead_returns_word (ha : s.answers 0 = true) (hvalid : s.rd (mbxB 0) Reg.MBX_STATUS_VALID = 1) (k : Fin 4) :
    completes (.mbxDataRead .mgr k) s fun t => t.readData = natLE 4 (s.mbxWord 0 k.val) ∧
      t.rd (mbxB 0) Reg.MBX_STATUS_VALID = if s.rd (mbxB 0) Reg.MBX_STATUS_WORDS = k.val + 1 then 0 else 1 := by
  refine completes_of_effect rfl (doMbxDataRead_mgr ha hvalid k.val) ?_
  rw [readData_settle, rd_settle_mbx _ _ (by decide) (by decide)]
  split
  · exact ⟨rfl, State.rd_put_self _ _ _ _⟩
  · exact ⟨rfl, hvalid⟩

theorem mbxLoad_counter {a : Nat} {r : WRow} (ha : s.answers 0 = true) (hcode : code.toNat % 4 = 0)
    (hslot : s.mbxSlot 0 code.toNat = some (a, r)) (hcnt : r.cnt = true) (hheld : s.slotHeld a = false) (hready : a ≠ devB + Reg.DEV_READY_TIME) :
    completes (.mbxLoad .mgr code) s fun t => t.wideAt a = (s.mbxWord 0 0 + 2 ^ 32 * s.mbxWord 0 1) % 2 ^ 48 ∧
      t.rd (mbxB 0) Reg.MBX_STATUS_VALID = 1 ∧ keepsWide (· = a) s t := by
  refine completes_of_effect rfl (doMbxLoad_mgr ha hcode code.isLt hslot hcnt hheld) ⟨?_, ?_, ?_⟩
  · rw [wideAt_settle hready]
    exact State.wideAt_putWide_self _ _ _
  · rw [rd_settle_mbx _ _ (by decide) (by decide), State.rd_mbxStatus_valid]
  · have hstarted : keepsWide (· = a) s (s.mbxStarted 1 code.toNat) := (keepsWide.refl _ s).of_wide_eq (State.wide_mbxStarted _ _ _)
    refine keepsWide.settle ((hstarted.putWide ((s.mbxWord 0 0 + 2 ^ 32 * s.mbxWord 0 1) % 2 ^ 48) rfl).of_wide_eq ?_) s
    rw [State.wide_mbxStatus, State.wide_mbxHold]

end

/-- Settles O9, a command each; that a LOAD takes effect and sets VALID with the write that starts it is log entry 35 (DESIGN CHOICE). -/
theorem mailboxRead : Obligations.MailboxRead := by
  unfold Obligations.MailboxRead
  intro s code w v k ha hcode
  exact ⟨mbxRead_holds_request ha hcode, mbxCapture_fills, fun hvalid => mbxDataRead_returns_word ha hvalid k,
    fun a r hslot hcnt hheld hready => mbxLoad_counter ha hcode hslot hcnt hheld hready⟩

end Sys2Proof.Machine
end

section
/-! The timebase (O3, R128): what ends every command but VDD_AON's rise never brings it back. -/
namespace Sys2Proof.Machine

theorem now_le_settle (pre post : State) : pre.now ≤ (settle pre post).now := by
  rw [now_settle]
  exact Nat.le_max_left _ _

theorem now_le_exec {c : Instr} {s t : State} (hc : c ≠ .vddAonRise) (h : exec c s = .next t) : s.now ≤ t.now := by
  obtain ⟨post, hpost⟩ := exec_eq_settle hc s
  rw [hpost] at h
  cases h
  exact now_le_settle s post

theorem now_le_step {s t : State} (hc : s.pending.head? ≠ some .vddAonRise) (h : step s = .next t) : s.now ≤ t.now := by
  cases hq : s.pending with
  | nil =>
    rw [step_of_pending_nil hq] at h
    cases h
    exact Nat.le_succ s.now
  | cons c rest =>
    rw [step_of_pending_cons hq] at h
    exact now_le_exec (s := { s with pending := rest }) (fun e => hc (by rw [hq, e]; rfl)) h

/-- Settles O3: `settle` takes the greater of the two times (log entry 4, DESIGN CHOICE), and an idle step is one count more (log entry 2,
DESIGN CHOICE). -/
theorem timebaseNeverBack : Obligations.TimebaseNeverBack := by
  unfold Obligations.TimebaseNeverBack
  exact ⟨fun _ _ _ => now_le_exec, fun _ _ => now_le_step⟩

end Sys2Proof.Machine
end

section
/-! The aperture (O17, R123): an access of DRAM as owner 3, checked page by page (R19). -/
namespace Sys2Proof.Machine

section
variable (s : State)

@[simp] theorem dram_settle (pre post : State) : (settle pre post).dram = post.dram := (congrArg State.dram (inner_settle pre post) :)

/-! ## What a write of DRAM leaves -/

/-- Clearing poison bits acts on the DRAM controller alone. -/
theorem State.each_setPoison (l : List Nat) : ∃ x, (s.each l fun u b => u.setPoison b false) = { s with dramx := x } := by
  induction l generalizing s with
  | nil => exact ⟨s.dramx, rfl⟩
  | cons b l ih => exact ih (s.setPoison b false)

/-- A write of DRAM writes the bytes, and clears poison bits (R385). -/
theorem State.dramWrite_eq (a : Nat) (bs : List Byte) :
    ∃ x, s.dramWrite a bs = { s with dramx := x, dram := KMap.writeBytes dramDefault s.dram a bs } := by
  obtain ⟨x, hx⟩ := s.each_setPoison
    ((blocksOf a bs.length).filter fun b => decide (a ≤ b * 64) && decide (b * 64 + 64 ≤ a + bs.length))
  refine ⟨x, ?_⟩
  rw [State.dramWrite, hx]

@[simp] theorem State.dram_dramWrite (a : Nat) (bs : List Byte) :
    (s.dramWrite a bs).dram = KMap.writeBytes dramDefault s.dram a bs := by
  obtain ⟨x, hx⟩ := s.dramWrite_eq a bs
  rw [hx]

@[simp] theorem State.rd_dramWrite (a : Nat) (bs : List Byte) (b : Nat) (g : Fld) : (s.dramWrite a bs).rd b g = s.rd b g := by
  obtain ⟨x, hx⟩ := s.dramWrite_eq a bs
  rw [hx]
  rfl

/-- A refused access of the manager is counted nowhere, so with sound entries it leaves no trace (R19, R400). -/
theorem State.refuse_mgr_of_sound {a n : Nat} (h : ((pagesOf a n).any fun p => entryBad (s.entry p)) = false) :
    s.refuse Who.mgr a n = s := by
  have hlog : s.logRefused Who.mgr = s := rfl
  simp only [State.refuse, hlog, h, Bool.false_eq_true, if_false]

end

section
variable {s : State} {off n : Nat} {bs : List Byte}

theorem doApertureWrite_of_permitted (ho : s.apertureOpen off bs.length = true)
    (hp : s.mayAccess Who.mgr true (s.apertureAddr off) bs.length = true) :
    doApertureWrite s off bs = s.dramWrite (s.apertureAddr off) bs := by
  simp [doApertureWrite, ho, State.dramPut, hp]

theorem doApertureWrite_of_refused (ho : s.apertureOpen off bs.length = true)
    (hp : s.mayAccess Who.mgr true (s.apertureAddr off) bs.length = false)
    (he : ((pagesOf (s.apertureAddr off) bs.length).any fun p => entryBad (s.entry p)) = false) :
    doApertureWrite s off bs = s := by
  have hput : s.dramPut Who.mgr (s.apertureAddr off) bs = none := by simp [State.dramPut, hp]
  simp only [doApertureWrite, ho, hput]
  exact s.refuse_mgr_of_sound he

theorem doApertureRead_of_permitted (ho : s.apertureOpen off n = true)
    (hp : s.mayAccess Who.mgr false (s.apertureAddr off) n = true)
    (hpoison : (blocksOf (s.apertureAddr off) n).any s.poisoned = false) :
    doApertureRead s off n = { s with readData := s.dramBytes (s.apertureAddr off) n } := by
  simp [doApertureRead, ho, State.dramGet, hp, hpoison]

theorem doApertureRead_of_refused (ho : s.apertureOpen off n = true)
    (hp : s.mayAccess Who.mgr false (s.apertureAddr off) n = false)
    (he : ((pagesOf (s.apertureAddr off) n).any fun p => entryBad (s.entry p)) = false) :
    doApertureRead s off n = { s with readData := List.replicate n 0 } := by
  have hget : s.dramGet Who.mgr (s.apertureAddr off) n = .refused := by simp [State.dramGet, hp]
  simp only [doApertureRead, ho, hget]
  exact State.refuse_mgr_of_sound { s with readData := List.replicate n 0 } he

theorem apertureWrite_stores {off : BitVec 36} (ho : s.apertureOpen off.toNat bs.length = true)
    (hp : s.mayAccess Who.mgr true (s.apertureAddr off.toNat) bs.length = true) :
    completes (.apertureWrite off bs) s fun t => t.dramBytes (s.apertureAddr off.toNat) bs.length = bs ∧
      (∀ b, b < s.apertureAddr off.toNat ∨ s.apertureAddr off.toNat + bs.length ≤ b →
        KMap.get dramDefault t.dram b = KMap.get dramDefault s.dram b) ∧
      ∀ (b : Nat) (g : Fld), g.lo < 32 → ¬ outputReg (b + g.off) → t.rd b g = s.rd b g := by
  refine completes_of_effect rfl (doApertureWrite_of_permitted ho hp) ⟨?_, ?_, ?_⟩
  · rw [State.dramBytes, dram_settle, State.dram_dramWrite, KMap.readBytes_writeBytes]
  · intro b hb
    rw [dram_settle, State.dram_dramWrite, KMap.get_writeBytes_out _ _ _ _ _ hb]
  · intro b g hg hout
    rw [rd_settle hout hg, State.rd_dramWrite]

end

/-- Settles O17, an access each; that the aperture is closed once DRAM has parked is log entry 60 (DESIGN CHOICE), what unlisted bytes
read as log entry 20 (DEDUCED). -/
theorem apertureAccess : Obligations.ApertureAccess := by
  unfold Obligations.ApertureAccess
  intro s off n bs a
  exact ⟨apertureWrite_stores,
    fun ho hp hpoison => completes_of_effect rfl (doApertureRead_of_permitted ho hp hpoison) rfl,
    fun ho hp he => completes_of_effect rfl (doApertureRead_of_refused ho hp he) rfl,
    fun ho hp he => completes_of_effect rfl (doApertureWrite_of_refused ho hp he) rfl⟩

end Sys2Proof.Machine
end

section
/-! The bits of a number (`bitSet`, `setBit`): a bit reads as it was set, and the others stay. -/
namespace Sys2Proof.Machine

theorem bitSet_eq_testBit (x n : Nat) : bitSet x n = x.testBit n := by
  rw [bitSet, Nat.testBit_eq_decide_div_mod_eq]

/-- The bits above the one that is set, the bit, and those below. -/
theorem setBit_eq (x n : Nat) (b : Bool) : setBit x n b = 2 ^ n * (2 * (x / 2 ^ n / 2) + b.toNat) + x % 2 ^ n := by
  have hx : 2 ^ n * (x / 2 ^ n) + x % 2 ^ n = x := Nat.div_add_mod x (2 ^ n)
  have hq : 2 * (x / 2 ^ n / 2) + x / 2 ^ n % 2 = x / 2 ^ n := Nat.div_add_mod _ 2
  have hb : (if b then 1 else 0 : Nat) % 2 ^ 1 = b.toNat := by cases b <;> rfl
  rw [setBit, setBits, bitsOf, hb, pow_one]
  generalize x / 2 ^ n % 2 = r at *
  generalize x / 2 ^ n / 2 = q at *
  rw [← hq, Nat.mul_add] at hx
  rw [Nat.mul_add, Nat.mul_comm r, Nat.mul_comm b.toNat]
  omega

theorem testBit_two_mul_add_toNat (q n : Nat) (b : Bool) : (2 * q + b.toNat).testBit n = if n = 0 then b else q.testBit (n - 1) := by
  cases n with
  | zero => cases b <;> simp [Nat.testBit_zero]
  | succ n =>
    have hdiv : (2 * q + b.toNat) / 2 = q := by
      cases b with
      | false => simp
      | true => simp only [Bool.toNat_true]; omega
    rw [Nat.testBit_succ, hdiv, if_neg (Nat.succ_ne_zero n), Nat.add_sub_cancel]

theorem bitSet_setBit (x n m : Nat) (b : Bool) : bitSet (setBit x n b) m = if m = n then b else bitSet x m := by
  rw [bitSet_eq_testBit, bitSet_eq_testBit, setBit_eq, Nat.testBit_two_pow_mul_add _ (Nat.mod_lt _ (Nat.two_pow_pos n)),
    testBit_two_mul_add_toNat]
  rcases Nat.lt_trichotomy m n with h | h | h
  · rw [if_pos h, if_neg (by omega), Nat.testBit_mod_two_pow, decide_eq_true h, Bool.true_and]
  · rw [if_neg (by omega), if_pos (by omega), if_pos h]
  · rw [if_neg (by omega), if_neg (by omega), if_neg (by omega), ← Nat.testBit_succ, Nat.testBit_div_two_pow]
    congr 1
    omega

theorem bitSet_mod_two_pow {w m : Nat} (x : Nat) (h : m < w) : bitSet (x % 2 ^ w) m = bitSet x m := by
  rw [bitSet_eq_testBit, bitSet_eq_testBit, Nat.testBit_mod_two_pow, decide_eq_true h, Bool.true_and]

end Sys2Proof.Machine
end

section
/-! Unmasking a vector (O18, R125): of the vectors that are flushed, each acts on its own pending bit and its own messages alone. -/
namespace Sys2Proof.Machine

/-- The messages sent of a vector. -/
def State.sentOf (s : State) (fn v : Nat) : Nat := KMap.get (fun _ => 0) s.msiSent (64 * fn + v)

/-- One vector's part of `State.flushVecs`. -/
def State.flushVec (s : State) (fn v : Nat) : State :=
  if s.vecPending fn v && !s.vecMasked fn v then (s.setVecPending fn v false).sendMessage fn v else s

section
variable (s : State)

theorem State.flushVecs_eq_each (fn : Nat) : s.flushVecs fn = s.each (List.range (s.vectors fn)) fun u v => u.flushVec fn v := rfl

/-! ## Addresses -/

theorem msixBase_add_lt_pbaBase (fn : Nat) {o : Nat} (ho : o < 0x400) : msixBase fn + o < pbaBase fn := by
  unfold msixBase pbaBase
  split
  · omega
  · split <;> omega

theorem not_outputReg_msixWord (fn : Nat) {o : Nat} (ho : o < 0x400) : ¬ outputReg (msixBase fn + o) := by
  simp only [outputReg, msixBase, snB, devB, pbaBase, pciB, winBase, FrameKind.at, FrameKind.base, FrameKind.stride, if_true,
    Reg.SN_STATUS_STOPPED, Reg.SN_EVENT_FAULT, Reg.DEV_BOOT_STATUS_STEP]
  split
  · omega
  · split <;> omega

theorem mgrPortReg_ne_pbaBase (fn : Nat) : pciB + Reg.PCI_PORT_CFG_MANAGER_PORT.off ≠ pbaBase fn := by
  by_cases h : fn = 0
  · subst h
    decide
  · have hge := pbaBase_ge h
    have hlt : pciB + Reg.PCI_PORT_CFG_MANAGER_PORT.off < 0x10000000 := by decide
    omega

/-! ## Pending bits and messages -/

/-- The first 32 vectors of a function have their pending bits in one word. -/
theorem State.vecPending_eq {fn v : Nat} (hv : v < 32) : s.vecPending fn v = bitSet (s.rd (pbaBase fn) Reg.MSIX_PBA_WORD) v := by
  rw [State.vecPending, Nat.div_eq_of_lt hv, Nat.mod_eq_of_lt hv, Nat.mul_zero, Nat.add_zero]

theorem State.vecPending_setVecPending (fn : Nat) {u v : Nat} (hu : u < 32) (hv : v < 32) (b : Bool) :
    (s.setVecPending fn u b).vecPending fn v = if v = u then b else s.vecPending fn v := by
  rw [State.vecPending_eq _ hv, State.vecPending_eq _ hv, State.setVecPending, Nat.div_eq_of_lt hu, Nat.mod_eq_of_lt hu]
  show bitSet (State.rd (State.put s (pbaBase fn) _ _) _ _) v = _
  rw [State.rd_put_self, show Reg.MSIX_PBA_WORD.w = 32 from rfl, bitSet_mod_two_pow _ hv]
  exact bitSet_setBit _ _ _ _

theorem State.rd_setVecPending_ne (fn : Nat) {v : Nat} (hv : v < 32) (b : Bool) {a : Nat} {g : Fld} (hg : g.lo < 32)
    (h : a + g.off ≠ pbaBase fn) : (s.setVecPending fn v b).rd a g = s.rd a g := by
  rw [State.setVecPending, Nat.div_eq_of_lt hv]
  exact s.rd_put_addr _ (by decide) hg (Ne.symm h)

theorem State.msiSent_hostWrite (p : Port) (a : Nat) (bs : List Byte) : (s.hostWrite p a bs).msiSent = s.msiSent := by
  unfold State.hostWrite
  split
  · rfl
  · cases p <;> rfl

/-- A message counts for its own vector alone. -/
theorem State.sentOf_sendMessage (fn v fn' v' : Nat) : (s.sendMessage fn v).sentOf fn' v' =
    if s.portOpen (s.fnPort fn) = true ∧ 64 * fn + v = 64 * fn' + v' then s.sentOf fn' v' + 1 else s.sentOf fn' v' := by
  unfold State.sendMessage State.sentOf
  dsimp only
  by_cases hopen : s.portOpen (s.fnPort fn) = true
  · rw [if_pos hopen, KMap.get_set]
    simp only [hopen, true_and, State.msiSent_hostWrite]
    by_cases he : 64 * fn + v = 64 * fn' + v' <;> simp [he]
  · rw [if_neg hopen, if_neg fun h => hopen h.1]

theorem fns_eq_of_inner {s t : State} (h : t.inner = s.inner) : t.fns = s.fns := (congrArg State.fns h :)
theorem portA_eq_of_inner {s t : State} (h : t.inner = s.inner) : t.portA = s.portA := (congrArg State.portA h :)
theorem portB_eq_of_inner {s t : State} (h : t.inner = s.inner) : t.portB = s.portB := (congrArg State.portB h :)

/-! ## What the flush of other vectors leaves of one -/

/-- `t` has all of `s` that the flush of vector `v` of `fn` depends on, and what it acts on. -/
structure SameVec (fn v : Nat) (s t : State) : Prop where
  inner : t.inner = s.inner
  regs : ∀ (b : Nat) (g : Fld), g.lo < 32 → b + g.off ≠ pbaBase fn → t.rd b g = s.rd b g
  pending : t.vecPending fn v = s.vecPending fn v
  sent : t.sentOf fn v = s.sentOf fn v

end

namespace SameVec

variable {fn v : Nat} {s t u : State}

theorem refl (fn v : Nat) (s : State) : SameVec fn v s s := ⟨rfl, fun _ _ _ _ => rfl, rfl, rfl⟩

theorem trans (h : SameVec fn v s t) (h' : SameVec fn v t u) : SameVec fn v s u :=
  ⟨h'.inner.trans h.inner, fun b g hg hn => (h'.regs b g hg hn).trans (h.regs b g hg hn), h'.pending.trans h.pending,
    h'.sent.trans h.sent⟩

theorem fn_eq (h : SameVec fn v s t) (k : Nat) : t.fn k = s.fn k :=
  congrArg (KMap.get (fun _ => ({} : FnCfg)) · k) (fns_eq_of_inner h.inner)

theorem portX_eq (h : SameVec fn v s t) (p : Port) : t.portX p = s.portX p := by
  cases p with
  | a => exact portA_eq_of_inner h.inner
  | b => exact portB_eq_of_inner h.inner

theorem fnPort_eq (h : SameVec fn v s t) (k : Nat) : t.fnPort k = s.fnPort k := by
  have hp : t.p = s.p := congrArg (fun p => Option.getD p ({} : Plan)) (plan_eq_of_inner h.inner)
  have hmgr : t.mgrPort = s.mgrPort := by
    unfold State.mgrPort
    rw [h.regs _ _ (by decide) (mgrPortReg_ne_pbaBase fn)]
  simp only [State.fnPort, hp, hmgr]

theorem portOpen_eq (h : SameVec fn v s t) : t.portOpen (t.fnPort fn) = s.portOpen (s.fnPort fn) := by
  rw [h.fnPort_eq, State.portOpen, h.portX_eq, State.portOpen]

theorem msixWord_eq (h : SameVec fn v s t) (hv : v < 32) : t.msixWord fn v 3 = s.msixWord fn v 3 := by
  refine h.regs _ _ (by decide) ?_
  have := msixBase_add_lt_pbaBase fn (show 16 * v + 4 * 3 < 0x400 by omega)
  simp only [Reg.MSIX_TABLE_WORD]
  omega

theorem vecMasked_eq (h : SameVec fn v s t) (hv : v < 32) : t.vecMasked fn v = s.vecMasked fn v := by
  simp only [State.vecMasked, h.fn_eq, h.fnPort_eq, h.portX_eq, h.msixWord_eq hv]

/-- The flush of another vector. -/
theorem flushVec {w : Nat} (hv : v < 32) (hw : w < 32) (hne : v ≠ w) (s : State) : SameVec fn v s (s.flushVec fn w) := by
  unfold State.flushVec
  split
  · refine ⟨(State.inner_sendMessage _ _ _).trans (s.inner_setVecPending _ _ _), fun b g hg hn => ?_, ?_, ?_⟩
    · rw [State.rd_sendMessage, s.rd_setVecPending_ne fn hw _ hg hn]
    · calc _ = (s.setVecPending fn w false).vecPending fn v := by simp only [State.vecPending, State.rd_sendMessage]
        _ = s.vecPending fn v := by rw [s.vecPending_setVecPending fn hw hv, if_neg hne]
    · rw [State.sentOf_sendMessage, if_neg (by omega)]
      rfl
  · exact refl fn v s

theorem each_flushVec (hv : v < 32) {l : List Nat} (hl : ∀ w ∈ l, w < 32 ∧ v ≠ w) (s : State) :
    SameVec fn v s (s.each l fun u w => u.flushVec fn w) := by
  induction l generalizing s with
  | nil => exact refl fn v s
  | cons w l ih =>
    obtain ⟨hw, hne⟩ := hl w (List.mem_cons_self ..)
    exact (flushVec hv hw hne s).trans (ih (fun x hx => hl x (List.mem_cons_of_mem _ hx)) _)

end SameVec

section
variable {s : State} {fn v : Nat}

/-- The flush of a pending vector that may send sends one message. -/
theorem State.flushVec_sends (hv : v < 32) (hp : s.vecPending fn v = true) (hm : s.vecMasked fn v = false)
    (ho : s.portOpen (s.fnPort fn) = true) :
    (s.flushVec fn v).vecPending fn v = false ∧ (s.flushVec fn v).sentOf fn v = s.sentOf fn v + 1 ∧
      (s.flushVec fn v).msixWord fn v 3 = s.msixWord fn v 3 := by
  have ho' : (s.setVecPending fn v false).portOpen ((s.setVecPending fn v false).fnPort fn) = true := by
    have hmgr : (s.setVecPending fn v false).mgrPort = s.mgrPort := by
      unfold State.mgrPort
      rw [s.rd_setVecPending_ne fn hv _ (by decide) (mgrPortReg_ne_pbaBase fn)]
    unfold State.fnPort at ho ⊢
    rw [hmgr]
    exact ho
  have hw : msixBase fn + 16 * v + 4 * 3 + Reg.MSIX_TABLE_WORD.off ≠ pbaBase fn := by
    have := msixBase_add_lt_pbaBase fn (show 16 * v + 4 * 3 < 0x400 by omega)
    simp only [Reg.MSIX_TABLE_WORD]
    omega
  rw [State.flushVec, hp, hm, Bool.not_false, Bool.and_true, if_pos rfl]
  refine ⟨?_, ?_, ?_⟩
  · calc _ = (s.setVecPending fn v false).vecPending fn v := by simp only [State.vecPending, State.rd_sendMessage]
      _ = false := by rw [s.vecPending_setVecPending fn hv hv, if_pos rfl]
  · rw [State.sentOf_sendMessage, if_pos ⟨ho', rfl⟩]
    rfl
  · rw [State.msixWord, State.rd_sendMessage, s.rd_setVecPending_ne fn hv _ (by decide) hw, State.msixWord]

/-- The flush of a function's vectors sends one message of a pending vector that may send: the vectors before it and those after it
leave it as it is. -/
theorem State.flushVecs_sends (hv : v < s.vectors fn) (h32 : s.vectors fn ≤ 32) (hp : s.vecPending fn v = true)
    (hm : s.vecMasked fn v = false) (ho : s.portOpen (s.fnPort fn) = true) :
    (s.flushVecs fn).vecPending fn v = false ∧ (s.flushVecs fn).sentOf fn v = s.sentOf fn v + 1 ∧
      (s.flushVecs fn).msixWord fn v 3 = s.msixWord fn v 3 := by
  have hv32 : v < 32 := by omega
  obtain ⟨before, after, hl⟩ := List.append_of_mem (List.mem_range.mpr hv)
  have hnodup := List.nodup_range (n := s.vectors fn)
  rw [hl, List.nodup_append, List.nodup_cons] at hnodup
  obtain ⟨-, ⟨hafter, -⟩, hdisj⟩ := hnodup
  have hlt : ∀ w ∈ before ++ v :: after, w < 32 := fun w hw => by
    rw [← hl, List.mem_range] at hw
    omega
  have hfirst : SameVec fn v s (s.each before fun u w => u.flushVec fn w) := SameVec.each_flushVec hv32
    (fun w hw => ⟨hlt w (by simp [hw]), fun e => hdisj w hw v (by simp) e.symm⟩) s
  obtain ⟨hpend, hsent, hword⟩ := State.flushVec_sends hv32 (hfirst.pending.trans hp) ((hfirst.vecMasked_eq hv32).trans hm)
    (hfirst.portOpen_eq.trans ho)
  have hlast : SameVec fn v ((s.each before fun u w => u.flushVec fn w).flushVec fn v) (s.flushVecs fn) := by
    rw [State.flushVecs_eq_each, hl]
    simp only [State.each, List.foldl_append, List.foldl_cons]
    exact SameVec.each_flushVec hv32 (fun w hw => ⟨hlt w (by simp [hw]), fun e => hafter (e ▸ hw)⟩) _
  exact ⟨hlast.pending.trans hpend, hlast.sent.trans (hsent.trans (congrArg (· + 1) hfirst.sent)),
    (hlast.msixWord_eq hv32).trans (hword.trans (hfirst.msixWord_eq hv32))⟩

end

/-! ## What ends a command leaves of a vector -/

/-- A vector is as pending as it was, and no message of it was sent. -/
structure QuietVec (fn v : Nat) (s t : State) : Prop where
  pending : t.vecPending fn v = s.vecPending fn v
  sent : t.sentOf fn v = s.sentOf fn v

namespace QuietVec

variable {fn v : Nat} {s t u : State}

theorem refl (fn v : Nat) (s : State) : QuietVec fn v s s := ⟨rfl, rfl⟩

theorem trans (h : QuietVec fn v s t) (h' : QuietVec fn v t u) : QuietVec fn v s u :=
  ⟨h'.pending.trans h.pending, h'.sent.trans h.sent⟩

theorem of_eq (hr : ∀ (b : Nat) (g : Fld), t.rd b g = s.rd b g) (hm : t.msiSent = s.msiSent) : QuietVec fn v s t :=
  ⟨by simp only [State.vecPending, hr], by rw [State.sentOf, hm, State.sentOf]⟩

theorem put (h : QuietVec fn v s t) (hv : v < 32) {a : Nat} {f : Fld} (x : Nat) (hf : f.lo < 32) (hne : a + f.off ≠ pbaBase fn) :
    QuietVec fn v s (t.put a f x) :=
  ⟨by rw [State.vecPending_eq _ hv, t.rd_put_addr x hf (by decide) hne, ← State.vecPending_eq _ hv, h.pending], h.sent⟩

/-- The vector that a block's flag raises is the manager's vector 0. -/
theorem mgrIrq (hv : v < 32) (h : fn ≠ 0 ∨ v ≠ 0) (s : State) : QuietVec fn v s s.mgrIrq := by
  unfold State.mgrIrq State.raiseVec
  split
  · split
    · refine ⟨?_, rfl⟩
      by_cases hfn : fn = 0
      · subst hfn
        rw [s.vecPending_setVecPending 0 (by decide) hv, if_neg (by tauto)]
      · have hne : pbaBase fn + Reg.MSIX_PBA_WORD.off ≠ pbaBase 0 := by
          have := pbaBase_ge hfn
          have : pbaBase 0 < 0x10000000 := by decide
          omega
        rw [State.vecPending_eq _ hv, State.vecPending_eq _ hv, s.rd_setVecPending_ne 0 (by decide) _ (by decide) hne]
    · refine ⟨by simp only [State.vecPending, State.rd_sendMessage], ?_⟩
      rw [State.sentOf_sendMessage, if_neg (by omega)]
  · exact refl fn v s

theorem raise_block (hv : v < 32) (h : fn ≠ 0 ∨ v ≠ 0) {a : Nat} {f : Fld} (hb : frameOf a = .block) (hf : f.lo < 32)
    (hne : a + f.off ≠ pbaBase fn) (s : State) : QuietVec fn v s (s.raise a f) := by
  unfold State.raise
  split
  · exact refl fn v s
  · rw [State.eventIrq_block _ hb]
    split
    · exact ((refl fn v s).put hv 1 hf hne).trans (mgrIrq hv h _)
    · exact (refl fn v s).put hv 1 hf hne

/-- A register of the manager's window outside its table lies in no pending-bit array. -/
theorem ne_pbaBase {a : Nat} (ha : a < 0x10000000) (h0 : a ≠ pbaBase 0) (fn : Nat) : a ≠ pbaBase fn := by
  by_cases hfn : fn = 0
  · exact hfn ▸ h0
  · have := pbaBase_ge hfn
    omega

theorem guaranteeLook (hv : v < 32) (h : fn ≠ 0 ∨ v ≠ 0) (s : State) : QuietVec fn v s s.guaranteeLook := by
  unfold State.guaranteeLook
  split
  · exact refl fn v s
  · exact raise_block hv h (by decide) (by decide) (ne_pbaBase (by decide) (by decide) fn) s

theorem statusLook (hv : v < 32) (s : State) : QuietVec fn v s s.statusLook := by
  have hne : snB + Reg.SN_STATUS_STOPPED.off ≠ pbaBase fn := ne_pbaBase (by decide) (by decide) fn
  unfold State.statusLook
  dsimp only
  exact put (put (put (put (refl fn v s) hv _ (by decide) (by exact hne)) hv _ (by decide) (by exact hne)) hv _ (by decide) (by exact hne))
    hv _ (by decide) (by exact hne)

theorem pinsLook (s : State) : QuietVec fn v s s.pinsLook :=
  of_eq s.rd_pinsLook (by unfold State.pinsLook; dsimp only; split <;> rfl)

theorem bootLook (hv : v < 32) (s : State) : QuietVec fn v s s.bootLook := by
  unfold State.bootLook
  split
  · exact (refl fn v s).put hv _ (by decide) (ne_pbaBase (by decide) (by decide) fn)
  · exact refl fn v s

theorem settle (hv : v < 32) (h : fn ≠ 0 ∨ v ≠ 0) (pre post : State) : QuietVec fn v post (settle pre post) := by
  have htime : QuietVec fn v post { post with now := max pre.now post.now } := of_eq (fun _ _ => rfl) rfl
  have hlook : QuietVec fn v post (State.look { post with now := max pre.now post.now }) :=
    (((htime.trans (guaranteeLook hv h _)).trans (statusLook hv _)).trans (pinsLook _)).trans (bootLook hv _)
  exact ⟨hlook.pending, hlook.sent⟩

end QuietVec

/-! ## The command -/

section
variable {s : State} {fn v : Nat}

/-- The state in which the vector's mask bit is clear and nothing has been sent yet. -/
def State.clearMask (s : State) (fn v : Nat) : State :=
  s.put (msixBase fn + 16 * v + 12) Reg.MSIX_TABLE_WORD (setBit (s.rd (msixBase fn + 16 * v + 12) Reg.MSIX_TABLE_WORD) 0 false)

theorem doMsixUnmask_of_answers {f : FnId} (ha : s.answers (fnNum f) = true) (hv : v < s.vectors (fnNum f)) :
    doMsixUnmask s f v = (s.clearMask (fnNum f) v).flushVecs (fnNum f) := by
  rw [doMsixUnmask, if_pos ha, State.unmaskVec, if_pos hv]
  rfl

theorem State.maskBit_clearMask (s : State) (fn v : Nat) : bitSet ((s.clearMask fn v).msixWord fn v 3) 0 = false := by
  show bitSet (State.rd (State.put s _ _ _) _ _) 0 = false
  rw [State.rd_put_self, show Reg.MSIX_TABLE_WORD.w = 32 from rfl, bitSet_mod_two_pow _ (by decide), bitSet_setBit, if_pos rfl]

theorem State.rd_clearMask_ne {b : Nat} {g : Fld} (hg : g.lo < 32) (h : msixBase fn + 16 * v + 12 ≠ b + g.off) :
    (s.clearMask fn v).rd b g = s.rd b g := s.rd_put_addr _ (by decide) hg h

theorem State.vecPending_clearMask (hv : v < 32) : (s.clearMask fn v).vecPending fn v = s.vecPending fn v := by
  have := msixBase_add_lt_pbaBase fn (show 16 * v + 12 < 0x400 by omega)
  rw [State.vecPending_eq _ hv, State.vecPending_eq _ hv, State.rd_clearMask_ne (by decide) (by simp only [Reg.MSIX_PBA_WORD]; omega)]

/-- The register that names the manager's port lies in no MSI-X table. -/
theorem msixBase_add_ne_mgrPortReg (fn o : Nat) : msixBase fn + o ≠ pciB + Reg.PCI_PORT_CFG_MANAGER_PORT.off := by
  simp only [msixBase, pciB, winBase, FrameKind.at, FrameKind.base, FrameKind.stride, Reg.PCI_PORT_CFG_MANAGER_PORT]
  split
  · omega
  · split <;> omega

theorem State.fnPort_clearMask : (s.clearMask fn v).fnPort fn = s.fnPort fn := by
  have hmgr : (s.clearMask fn v).mgrPort = s.mgrPort := by
    unfold State.mgrPort
    rw [State.rd_clearMask_ne (by decide) (by rw [Nat.add_assoc]; exact msixBase_add_ne_mgrPortReg fn _)]
  unfold State.fnPort
  rw [hmgr]
  rfl

end

/-- Settles O18: once the mask bit is clear nothing holds the vector back, and the flush sends its message. That the mask is bit 0 of
the entry's fourth word is log entry 23 (PRESUMED); that MSI-X Enable clear and Function Mask hold messages back, so that the
statement assumes neither, is log entry 31 (PRESUMED). -/
theorem unmaskSends : Obligations.UnmaskSends := by
  unfold Obligations.UnmaskSends
  intro s f v ha hv h32 hp henable hall hd3 hbus hopen
  have hopen' : (s.clearMask (fnNum f) v).portOpen ((s.clearMask (fnNum f) v).fnPort (fnNum f)) = true := by
    rw [State.fnPort_clearMask]
    exact hopen
  have hL2 : ((s.clearMask (fnNum f) v).portX ((s.clearMask (fnNum f) v).fnPort (fnNum f))).inL2 = false := by
    rw [State.portOpen, Bool.and_eq_true, Bool.not_eq_true', Bool.not_eq_true'] at hopen'
    exact hopen'.2
  have hfree : (s.clearMask (fnNum f) v).vecMasked (fnNum f) v = false := by
    have hfn : (s.clearMask (fnNum f) v).fn (fnNum f) = s.fn (fnNum f) := rfl
    simp only [State.vecMasked, State.maskBit_clearMask, hL2, hfn, henable, hall, hd3, hbus]
    rfl
  obtain ⟨hpend, hsent, hword⟩ := State.flushVecs_sends (s := s.clearMask (fnNum f) v) hv h32
    ((State.vecPending_clearMask v.isLt).trans hp) hfree hopen'
  refine completes_of_effect rfl (doMsixUnmask_of_answers ha hv) ⟨?_, fun hne => ?_⟩
  · have hout : ¬ outputReg (msixBase (fnNum f) + 16 * v.val + 4 * 3 + Reg.MSIX_TABLE_WORD.off) := by
      rw [Nat.add_assoc, Nat.add_assoc]
      have hv' := v.isLt
      exact not_outputReg_msixWord _ (by simp only [Reg.MSIX_TABLE_WORD]; omega)
    rw [State.msixWord, rd_settle hout (by decide)]
    exact (congrArg (bitSet · 0) hword).trans (s.maskBit_clearMask _ _)
  · have hquiet := QuietVec.settle v.isLt hne s ((s.clearMask (fnNum f) v).flushVecs (fnNum f))
    exact ⟨hquiet.pending.trans hpend, hquiet.sent.trans hsent⟩

end Sys2Proof.Machine
end

section
/-! Ports (O20): L1 and L2, losses, resets and returns of a port and of its functions. -/
namespace Sys2Proof.Machine

/-! ## A port's link status -/

section
variable (s : State) (p : Port)

theorem portWidth_off : (portWidth p).off = (portState p).off := by cases p <;> rfl
theorem portSpeed_off : (portSpeed p).off = (portState p).off := by cases p <;> rfl
theorem portState_lo : (portState p).lo < 32 := by cases p <;> decide
theorem portWidth_lo : (portWidth p).lo < 32 := by cases p <;> decide
theorem portSpeed_lo : (portSpeed p).lo < 32 := by cases p <;> decide

theorem not_outputReg_portState : ¬ outputReg (pciB + (portState p).off) := by
  cases p <;> (unfold outputReg; decide)

theorem rd_settle_portState (pre post : State) : (settle pre post).rd pciB (portState p) = post.rd pciB (portState p) :=
  rd_settle (not_outputReg_portState p) (portState_lo p)

theorem rd_settle_portWidth (pre post : State) : (settle pre post).rd pciB (portWidth p) = post.rd pciB (portWidth p) :=
  rd_settle (portWidth_off p ▸ not_outputReg_portState p) (portWidth_lo p)

theorem rd_settle_portSpeed (pre post : State) : (settle pre post).rd pciB (portSpeed p) = post.rd pciB (portSpeed p) :=
  rd_settle (portSpeed_off p ▸ not_outputReg_portState p) (portSpeed_lo p)

theorem State.rd_put_portState (v : Nat) : (s.put pciB (portState p) v).rd pciB (portState p) = v % 8 := by
  cases p <;> exact s.rd_put_self _ _ _

theorem State.rd_setPortLink_state (st w v : Nat) : (s.setPortLink p st w v).rd pciB (portState p) = st % 8 := by
  rw [State.setPortLink, State.rd_put_ne _ _ (by cases p <;> decide), State.rd_put_ne _ _ (by cases p <;> decide), State.rd_put_portState]

theorem State.rd_setPortLink_width (st v : Nat) : (s.setPortLink p st 0 v).rd pciB (portWidth p) = 0 := by
  rw [State.setPortLink, State.rd_put_ne _ _ (by cases p <;> decide), State.rd_put_self, Nat.zero_mod]

theorem State.rd_setPortLink_speed (st w : Nat) : (s.setPortLink p st w 0).rd pciB (portSpeed p) = 0 := by
  rw [State.setPortLink, State.rd_put_self, Nat.zero_mod]

/-- A port's link status is one register. -/
theorem State.rd_setPortLink_ne (st w v : Nat) {b : Nat} {g : Fld} (hg : g.lo < 32) (h : b + g.off ≠ pciB + (portState p).off) :
    (s.setPortLink p st w v).rd b g = s.rd b g := by
  rw [State.setPortLink, State.rd_put_addr _ _ (portSpeed_lo p) hg (by rw [portSpeed_off]; exact h.symm),
    State.rd_put_addr _ _ (portWidth_lo p) hg (by rw [portWidth_off]; exact h.symm), State.rd_put_addr _ _ (portState_lo p) hg h.symm]

@[simp] theorem State.rd_setPortX (x : PortX) (b : Nat) (g : Fld) : (s.setPortX p x).rd b g = s.rd b g := by cases p <;> rfl
@[simp] theorem State.portX_setPortX_self (x : PortX) : (s.setPortX p x).portX p = x := by cases p <;> rfl
@[simp] theorem State.insts_setPortX (x : PortX) : (s.setPortX p x).insts = s.insts := by cases p <;> rfl
@[simp] theorem State.pwr_setPortX (x : PortX) : (s.setPortX p x).pwr = s.pwr := by cases p <;> rfl

theorem portX_settle (pre post : State) : (settle pre post).portX p = post.portX p := by
  have hinner := inner_settle pre post
  cases p with
  | a => exact (congrArg State.portA hinner :)
  | b => exact (congrArg State.portB hinner :)

@[simp] theorem insts_settle (pre post : State) : (settle pre post).insts = post.insts := (congrArg State.insts (inner_settle pre post) :)

end

/-! ## L1 and L2 (R139) -/

section
variable {s : State} {p : Port}

theorem doPmeTurnOff_of_live (hthere : s.portThere p = true) (hlive : s.linkLive p = true) :
    doPmeTurnOff s p = (s.setPortLink p 4 0 0).setPortX p { s.portX p with inL2 := true } := by
  simp [doPmeTurnOff, hthere, hlive]

theorem doAspmL1_of_enabled (hthere : s.portThere p = true) (hlive : s.linkLive p = true) (hon : (s.fn (s.portPf p)).aspmL1 = true) :
    doAspmL1 s p = s.put pciB (portState p) 3 := by
  simp [doAspmL1, hthere, hlive, hon]

theorem completes_pmeTurnOff (hthere : s.portThere p = true) (hlive : s.linkLive p = true) : completes (.pmeTurnOff p) s fun t =>
    t.rd pciB (portState p) = 4 ∧ t.rd pciB (portWidth p) = 0 ∧ t.rd pciB (portSpeed p) = 0 ∧
    (t.portX p).inL2 = true ∧ t.insts = s.insts ∧
    ∀ (b : Nat) (g : Fld), g.lo < 32 → ¬ outputReg (b + g.off) → b + g.off ≠ pciB + (portState p).off → t.rd b g = s.rd b g := by
  refine completes_of_effect rfl (doPmeTurnOff_of_live hthere hlive) ⟨?_, ?_, ?_, ?_, ?_, fun b g hg hout hne => ?_⟩
  · rw [rd_settle_portState, State.rd_setPortX, State.rd_setPortLink_state]
  · rw [rd_settle_portWidth, State.rd_setPortX, State.rd_setPortLink_width]
  · rw [rd_settle_portSpeed, State.rd_setPortX, State.rd_setPortLink_speed]
  · rw [portX_settle, State.portX_setPortX_self]
  · rw [insts_settle, State.insts_setPortX]
    rfl
  · rw [rd_settle hout hg, State.rd_setPortX, State.rd_setPortLink_ne _ _ _ _ _ hg hne]

theorem completes_aspmL1Entry (hthere : s.portThere p = true) (hlive : s.linkLive p = true) (hon : (s.fn (s.portPf p)).aspmL1 = true) :
    completes (.aspmL1Entry p) s fun t => t.rd pciB (portState p) = 3 ∧ keeps (· = pciB + (portState p).off) s t := by
  refine completes_of_effect rfl (doAspmL1_of_enabled hthere hlive hon) ⟨?_, ?_⟩
  · rw [rd_settle_portState, State.rd_put_portState]
  · exact ((keeps.refl (· = pciB + (portState p).off) s).put (a := pciB) 3 (portState_lo p) rfl).settle s

/-! ## Losses and returns of a port (R119, R133, R135, R145) -/

theorem doPerstAssert_of_on (hthere : s.portThere p = true) (hhigh : (s.portX p).perst = false) (hon : s.pwr.off = false)
    (hL2 : (s.portX p).inL2 = false) : doPerstAssert s p = (s.setPortX p { s.portX p with perst := true }).linkGone p 6 := by
  simp [doPerstAssert, hthere, hhigh, hon, hL2]

theorem State.started_setPortX (s : State) (p : Port) (x : PortX) : (s.setPortX p x).started = s.started := by
  cases p <;> rfl

theorem State.started_put_portState (s : State) (p : Port) (v : Nat) : (s.put pciB (portState p) v).started = s.started := by
  have hne : pciB + (portState p).off ≠ devB + Reg.DEV_BOOT_STATUS_STATE.off := by cases p <;> decide
  rw [State.started, s.rd_put_addr v (portState_lo p) (by decide) hne, State.put_pwr, State.started]

/-- Before start-up has ended a port whose PERST rises goes to Detect, and no role of the ports follows. -/
theorem doPerstRelease_of_starting (hthere : s.portThere p = true) (hlow : (s.portX p).perst = true) (hon : s.pwr.off = false)
    (hL2 : (s.portX p).inL2 = false) (hstart : s.started = false) :
    doPerstRelease s p = (s.setPortX p { s.portX p with perst := false }).put pciB (portState p) 0 := by
  have hst : ∀ x, ((s.setPortX p x).put pciB (portState p) 0).started = false := fun x => by
    rw [State.started_put_portState, State.started_setPortX, hstart]
  simp [doPerstRelease, hthere, hlow, hon, hL2, hst]

theorem completes_perstRelease (hthere : s.portThere p = true) (hlow : (s.portX p).perst = true) (hon : s.pwr.off = false)
    (hL2 : (s.portX p).inL2 = false) (hstart : s.started = false) : completes (.perstRelease p) s fun t =>
    t.rd pciB (portState p) = 0 ∧ (t.portX p).perst = false := by
  refine completes_of_effect rfl (doPerstRelease_of_starting hthere hlow hon hL2 hstart) ⟨?_, ?_⟩
  · rw [rd_settle_portState, State.rd_put_portState]
  · have hx : ((s.setPortX p { s.portX p with perst := false }).put pciB (portState p) 0).portX p =
        (s.setPortX p { s.portX p with perst := false }).portX p := by cases p <;> rfl
    rw [portX_settle, hx, State.portX_setPortX_self]

theorem doHotReset_of_live (hthere : s.portThere p = true) (hlive : s.linkLive p = true) : doHotReset s p = s.linkGone p 0 := by
  simp [doHotReset, hthere, hlive]

theorem doLinkDown_of_live (hthere : s.portThere p = true) (hlive : s.linkLive p = true) : doLinkDown s p = s.linkGone p 0 := by
  simp [doLinkDown, hthere, hlive]

/-- A port that may train with what was negotiated comes to L0 and brings back its functions and instances. -/
def State.linkRises (s : State) (p : Port) (gen lanes : Nat) : State :=
  let u := (s.setPortLink p 2 lanes gen).setPortX p { s.portX p with cutOff := false, inL2 := false }
  let u := (u.wakeLook.raise pciB (evUp p)).readyFns
  ((u.each (u.portInsts p) State.tryReady).each (u.portPf p :: (u.portInsts p).map fnOfInst) State.flushVecs).select

theorem doLinkUp_of_trains {gen lanes : Nat} (htrain : s.mayTrain p = true) (hfits : s.linkFits gen lanes = true) :
    doLinkUp s p gen lanes = s.linkRises p gen lanes := by
  rw [doLinkUp, htrain, hfits]
  rfl

/-! ## Resets of functions (R132) -/

theorem doVfFlr_of_takes {i : Nat} (htakes : s.fnTakes (fnOfInst i) = true) (hst : s.instState i ≠ resetting) :
    doVfFlr s i = (((s.setFn (fnOfInst i) {}).modInst i fun x => { x with flr := true }).resetInst i).select := by
  rw [doVfFlr, if_pos ⟨htakes, hst⟩]

theorem doPfFlr_of_no_vfs (hthere : s.portThere p = true) (htakes : s.fnTakes (s.portPf p) = true)
    (hvf : (s.fn (s.portPf p)).vfEnable = false) : doPfFlr s p = s.resetPf (s.portPf p) true := by
  simp [doPfFlr, hthere, htakes, hvf]

theorem doVfEnableClear_of_takes {n : Nat} (hthere : s.portThere p = true) (htakes : s.fnTakes (s.portPf p) = true) :
    doVfEnableClear s p n =
      if n = 0 then s.vfsOff p else if n < (s.fn (s.portPf p)).numVFs then s.setNumVfs p n else s := by
  simp [doVfEnableClear, hthere, htakes]

end

/-- Settles O20, an event each. That PERST loses any port but one in L2, and nothing before the functions are fixed, is log entry 55
(DEDUCED); that VF_ENABLE_CLEAR with 0 clears VF Enable, and what a lowered NumVFs loses, log entry 56 (DESIGN CHOICE); that the
configuration survives L2 and held messages go out at LINK_UP, log entry 57 (DESIGN CHOICE); which LINK_UP is taken, log entry 58
(DESIGN CHOICE). The return from PERST is stated before start-up has ended. -/
theorem portLosses : Obligations.PortLosses := by
  unfold Obligations.PortLosses
  intro s p i gen lanes n hthere
  refine ⟨fun hlive => ⟨completes_pmeTurnOff hthere hlive, completes_aspmL1Entry hthere hlive⟩, ?_, ?_, ?_, ?_, ?_, ?_, ?_⟩
  · exact fun hhigh hon hL2 => completes_of_effect rfl (doPerstAssert_of_on hthere hhigh hon hL2) rfl
  · exact completes_perstRelease hthere
  · exact fun hlive => ⟨completes_of_effect rfl (doHotReset_of_live hthere hlive) rfl,
      completes_of_effect rfl (doLinkDown_of_live hthere hlive) rfl⟩
  · exact fun htrain hfits => completes_of_effect rfl (doLinkUp_of_trains htrain hfits) rfl
  · exact fun htakes hst => completes_of_effect rfl (doVfFlr_of_takes htakes hst) rfl
  · exact fun htakes hvf => completes_of_effect rfl (doPfFlr_of_no_vfs hthere htakes hvf) rfl
  · exact fun htakes => completes_of_effect rfl (doVfEnableClear_of_takes hthere htakes) rfl

end Sys2Proof.Machine
end

section
/-! What reporting leaves: records staged and delivered, interrupts, the ends of operations and the charge of engine time act on the
registers of the frames below the Carousel's, on the log's status and event and on counters below the Bellows, and on no value of
Piccolo's. -/
namespace Sys2Proof.Machine

/-! ## Instances and rings of the table (R48, R148) -/

theorem mem_ringTable {q : Nat} {l : List InstRec} {e : Nat × InstRec} (h : e ∈ ringTable q l) : e.2.inst < 64 ∧ e.1 + e.2.rings ≤ 256 := by
  induction l generalizing q with
  | nil => exact absurd h (List.not_mem_nil)
  | cons r rs ih =>
    rw [ringTable] at h
    split at h
    · next hr =>
      rcases List.mem_cons.mp h with rfl | h
      · exact hr
      · exact ih h
    · exact ih h

/-- A ring is held by one of the 66 functions. -/
theorem State.ringOwner_lt {s : State} {q fn n : Nat} (h : s.ringOwner q = some (fn, n)) : fn < 66 := by
  unfold State.ringOwner at h
  split at h
  · cases h
    decide
  split at h
  · cases h
    decide
  · obtain ⟨e, he, heq⟩ := Option.map_eq_some_iff.mp h
    obtain ⟨hinst, -⟩ := mem_ringTable (List.mem_of_find?_eq_some he)
    cases heq
    simp only [fnOfInst]
    omega

theorem State.ringInst_lt {s : State} {q i : Nat} (h : s.ringInst q = some i) : i < 64 := by
  unfold State.ringInst at h
  split at h
  · next fn n ho =>
    have := State.ringOwner_lt ho
    split at h
    · cases h
      omega
    · exact absurd h (by simp)
  · exact absurd h (by simp)

theorem State.ringAt_lt {s : State} {fn n q : Nat} (h : s.ringAt fn n = some q) : q < 256 := by
  unfold State.ringAt at h
  split at h
  · split at h
    · cases h
      omega
    · exact absurd h (by simp)
  split at h
  · split at h
    · cases h
      omega
    · exact absurd h (by simp)
  · obtain ⟨e, he, rfl⟩ := Option.map_eq_some_iff.mp h
    obtain ⟨-, hrings⟩ := mem_ringTable (List.mem_of_find?_eq_some he)
    have hn := List.find?_some he
    simp only [Bool.and_eq_true, decide_eq_true_eq] at hn
    omega

theorem State.eventRing_lt {s : State} {fn q : Nat} (h : s.eventRing fn = some q) : q < 256 := by
  have hmem : q ∈ s.ringsOf fn := by
    unfold State.eventRing at h
    dsimp only at h
    split at h
    · next k hk =>
      cases h
      exact List.mem_of_mem_filter (List.mem_of_find?_eq_some hk)
    · exact List.mem_of_mem_filter (List.mem_of_head? h)
  obtain ⟨n, -, hn⟩ := List.mem_filterMap.mp hmem
  exact State.ringAt_lt hn

/-! ## The relation -/

/-- The field at address `a` with lowest bit `lo` is one that reporting may write. -/
def reportField (a lo : Nat) : Prop :=
  a < carB ∨ 0x10000000 ≤ a ∨ a = logB + Reg.LOG_EVENT_LOST.off ∨ (a = logB + Reg.LOG_STATUS_BUSY.off ∧ lo ≠ Reg.LOG_STATUS_INHIBITED.lo)

/-- The wide value at address `a` is one that reporting may count. -/
def reportWide (a : Nat) : Prop := a < blwB ∨ a = logB + Reg.LOG_DROPPED

/-- `t` differs from `s` at most by what reporting may change. -/
structure Reports (s t : State) : Prop where
  pwr : t.pwr = s.pwr
  regs : ∀ (b : Nat) (g : Fld), g.lo < 32 → ¬ reportField (b + g.off) g.lo → t.rd b g = s.rd b g
  wide : ∀ b, ¬ reportWide b → t.wideAt b = s.wideAt b

/-- A field that reporting does not write is in no pending-bit array. -/
theorem offPba_of_not_reportField {a lo : Nat} (h : ¬ reportField a lo) : offPba a := by
  have hpba : pbaBase 0 < carB := by decide
  unfold reportField at h
  unfold offPba
  omega

theorem reportField_ringBase {q o : Nat} (lo : Nat) (hq : q < 256) (ho : o < 0x100) : reportField (ringBase q + o) lo := by
  left
  simp only [ringBase, carB, FrameKind.at, FrameKind.base, FrameKind.stride]
  omega

theorem reportWide_ringBase {q o : Nat} (hq : q < 256) (ho : o < 0x100) : reportWide (ringBase q + o) := by
  left
  simp only [ringBase, blwB, FrameKind.at, FrameKind.base, FrameKind.stride]
  omega

theorem reportWide_instBase {i o : Nat} (hi : i < 64) (ho : o < 0x100) : reportWide (instBase i + o) := by
  left
  simp only [instBase, if_neg (show i ≠ 64 by omega), blwB, FrameKind.at, FrameKind.base, FrameKind.stride]
  omega

theorem State.pwr_eventIrq (s : State) (a : Nat) (own mgr : Bool) : (s.eventIrq a own mgr).pwr = s.pwr := by
  unfold State.eventIrq
  split
  · cases own
    · rfl
    · exact pwr_eq_of_inner s.inner_mgrIrq
  · dsimp only
    have hown : ∀ fn v, (if own = true then s.raiseVec fn v else s).pwr = s.pwr := fun fn v => by
      cases own
      · rfl
      · exact pwr_eq_of_inner (s.inner_raiseVec fn v)
    cases mgr
    · exact hown _ _
    · exact (pwr_eq_of_inner (State.inner_mgrIrq _)).trans (hown _ _)
  · cases own
    · rfl
    · simp only [if_true]
      split
      · next fn n _ =>
        exact (pwr_eq_of_inner (State.inner_raiseVec (s.modRing _ _) fn _)).trans (s.setRing_pwr _ _)
      · rfl

@[simp] theorem State.pwr_raise (s : State) (a : Nat) (f : Fld) : (s.raise a f).pwr = s.pwr := by
  unfold State.raise
  split
  · rfl
  · exact State.pwr_eventIrq _ _ _ _

namespace Reports

variable {s t u : State}

theorem refl (s : State) : Reports s s := ⟨rfl, fun _ _ _ _ => rfl, fun _ _ => rfl⟩

theorem trans (h : Reports s t) (h' : Reports t u) : Reports s u :=
  ⟨h'.pwr.trans h.pwr, fun b g hg hn => (h'.regs b g hg hn).trans (h.regs b g hg hn), fun b hn => (h'.wide b hn).trans (h.wide b hn)⟩

/-- A change beside the registers, the wide values and Piccolo's values. -/
theorem beside (h : Reports s t) (hr : u.regs = t.regs) (hw : u.wide = t.wide) (hp : u.pwr = t.pwr) : Reports s u :=
  ⟨hp.trans h.pwr, fun b g hg hn => (congrArg (KMap.get fieldReset · _) hr).trans (h.regs b g hg hn),
    fun b hn => (congrArg (KMap.get (fun _ => 0) · b) hw).trans (h.wide b hn)⟩

theorem setLog (h : Reports s t) (x : LogX) : Reports s { t with log := x } := h.beside rfl rfl rfl
theorem setBoot (h : Reports s t) (x : BootX) : Reports s { t with boot := x } := h.beside rfl rfl rfl
theorem setRpl (h : Reports s t) (x : PushX) : Reports s (t.setRpl x) := h.beside rfl rfl rfl
theorem setFwp (h : Reports s t) (x : PushX) : Reports s (t.setFwp x) := h.beside rfl rfl rfl
theorem modRing (h : Reports s t) (q : Nat) (f : RingX → RingX) : Reports s (t.modRing q f) := h.beside rfl rfl rfl
theorem modEngine (h : Reports s t) (e : Nat) (f : EngineX → EngineX) : Reports s (t.modEngine e f) := h.beside rfl rfl rfl

theorem put (h : Reports s t) (a : Nat) (f : Fld) (v : Nat) (hf : f.lo < 32) (hm : reportField (a + f.off) f.lo) :
    Reports s (t.put a f v) := by
  refine ⟨h.pwr, fun b g hg hn => (t.rd_put_ne v fun e => hn ?_).trans (h.regs b g hg hn), h.wide⟩
  have ha : a + f.off = b + g.off := by unfold fkey at e; omega
  have hlo : f.lo = g.lo := by unfold fkey at e; omega
  rwa [← ha, ← hlo]

theorem count (h : Reports s t) {a : Nat} (n : Nat) (hm : reportWide a) : Reports s (t.count a n) :=
  ⟨h.pwr, h.regs, fun b hn => (t.wideAt_count_ne n fun e : a = b => hn (e ▸ hm)).trans (h.wide b hn)⟩

theorem raiseVec (h : Reports s t) (fn v : Nat) : Reports s (t.raiseVec fn v) :=
  ⟨(pwr_eq_of_inner (t.inner_raiseVec fn v)).trans h.pwr,
    fun b g hg hn => (t.rd_raiseVec fn v (offPba_of_not_reportField hn) hg).trans (h.regs b g hg hn),
    fun b hn => (t.wideAt_raiseVec fn v b).trans (h.wide b hn)⟩

theorem mgrIrq (h : Reports s t) : Reports s t.mgrIrq := h.raiseVec 0 0

theorem raise (h : Reports s t) (a : Nat) (f : Fld) (hf : f.lo < 32) (hm : reportField (a + f.off) f.lo) : Reports s (t.raise a f) := by
  refine ⟨(t.pwr_raise a f).trans h.pwr, fun b g hg hn => (t.rd_raise_ne (offPba_of_not_reportField hn) hg fun e => hn ?_).trans
    (h.regs b g hg hn), fun b hn => (t.wideAt_raise a f b).trans (h.wide b hn)⟩
  have ha : a + f.off = b + g.off := by unfold fkey at e; omega
  have hlo : f.lo = g.lo := by unfold fkey at e; omega
  rwa [← ha, ← hlo]

theorem each {α : Type} {f : State → α → State} (hf : ∀ x a, Reports x (f x a)) (l : List α) (s : State) : Reports s (s.each l f) := by
  induction l generalizing s with
  | nil => exact refl s
  | cons a l ih => exact (hf s a).trans (ih (f s a))

/-! ## Staging (R574) -/

theorem logLook (h : Reports s t) : Reports s t.logLook :=
  h.put logB Reg.LOG_STATUS_STAGED _ (by decide) (.inr (.inr (.inr ⟨rfl, by decide⟩)))

theorem stageLost (h : Reports s t) : Reports s t.stageLost := by
  unfold State.stageLost
  split
  · exact (h.setLog _).logLook
  · exact h.logLook

/-- The log's flash work starts with the log's state as given. -/
theorem logRun (h : Reports s t) (x : LogX) : Reports s (State.put { t with log := x } logB Reg.LOG_STATUS_BUSY 1) :=
  (h.setLog x).put logB Reg.LOG_STATUS_BUSY 1 (by decide) (.inr (.inr (.inr ⟨rfl, by decide⟩)))

theorem logKick (h : Reports s t) : Reports s t.logKick := by
  unfold State.logKick
  dsimp only
  split
  · exact h
  split
  · exact h.logRun _
  split
  · exact h
  split
  · exact h.logRun _
  split
  · exact h.logRun _
  split
  · exact h.logRun _
  · exact (h.logRun _).stageLost
  · exact h

theorem stageRec (h : Reports s t) (r : LogRec) : Reports s (t.stageRec r) := by
  unfold State.stageRec
  split
  · exact (h.setLog _).logLook.logKick
  · exact ((h.setLog _).count 1 (.inr rfl)).raise logB Reg.LOG_EVENT_LOST (by decide) (.inr (.inr (.inl rfl)))

theorem stage (h : Reports s t) (r : LogRec) : Reports s (t.stage r) := by
  unfold State.stage
  dsimp only
  split
  · exact h.setBoot _
  · exact h.stageRec _

/-! ## Delivery of records (R154, R166, R171) -/

theorem hostWrite (h : Reports s t) (p : Port) (a : Nat) (bs : List Byte) : Reports s (t.hostWrite p a bs) :=
  ⟨(pwr_eq_of_inner (t.inner_hostWrite p a bs)).trans h.pwr, fun b g hg hn => (t.rd_hostWrite p a bs b g).trans (h.regs b g hg hn),
    fun b hn => (t.wideAt_hostWrite p a bs b).trans (h.wide b hn)⟩

theorem dramWrite (h : Reports s t) (a : Nat) (bs : List Byte) : Reports s (t.dramWrite a bs) := by
  obtain ⟨x, hx⟩ := t.dramWrite_eq a bs
  rw [hx]
  exact h.beside rfl rfl rfl

theorem locWrite (h : Reports s t) {fn a : Nat} {dram : Bool} {bs : List Byte} (hw : t.locWrite fn dram a bs = some u) : Reports s u := by
  unfold State.locWrite at hw
  split at hw
  · unfold State.dramPut at hw
    split at hw
    · cases hw
      exact h.dramWrite a bs
    · exact absurd hw (by simp)
  · cases hw
    exact h.hostWrite _ a bs

theorem logRefused (h : Reports s t) {fn : Nat} (hfn : fn < 66) : Reports s (t.logRefused (Who.fn fn)) := by
  unfold State.logRefused Who.fn
  by_cases h0 : fn = 0
  · rw [if_pos h0]
    exact h
  rw [if_neg h0]
  by_cases h1 : fn = 1
  · rw [if_pos h1]
    exact h
  · rw [if_neg h1]
    exact h.count 1 (reportWide_instBase (by omega) (by decide))

section
variable {q : Nat} (hq : q < 256)

theorem itemIrq (h : Reports s t) (q : Nat) : Reports s (t.itemIrq q) := by
  unfold State.itemIrq
  split
  · exact (h.modRing q _).raiseVec _ _
  · exact h

theorem checkItems (h : Reports s t) (q : Nat) (irq : Bool) : Reports s (t.checkItems q irq) := by
  unfold State.checkItems
  dsimp only
  split
  · exact h
  split
  · exact h.itemIrq q
  · exact h

theorem onItem (h : Reports s t) (q : Nat) (irq : Bool) : Reports s (t.onItem q irq) := (h.modRing q _).checkItems q irq

include hq

theorem ringLook (h : Reports s t) : Reports s (t.ringLook q) :=
  (h.put (ringBase q) Reg.RING_STATE_FREE _ (by decide) (reportField_ringBase _ hq (by decide))).put (ringBase q)
    Reg.RING_STATE_WAITING _ (by decide) (reportField_ringBase _ hq (by decide))

theorem dropRecord (h : Reports s t) : Reports s (t.dropRecord q) :=
  ((h.count (a := ringBase q + Reg.RING_DROPS) 1 (reportWide_ringBase hq (by decide))).modRing q _).raise (ringBase q)
    Reg.RING_EVENT_DROP (by decide) (reportField_ringBase _ hq (by decide))

theorem writeRecord (h : Reports s t) {kind : Nat} {payload : List Byte} {stamp : Option Nat}
    (hw : t.writeRecord q kind payload stamp = some u) : Reports s u := by
  unfold State.writeRecord at hw
  split at hw
  · exact absurd hw (by simp)
  dsimp only at hw
  split at hw
  · exact absurd hw (by simp)
  · next hloc =>
    cases hw
    exact (((h.locWrite hloc).put (ringBase q) Reg.RING_DEV_IDX_INDEX _ (by decide) (reportField_ringBase _ hq (by decide))).count
      (a := ringBase q + Reg.RING_DONE) 1 (reportWide_ringBase hq (by decide))).ringLook hq

theorem deliver (h : Reports s t) (kind : Nat) (payload : List Byte) (force : Bool) (stamp : Option Nat) :
    Reports s (t.deliver q kind payload force stamp) := by
  have hwho : ∀ o : Option (Nat × Nat), o = t.ringOwner q → (o.map Prod.fst).getD 0 < 66 := by
    rintro (_ | ⟨fn, n⟩) ho
    · decide
    · exact State.ringOwner_lt ho.symm
  unfold State.deliver
  extract_lets who s1
  have hs1 : Reports s s1 := by
    dsimp only [s1]
    split
    · split
      · next hrec => exact ((h.writeRecord hq hrec).modRing q _).onItem q false
      · exact h
    · exact h
  split
  · exact h.dropRecord hq
  split
  · exact hs1.dropRecord hq
  split
  · exact (hs1.logRefused (hwho _ rfl)).dropRecord hq
  · next hrec =>
    split
    · exact ((hs1.writeRecord hq hrec).modRing q _).itemIrq q
    · exact (hs1.writeRecord hq hrec).onItem q false

end

theorem eventRecord (h : Reports s t) (i kind : Nat) (payload : List Byte) (force : Bool) (stamp : Option Nat) :
    Reports s (t.eventRecord i kind payload force stamp) := by
  unfold State.eventRecord
  split
  · next q hq => exact h.deliver (State.eventRing_lt hq) kind payload force stamp
  · exact h

/-! ## Engine time (R182, R183) -/

theorem setAcct (h : Reports s t) (gfx : Bool) (i : Nat) (x : Account) : Reports s (t.setAcct gfx i x) := by
  cases gfx <;> exact h.beside rfl rfl rfl

theorem chargeJob (h : Reports s t) (e q idx dt : Nat) (spare : Bool) : Reports s (t.chargeJob e q idx dt spare) := by
  unfold State.chargeJob
  split
  · exact h
  · next i hi =>
    have hwide : reportWide (carB + 64 * i + Reg.CAR_INST_GFX_TIME) := by
      left
      have := State.ringInst_lt hi
      simp only [carB, blwB, FrameKind.base, Reg.CAR_INST_GFX_TIME]
      omega
    dsimp only
    split
    · exact ((h.setAcct _ i _).count _ hwide).modRing q _
    · exact (h.setAcct _ i _).modRing q _

theorem chargeEngine (h : Reports s t) (e : Nat) : Reports s (t.chargeEngine e) := by
  unfold State.chargeEngine
  dsimp only
  split
  · exact (h.chargeJob _ _ _ _ _).modEngine e _
  · exact h.modEngine e _

theorem chargeAll (s : State) : Reports s s.chargeAll := each (fun x e => (refl x).chargeEngine e) _ s

/-! ## The ends of pushes (R64, R70) -/

theorem putDev (h : Reports s t) (f : Fld) (v : Nat) (hf : f.lo < 32) (ho : f.off < 0x1000) : Reports s (t.put devB f v) :=
  h.put devB f v hf (.inl (by simp only [devB, carB, FrameKind.base]; omega))

theorem putRpl (h : Reports s t) (f : Fld) (v : Nat) (hf : f.lo < 32) (ho : f.off < 0x1000) : Reports s (t.put rplB f v) :=
  h.put rplB f v hf (.inl (by simp only [rplB, carB, FrameKind.base]; omega))

theorem fwFinish (h : Reports s t) (r : Nat) : Reports s (t.fwFinish r) := by
  have hbusy := ((h.putDev Reg.DEV_FW_PUSH_STATUS_REASON r (by decide) (by decide)).setFwp {}).putDev Reg.DEV_FW_PUSH_STATUS_BUSY 0
    (by decide) (by decide)
  exact ((hbusy.stage _).putDev Reg.DEV_FW_PUSH_STATUS_DONE 1 (by decide) (by decide)).mgrIrq

theorem putVerdict (h : Reports s t) (v : Verdict) : Reports s (t.putVerdict v) :=
  (((h.putRpl Reg.RPL_RESULT_REASON v.reason (by decide) (by decide)).putRpl Reg.RPL_RESULT_SECTION v.sect (by decide) (by decide)).putRpl
    Reg.RPL_RESULT_SUBCODE v.sub (by decide) (by decide)).putRpl Reg.RPL_RESULT_LOC_RECORD v.rec_ (by decide) (by decide)

theorem rplFinish (h : Reports s t) (v : Verdict) : Reports s (t.rplFinish v) := by
  have hbusy := ((h.putVerdict v).setRpl {}).putRpl Reg.RPL_PUSH_STATUS_BUSY 0 (by decide) (by decide)
  exact (((hbusy.putRpl Reg.RPL_STATE_STATE _ (by decide) (by decide)).stage _).putRpl Reg.RPL_PUSH_STATUS_DONE 1
    (by decide) (by decide)).mgrIrq

theorem storeCut (h : Reports s t) (m : SlotPair) (n : Nat) : Reports s (t.storeCut m n) := by
  unfold State.storeCut
  split
  · exact h.beside rfl rfl rfl
  split
  · exact h.beside rfl rfl rfl
  · exact h

theorem storesInhibited (h : Reports s t) : Reports s t.storesInhibited := by
  unfold State.storesInhibited
  extract_lets u
  have hrpl : Reports s u := by
    dsimp only [u]
    split
    · split
      · exact (h.storeCut _ _).rplFinish _
      · exact h
    · exact h
  split
  · split
    · exact (hrpl.storeCut _ _).fwFinish _
    · exact hrpl
  · exact hrpl

end Reports

end Sys2Proof.Machine
end

section
/-! The bypass of the Bellows (R32, R540): what it sets, and what it leaves. -/
namespace Sys2Proof.Machine

section
variable (s : State)

@[simp] theorem State.pwr_modPwr (f : PwrX → PwrX) : (s.modPwr f).pwr = f s.pwr := rfl
@[simp] theorem State.rd_modPwr (f : PwrX → PwrX) (b : Nat) (g : Fld) : (s.modPwr f).rd b g = s.rd b g := rfl
@[simp] theorem State.wideAt_modPwr (f : PwrX → PwrX) (b : Nat) : (s.modPwr f).wideAt b = s.wideAt b := rfl

/-- The safe setting, counted. -/
def State.safeSet : State :=
  ((((s.put blwB Reg.BLW_STATUS_POINT 0).put gfxB Reg.GFX_CLOCK_MHZ (pointMhz 0)).put blwB Reg.BLW_STATUS_BOOST 0).put
    blwB Reg.BLW_STATUS_SAFE 1).count (blwB + Reg.BLW_BYPASSES) 1

/-- The bypass of a state in which the engine time has been charged. -/
def State.bypassCharged : State :=
  (s.safeSet.raise blwB Reg.BLW_EVENT_BYPASS).modPwr fun x => { x with safeRounds := 1, nextBoost := false }

/-- A bypass charges what ran at the old clock first. -/
theorem State.bypass_eq : s.bypass = s.chargeAll.bypassCharged := by
  unfold State.bypass State.setPoint
  generalize s.chargeAll = c
  rfl

theorem State.pwr_safeSet : s.safeSet.pwr = s.pwr := rfl

@[simp] theorem State.pwr_bypass : s.bypass.pwr = { s.pwr with safeRounds := 1, nextBoost := false } := by
  rw [State.bypass_eq, State.bypassCharged, State.pwr_modPwr, State.pwr_raise, State.pwr_safeSet, (Reports.chargeAll s).pwr]

theorem State.rd_safeSet_ne {b : Nat} {g : Fld} (hg : g.lo < 32) (hst : blwB + Reg.BLW_STATUS_POINT.off ≠ b + g.off)
    (hclk : gfxB + Reg.GFX_CLOCK_MHZ.off ≠ b + g.off) : s.safeSet.rd b g = s.rd b g := by
  rw [State.safeSet, State.rd_count, State.rd_put_addr _ _ (by decide) hg (by exact hst),
    State.rd_put_addr _ _ (by decide) hg (by exact hst), State.rd_put_addr _ _ (by decide) hg hclk,
    State.rd_put_addr _ _ (by decide) hg hst]

theorem State.wideAt_safeSet_ne {b : Nat} (hne : blwB + Reg.BLW_BYPASSES ≠ b) : s.safeSet.wideAt b = s.wideAt b := by
  rw [State.safeSet, State.wideAt_count_ne _ _ hne]
  rfl

theorem State.rd_bypassCharged_ne {b : Nat} {g : Fld} (hg : g.lo < 32) (hpba : offPba (b + g.off))
    (hev : blwB + Reg.BLW_EVENT_BYPASS.off ≠ b + g.off) : s.bypassCharged.rd b g = s.safeSet.rd b g := by
  have hkey : fkey (blwB + Reg.BLW_EVENT_BYPASS.off) Reg.BLW_EVENT_BYPASS.lo ≠ fkey (b + g.off) g.lo := by
    have : Reg.BLW_EVENT_BYPASS.lo < 32 := by decide
    unfold fkey
    omega
  rw [State.bypassCharged, State.rd_modPwr, State.rd_raise_ne _ hpba hg hkey]

theorem State.wideAt_bypassCharged (b : Nat) : s.bypassCharged.wideAt b = s.safeSet.wideAt b := by
  rw [State.bypassCharged, State.wideAt_modPwr, State.wideAt_raise]

/-- A bypass leaves every register but the Bellows' status and event, the shader clock, and what a charge of engine time may change. -/
theorem State.rd_bypass_ne {b : Nat} {g : Fld} (hg : g.lo < 32) (h : ¬ reportField (b + g.off) g.lo)
    (hst : blwB + Reg.BLW_STATUS_POINT.off ≠ b + g.off) (hev : blwB + Reg.BLW_EVENT_BYPASS.off ≠ b + g.off)
    (hclk : gfxB + Reg.GFX_CLOCK_MHZ.off ≠ b + g.off) : s.bypass.rd b g = s.rd b g := by
  rw [State.bypass_eq, State.rd_bypassCharged_ne _ hg (offPba_of_not_reportField h) hev, State.rd_safeSet_ne _ hg hst hclk,
    (Reports.chargeAll s).regs b g hg h]

theorem State.wideAt_bypass_ne {b : Nat} (h : ¬ reportWide b) (hne : blwB + Reg.BLW_BYPASSES ≠ b) : s.bypass.wideAt b = s.wideAt b := by
  rw [State.bypass_eq, State.wideAt_bypassCharged, State.wideAt_safeSet_ne _ hne, (Reports.chargeAll s).wide b h]

theorem not_reportWide_bypasses : ¬ reportWide (blwB + Reg.BLW_BYPASSES) := by
  unfold reportWide
  decide

theorem bypassed_bypassCharged : bypassed s s.bypassCharged := by
  refine ⟨?_, ?_, ?_, ?_, ?_⟩
  · rw [State.rd_bypassCharged_ne _ (by decide) (by unfold offPba; decide) (by decide), State.safeSet, State.rd_count,
      State.rd_put_ne _ _ (by decide), State.rd_put_ne _ _ (by decide), State.rd_put_ne _ _ (by decide), State.rd_put_self, Nat.zero_mod]
  · rw [State.rd_bypassCharged_ne _ (by decide) (by unfold offPba; decide) (by decide), State.safeSet, State.rd_count,
      State.rd_put_ne _ _ (by decide), State.rd_put_self, Nat.zero_mod]
  · rw [State.rd_bypassCharged_ne _ (by decide) (by unfold offPba; decide) (by decide), State.safeSet, State.rd_count, State.rd_put_self]
    rfl
  · rw [State.bypassCharged, State.rd_modPwr]
    exact State.rd_raise_self _ (by unfold offPba; decide) (by decide) (by decide)
  · rw [State.wideAt_bypassCharged, State.safeSet, State.wideAt_count_self]
    rfl

/-- The count of a bypass is taken from the state before, so what came between may have left it. -/
theorem bypassed_of_wideAt_eq {s u t : State} (h : bypassed u t)
    (hw : u.wideAt (blwB + Reg.BLW_BYPASSES) = s.wideAt (blwB + Reg.BLW_BYPASSES)) : bypassed s t := by
  obtain ⟨hpoint, hboost, hsafe, hevent, hcount⟩ := h
  exact ⟨hpoint, hboost, hsafe, hevent, hw ▸ hcount⟩

theorem bypassed_bypass : bypassed s s.bypass := by
  rw [State.bypass_eq]
  exact bypassed_of_wideAt_eq (bypassed_bypassCharged s.chargeAll) ((Reports.chargeAll s).wide _ not_reportWide_bypasses)

theorem bypassed_settle {s t : State} (h : bypassed s t) (pre : State) : bypassed s (settle pre t) := by
  obtain ⟨hpoint, hboost, hsafe, hevent, hcount⟩ := h
  have hrd : ∀ g : Fld, g.off ≤ Reg.BLW_EVENT_BYPASS.off → g.lo < 32 → (Machine.settle pre t).rd blwB g = t.rd blwB g := fun g ho hg => by
    refine rd_settle ?_ hg
    have hge : pbaBase 0 < blwB := by decide
    have hle : blwB + Reg.BLW_EVENT_BYPASS.off < snB := by decide
    have hdev : devB + Reg.DEV_BOOT_STATUS_STEP.off < blwB := by decide
    unfold outputReg
    omega
  refine ⟨?_, ?_, ?_, ?_, ?_⟩
  · rw [hrd _ (by decide) (by decide), hpoint]
  · rw [hrd _ (by decide) (by decide), hboost]
  · rw [hrd _ (by decide) (by decide), hsafe]
  · rw [hrd _ (by decide) (by decide), hevent]
  · rw [wideAt_settle (by decide), hcount]

end

end Sys2Proof.Machine
end

section
/-! A fault record (R489, R503 to R505): what it writes down, and what the reports after it leave. -/
namespace Sys2Proof.Machine

/-- The bits of a list, set one after the other. -/
theorem bitSet_foldl_setBit {n : Nat} {l : List (Nat × Nat)} {m : Nat} (h : bitSet m n = true ∨ ∃ e ∈ l, e.1 = n) :
    bitSet (l.foldl (fun m e => setBit m e.1 true) m) n = true := by
  induction l generalizing m with
  | nil =>
    rcases h with h | ⟨e, he, -⟩
    · exact h
    · exact absurd he (List.not_mem_nil)
  | cons e l ih =>
    refine ih ?_
    rw [bitSet_setBit]
    by_cases hn : n = e.1
    · exact .inl (by rw [if_pos hn])
    · rw [if_neg hn]
      rcases h with h | ⟨x, hx, hxn⟩
      · exact .inl h
      · rcases List.mem_cons.mp hx with rfl | hx
        · exact absurd hxn.symm hn
        · exact .inr ⟨x, hx, hxn⟩

/-- What a fault is recorded by stands in `t` as in `s`. -/
structure FaultKept (s t : State) : Prop where
  flags : t.rd snB Reg.SN_FAULT_FLAGS_FLAGS = s.rd snB Reg.SN_FAULT_FLAGS_FLAGS
  persist : t.rd snB Reg.SN_PERSIST_PERSIST = s.rd snB Reg.SN_PERSIST_PERSIST
  event : s.rd snB Reg.SN_EVENT_FAULT = 1 → t.rd snB Reg.SN_EVENT_FAULT = 1
  count : t.wideAt (snB + Reg.SN_FAULTS) = s.wideAt (snB + Reg.SN_FAULTS)

namespace FaultKept

variable {s t u : State}

theorem trans (h : FaultKept s t) (h' : FaultKept t u) : FaultKept s u :=
  ⟨h'.flags.trans h.flags, h'.persist.trans h.persist, fun e => h'.event (h.event e), h'.count.trans h.count⟩

theorem of_reports (h : Reports s t) : FaultKept s t where
  flags := h.regs _ _ (by decide) (by unfold reportField; decide)
  persist := h.regs _ _ (by decide) (by unfold reportField; decide)
  event e := (h.regs _ _ (by decide) (by unfold reportField; decide)).trans e
  count := h.wide _ (by unfold reportWide; decide)

theorem raise (s : State) {f : Fld} (hf : f.lo < 32) (hw : f.w = 1) (ho : f.off = Reg.SN_EVENT_FAULT.off) : FaultKept s (s.raise snB f) := by
  have hkey : ∀ g : Fld, g.lo < 32 → g.off ≠ Reg.SN_EVENT_FAULT.off → fkey (snB + f.off) f.lo ≠ fkey (snB + g.off) g.lo := by
    intro g hg hne
    rw [ho]
    unfold fkey
    omega
  exact ⟨s.rd_raise_ne (by unfold offPba; decide) (by decide) (hkey _ (by decide) (by decide)),
    s.rd_raise_ne (by unfold offPba; decide) (by decide) (hkey _ (by decide) (by decide)),
    s.rd_raise_mono (by unfold offPba; decide) (by decide) hw, s.wideAt_raise _ _ _⟩

theorem stopOutputs (s : State) : FaultKept s s.stopOutputs := by
  unfold State.stopOutputs
  split
  · exact ⟨rfl, rfl, id, rfl⟩
  · have hput : FaultKept s (s.put snB Reg.SN_STATUS_STOPPED 1) :=
      ⟨s.rd_put_ne 1 (by decide), s.rd_put_ne 1 (by decide), fun e => (s.rd_put_ne 1 (by decide)).trans e, rfl⟩
    have hcount : ∀ u : State, FaultKept u (u.count (snB + Reg.SN_STOPS) 1) := fun u =>
      ⟨rfl, rfl, id, u.wideAt_count_ne 1 (by decide)⟩
    exact (hput.trans (hcount _)).trans (raise _ (by decide) rfl rfl)

theorem bypass (s : State) : FaultKept s s.bypass where
  flags := s.rd_bypass_ne (by decide) (by unfold reportField; decide) (by decide) (by decide) (by decide)
  persist := s.rd_bypass_ne (by decide) (by unfold reportField; decide) (by decide) (by decide) (by decide)
  event e := (s.rd_bypass_ne (by decide) (by unfold reportField; decide) (by decide) (by decide) (by decide)).trans e
  count := s.wideAt_bypass_ne (by unfold reportWide; decide) (by decide)

/-- SN_EVENT is raised once more by a change of GUARANTEE, which leaves its other flags set. -/
theorem settle (pre post : State) : FaultKept post (settle pre post) where
  flags := rd_settle (by unfold outputReg; decide) (by decide)
  persist := rd_settle (by unfold outputReg; decide) (by decide)
  event e := by
    have hraised : State.rd (State.guaranteeLook { post with now := max pre.now post.now }) snB Reg.SN_EVENT_FAULT = 1 := by
      unfold State.guaranteeLook
      split
      · exact e
      · exact State.rd_raise_mono _ (by unfold offPba; decide) (by decide) rfl e
    show State.rd (State.look { post with now := max pre.now post.now }) snB Reg.SN_EVENT_FAULT = 1
    unfold State.look
    rw [State.rd_bootLook_ne _ (by decide), State.rd_pinsLook, State.rd_statusLook_of_ne _ (by decide) (by decide), hraised]
  count := wideAt_settle (by decide)

end FaultKept

theorem faulted_of_kept {src : Nat} {s t u : State} (h : faulted src s t) (hk : FaultKept t u) : faulted src s u := by
  obtain ⟨hflag, hevent, hcount, hpersist⟩ := h
  exact ⟨hk.flags ▸ hflag, hk.event hevent, hk.count.trans hcount, fun hp => hk.persist ▸ hpersist hp⟩

section
variable (s : State) (src : Nat) (i : FaultInfo)

/-- The part of `State.fault` that writes the fault down: the lasting condition, the flag, the counters and the last fault. -/
def State.faultNoted : State :=
  let last := persistent src && !(i.injected && passing.contains src)
  let s := if last then s.setPersist src i.index else s
  let s := s.put snB Reg.SN_FAULT_FLAGS_FLAGS (setBit (s.rd snB Reg.SN_FAULT_FLAGS_FLAGS) src true)
  let s := (s.count (snB + Reg.SN_FAULTS) 1).count (snB + Reg.SN_SOURCE_COUNT + 16 * src) 1
  s.putWide (snB + Reg.SN_LAST) (src + 2 ^ 8 * (i.index % 65536) + 2 ^ 24 * (if i.injected then 1 else 0) + 2 ^ 64 * (s.now % 2 ^ 64))

/-- A fault that is written down is raised and staged for the log, and may stop outputs. -/
def State.faultTold (r : LogRec) (stops : Bool) : State :=
  let noted := ((s.faultNoted src i).raise snB Reg.SN_EVENT_FAULT).stage r
  if stops then noted.stopOutputs else noted

/-- In the end a fault is reported to the instances of class S. -/
theorem State.fault_eq : ∃ (r : LogRec) (stops : Bool) (rec_ : List Byte), s.fault src i =
    (s.faultTold src i r stops).each (s.faultTold src i r stops).classS fun x k => x.eventRecord k 4 rec_ true := ⟨_, _, _, rfl⟩

theorem State.pwr_faultNoted : (s.faultNoted src i).pwr = s.pwr := by
  unfold State.faultNoted
  dsimp only
  split <;> rfl

theorem State.wideAt_faultNoted_ne {b : Nat} (h : b < snB ∨ snB + 0x1000 ≤ b) (hsrc : src < 32) : (s.faultNoted src i).wideAt b = s.wideAt b := by
  unfold State.faultNoted
  dsimp only
  rw [State.wideAt_putWide_ne _ _ (by simp only [Reg.SN_LAST]; omega), State.wideAt_count_ne _ _ (by simp only [Reg.SN_SOURCE_COUNT]; omega),
    State.wideAt_count_ne _ _ (by simp only [Reg.SN_FAULTS]; omega)]
  split <;> rfl

theorem State.pwr_stopOutputs : s.stopOutputs.pwr = s.pwr := by
  unfold State.stopOutputs
  split
  · rfl
  · rw [State.pwr_raise]
    rfl

theorem State.wideAt_stopOutputs_ne {b : Nat} (h : b ≠ snB + Reg.SN_STOPS) : s.stopOutputs.wideAt b = s.wideAt b := by
  unfold State.stopOutputs
  split
  · rfl
  · rw [State.wideAt_raise, State.wideAt_count_ne _ _ h.symm]
    rfl

theorem State.pwr_faultTold (r : LogRec) (stops : Bool) : (s.faultTold src i r stops).pwr = s.pwr := by
  have hnoted : (((s.faultNoted src i).raise snB Reg.SN_EVENT_FAULT).stage r).pwr = s.pwr := by
    rw [((Reports.refl _).stage r).pwr, State.pwr_raise, State.pwr_faultNoted]
  cases stops
  · exact hnoted
  · exact (State.pwr_stopOutputs _).trans hnoted

theorem State.wideAt_faultTold_bypasses (hsrc : src < 32) (r : LogRec) (stops : Bool) :
    (s.faultTold src i r stops).wideAt (blwB + Reg.BLW_BYPASSES) = s.wideAt (blwB + Reg.BLW_BYPASSES) := by
  have hnoted : (((s.faultNoted src i).raise snB Reg.SN_EVENT_FAULT).stage r).wideAt (blwB + Reg.BLW_BYPASSES) =
      s.wideAt (blwB + Reg.BLW_BYPASSES) := by
    rw [((Reports.refl _).stage r).wide _ not_reportWide_bypasses, State.wideAt_raise,
      State.wideAt_faultNoted_ne _ _ _ (.inl (by decide)) hsrc]
  cases stops
  · exact hnoted
  · exact (State.wideAt_stopOutputs_ne _ (by decide)).trans hnoted

/-- The reports to the instances. -/
theorem State.reports_faultTold_fault : ∃ (r : LogRec) (stops : Bool), Reports (s.faultTold src i r stops) (s.fault src i) := by
  obtain ⟨r, stops, rec_, heq⟩ := s.fault_eq src i
  refine ⟨r, stops, ?_⟩
  rw [heq]
  exact Reports.each (fun x k => (Reports.refl x).eventRecord k 4 rec_ true none) _ _

theorem State.pwr_fault : (s.fault src i).pwr = s.pwr := by
  obtain ⟨r, stops, hreports⟩ := s.reports_faultTold_fault src i
  rw [hreports.pwr, State.pwr_faultTold]

/-- A fault counts nothing of the Bellows. -/
theorem State.wideAt_fault_bypasses (hsrc : src < 32) :
    (s.fault src i).wideAt (blwB + Reg.BLW_BYPASSES) = s.wideAt (blwB + Reg.BLW_BYPASSES) := by
  obtain ⟨r, stops, hreports⟩ := s.reports_faultTold_fault src i
  rw [hreports.wide _ not_reportWide_bypasses, s.wideAt_faultTold_bypasses src i hsrc]

variable {src i}

theorem State.rd_faultNoted_flags (hsrc : src < 32) : bitSet ((s.faultNoted src i).rd snB Reg.SN_FAULT_FLAGS_FLAGS) src = true := by
  unfold State.faultNoted
  dsimp only
  rw [State.rd_putWide, State.rd_count, State.rd_count, State.rd_put_self, show Reg.SN_FAULT_FLAGS_FLAGS.w = 32 from rfl,
    bitSet_mod_two_pow _ hsrc, bitSet_setBit, if_pos rfl]

theorem State.wideAt_faultNoted_faults :
    (s.faultNoted src i).wideAt (snB + Reg.SN_FAULTS) = (s.wideAt (snB + Reg.SN_FAULTS) + 1) % 2 ^ 48 := by
  unfold State.faultNoted
  dsimp only
  rw [State.wideAt_putWide_ne _ _ (by decide), State.wideAt_count_ne _ _ (by simp only [Reg.SN_SOURCE_COUNT, Reg.SN_FAULTS]; omega),
    State.wideAt_count_self]
  split <;> rfl

/-- The persistent sources follow the list of lasting conditions. -/
theorem State.rd_setPersist (idx : Nat) (hsrc : src < 32) : bitSet ((s.setPersist src idx).rd snB Reg.SN_PERSIST_PERSIST) src = true := by
  unfold State.setPersist State.persistLook
  rw [State.rd_put_self, show Reg.SN_PERSIST_PERSIST.w = 32 from rfl, bitSet_mod_two_pow _ hsrc]
  refine bitSet_foldl_setBit (.inr ⟨(src, idx), ?_, rfl⟩)
  dsimp only
  split
  · next h => exact List.contains_iff_mem.mp h
  · exact List.mem_append_right _ (List.mem_singleton_self _)

theorem State.rd_faultNoted_persist (hsrc : src < 32) (hp : persistent src = true) (hinj : i.injected = false) :
    bitSet ((s.faultNoted src i).rd snB Reg.SN_PERSIST_PERSIST) src = true := by
  unfold State.faultNoted
  dsimp only
  rw [State.rd_putWide, State.rd_count, State.rd_count, State.rd_put_ne _ _ (by decide), hp, hinj]
  exact s.rd_setPersist i.index hsrc

theorem faulted_faultTold (hsrc : src < 32) (hinj : i.injected = false) (r : LogRec) (stops : Bool) :
    faulted src s (s.faultTold src i r stops) := by
  have hraise : FaultKept (s.faultNoted src i) ((s.faultNoted src i).raise snB Reg.SN_EVENT_FAULT) := .raise _ (by decide) rfl rfl
  have hraised : faulted src s ((s.faultNoted src i).raise snB Reg.SN_EVENT_FAULT) :=
    ⟨hraise.flags ▸ s.rd_faultNoted_flags hsrc, State.rd_raise_self _ (by unfold offPba; decide) (by decide) (by decide),
      hraise.count.trans s.wideAt_faultNoted_faults, fun hp => hraise.persist ▸ s.rd_faultNoted_persist hsrc hp hinj⟩
  have hstaged := faulted_of_kept hraised (.of_reports ((Reports.refl _).stage r))
  cases stops
  · exact hstaged
  · exact faulted_of_kept hstaged (.stopOutputs _)

theorem faulted_fault (hsrc : src < 32) (hinj : i.injected = false) : faulted src s (s.fault src i) := by
  obtain ⟨r, stops, hreports⟩ := s.reports_faultTold_fault src i
  exact faulted_of_kept (faulted_faultTold s hsrc hinj r stops) (.of_reports hreports)

end

end Sys2Proof.Machine
end

section
/-! The write inhibit (R542). -/
namespace Sys2Proof.Machine

/-! ## Fields of Piccolo and of the log after a command -/

theorem rd_settle_pic (pre post : State) {g : Fld} (ho : g.off < 0x10000) (hg : g.lo < 32) : (settle pre post).rd picB g = post.rd picB g := by
  refine rd_settle ?_ hg
  simp only [outputReg, picB, snB, devB, pbaBase, pciB, if_true, FrameKind.base, Reg.SN_STATUS_STOPPED, Reg.SN_EVENT_FAULT, Reg.DEV_BOOT_STATUS_STEP]
  omega

theorem rd_settle_logInhibited (pre post : State) : (settle pre post).rd logB Reg.LOG_STATUS_INHIBITED = post.rd logB Reg.LOG_STATUS_INHIBITED :=
  rd_settle (by unfold outputReg; decide) (by decide)

@[simp] theorem pwr_settle (pre post : State) : (settle pre post).pwr = post.pwr := pwr_eq_of_inner (inner_settle pre post)

theorem not_reportField_pic {o lo : Nat} (ho : o < 0x10000) : ¬ reportField (picB + o) lo := by
  simp only [reportField, picB, carB, logB, FrameKind.base, Reg.LOG_EVENT_LOST, Reg.LOG_STATUS_BUSY]
  omega

theorem not_reportField_logInhibited : ¬ reportField (logB + Reg.LOG_STATUS_INHIBITED.off) Reg.LOG_STATUS_INHIBITED.lo := by
  unfold reportField
  decide

section
variable (s : State)

/-- The inhibit set in both registers, stores in progress ended, and the event raised. -/
def State.inhibitSet : State :=
  ((s.put picB Reg.PIC_STATE_INHIBIT 1).put logB Reg.LOG_STATUS_INHIBITED 1).storesInhibited.raise picB Reg.PIC_EVENT_INHIBIT

theorem State.beginInhibit_of_not_inhibited (h : s.inhibited = false) :
    s.beginInhibit = (s.modPwr fun x => { x with inhibitEnding := false }).inhibitSet := by
  have h' : (s.modPwr fun x => { x with inhibitEnding := false }).inhibited = false := h
  unfold State.beginInhibit
  dsimp only
  rw [h']
  rfl

theorem State.reports_storesInhibited : Reports s s.storesInhibited := (Reports.refl s).storesInhibited

@[simp] theorem State.pwr_inhibitSet : s.inhibitSet.pwr = s.pwr := by
  rw [State.inhibitSet, State.pwr_raise, (State.reports_storesInhibited _).pwr]
  rfl

theorem State.wideAt_inhibitSet {b : Nat} (h : ¬ reportWide b) : s.inhibitSet.wideAt b = s.wideAt b := by
  rw [State.inhibitSet, State.wideAt_raise, (State.reports_storesInhibited _).wide b h]
  rfl

/-- Beside the flag, the inhibit acts on Piccolo's registers and on the log's as it is set. -/
theorem State.rd_inhibitSet {b : Nat} {g : Fld} (hg : g.lo < 32) (h : ¬ reportField (b + g.off) g.lo)
    (hev : picB + Reg.PIC_EVENT_INHIBIT.off ≠ b + g.off) :
    s.inhibitSet.rd b g = ((s.put picB Reg.PIC_STATE_INHIBIT 1).put logB Reg.LOG_STATUS_INHIBITED 1).rd b g := by
  have hkey : fkey (picB + Reg.PIC_EVENT_INHIBIT.off) Reg.PIC_EVENT_INHIBIT.lo ≠ fkey (b + g.off) g.lo := by
    have : Reg.PIC_EVENT_INHIBIT.lo < 32 := by decide
    unfold fkey
    omega
  rw [State.inhibitSet, State.rd_raise_ne _ (offPba_of_not_reportField h) hg hkey, (State.reports_storesInhibited _).regs b g hg h]

theorem State.powerState_inhibitSet : s.inhibitSet.powerState = s.powerState := by
  rw [State.powerState, s.rd_inhibitSet (by decide) (not_reportField_pic (by decide)) (by decide), State.rd_put_ne _ _ (by decide),
    State.rd_put_ne _ _ (by decide), State.powerState]

theorem inhibitBegun_inhibitSet (h : s.pwr.inhibitEnding = false) : inhibitBegun s.inhibitSet := by
  refine ⟨?_, ?_, ?_, ?_⟩
  · rw [s.rd_inhibitSet (by decide) (not_reportField_pic (by decide)) (by decide), State.rd_put_ne _ _ (by decide), State.rd_put_self]
    rfl
  · rw [s.rd_inhibitSet (by decide) not_reportField_logInhibited (by decide), State.rd_put_self]
    rfl
  · rw [State.inhibitSet]
    exact State.rd_raise_self _ (by unfold offPba; decide) (by decide) (by decide)
  · rw [State.pwr_inhibitSet, h]

end

theorem inhibitBegun_settle {t : State} (h : inhibitBegun t) (pre : State) : inhibitBegun (settle pre t) := by
  obtain ⟨hpic, hlog, hevent, hending⟩ := h
  refine ⟨?_, ?_, ?_, ?_⟩
  · rw [rd_settle_pic _ _ (by decide) (by decide), hpic]
  · rw [rd_settle_logInhibited, hlog]
  · rw [rd_settle_pic _ _ (by decide) (by decide), hevent]
  · rw [pwr_settle, hending]

theorem inhibitBegun_bypass {t : State} (h : inhibitBegun t) : inhibitBegun t.bypass := by
  obtain ⟨hpic, hlog, hevent, hending⟩ := h
  refine ⟨?_, ?_, ?_, ?_⟩
  · rw [t.rd_bypass_ne (by decide) (not_reportField_pic (by decide)) (by decide) (by decide) (by decide), hpic]
  · rw [t.rd_bypass_ne (by decide) not_reportField_logInhibited (by decide) (by decide) (by decide), hlog]
  · rw [t.rd_bypass_ne (by decide) (not_reportField_pic (by decide)) (by decide) (by decide) (by decide), hevent]
  · rw [State.pwr_bypass, hending]

/-! ## The commands -/

section
variable {s : State}

/-- PWR_WARN_N and a low VDD_AON begin the inhibit with a mark of their own. -/
theorem doPwrWarn_of_high (hon : s.pwr.off = false) (hi : s.inhibited = false) (hw : s.pwr.warn = false) :
    let u := (s.modPwr fun x => { x with warn := true, inhibitEnding := false }).inhibitSet
    doPwrWarn s = if s.powerState ≤ 1 then u.bypass else u := by
  intro u
  have hbegin : (s.modPwr fun x => { x with warn := true }).beginInhibit = u :=
    State.beginInhibit_of_not_inhibited (s.modPwr fun x => { x with warn := true }) hi
  have hstate : u.powerState = s.powerState := State.powerState_inhibitSet _
  have hskip : ¬ (s.pwr.off = true ∨ s.pwr.warn = true) := by simp [hon, hw]
  unfold doPwrWarn
  rw [if_neg hskip]
  dsimp only
  rw [hbegin, hstate]

theorem completes_pwrWarnAssert (hon : s.pwr.off = false) (hi : s.inhibited = false) (hw : s.pwr.warn = false) :
    completes .pwrWarnAssert s fun t => inhibitBegun t ∧ t.pwr.warn = true ∧ (s.powerState ≤ 1 → bypassed s t) := by
  have hbegun := inhibitBegun_inhibitSet (s.modPwr fun x => { x with warn := true, inhibitEnding := false }) rfl
  refine completes_of_effect rfl (doPwrWarn_of_high hon hi hw) ?_
  split
  · refine ⟨inhibitBegun_settle (inhibitBegun_bypass hbegun) s, ?_, fun _ => ?_⟩
    · rw [pwr_settle, State.pwr_bypass, State.pwr_inhibitSet]
      rfl
    · refine bypassed_of_wideAt_eq (bypassed_settle (bypassed_bypass _) s) ?_
      rw [State.wideAt_inhibitSet _ not_reportWide_bypasses, State.wideAt_modPwr]
  · next hsleep =>
    refine ⟨inhibitBegun_settle hbegun s, ?_, fun h => absurd h hsleep⟩
    rw [pwr_settle, State.pwr_inhibitSet]
    rfl

theorem doAonInhibitFall_of_high (hon : s.pwr.off = false) (hi : s.inhibited = false) (hlow : s.pwr.aonLow = false) :
    doAonInhibitFall s = (s.modPwr fun x => { x with aonLow := true, inhibitEnding := false }).inhibitSet := by
  have hskip : ¬ (s.pwr.off = true ∨ s.pwr.aonLow = true) := by simp [hon, hlow]
  unfold doAonInhibitFall
  rw [if_neg hskip]
  exact State.beginInhibit_of_not_inhibited (s.modPwr fun x => { x with aonLow := true }) hi

theorem completes_vddAonInhibitFall (hon : s.pwr.off = false) (hi : s.inhibited = false) (hlow : s.pwr.aonLow = false) :
    completes .vddAonInhibitFall s fun t => inhibitBegun t ∧ t.pwr.aonLow = true := by
  refine completes_of_effect rfl (doAonInhibitFall_of_high hon hi hlow) ⟨inhibitBegun_settle (inhibitBegun_inhibitSet _ rfl) s, ?_⟩
  rw [pwr_settle, State.pwr_inhibitSet]
  rfl

/-- While the inhibit is in force and neither condition holds its time runs. -/
theorem State.inhibitLook_of_well (hi : s.inhibited = true) (hw : s.pwr.warn = false) (hlow : s.pwr.aonLow = false) :
    s.inhibitLook = s.modPwr fun x => { x with inhibitEnding := true } := by
  simp [State.inhibitLook, hi, hw, hlow]

theorem State.rd_inhibit_of_inhibited (hi : s.inhibited = true) : s.rd picB Reg.PIC_STATE_INHIBIT = 1 := of_decide_eq_true hi

theorem completes_pwrWarnRelease (hi : s.inhibited = true) (hlow : s.pwr.aonLow = false) : completes .pwrWarnRelease s fun t =>
    t.pwr.warn = false ∧ t.pwr.inhibitEnding = true ∧ t.rd picB Reg.PIC_STATE_INHIBIT = 1 := by
  have hlook := State.inhibitLook_of_well (s := s.modPwr fun x => { x with warn := false }) hi rfl hlow
  refine completes_of_effect rfl hlook ?_
  rw [pwr_settle, rd_settle_pic _ _ (by decide) (by decide), State.rd_modPwr, State.rd_modPwr, State.rd_inhibit_of_inhibited hi]
  exact ⟨rfl, rfl, rfl⟩

theorem completes_vddAonInhibitRise (hi : s.inhibited = true) (hw : s.pwr.warn = false) : completes .vddAonInhibitRise s fun t =>
    t.pwr.aonLow = false ∧ t.pwr.inhibitEnding = true ∧ t.rd picB Reg.PIC_STATE_INHIBIT = 1 := by
  have hlook := State.inhibitLook_of_well (s := s.modPwr fun x => { x with aonLow := false }) hi hw rfl
  refine completes_of_effect rfl hlook ?_
  rw [pwr_settle, rd_settle_pic _ _ (by decide) (by decide), State.rd_modPwr, State.rd_modPwr, State.rd_inhibit_of_inhibited hi]
  exact ⟨rfl, rfl, rfl⟩

/-- The inhibit taken back in both registers. -/
def State.inhibitCleared (s : State) : State :=
  ((s.modPwr fun x => { x with inhibitEnding := false }).put picB Reg.PIC_STATE_INHIBIT 0).put logB Reg.LOG_STATUS_INHIBITED 0

theorem doInhibitEnd_of_ending (h : s.pwr.inhibitEnding = true) : doInhibitEnd s = s.inhibitCleared.logKick := by
  unfold doInhibitEnd
  rw [h]
  rfl

theorem doInhibitEnd_of_not_ending (h : s.pwr.inhibitEnding = false) : doInhibitEnd s = s := by
  unfold doInhibitEnd
  rw [h]
  rfl

theorem completes_writeInhibitEnd (h : s.pwr.inhibitEnding = true) : completes .writeInhibitEnd s fun t =>
    t.rd picB Reg.PIC_STATE_INHIBIT = 0 ∧ t.rd logB Reg.LOG_STATUS_INHIBITED = 0 ∧ t.pwr.inhibitEnding = false := by
  have hkick : Reports s.inhibitCleared s.inhibitCleared.logKick := (Reports.refl _).logKick
  refine completes_of_effect rfl (doInhibitEnd_of_ending h) ⟨?_, ?_, ?_⟩
  · rw [rd_settle_pic _ _ (by decide) (by decide), hkick.regs _ _ (by decide) (not_reportField_pic (by decide)), State.inhibitCleared,
      State.rd_put_ne _ _ (by decide), State.rd_put_self, Nat.zero_mod]
  · rw [rd_settle_logInhibited, hkick.regs _ _ (by decide) not_reportField_logInhibited, State.inhibitCleared, State.rd_put_self, Nat.zero_mod]
  · rw [pwr_settle, hkick.pwr]
    rfl

/-- A command without effect leaves every register and wide value but those that follow the state. -/
theorem completes_unchanged {c : Instr} {post : State} (he : exec c s = .next (settle s post)) (hu : post = s) :
    completes c s fun t => keeps noRegs s t ∧ keepsWide noRegs s t :=
  completes_of_effect he hu ⟨(keeps.refl noRegs s).settle s, (keepsWide.refl noRegs s).settle s⟩

end

end Sys2Proof.Machine
end

section
/-! The always-on supply (R131, R516, R550) and the device reset (R557). -/
namespace Sys2Proof.Machine

section
variable (s : State)

@[simp] theorem plan_settle (pre post : State) : (settle pre post).plan = post.plan := plan_eq_of_inner (inner_settle pre post)

theorem flash_eq_of_inner {s t : State} (h : t.inner = s.inner) : t.flash = s.flash := (congrArg State.flash h :)

@[simp] theorem inner_settleAnew (pre post : State) : (settleAnew pre post).inner = post.inner := by
  have hqueue : ∀ u : State, ({ u with pending := pre.pending } : State).inner = u.inner := fun _ => rfl
  unfold settleAnew
  rw [hqueue]
  simp only [State.look, State.inner_bootLook, State.inner_pinsLook, State.inner_statusLook, State.inner_guaranteeLook]

theorem now_settleAnew (pre post : State) : (settleAnew pre post).now = post.now := State.now_look post

/-! ## OFF -/

theorem State.pwr_powerOff (off : Bool) : (s.powerOff off).pwr = s.logCut.pwr.overOff off := rfl
theorem State.plan_powerOff (off : Bool) : (s.powerOff off).plan = none := rfl
theorem State.flash_powerOff (off : Bool) : (s.powerOff off).flash = s.logCut.flash := rfl

theorem completes_vddAonResetFall : completes .vddAonResetFall s fun t => t.pwr.off = true ∧ t.pwr.waking = 0 ∧ t.plan = none := by
  refine completes_of_effect rfl rfl ?_
  rw [pwr_settle, plan_settle, doAonOff, State.pwr_powerOff, State.plan_powerOff]
  exact ⟨rfl, rfl, rfl⟩

/-! ## The rise of VDD_AON -/

/-- A port whose PERST is low shows it. -/
def State.showPerst : State :=
  s.each [(s.portA.perst, Reg.PCI_PORT_A_STATUS_STATE), (s.portB.perst, Reg.PCI_PORT_B_STATUS_STATE)] fun u e =>
    if e.1 then u.put pciB e.2 6 else u

theorem State.inner_showPerst : s.showPerst.inner = s.inner := by
  unfold State.showPerst
  cases s.portA.perst <;> cases s.portB.perst <;> rfl

theorem State.now_showPerst : s.showPerst.now = s.now := by
  unfold State.showPerst
  cases s.portA.perst <;> cases s.portB.perst <;> rfl

/-- With no store in progress the inhibit ends none. -/
theorem State.storesInhibited_of_idle (hr : s.rpl.phase = .idle) (hf : s.fwp.phase = .idle) : s.storesInhibited = s := by
  unfold State.storesInhibited
  rw [hr]
  dsimp only
  rw [hf]

theorem State.beginInhibit_of_idle (hr : s.rpl.phase = .idle) (hf : s.fwp.phase = .idle) :
    s.beginInhibit.inner = (s.modPwr fun x => { x with inhibitEnding := false }).inner ∧ s.beginInhibit.now = s.now := by
  unfold State.beginInhibit
  dsimp only
  split
  · exact ⟨rfl, rfl⟩
  · rw [State.storesInhibited_of_idle _ (by exact hr) (by exact hf), State.now_raise, State.inner_raise _ (notRing_of_block (by decide))]
    exact ⟨rfl, rfl⟩

/-- The state that a power cycle begins in. -/
def State.poweredAnew : State := State.showPerst { s.powerOff false with now := 0 }

theorem State.inner_poweredAnew : s.poweredAnew.inner = (s.powerOff false).inner := State.inner_showPerst _

theorem State.now_poweredAnew : s.poweredAnew.now = 0 := State.now_showPerst _

theorem doAonRise_eq : doAonRise s =
    if s.poweredAnew.pwr.warn ∨ s.poweredAnew.pwr.aonLow then s.poweredAnew.beginInhibit else s.poweredAnew := rfl

/-- A power cycle ends in the state it begins in, but for an inhibit where a supply is low. -/
theorem doAonRise_anew : (doAonRise s).now = 0 ∧ (doAonRise s).plan = none ∧ (doAonRise s).flash = s.logCut.flash ∧
    (doAonRise s).pwr.off = false := by
  have hplan := (plan_eq_of_inner s.inner_poweredAnew).trans (s.plan_powerOff false)
  have hflash := (flash_eq_of_inner s.inner_poweredAnew).trans (s.flash_powerOff false)
  have hpwr := (pwr_eq_of_inner s.inner_poweredAnew).trans (s.pwr_powerOff false)
  rw [doAonRise_eq]
  split
  · have hr : s.poweredAnew.rpl.phase = .idle := congrArg PushX.phase (rpl_eq_of_inner s.inner_poweredAnew)
    have hf : s.poweredAnew.fwp.phase = .idle := congrArg PushX.phase (congrArg State.fwp s.inner_poweredAnew :)
    obtain ⟨hinner, hnow⟩ := s.poweredAnew.beginInhibit_of_idle hr hf
    refine ⟨hnow.trans s.now_poweredAnew, (plan_eq_of_inner hinner).trans hplan, (flash_eq_of_inner hinner).trans hflash, ?_⟩
    rw [pwr_eq_of_inner hinner, State.pwr_modPwr, hpwr]
    rfl
  · exact ⟨s.now_poweredAnew, hplan, hflash, congrArg PwrX.off hpwr⟩

theorem completes_vddAonRise : completes .vddAonRise s fun t => t.pwr.off = false ∧ t.now = 0 ∧ t.plan = none ∧ t.flash = (s.logCut).flash := by
  obtain ⟨hnow, hplan, hflash, hoff⟩ := doAonRise_anew s
  have hinner := inner_settleAnew s (doAonRise s)
  exact ⟨settleAnew s (doAonRise s), exec_vddAonRise s, (congrArg PwrX.off (pwr_eq_of_inner hinner)).trans hoff,
    (now_settleAnew s _).trans hnow, (plan_eq_of_inner hinner).trans hplan, (flash_eq_of_inner hinner).trans hflash⟩

/-! ## The cold start -/

/-- A cold start is a reset that keeps the count of cold starts, and begins at step 2 in ON. -/
theorem State.coldStart_eq : ∃ u : State, u.plan = none ∧ s.coldStart =
    (((u.showPerst.putWide (devB + Reg.DEV_COLD_STARTS) (s.wideAt (devB + Reg.DEV_COLD_STARTS))).put picB Reg.PIC_STATE_ENTRY 0).setPower
      0).beginStep2 := ⟨_, rfl, rfl⟩

theorem State.rd_beginStep2 (b : Nat) (g : Fld) : s.beginStep2.rd b g =
    ((s.put pciB Reg.PCI_PORT_CFG_LANE_MODE s.fuses.laneMode).put devB Reg.DEV_BOOT_STATUS_STEP 2).rd b g := rfl

theorem State.plan_beginStep2 : s.beginStep2.plan = s.plan := rfl
theorem State.plan_setPower (st : Nat) : (s.setPower st).plan = s.plan := rfl
theorem State.wideAt_setPower (st b : Nat) : (s.setPower st).wideAt b = s.wideAt b := rfl
theorem State.rd_setPower (st b : Nat) (g : Fld) : (s.setPower st).rd b g = (s.put picB Reg.PIC_STATE_STATE st).rd b g := rfl

theorem State.wideAt_beginStep2_coldStarts : s.beginStep2.wideAt (devB + Reg.DEV_COLD_STARTS) =
    (s.wideAt (devB + Reg.DEV_COLD_STARTS) + 1) % 2 ^ 48 := State.wideAt_count_self _ _ _

variable {s}

theorem completes_devReset (ha : s.answers 0 = true) : completes .devReset s fun t =>
    t.rd picB Reg.PIC_STATE_STATE = 0 ∧ t.rd picB Reg.PIC_STATE_ENTRY = 0 ∧ t.rd devB Reg.DEV_BOOT_STATUS_STEP = 2 ∧ t.plan = none ∧
    t.wideAt (devB + Reg.DEV_COLD_STARTS) = (s.wideAt (devB + Reg.DEV_COLD_STARTS) + 1) % 2 ^ 48 := by
  obtain ⟨u, hplan, heq⟩ := s.coldStart_eq
  have hreset : doDevReset s = s.coldStart := by rw [doDevReset, State.mgrAny, if_pos ha]
  refine completes_of_effect rfl (hreset.trans heq) ⟨?_, ?_, ?_, ?_, ?_⟩
  · rw [rd_settle_pic _ _ (by decide) (by decide), State.rd_beginStep2, State.rd_put_ne _ _ (by decide), State.rd_put_ne _ _ (by decide),
      State.rd_setPower, State.rd_put_self, Nat.zero_mod]
  · rw [rd_settle_pic _ _ (by decide) (by decide), State.rd_beginStep2, State.rd_put_ne _ _ (by decide), State.rd_put_ne _ _ (by decide),
      State.rd_setPower, State.rd_put_ne _ _ (by decide), State.rd_put_self, Nat.zero_mod]
  · have hstep : ∀ v : State, v.beginStep2.rd devB Reg.DEV_BOOT_STATUS_STEP = 2 := fun v => by
      rw [State.rd_beginStep2, State.rd_put_self]
      rfl
    rw [rd_settle_bootStatus _ rfl (by decide) (by rw [hstep]; decide), hstep]
  · rw [plan_settle, State.plan_beginStep2, State.plan_setPower, State.put_plan, State.putWide_plan, plan_eq_of_inner u.inner_showPerst, hplan]
  · rw [wideAt_settle (by decide), State.wideAt_beginStep2_coldStarts, State.wideAt_setPower, State.wideAt_put, State.wideAt_putWide_self]

end

end Sys2Proof.Machine
end

section
/-! The re-plan (R544, R546, R547). -/
namespace Sys2Proof.Machine

/-! ## The operating points -/

/-- The field at address `a` with lowest bit `lo` is one that `State.pointsLook` may write: the points, the retired points, the event, and
the manager's pending bits. -/
def pointsField (a lo : Nat) : Prop :=
  (blwB + Reg.BLW_POINT_MHZ.off ≤ a ∧ a < blwB + Reg.BLW_POINT_MHZ.off + 20) ∨
    (a = blwB + Reg.BLW_AGE_RETIRED.off ∧ lo = Reg.BLW_AGE_RETIRED.lo) ∨ a = blwB + Reg.BLW_EVENT_POINT_RETIRED.off ∨ a = pbaBase 0

/-- `t` differs from `s` at most by what the operating points change. -/
structure PointsOnly (s t : State) : Prop where
  inner : t.inner = s.inner
  regs : ∀ (b : Nat) (g : Fld), g.lo < 32 → ¬ pointsField (b + g.off) g.lo → t.rd b g = s.rd b g

namespace PointsOnly

variable {s t u : State}

theorem refl (s : State) : PointsOnly s s := ⟨rfl, fun _ _ _ _ => rfl⟩

theorem trans (h : PointsOnly s t) (h' : PointsOnly t u) : PointsOnly s u :=
  ⟨h'.inner.trans h.inner, fun b g hg hn => (h'.regs b g hg hn).trans (h.regs b g hg hn)⟩

theorem put (h : PointsOnly s t) (a : Nat) (f : Fld) (v : Nat) (hf : f.lo < 32) (hm : pointsField (a + f.off) f.lo) :
    PointsOnly s (t.put a f v) := by
  refine ⟨(t.inner_put a f v).trans h.inner, fun b g hg hn => (t.rd_put_ne v fun e => hn ?_).trans (h.regs b g hg hn)⟩
  have ha : a + f.off = b + g.off := by unfold fkey at e; omega
  have hlo : f.lo = g.lo := by unfold fkey at e; omega
  rwa [← ha, ← hlo]

theorem raiseRetired (h : PointsOnly s t) : PointsOnly s (t.raise blwB Reg.BLW_EVENT_POINT_RETIRED) := by
  refine ⟨(t.inner_raise (notRing_of_block (by decide)) _).trans h.inner, fun b g hg hn => ?_⟩
  have hne : blwB + Reg.BLW_EVENT_POINT_RETIRED.off ≠ b + g.off := fun e => hn (.inr (.inr (.inl e.symm)))
  have hkey : fkey (blwB + Reg.BLW_EVENT_POINT_RETIRED.off) Reg.BLW_EVENT_POINT_RETIRED.lo ≠ fkey (b + g.off) g.lo := by
    have : Reg.BLW_EVENT_POINT_RETIRED.lo < 32 := by decide
    unfold fkey
    omega
  exact (t.rd_raise_block (by decide) (fun e => hn (.inr (.inr (.inr e)))) hg hkey).trans (h.regs b g hg hn)

theorem putPoint (h : PointsOnly s t) {n : Nat} (hn : n < 5) (f : Fld) (v : Nat) (hf : f.lo < 32) (ho : f.off = Reg.BLW_POINT_MHZ.off) :
    PointsOnly s (t.put (blwB + 4 * n) f v) := h.put _ f v hf (.inl (by rw [ho]; omega))

/-- Each point is looked at by itself. -/
theorem each {f : State → Nat → State} (hf : ∀ x n, n < 5 → PointsOnly x (f x n)) {l : List Nat} (hl : ∀ n ∈ l, n < 5) (s : State) :
    PointsOnly s (s.each l f) := by
  induction l generalizing s with
  | nil => exact refl s
  | cons n l ih => exact (hf s n (hl n (List.mem_cons_self ..))).trans (ih (fun k hk => hl k (List.mem_cons_of_mem _ hk)) (f s n))

theorem pointsLook (s : State) : PointsOnly s s.pointsLook := by
  refine each (fun x n hn => ?_) (fun n hn => List.mem_range.mp hn) s
  have hpoint := ((refl x).putPoint hn Reg.BLW_POINT_MHZ (pointMhz n) (by decide) rfl).putPoint hn Reg.BLW_POINT_MV (x.pointMvNow n)
    (by decide) rfl
  dsimp only
  split
  · exact ((hpoint.put blwB Reg.BLW_AGE_RETIRED _ (by decide) (.inr (.inl ⟨rfl, rfl⟩))).putPoint hn Reg.BLW_POINT_RETIRED 1 (by decide)
      rfl).raiseRetired
  · exact hpoint

end PointsOnly

/-! ## The end of a re-plan -/

section
variable (s : State) (d e : Nat)

/-- The guardbands that a re-plan ends with (R544): never lower than those in force. -/
def State.replanGfx : Nat := max (s.rd blwB Reg.BLW_VOLT_G_GFX) (max s.pwr.gGfx (guardband s.fuses.gfxSens d))
def State.replanCore : Nat := max (s.rd blwB Reg.BLW_VOLT_G_CORE) (max s.pwr.gCore (guardband s.fuses.coreSens e))

/-- The delays measured and the guardbands, in the registers. -/
def State.replanPut : State :=
  (((s.put blwB Reg.BLW_AGE_D_GFX d).put blwB Reg.BLW_AGE_D_CORE e).put blwB Reg.BLW_VOLT_G_GFX (s.replanGfx d)).put
    blwB Reg.BLW_VOLT_G_CORE (s.replanCore e)

/-- The points after a re-plan, with the event of an ageing limit. -/
def State.replanPoints : State :=
  let u := (s.replanPut d e).pointsLook
  if railMaxCore < u.fuses.coreMv + 5 * s.replanCore e then u.raise blwB Reg.BLW_EVENT_AGEING_LIMIT else u

/-- Piccolo's values after a re-plan. -/
def PwrX.replanned (x : PwrX) (g c : Nat) : PwrX :=
  { x with replanning := false, planMs := x.poweredMs, gGfx := g, gCore := c, ageCeiling := 4, replicaFail := 0 }

/-- A re-plan ends with its record in both logs and its event. -/
theorem State.replanTake_eq : ∃ r : LogRec, s.replanTake d e =
    (((((s.replanPoints d e).modPwr fun x => x.replanned (s.replanGfx d) (s.replanCore e)).stage r).stageAon r).raise
      blwB Reg.BLW_EVENT_REPLAN_DONE) := by
  have hput : (s.each [(Reg.BLW_AGE_D_GFX, d), (Reg.BLW_AGE_D_CORE, e), (Reg.BLW_VOLT_G_GFX, s.replanGfx d),
      (Reg.BLW_VOLT_G_CORE, s.replanCore e)] fun u x => u.put blwB x.1 x.2) = s.replanPut d e := rfl
  unfold State.replanTake State.replanPoints
  extract_lets gfx core measured looked points before after hours r looked'
  have hlooked : looked = looked' := congrArg State.pointsLook hput
  clear_value looked looked'
  subst hlooked
  exact ⟨r, rfl⟩

theorem State.pwr_replanPoints : (s.replanPoints d e).pwr = s.pwr := by
  have hpoints : (s.replanPut d e).pointsLook.pwr = s.pwr := pwr_eq_of_inner (PointsOnly.pointsLook _).inner
  unfold State.replanPoints
  dsimp only
  split
  · rw [State.pwr_raise, hpoints]
  · exact hpoints

theorem State.rd_replanPoints {b : Nat} {g : Fld} (hg : g.lo < 32) (h : ¬ pointsField (b + g.off) g.lo) :
    (s.replanPoints d e).rd b g = (s.replanPut d e).rd b g := by
  have hpoints := (PointsOnly.pointsLook (s.replanPut d e)).regs b g hg h
  unfold State.replanPoints
  dsimp only
  split
  · have hne : blwB + Reg.BLW_EVENT_AGEING_LIMIT.off ≠ b + g.off := fun e => h (.inr (.inr (.inl e.symm)))
    have hkey : fkey (blwB + Reg.BLW_EVENT_AGEING_LIMIT.off) Reg.BLW_EVENT_AGEING_LIMIT.lo ≠ fkey (b + g.off) g.lo := by
      have : Reg.BLW_EVENT_AGEING_LIMIT.lo < 32 := by decide
      unfold fkey
      omega
    rw [State.rd_raise_block _ (by decide) (fun e => h (.inr (.inr (.inr e)))) hg hkey, hpoints]
  · exact hpoints

theorem State.rd_stageAon (r : LogRec) (b : Nat) (g : Fld) : (s.stageAon r).rd b g = s.rd b g := rfl
theorem State.pwr_stageAon (r : LogRec) : (s.stageAon r).pwr = { s.pwr with aonLog := s.pwr.aonLog ++ [{ r with time := s.now }] } := rfl

/-- The delays stand in BLW_AGE as they were measured. -/
theorem State.rd_replanTake_age {g : Fld} (hoff : g.off = Reg.BLW_AGE_D_GFX.off) (hg : g.lo < 20) :
    (s.replanTake d e).rd blwB g = (s.replanPut d e).rd blwB g := by
  obtain ⟨r, heq⟩ := s.replanTake_eq d e
  have hkey : fkey (blwB + Reg.BLW_EVENT_REPLAN_DONE.off) Reg.BLW_EVENT_REPLAN_DONE.lo ≠ fkey (blwB + g.off) g.lo := by
    simp only [fkey, hoff, Reg.BLW_EVENT_REPLAN_DONE, Reg.BLW_AGE_D_GFX]
    omega
  have hreport : ¬ reportField (blwB + g.off) g.lo := by
    simp only [reportField, hoff, blwB, carB, logB, FrameKind.base, Reg.BLW_AGE_D_GFX, Reg.LOG_EVENT_LOST, Reg.LOG_STATUS_BUSY]
    omega
  have hpoints : ¬ pointsField (blwB + g.off) g.lo := by
    simp only [pointsField, hoff, blwB, pbaBase, pciB, if_true, FrameKind.base, Reg.BLW_POINT_MHZ, Reg.BLW_AGE_RETIRED, Reg.BLW_AGE_D_GFX,
      Reg.BLW_EVENT_POINT_RETIRED]
    omega
  rw [heq, State.rd_raise_ne _ (offPba_of_not_reportField hreport) (by omega) hkey, State.rd_stageAon,
    ((Reports.refl _).stage r).regs _ _ (by omega) hreport, State.rd_modPwr, State.rd_replanPoints _ _ _ (by omega) hpoints]

theorem State.pwr_replanTake : ∃ l, (s.replanTake d e).pwr = { s.pwr.replanned (s.replanGfx d) (s.replanCore e) with aonLog := l } := by
  obtain ⟨r, heq⟩ := s.replanTake_eq d e
  rw [heq, State.pwr_raise, State.pwr_stageAon, ((Reports.refl _).stage r).pwr, State.pwr_modPwr, State.pwr_replanPoints]
  exact ⟨_, rfl⟩

theorem State.rd_replanTake_done : (s.replanTake d e).rd blwB Reg.BLW_EVENT_REPLAN_DONE = 1 := by
  obtain ⟨r, heq⟩ := s.replanTake_eq d e
  rw [heq]
  exact State.rd_raise_self _ (by unfold offPba; decide) (by decide) (by decide)

end

theorem rd_settle_blw (pre post : State) {g : Fld} (ho : g.off < 0x10000) (hg : g.lo < 32) : (settle pre post).rd blwB g = post.rd blwB g := by
  refine rd_settle ?_ hg
  simp only [outputReg, blwB, snB, devB, pbaBase, pciB, if_true, FrameKind.base, Reg.SN_STATUS_STOPPED, Reg.SN_EVENT_FAULT, Reg.DEV_BOOT_STATUS_STEP]
  omega

/-! ## The commands -/

section
variable {s : State}

theorem completes_replanDone (d e : BitVec 10) (h : s.pwr.replanning = true) : completes (.replanDone d e) s fun t =>
    t.rd blwB Reg.BLW_AGE_D_GFX = d.toNat ∧ t.rd blwB Reg.BLW_AGE_D_CORE = e.toNat ∧ t.pwr.replanning = false ∧
    t.pwr.planMs = s.pwr.poweredMs ∧ t.rd blwB Reg.BLW_EVENT_REPLAN_DONE = 1 ∧
    t.pwr.gGfx = max (s.rd blwB Reg.BLW_VOLT_G_GFX) (max s.pwr.gGfx (guardband s.fuses.gfxSens d.toNat)) ∧
    t.pwr.gCore = max (s.rd blwB Reg.BLW_VOLT_G_CORE) (max s.pwr.gCore (guardband s.fuses.coreSens e.toNat)) := by
  have hdone : doReplanDone s d.toNat e.toNat = s.replanTake d.toNat e.toNat := if_pos h
  obtain ⟨l, hpwr⟩ := s.pwr_replanTake d.toNat e.toNat
  refine completes_of_effect rfl hdone ?_
  rw [pwr_settle, hpwr]
  refine ⟨?_, ?_, rfl, rfl, ?_, rfl, rfl⟩
  · rw [rd_settle_blw _ _ (by decide) (by decide), s.rd_replanTake_age _ _ rfl (by decide), State.replanPut, State.rd_put_ne _ _ (by decide),
      State.rd_put_ne _ _ (by decide), State.rd_put_ne _ _ (by decide), State.rd_put_self]
    exact Nat.mod_eq_of_lt d.isLt
  · rw [rd_settle_blw _ _ (by decide) (by decide), s.rd_replanTake_age _ _ (by decide) (by decide), State.replanPut,
      State.rd_put_ne _ _ (by decide), State.rd_put_ne _ _ (by decide), State.rd_put_self]
    exact Nat.mod_eq_of_lt e.isLt
  · rw [rd_settle_blw _ _ (by decide) (by decide), State.rd_replanTake_done]

/-- A re-plan that is noted acts on no register. -/
theorem completes_replanNow {c : Instr} {post : State} (he : exec c s = .next (settle s post)) (hu : post = s.replanNow) :
    completes c s fun t => t.pwr.replanning = true ∧ keepsRegs s t := by
  refine completes_of_effect he hu ⟨?_, fun b g hg hout => rd_settle hout hg⟩
  rw [pwr_settle]
  rfl

theorem doReplan_of_reached (ha : s.answers 0 = true) (hw : s.awaiting = false) : doReplan s = s.replanNow := by
  unfold doReplan State.mgrReach
  rw [ha, hw]
  rfl

theorem doReplanDue_of_due (hdue : s.pwr.planMs + 86400000 ≤ s.pwr.poweredMs) (hentry : s.entryPhase ≠ 1) : doReplanDue s = s.replanNow :=
  if_pos ⟨hdue, hentry⟩

theorem doReplanDue_of_not_due (hdue : s.pwr.poweredMs < s.pwr.planMs + 86400000) : doReplanDue s = s :=
  if_neg fun h => absurd h.1 (by omega)

theorem doReplanDone_of_idle (h : s.pwr.replanning = false) (d e : Nat) : doReplanDone s d e = s := by
  unfold doReplanDone
  rw [h]
  rfl

end

end Sys2Proof.Machine
end

section
/-! The bypass commands, the 32.768 kHz clock, and O54. -/
namespace Sys2Proof.Machine

section
variable (s : State)

/-- A trip notes its sensor, is a fault of TEMP, and bypasses the Bellows. -/
theorem completes_sensorTrip (k : Fin 32) : completes (.sensorTrip k) s fun t =>
    faulted srcTemp s t ∧ bypassed s t ∧ k.val ∈ t.pwr.trips := by
  let u := s.modPwr fun x => { x with trips := k.val :: x.trips.filter fun n => decide (n ≠ k.val) }
  have hfault : faulted srcTemp u (u.fault srcTemp { index := k.val }) := faulted_fault u (by decide) rfl
  have htrip : doSensorTrip s k.val = (u.fault srcTemp { index := k.val }).bypass := rfl
  refine completes_of_effect rfl htrip ⟨?_, ?_, ?_⟩
  · exact faulted_of_kept (faulted_of_kept (s := s) hfault (.bypass _)) (.settle _ _)
  · refine bypassed_settle (bypassed_of_wideAt_eq (bypassed_bypass _) ?_) s
    rw [State.wideAt_fault_bypasses _ _ _ (by decide), State.wideAt_modPwr]
  · rw [pwr_settle, State.pwr_bypass, State.pwr_fault]
    exact List.mem_cons_self ..

theorem completes_capOvershoot : completes .capOvershoot s (bypassed s) :=
  completes_of_effect rfl rfl (bypassed_settle (bypassed_bypass s) s)

variable {s}

/-- The record that is staged first leaves Piccolo's state. -/
theorem doXtalStop_eq : ∃ u, Reports s u ∧ doXtalStop s =
    if s.powerState ≤ 1 then u.put picB Reg.PIC_STATE_RC_32K 1 else u.modPwr fun x => { x with rc32k := true } := by
  have hstage := (Reports.refl s).stage { kind := 0x09 }
  refine ⟨s.stage { kind := 0x09 }, hstage, ?_⟩
  have hstate := hstage.regs picB Reg.PIC_STATE_STATE (by decide) (not_reportField_pic (by decide))
  unfold doXtalStop
  dsimp only
  rw [hstate]
  rfl

theorem completes_xtal32kStop_awake (h : s.powerState ≤ 1) : completes .xtal32kStop s fun t => t.rd picB Reg.PIC_STATE_RC_32K = 1 := by
  obtain ⟨u, -, hstop⟩ := doXtalStop_eq (s := s)
  refine completes_of_effect rfl (hstop.trans (if_pos h)) ?_
  rw [rd_settle_pic _ _ (by decide) (by decide), State.rd_put_self]
  rfl

theorem completes_xtal32kStop_asleep (h : 1 < s.powerState) : completes .xtal32kStop s fun t => t.pwr.rc32k = true := by
  obtain ⟨u, -, hstop⟩ := doXtalStop_eq (s := s)
  refine completes_of_effect rfl (hstop.trans (if_neg (by omega))) ?_
  rw [pwr_settle]
  rfl

end

/-- Settles O54, an event each. That VDD_AON's rise is an unconditional power cycle is log entry 111 (DESIGN CHOICE); that outside ON and
DOZE RC_32K shows its source from the next wake on, log entry 108 (DESIGN CHOICE); that a re-plan's end is awaited by step 7 alone, log
entry 112 (DESIGN CHOICE); that a command which does not fit the state leaves it, log entry 3 (DESIGN CHOICE). -/
theorem inhibitAndBellows : Obligations.InhibitAndBellows := by
  unfold Obligations.InhibitAndBellows
  intro s k d e
  refine ⟨fun hon hi => ⟨completes_pwrWarnAssert hon hi, completes_vddAonInhibitFall hon hi⟩, completes_pwrWarnRelease,
    completes_vddAonInhibitRise, completes_writeInhibitEnd, ?_, completes_vddAonResetFall s, completes_vddAonRise s, completes_devReset,
    completes_sensorTrip s k, completes_capOvershoot s, completes_xtal32kStop_awake, completes_xtal32kStop_asleep, ?_, ?_, ?_,
    completes_replanDone d e, ?_⟩
  · exact fun h => completes_unchanged rfl (doInhibitEnd_of_not_ending h)
  · exact fun ha hw => completes_replanNow rfl (doReplan_of_reached ha hw)
  · exact fun hdue hentry => completes_replanNow rfl (doReplanDue_of_due hdue hentry)
  · exact fun hdue => completes_unchanged rfl (doReplanDue_of_not_due hdue)
  · exact fun h => completes_unchanged rfl (doReplanDone_of_idle h _ _)

end Sys2Proof.Machine
end

section
/-! The flow of descriptors through a ring, and its moderation timer (O13): what each command does where its condition holds. -/
namespace Sys2Proof.Machine

section
variable {s : State} {q : Nat}

theorem State.ringApply_of_not_armed (h : s.armed (ringBase q) = false) : s.ringApply q = s := by
  simp [State.ringApply, h]

theorem doDescriptorFetch_of_fill (hrun : s.ringState q = running) (hnone : (s.ring q).fetching = false)
    (htype : isSubmission (s.ringType q) = true) (hready : s.ringReady q = true) (hfill : s.fill q ≠ 0)
    (harm : s.armed (ringBase q) = false) : doDescriptorFetch s q = s.modRing q fun r => { r with fetching := true } := by
  have hgo : s.ringState q = running ∧ !(s.ring q).fetching ∧ isSubmission (s.ringType q) ∧ s.ringReady q ∧ s.fill q ≠ 0 :=
    ⟨hrun, by rw [hnone]; rfl, htype, hready, hfill⟩
  rw [doDescriptorFetch, if_pos hgo, State.ringApply_of_not_armed harm]

/-- The fetch that was under way has come to its end. -/
def State.fetchOver (s : State) (q : Nat) : State := s.modRing q fun r => { r with fetching := false }

/-- The bytes of an entry in host memory are those that the host sent. -/
theorem doDescriptorArrive_of_host {w : BitVec 512} (hfetch : (s.ring q).fetching = true)
    (hloc : s.rda (ringBase q) Reg.RING_BASE_LO_LOC = 0)
    (hpassed : ((s.fetchOver q).takeIn q { idx := s.devIdx q, words := w }).passed = none) :
    doDescriptorArrive s q w .ok =
      (let u := s.fetchOver q
      let d := u.takeIn q { idx := s.devIdx q, words := w }
      (((u.put (ringBase q) Reg.RING_DEV_IDX_INDEX (s.devIdx q + 1)).modRing q fun r =>
        { r with fetched := r.fetched ++ [{ d with missed := false }] }).flushRing q |>.ringLook q).select) := by
  have hidx : (s.fetchOver q).devIdx q = s.devIdx q := rfl
  have hlocal : (s.fetchOver q).rda (ringBase q) Reg.RING_BASE_LO_LOC = 0 := hloc
  unfold doDescriptorArrive
  rw [hfetch, ← State.fetchOver]
  simp only [hlocal, hidx, hpassed, zero_ne_one, decide_false, Bool.false_eq_true, false_and, if_false, Option.isSome_none]
  rfl

theorem doFenceWait_of_reached {d : Desc} {i : Nat} (hd : (s.ring q).fetched.find? (fun d => decide (d.phase = .waiting)) = some d)
    (hi : s.ringInst q = some i) (hv : d.waitValue ≤ (s.fence i d.waitSlot).value) :
    doFenceWait s q = ((s.modDesc q d.idx fun d => { d with phase := .ready }).ringLook q).select := by
  simp only [doFenceWait, hd, hi]
  exact if_pos hv

theorem doNop_of_next {d : Desc} (hd : s.nextReady q = some d) (hop : d.opcode = 0) :
    doNop s q = (s.finish q d.idx stOk 0).select := by
  simp only [doNop, hd]
  exact if_pos hop

theorem doDescriptorComplete_of_copy {d : Desc} (e : WorkEnd)
    (hd : (s.ring q).fetched.find? (fun d => decide (d.phase = .running)) = some d) (hholds : s.holds q d.idx = true)
    (htype : s.ringType q = 2) (hbinned : d.binned = true) :
    doDescriptorComplete s q e = (s.noteEnd q d.idx e).endWork q d.idx := by
  simp [doDescriptorComplete, hd, hholds, htype, hbinned]

theorem doModTimer_of_pending (hpend : (s.ring q).pend ≠ 0) (htime : s.rda (ringBase q) Reg.RING_MOD_TIME_US ≠ 0)
    (htype : s.ringType q ≠ 5) : doModTimer s q =
      (s.reach ((s.ring q).firstPend + 1000 * s.rda (ringBase q) Reg.RING_MOD_TIME_US)).checkItems q false :=
  if_pos ⟨hpend, htime, htype⟩

end

/-- Settles O13, a command each: single transitions, each in the state its event belongs to (log entry 3, DESIGN CHOICE). That the bytes of
an entry in host memory come with the command is log entry 5 (DESIGN CHOICE). -/
theorem ringFlow : Obligations.RingFlow := by
  unfold Obligations.RingFlow
  intro s q
  refine ⟨fun hrun hnone htype hready hfill harm => ?_, fun w hfetch hloc => ?_, fun d i hd hi hv => ?_, fun d hd hop => ?_,
    fun d e hd hholds htype hbinned => ?_, fun hpend htime htype => ?_⟩
  · exact completes_of_effect rfl (doDescriptorFetch_of_fill hrun hnone htype hready hfill harm) rfl
  · exact fun hpassed => completes_of_effect rfl (doDescriptorArrive_of_host hfetch hloc hpassed) rfl
  · exact completes_of_effect rfl (doFenceWait_of_reached hd hi hv) rfl
  · exact completes_of_effect rfl (doNop_of_next hd hop) rfl
  · exact completes_of_effect rfl (doDescriptorComplete_of_copy e hd hholds htype hbinned) rfl
  · exact completes_of_effect rfl (doModTimer_of_pending hpend htime htype) rfl

end Sys2Proof.Machine
end

section
/-! Instances (O15, O16): STOP and its clearing, RESET, CLEAR_UNCLEAN, and the ends of a quiesce, a reset and a scrub. -/
namespace Sys2Proof.Machine

/-! ## The INST_ frame of an instance -/

section
variable {i : Nat} (hi : i < 64)
include hi

theorem instBase_of_lt : instBase i = 0x24000 + 0x100 * i := by
  rw [instBase, if_neg (by omega)]
  rfl

theorem not_outputReg_instBase {o : Nat} (ho : o < 0x100) : ¬ outputReg (instBase i + o) := by
  rw [instBase_of_lt hi]
  simp only [outputReg, snB, devB, pbaBase, pciB, FrameKind.base, if_true, Reg.SN_STATUS_STOPPED, Reg.SN_EVENT_FAULT,
    Reg.DEV_BOOT_STATUS_STEP]
  omega

theorem offPba_instBase {o : Nat} (ho : o < 0x100) : offPba (instBase i + o) := by
  rw [instBase_of_lt hi]
  simp only [offPba, pbaBase, pciB, FrameKind.base, if_true]
  omega

theorem rd_settle_inst (pre post : State) {g : Fld} (ho : g.off < 0x100) (hg : g.lo < 32) :
    (settle pre post).rd (instBase i) g = post.rd (instBase i) g := rd_settle (not_outputReg_instBase hi ho) hg

theorem instState_settle (pre post : State) : (settle pre post).instState i = post.instState i :=
  rd_settle_inst hi pre post (by decide) (by decide)

/-- A flag raised leaves the other fields of the frame. -/
theorem State.rd_raise_inst (s : State) (f : Fld) {g : Fld} (ho : g.off < 0x100) (hg : g.lo < 32)
    (hne : fkey (instBase i + f.off) f.lo ≠ fkey (instBase i + g.off) g.lo) :
    (s.raise (instBase i) f).rd (instBase i) g = s.rd (instBase i) g :=
  s.rd_raise_ne (offPba_instBase hi ho) hg hne

end

/-! ## Fields of one frame -/

/-- Two fields of a frame that are not the same one. -/
abbrev apart (f g : Fld) : Prop := f.lo < 32 ∧ g.lo < 32 ∧ (f.off ≠ g.off ∨ f.lo ≠ g.lo)

theorem fkey_ne_of_apart {f g : Fld} (h : apart f g) (b : Nat) : fkey (b + f.off) f.lo ≠ fkey (b + g.off) g.lo := by
  obtain ⟨hf, hg, hne⟩ := h
  unfold fkey
  omega

theorem State.rd_put_apart (s : State) {f g : Fld} (h : apart f g) (b v : Nat) : (s.put b f v).rd b g = s.rd b g :=
  s.rd_put_ne v (fkey_ne_of_apart h b)

/-! ## The manager's triggers (R172, R173, R176, R177) -/

section
variable {s : State} {i : Nat}

theorem State.mgrReach_of_answers (ha : s.answers 0 = true) (hw : s.awaiting = false) (act : State → State) (off : Nat) :
    s.mgrReach act off = act s := by
  rw [State.mgrReach, ha, hw]
  rfl

theorem State.instState_put_stop (s : State) (i v : Nat) : (s.put (instBase i) Reg.INST_STOP_STOP v).instState i = s.instState i :=
  s.rd_put_apart (by decide) _ _

theorem State.instanceStop_of_ready (hp : s.p.has i = true) (h : s.instState i = ready) : s.instanceStop i =
    ((s.put (instBase i) Reg.INST_STOP_STOP 1).setInstState i stopping).abortAll i := by
  simp [State.instanceStop, hp, State.instState_put_stop, h]

theorem State.instanceStop_of_quiesced (hp : s.p.has i = true) (h : s.instState i = quiesced) : s.instanceStop i =
    (s.put (instBase i) Reg.INST_STOP_STOP 1).modInst i fun x => { x with stopCleared := false } := by
  simp [State.instanceStop, hp, State.instState_put_stop, h, ready, quiesced]

theorem State.instanceStopClear_of_stopping (hp : s.p.has i = true) (h : s.instState i = stopping) : s.instanceStopClear i =
    (s.put (instBase i) Reg.INST_STOP_STOP 0).modInst i fun x => { x with stopCleared := true } := by
  simp [State.instanceStopClear, hp, State.instState_put_stop, h]

theorem State.resetInst_of_stopping (h : s.instState i = stopping) :
    s.resetInst i = s.modInst i fun x => { x with resetAfter := true } := by
  simp [State.resetInst, h, ready, stopping]

theorem State.resetInst_of_resetting (h : s.instState i = resetting) : s.resetInst i = s := by
  simp [State.resetInst, h, ready, stopping, quiesced, resetting]

theorem State.resetInst_of_quiesced (h : s.instState i = quiesced) : s.resetInst i = s.resetBody i := by
  simp [State.resetInst, h, ready, stopping, quiesced]

theorem State.instanceReset_of_has (hp : s.p.has i = true) : s.instanceReset i = (s.resetInst i).select := by
  rw [State.instanceReset, hp, if_pos rfl]

/-- CLEAR_UNCLEAN acts the same in the instance's window and in the manager's. -/
theorem doClearUnclean_of_ready (ha : s.answers 0 = true) (hw : s.awaiting = false) (h : s.instState i = ready) :
    doClearUnclean s i = (s.put (instBase i) Reg.INST_STATUS_RESET_UNCLEAN 0).lostLook := by
  have hclear : s.clearUnclean i = (s.put (instBase i) Reg.INST_STATUS_RESET_UNCLEAN 0).lostLook := if_pos h
  rw [doClearUnclean, State.mgrReach_of_answers ha hw, ite_self, hclear]

/-- LOST of the ports is all that `lostLook` writes. -/
theorem State.rd_lostLook (s : State) {b : Nat} {g : Fld} (hg : g.lo < 32) (hA : pciB + Reg.PCI_PORT_A_STATUS_LOST.off ≠ b + g.off)
    (hB : pciB + Reg.PCI_PORT_B_STATUS_LOST.off ≠ b + g.off) : s.lostLook.rd b g = s.rd b g := by
  unfold State.lostLook State.each
  simp only [List.foldl_cons, List.foldl_nil]
  have hput : ∀ (c : Bool) (u : State) (f : Fld), f.lo < 32 → pciB + f.off ≠ b + g.off →
      (if c = true then u else u.put pciB f 0).rd b g = u.rd b g := fun c u f hf hne => by
    cases c
    · exact u.rd_put_addr 0 hf hg hne
    · rfl
  rw [hput _ _ _ (by decide) hB, hput _ _ _ (by decide) hA]

theorem State.rd_lostLook_inst (s : State) (hi : i < 64) {g : Fld} (ho : g.off < 0x100) (hg : g.lo < 32) :
    s.lostLook.rd (instBase i) g = s.rd (instBase i) g := by
  have hA : pciB + Reg.PCI_PORT_A_STATUS_LOST.off < 0x24000 := by decide
  have hB : pciB + Reg.PCI_PORT_B_STATUS_LOST.off < 0x24000 := by decide
  exact s.rd_lostLook hg (by rw [instBase_of_lt hi]; omega) (by rw [instBase_of_lt hi]; omega)

end

section
variable {s : State} {i : Fin 64} (ha : s.answers 0 = true) (hw : s.awaiting = false)
include ha hw

theorem completes_clearUnclean (h : s.instState i.val = ready) : completes (.clearUnclean i) s fun t =>
    t.rd (instBase i.val) Reg.INST_STATUS_RESET_UNCLEAN = 0 ∧ t.instState i.val = ready := by
  refine completes_of_effect rfl (doClearUnclean_of_ready ha hw h) ⟨?_, ?_⟩
  · rw [rd_settle_inst i.isLt _ _ (by decide) (by decide), State.rd_lostLook_inst _ i.isLt (by decide) (by decide), State.rd_put_self]
    rfl
  · rw [instState_settle i.isLt, State.instState, State.rd_lostLook_inst _ i.isLt (by decide) (by decide),
      State.rd_put_apart _ (by decide)]
    exact h

variable (hp : s.p.has i.val = true)
include hp

theorem completes_instanceStop_quiesced (h : s.instState i.val = quiesced) : completes (.instanceStop i) s fun t =>
    t.rd (instBase i.val) Reg.INST_STOP_STOP = 1 ∧ t.instState i.val = quiesced ∧
    ∀ (b : Nat) (g : Fld), g.lo < 32 → ¬ outputReg (b + g.off) → b + g.off ≠ instBase i.val + Reg.INST_STOP_STOP.off →
      t.rd b g = s.rd b g := by
  refine completes_of_effect rfl ((State.mgrReach_of_answers ha hw _ _).trans (State.instanceStop_of_quiesced hp h))
    ⟨?_, ?_, fun b g hg hout hne => ?_⟩
  · rw [rd_settle_inst i.isLt _ _ (by decide) (by decide), State.modInst_eq, State.rd_setInst, State.rd_put_self]
    rfl
  · rw [instState_settle i.isLt]
    exact (s.instState_put_stop _ _).trans h
  · rw [rd_settle hout hg, State.modInst_eq, State.rd_setInst, State.rd_put_addr _ _ (by decide) hg hne.symm]

theorem completes_instanceStopClear_stopping (h : s.instState i.val = stopping) : completes (.instanceStopClear i) s fun t =>
    t.rd (instBase i.val) Reg.INST_STOP_STOP = 0 ∧ t.instState i.val = stopping ∧ (t.inst i.val).stopCleared = true := by
  refine completes_of_effect rfl ((State.mgrReach_of_answers ha hw _ _).trans (State.instanceStopClear_of_stopping hp h)) ⟨?_, ?_, ?_⟩
  · rw [rd_settle_inst i.isLt _ _ (by decide) (by decide), State.modInst_eq, State.rd_setInst, State.rd_put_self]
    rfl
  · rw [instState_settle i.isLt]
    exact (s.instState_put_stop _ _).trans h
  · rw [State.inst, insts_settle, State.modInst_eq]
    exact congrArg InstX.stopCleared (State.inst_setInst_self _ _ _)

theorem completes_instanceReset {u : State} (hu : s.resetInst i.val = u) :
    completes (.instanceReset i) s fun t => t = settle s u.select :=
  completes_of_effect rfl ((State.mgrReach_of_answers ha hw _ _).trans
    ((State.instanceReset_of_has hp).trans (congrArg State.select hu))) rfl

end

/-- Settles O15, a trigger in a state each. How a RESET meets a quiesce in progress is log entry 64 (DESIGN CHOICE). -/
theorem instanceStops : Obligations.InstanceStops := by
  unfold Obligations.InstanceStops
  intro s i ha hw hp
  refine ⟨fun h => ?_, completes_instanceStop_quiesced ha hw hp, fun h => ⟨completes_instanceStopClear_stopping ha hw hp h, ?_⟩,
    fun h => ?_, fun h => ?_, completes_clearUnclean ha hw⟩
  · exact completes_of_effect rfl ((State.mgrReach_of_answers ha hw _ _).trans (State.instanceStop_of_ready hp h)) rfl
  · exact completes_instanceReset ha hw hp (State.resetInst_of_stopping h)
  · exact completes_instanceReset ha hw hp (State.resetInst_of_resetting h)
  · exact completes_instanceReset ha hw hp (State.resetInst_of_quiesced h)

/-! ## The ends of a reset, a scrub and a quiesce (R172, R174) -/

section
variable {s : State} {i : Nat}

/-- The function of an instance whose reset ends answers again while its port is up. -/
def State.fnBack (s : State) (i : Nat) : State :=
  let u := s.modInst i fun x => { x with flr := false }
  if s.portUp (s.fnPort (fnOfInst i)) then u.modFn (fnOfInst i) fun c => { c with ready := true } else u

/-- The end of a reset that leaves the instance READY or QUIESCED. -/
def State.resetOver (s : State) (i : Nat) (go : Bool) : State :=
  let u := s.setInstState i (if go then ready else quiesced)
  ((if go then u.put (instBase i) Reg.INST_STATUS_HOST_LOST 0 else u).raise (instBase i) Reg.INST_EVENT_RESET_DONE).lostLook

theorem State.rd_fnBack (s : State) (i b : Nat) (g : Fld) : (s.fnBack i).rd b g = s.rd b g := by
  unfold State.fnBack
  dsimp only
  split <;> rfl

/-- Whether the host is there hangs on the physical functions, not on the instance's own. -/
theorem State.hostThere_setFn (s : State) (i : Nat) (x : FnCfg) : (s.setFn (fnOfInst i) x).hostThere i = s.hostThere i := by
  have hpf : ∀ k, k < 2 → (s.setFn (fnOfInst i) x).fn k = s.fn k := fun k hk =>
    s.fn_setFn_ne x (show i + 2 ≠ k by omega)
  unfold State.hostThere State.vfOn
  dsimp only
  rw [hpf _ (by split <;> decide)]
  rfl

theorem State.hostThere_fnBack (s : State) (i : Nat) : (s.fnBack i).hostThere i = s.hostThere i := by
  unfold State.fnBack
  dsimp only
  split
  · exact State.hostThere_setFn _ i _
  · rfl

theorem doResetDone_of_resetting (h : s.instState i = resetting) : doResetDone s i =
    (s.fnBack i).resetOver i (decide (s.rd (instBase i) Reg.INST_STOP_STOP = 0) && s.hostThere i) := by
  rw [← s.rd_fnBack i, ← s.hostThere_fnBack i]
  exact if_neg (not_not.mpr h)

section
variable (s) (hi : i < 64)
include hi

theorem State.rd_resetOver_resetDone (go : Bool) : (s.resetOver i go).rd (instBase i) Reg.INST_EVENT_RESET_DONE = 1 := by
  rw [State.resetOver, State.rd_lostLook_inst _ hi (by decide) (by decide)]
  exact State.rd_raise_self _ (offPba_instBase hi (by decide)) (by decide) (by decide)

theorem State.instState_resetOver (go : Bool) : (s.resetOver i go).instState i = if go then ready else quiesced := by
  rw [State.instState, State.resetOver, State.rd_lostLook_inst _ hi (by decide) (by decide),
    State.rd_raise_inst hi _ _ (by decide) (by decide) (fkey_ne_of_apart (by decide) _)]
  cases go with
  | false => exact s.rd_put_self _ _ _
  | true => exact (State.rd_put_apart _ (by decide) _ _).trans (s.rd_put_self _ _ _)

theorem State.rd_resetOver_hostLost : (s.resetOver i true).rd (instBase i) Reg.INST_STATUS_HOST_LOST = 0 := by
  rw [State.resetOver, State.rd_lostLook_inst _ hi (by decide) (by decide),
    State.rd_raise_inst hi _ _ (by decide) (by decide) (fkey_ne_of_apart (by decide) _)]
  exact State.rd_put_self _ _ _ _

end

theorem doScrubDone_of_released (h : s.rd (instBase i) Reg.INST_STATUS_SCRUBBING = 1) (hnone : s.sec.releases = []) : doScrubDone s i =
    (s.put (instBase i) Reg.INST_STATUS_SCRUBBING 0).raise (instBase i) Reg.INST_EVENT_SCRUB_DONE := by
  simp [doScrubDone, h, hnone]

theorem State.dropEngines_of_no_rings (h : s.ringsOf (fnOfInst i) = []) : s.dropEngines i = s := by
  rw [State.dropEngines, h]
  rfl

theorem frameOf_instBase (i : Fin 64) : frameOf (instBase i.val) = .inst (fnOfInst i.val) := by
  revert i
  decide

/-- The QUIESCED flag of an instance leaves what met its quiesce. -/
theorem State.inst_raise_instBase (s : State) (i : Fin 64) (f : Fld) (k : Nat) : (s.raise (instBase i.val) f).inst k = s.inst k := by
  have hring : ∀ q, frameOf (instBase i.val) ≠ .ring q := fun q => by rw [frameOf_instBase]; nofun
  have hinsts : (s.raise (instBase i.val) f).insts = s.insts := (congrArg State.insts (s.inner_raise hring f) :)
  exact congrArg (KMap.get (fun _ => ({} : InstX)) · k) hinsts

/-- A quiesce that no reset, loss or clearing of STOP met, of an instance without rings. -/
theorem doQuiesced_of_no_rings {i : Fin 64} (h : s.instState i.val = stopping) (hrings : s.ringsOf (fnOfInst i.val) = [])
    (hreset : (s.inst i.val).resetAfter = false) (hloss : (s.inst i.val).lossAfter = false)
    (hclear : (s.inst i.val).stopCleared = false) : doQuiesced s i.val =
      (((s.setInstState i.val quiesced).raise (instBase i.val) Reg.INST_EVENT_QUIESCED).modInst i.val
        fun x => { x with resetAfter := false, lossAfter := false, stopCleared := false }).select := by
  have hinst : ((s.setInstState i.val quiesced).raise (instBase i.val) Reg.INST_EVENT_QUIESCED).inst i.val = s.inst i.val :=
    State.inst_raise_instBase _ i _ _
  rw [doQuiesced, if_neg (not_not.mpr h), State.dropEngines_of_no_rings hrings]
  simp only [hrings, State.each, List.foldl_nil, hinst, hreset, hloss, hclear, Bool.or_false, Bool.false_eq_true, if_false]

theorem completes_resetDone {i : Fin 64} (h : s.instState i.val = resetting) : completes (.resetDone i) s fun t =>
    t.rd (instBase i.val) Reg.INST_EVENT_RESET_DONE = 1 ∧
    (s.rd (instBase i.val) Reg.INST_STOP_STOP = 1 ∨ s.hostThere i.val = false → t.instState i.val = quiesced) ∧
    (s.rd (instBase i.val) Reg.INST_STOP_STOP = 0 → s.hostThere i.val = true → t.instState i.val = ready ∧
      t.rd (instBase i.val) Reg.INST_STATUS_HOST_LOST = 0) := by
  refine completes_of_effect rfl (doResetDone_of_resetting h) ⟨?_, fun hstay => ?_, fun hstop hthere => ?_⟩
  · rw [rd_settle_inst i.isLt _ _ (by decide) (by decide), State.rd_resetOver_resetDone _ i.isLt]
  · have hgo : (decide (s.rd (instBase i.val) Reg.INST_STOP_STOP = 0) && s.hostThere i.val) = false := by
      rcases hstay with hstop | hgone
      · rw [hstop]
        rfl
      · rw [hgone, Bool.and_false]
    rw [instState_settle i.isLt, State.instState_resetOver _ i.isLt, hgo]
    rfl
  · rw [instState_settle i.isLt, rd_settle_inst i.isLt _ _ (by decide) (by decide), State.instState_resetOver _ i.isLt, hstop, hthere]
    exact ⟨rfl, State.rd_resetOver_hostLost _ i.isLt⟩

theorem completes_scrubDone {i : Fin 64} (h : s.rd (instBase i.val) Reg.INST_STATUS_SCRUBBING = 1) (hnone : s.sec.releases = []) :
    completes (.scrubDone i) s fun t => t.rd (instBase i.val) Reg.INST_STATUS_SCRUBBING = 0 ∧
      t.rd (instBase i.val) Reg.INST_EVENT_SCRUB_DONE = 1 ∧ t.instState i.val = s.instState i.val := by
  refine completes_of_effect rfl (doScrubDone_of_released h hnone) ⟨?_, ?_, ?_⟩
  · rw [rd_settle_inst i.isLt _ _ (by decide) (by decide),
      State.rd_raise_inst i.isLt _ _ (by decide) (by decide) (fkey_ne_of_apart (by decide) _), State.rd_put_self]
    rfl
  · rw [rd_settle_inst i.isLt _ _ (by decide) (by decide),
      State.rd_raise_self _ (offPba_instBase i.isLt (by decide)) (by decide) (by decide)]
  · rw [instState_settle i.isLt, State.instState,
      State.rd_raise_inst i.isLt _ _ (by decide) (by decide) (fkey_ne_of_apart (by decide) _), State.rd_put_apart _ (by decide)]
    rfl

end

/-- Settles O16, an end each. That the quiesce and the reset end with commands of their own, which do nothing in another state, is log
entry 3 (DESIGN CHOICE); what meets a quiesce, log entry 64 (DESIGN CHOICE). -/
theorem resetEnds : Obligations.ResetEnds := by
  unfold Obligations.ResetEnds
  intro s i
  exact ⟨completes_resetDone, completes_scrubDone, fun h hrings hreset hloss hclear =>
    completes_of_effect rfl (doQuiesced_of_no_rings h hrings hreset hloss hclear) rfl⟩

end Sys2Proof.Machine
end

section
/-! The state of a ring (R156): what a new state writes and leaves, and what the records delivered with it leave. -/
namespace Sys2Proof.Machine

/-! ## The frame of a ring -/

section
variable {q : Nat} (hq : q < 256)
include hq

theorem not_outputReg_ringBase {o : Nat} (ho : o < 0x100) : ¬ outputReg (ringBase q + o) := by
  simp only [outputReg, ringBase, FrameKind.at, FrameKind.base, FrameKind.stride, snB, devB, pbaBase, pciB, if_true,
    Reg.SN_STATUS_STOPPED, Reg.SN_EVENT_FAULT, Reg.DEV_BOOT_STATUS_STEP]
  omega

theorem offPba_ringBase {o : Nat} (ho : o < 0x100) : offPba (ringBase q + o) := by
  simp only [offPba, ringBase, FrameKind.at, FrameKind.base, FrameKind.stride, pbaBase, pciB, if_true]
  omega

theorem rd_settle_ring (pre post : State) {g : Fld} (ho : g.off < 0x100) (hg : g.lo < 32) :
    (settle pre post).rd (ringBase q) g = post.rd (ringBase q) g := rd_settle (not_outputReg_ringBase hq ho) hg

theorem ringState_settle (pre post : State) : (settle pre post).ringState q = post.ringState q :=
  rd_settle_ring hq pre post (by decide) (by decide)

theorem hostIdx_settle (pre post : State) : (settle pre post).hostIdx q = post.hostIdx q :=
  rd_settle_ring hq pre post (by decide) (by decide)

theorem devIdx_settle (pre post : State) : (settle pre post).devIdx q = post.devIdx q :=
  rd_settle_ring hq pre post (by decide) (by decide)

theorem State.rd_raise_ring (s : State) {f g : Fld} (ho : g.off < 0x100) (h : apart f g) :
    (s.raise (ringBase q) f).rd (ringBase q) g = s.rd (ringBase q) g :=
  s.rd_raise_ne (offPba_ringBase hq ho) h.2.1 (fkey_ne_of_apart h _)

theorem State.rd_raise_ring_self (s : State) {f : Fld} (ho : f.off < 0x100) (hlo : f.lo < 32) (hw : 0 < f.w) :
    (s.raise (ringBase q) f).rd (ringBase q) f = 1 := s.rd_raise_self (offPba_ringBase hq ho) hlo hw

end

/-- Fields that differ are different keys in any two ring frames. -/
theorem fkey_ringBase_ne {f g : Fld} (h : apart f g) (hf : f.off < 0x100) (hg : g.off < 0x100) (k q : Nat) :
    fkey (ringBase k + f.off) f.lo ≠ fkey (ringBase q + g.off) g.lo := by
  obtain ⟨hflo, hglo, hne⟩ := h
  simp only [fkey, ringBase, FrameKind.at, FrameKind.base, FrameKind.stride]
  omega

/-! ## A new state of a ring -/

/-- What each step of a loop keeps, the loop keeps. -/
theorem State.each_eq_of_keeps {α β : Type} {F : State → β} {f : State → α → State} (hf : ∀ u a, F (f u a) = F u) (l : List α)
    (s : State) : F (s.each l f) = F s := by
  induction l generalizing s with
  | nil => rfl
  | cons a l ih => exact (ih (f s a)).trans (hf s a)

/-- The state beside what a ring's new state may change: registers, what interrupts change, and the ports. -/
def State.beyond (s : State) : State := { s.inner with portA := {}, portB := {} }

/-- ACTIVE_RINGS of the ring's function follows the ring's state. -/
def State.activeLook (s : State) (q st : Nat) : State :=
  match s.ringOwner q with
  | some (fn, n) =>
    if fn = 0 then s else
      s.put (fnInst fn) Reg.INST_STATUS_ACTIVE_RINGS (setBit (s.rd (fnInst fn) Reg.INST_STATUS_ACTIVE_RINGS) n (decide (st ≠ disabled)))
  | none => s

/-- A new state and cause, and what follows them in other frames: ACTIVE_RINGS and a commit ring binding. -/
def State.stateSet (s : State) (q st cause : Nat) : State :=
  let u := State.activeLook ((s.put (ringBase q) Reg.RING_STATE_STATE st).put (ringBase q) Reg.RING_STATE_CAUSE cause) q st
  if st = disabled then u.unbind q else u

section
variable (s : State) (q st cause : Nat)

theorem State.setRingState_eq : s.setRingState q st cause = ((s.stateSet q st cause).ringLook q).ltrLook := rfl

@[simp] theorem State.rd_ltrLook (b : Nat) (g : Fld) : s.ltrLook.rd b g = s.rd b g :=
  State.each_eq_of_keeps (F := fun u => u.rd b g) (fun u p => u.rd_setPortX p _ b g) _ s

theorem State.rd_unbind {b : Nat} {g : Fld} (hg : g.lo < 32) (hb : b + g.off < headBase 0) : (s.unbind q).rd b g = s.rd b g := by
  refine State.each_eq_of_keeps (F := fun u => u.rd b g) (fun u h => ?_) _ s
  split
  · refine u.rd_put_addr _ (by decide) hg ?_
    have hle : headBase 0 ≤ headBase h + Reg.HEAD_CRING_RING.off := by
      simp only [headBase, FrameKind.at]
      omega
    omega
  · rfl

theorem State.rd_activeLook {b : Nat} {g : Fld}
    (h : ∀ fn, fn < 66 →
      fkey (fnInst fn + Reg.INST_STATUS_ACTIVE_RINGS.off) Reg.INST_STATUS_ACTIVE_RINGS.lo ≠ fkey (b + g.off) g.lo) :
    (s.activeLook q st).rd b g = s.rd b g := by
  unfold State.activeLook
  split
  · next fn n ho =>
    split
    · rfl
    · exact s.rd_put_ne _ (h fn (State.ringOwner_lt ho))
  · rfl

theorem State.beyond_ltrLook : s.ltrLook.beyond = s.beyond :=
  State.each_eq_of_keeps (F := State.beyond) (fun u p => by cases p <;> rfl) _ s

theorem State.beyond_unbind : (s.unbind q).beyond = s.beyond :=
  State.each_eq_of_keeps (F := State.beyond) (fun u h => by split <;> rfl) _ s

theorem State.beyond_activeLook : (s.activeLook q st).beyond = s.beyond := by
  unfold State.activeLook
  split
  · split <;> rfl
  · rfl

theorem State.beyond_setRingState : (s.setRingState q st cause).beyond = s.beyond := by
  rw [State.setRingState_eq, State.beyond_ltrLook]
  show (s.stateSet q st cause).beyond = _
  unfold State.stateSet
  dsimp only
  split
  · rw [State.beyond_unbind, State.beyond_activeLook]
    rfl
  · rw [State.beyond_activeLook]
    rfl

end

section
variable {s t : State} (h : t.beyond = s.beyond)
include h

theorem rings_eq_of_beyond : t.rings = s.rings := (congrArg State.rings h :)
theorem insts_eq_of_beyond : t.insts = s.insts := (congrArg State.insts h :)
theorem act_eq_of_beyond : t.act = s.act := (congrArg State.act h :)
theorem ring_eq_of_beyond (q : Nat) : t.ring q = s.ring q := congrArg (KMap.get (fun _ => ({} : RingX)) · q) (rings_eq_of_beyond h)
theorem inst_eq_of_beyond (i : Nat) : t.inst i = s.inst i := congrArg (KMap.get (fun _ => ({} : InstX)) · i) (insts_eq_of_beyond h)

theorem ringOwner_eq_of_beyond (q : Nat) : t.ringOwner q = s.ringOwner q := by
  have hplan : t.plan = s.plan := (congrArg State.plan h :)
  have hfuses : t.fuses = s.fuses := (congrArg State.fuses h :)
  unfold State.ringOwner State.ports State.p
  rw [hplan, hfuses]

theorem ringInst_eq_of_beyond (q : Nat) : t.ringInst q = s.ringInst q := by
  simp only [State.ringInst, ringOwner_eq_of_beyond h]

theorem noneHeld_eq_of_beyond (q : Nat) : noneHeld t q = noneHeld s q := by
  simp only [noneHeld, ringInst_eq_of_beyond h, inst_eq_of_beyond h]

end

theorem noneHeld_modRing (s : State) (k : Nat) (f : RingX → RingX) (q : Nat) : noneHeld (s.modRing k f) q = noneHeld s q := rfl

section
variable (s : State) {q : Nat} (hq : q < 256) (st cause : Nat)

theorem State.rd_ringLook_apart {g : Fld} (hf : apart Reg.RING_STATE_FREE g) (hw : apart Reg.RING_STATE_WAITING g) :
    (s.ringLook q).rd (ringBase q) g = s.rd (ringBase q) g := by
  unfold State.ringLook
  dsimp only
  rw [State.rd_put_apart _ hw, State.rd_put_apart _ hf]

/-- The INST_ frames lie below the ring frames, the window of the subordinate physical function above them. -/
theorem fnInst_below_or_above {fn : Nat} (h : fn < 66) : fnInst fn < 0x28000 ∨ 0x10000000 ≤ fnInst fn := by
  unfold fnInst
  split
  · right
    decide
  · left
    rw [instBase_of_lt (by omega)]
    omega

section
include hq

theorem State.rd_stateSet_ring {g : Fld} (ho : g.off < 0x100) (hg : g.lo < 32) : (s.stateSet q st cause).rd (ringBase q) g =
    ((s.put (ringBase q) Reg.RING_STATE_STATE st).put (ringBase q) Reg.RING_STATE_CAUSE cause).rd (ringBase q) g := by
  have hlt : ringBase q + g.off < headBase 0 := by
    simp only [ringBase, headBase, FrameKind.at, FrameKind.base, FrameKind.stride]
    omega
  have hge : 0x30000 ≤ ringBase q + g.off := by
    simp only [ringBase, FrameKind.at, FrameKind.base, FrameKind.stride]
    omega
  have hactive : ∀ u : State, (u.activeLook q st).rd (ringBase q) g = u.rd (ringBase q) g := fun u => by
    refine u.rd_activeLook q st fun fn hfn => ?_
    have hfar := fnInst_below_or_above hfn
    have hhead : headBase 0 = 0x80000 := rfl
    simp only [fkey, Reg.INST_STATUS_ACTIVE_RINGS]
    omega
  unfold State.stateSet
  dsimp only
  split
  · rw [State.rd_unbind _ _ hg hlt, hactive]
  · rw [hactive]

/-- What follows a ring's own fields, but for FREE and WAITING, lies in other frames. -/
theorem State.rd_setRingState_looked {g : Fld} (ho : g.off < 0x100) (hf : apart Reg.RING_STATE_FREE g)
    (hw : apart Reg.RING_STATE_WAITING g) : (s.setRingState q st cause).rd (ringBase q) g =
      ((s.put (ringBase q) Reg.RING_STATE_STATE st).put (ringBase q) Reg.RING_STATE_CAUSE cause).rd (ringBase q) g := by
  rw [State.setRingState_eq, State.rd_ltrLook, State.rd_ringLook_apart _ hf hw, State.rd_stateSet_ring _ hq _ _ ho hf.2.1]

theorem State.ringState_setRingState : (s.setRingState q st cause).ringState q = st % 8 := by
  rw [State.ringState, State.rd_setRingState_looked _ hq _ _ (by decide) (by decide) (by decide),
    State.rd_put_apart _ (by decide), State.rd_put_self]
  rfl

theorem State.cause_setRingState : (s.setRingState q st cause).rd (ringBase q) Reg.RING_STATE_CAUSE = cause % 16 := by
  rw [State.rd_setRingState_looked _ hq _ _ (by decide) (by decide) (by decide), State.rd_put_self]
  rfl

/-- The other registers of the ring's frame are left. -/
theorem State.rd_setRingState_other {g : Fld} (ho : g.off < 0x100) (hg : g.lo < 32) (hne : g.off ≠ Reg.RING_STATE_STATE.off) :
    (s.setRingState q st cause).rd (ringBase q) g = s.rd (ringBase q) g := by
  have hap : ∀ f : Fld, f.lo < 32 → f.off = Reg.RING_STATE_STATE.off → apart f g :=
    fun f hf he => ⟨hf, hg, .inl (he ▸ Ne.symm hne)⟩
  rw [State.rd_setRingState_looked _ hq _ _ ho (hap _ (by decide) rfl) (hap _ (by decide) rfl),
    State.rd_put_apart _ (hap Reg.RING_STATE_CAUSE (by decide) rfl), State.rd_put_apart _ (hap Reg.RING_STATE_STATE (by decide) rfl)]

theorem State.hostIdx_setRingState : (s.setRingState q st cause).hostIdx q = s.hostIdx q :=
  s.rd_setRingState_other hq st cause (by decide) (by decide) (by decide)

theorem State.devIdx_setRingState : (s.setRingState q st cause).devIdx q = s.devIdx q :=
  s.rd_setRingState_other hq st cause (by decide) (by decide) (by decide)

end

/-- A DISABLED ring shows no free entries. -/
theorem State.free_setRingState_disabled (hq : q < 256) :
    (s.setRingState q disabled cause).rd (ringBase q) Reg.RING_STATE_FREE = 0 := by
  have hstate : (s.stateSet q disabled cause).ringState q = disabled := by
    rw [State.ringState, State.rd_stateSet_ring _ hq _ _ (by decide) (by decide), State.rd_put_apart _ (by decide), State.rd_put_self]
    rfl
  have hfree : (s.stateSet q disabled cause).free q = 0 := if_pos hstate
  rw [State.setRingState_eq, State.rd_ltrLook, State.ringLook, State.rd_put_apart _ (by decide), State.rd_put_self, hfree]
  rfl

theorem State.instState_setRingState {i : Nat} (hi : i < 64) :
    (s.setRingState q st cause).instState i = s.instState i := by
  have hinst : instBase i + Reg.INST_STATUS_STATE.off < 0x28000 := by
    rw [instBase_of_lt hi, show Reg.INST_STATUS_STATE.off = 4 from rfl]
    omega
  have hput : ∀ (u : State) (f : Fld) (v : Nat), f.lo < 32 → (u.put (ringBase q) f v).instState i = u.instState i := fun u f v hf => by
    refine u.rd_put_addr v hf (by decide) ?_
    simp only [ringBase, FrameKind.at, FrameKind.base]
    omega
  have hactive : ∀ u : State, (u.activeLook q st).instState i = u.instState i := fun u => by
    refine u.rd_activeLook q st fun fn _ => ?_
    simp only [fkey, Reg.INST_STATUS_ACTIVE_RINGS, Reg.INST_STATUS_STATE]
    omega
  have hset : (s.stateSet q st cause).instState i = s.instState i := by
    have hhead : headBase 0 = 0x80000 := rfl
    unfold State.stateSet
    dsimp only
    split
    · rw [State.instState, State.rd_unbind _ _ (by decide) (by omega)]
      exact (hactive _).trans ((hput _ _ _ (by decide)).trans (hput _ _ _ (by decide)))
    · exact (hactive _).trans ((hput _ _ _ (by decide)).trans (hput _ _ _ (by decide)))
  rw [State.setRingState_eq, State.instState, State.rd_ltrLook]
  exact (hput _ _ _ (by decide)).trans ((hput _ _ _ (by decide)).trans hset)

theorem State.ringReady_setRingState : (s.setRingState q st cause).ringReady q = s.ringReady q := by
  unfold State.ringReady
  rw [ringInst_eq_of_beyond (s.beyond_setRingState q st cause)]
  split
  · next i hi => rw [State.instState_setRingState _ _ _ (State.ringInst_lt hi)]
  · rfl

end

/-! ## Records delivered (R154, R166, R171) -/

/-- The fields of a ring's frame that the delivery of a record writes: DEV_IDX, the flags, FREE and WAITING. -/
def recordField (g : Fld) : Prop :=
  g.off = Reg.RING_DEV_IDX_INDEX.off ∨ g.off = Reg.RING_EVENT_DROP.off ∨
  (g.off = Reg.RING_STATE_FREE.off ∧ (g.lo = Reg.RING_STATE_FREE.lo ∨ g.lo = Reg.RING_STATE_WAITING.lo))

/-- `t` differs from `s` in no field of a ring's frame but those that delivery writes. -/
def ringsKept (s t : State) : Prop :=
  ∀ (q : Nat) (g : Fld), q < 256 → g.off < 0x100 → g.lo < 32 → ¬ recordField g → t.rd (ringBase q) g = s.rd (ringBase q) g

namespace ringsKept

variable {s t u : State}

theorem refl (s : State) : ringsKept s s := fun _ _ _ _ _ _ => rfl

theorem trans (h : ringsKept s t) (h' : ringsKept t u) : ringsKept s u := fun q g hq ho hg hn =>
  (h' q g hq ho hg hn).trans (h q g hq ho hg hn)

theorem of_rd (h : ringsKept s t) (hu : ∀ b g, u.rd b g = t.rd b g) : ringsKept s u := fun q g hq ho hg hn =>
  (hu _ _).trans (h q g hq ho hg hn)

theorem modRing (h : ringsKept s t) (k : Nat) (f : RingX → RingX) : ringsKept s (t.modRing k f) := h.of_rd fun _ _ => rfl
theorem count (h : ringsKept s t) (a n : Nat) : ringsKept s (t.count a n) := h.of_rd fun _ _ => rfl

theorem raiseVec (h : ringsKept s t) (fn v : Nat) : ringsKept s (t.raiseVec fn v) := fun q g hq ho hg hn =>
  (t.rd_raiseVec fn v (offPba_ringBase hq ho) hg).trans (h q g hq ho hg hn)

/-- A field that delivery writes is another field than one it does not. -/
theorem apart_of_recordField {f g : Fld} (hf : recordField f) (hflo : f.lo < 32) (hn : ¬ recordField g) (hg : g.lo < 32) : apart f g := by
  refine ⟨hflo, hg, ?_⟩
  by_contra hsame
  obtain ⟨hoff, hlo⟩ : f.off = g.off ∧ f.lo = g.lo := by omega
  unfold recordField at hf hn
  rw [hoff, hlo] at hf
  exact hn hf

theorem put (h : ringsKept s t) (k : Nat) {f : Fld} (v : Nat) (ho : f.off < 0x100) (hlo : f.lo < 32) (hf : recordField f) :
    ringsKept s (t.put (ringBase k) f v) := fun q g hq hg hglo hn =>
  (t.rd_put_ne v (fkey_ringBase_ne (apart_of_recordField hf hlo hn hglo) ho hg k q)).trans (h q g hq hg hglo hn)

theorem raiseDrop (h : ringsKept s t) (k : Nat) : ringsKept s (t.raise (ringBase k) Reg.RING_EVENT_DROP) := fun q g hq ho hg hn =>
  (t.rd_raise_ne (offPba_ringBase hq ho) hg (fkey_ringBase_ne (apart_of_recordField (.inr (.inl rfl)) (by decide) hn hg)
    (by decide) ho k q)).trans (h q g hq ho hg hn)

theorem locWrite (h : ringsKept s t) {fn a : Nat} {dram : Bool} {bs : List Byte} (hw : t.locWrite fn dram a bs = some u) :
    ringsKept s u := by
  refine h.of_rd fun b g => ?_
  unfold State.locWrite State.dramPut at hw
  split at hw
  · split at hw
    · cases hw
      obtain ⟨x, hx⟩ := t.dramWrite_eq a bs
      rw [hx]
      rfl
    · exact absurd hw (by simp)
  · cases hw
    exact t.rd_hostWrite _ a bs b g

theorem logRefused (h : ringsKept s t) (w : Who) : ringsKept s (t.logRefused w) := by
  unfold State.logRefused
  split
  · exact h.count _ _
  · exact h

theorem itemIrq (h : ringsKept s t) (k : Nat) : ringsKept s (t.itemIrq k) := by
  unfold State.itemIrq
  split
  · exact (h.modRing k _).raiseVec _ _
  · exact h

theorem onItem (h : ringsKept s t) (k : Nat) (irq : Bool) : ringsKept s (t.onItem k irq) := by
  unfold State.onItem State.checkItems
  dsimp only
  split
  · exact h.modRing k _
  split
  · exact (h.modRing k _).itemIrq k
  · exact h.modRing k _

theorem ringLook (h : ringsKept s t) (k : Nat) : ringsKept s (t.ringLook k) :=
  (h.put k _ (by decide) (by decide) (.inr (.inr ⟨rfl, .inl rfl⟩))).put k _ (by decide) (by decide) (.inr (.inr ⟨rfl, .inr rfl⟩))

theorem dropRecord (h : ringsKept s t) (k : Nat) : ringsKept s (t.dropRecord k) := ((h.count _ 1).modRing k _).raiseDrop k

theorem writeRecord (h : ringsKept s t) {k kind : Nat} {payload : List Byte} {stamp : Option Nat}
    (hw : t.writeRecord k kind payload stamp = some u) : ringsKept s u := by
  unfold State.writeRecord at hw
  split at hw
  · exact absurd hw (by simp)
  dsimp only at hw
  split at hw
  · exact absurd hw (by simp)
  · next hloc =>
    cases hw
    exact (((h.locWrite hloc).put k _ (by decide) (by decide) (.inl rfl)).count _ 1).ringLook k

theorem deliver (h : ringsKept s t) (k kind : Nat) (payload : List Byte) (force : Bool) (stamp : Option Nat) :
    ringsKept s (t.deliver k kind payload force stamp) := by
  unfold State.deliver
  extract_lets who s1
  have hs1 : ringsKept s s1 := by
    dsimp only [s1]
    split
    · split
      · next hrec => exact ((h.writeRecord hrec).modRing k _).onItem k false
      · exact h
    · exact h
  split
  · exact h.dropRecord k
  split
  · exact hs1.dropRecord k
  split
  · exact (hs1.logRefused _).dropRecord k
  · next hrec =>
    split
    · exact ((hs1.writeRecord hrec).modRing k _).itemIrq k
    · exact (hs1.writeRecord hrec).onItem k false

theorem eventRecord (h : ringsKept s t) (i kind : Nat) (payload : List Byte) (force : Bool) (stamp : Option Nat) :
    ringsKept s (t.eventRecord i kind payload force stamp) := by
  unfold State.eventRecord
  split
  · exact h.deliver _ kind payload force stamp
  · exact h

theorem heldOut (s : State) (q : Nat) : ringsKept s (s.heldOut q) := by
  have hrecords : ∀ (i : Nat) (l : List (Nat × Nat)) (u : State), ringsKept s u →
      ringsKept s (u.each l fun u r => u.eventRecord i 5 (natLE 8 r.2) false (some r.1)) := fun i l => by
    induction l with
    | nil => exact fun u hu => hu
    | cons r l ih => exact fun u hu => ih _ (hu.eventRecord i 5 _ false _)
  unfold State.heldOut
  split
  · split
    · exact hrecords _ _ _ ((refl s).of_rd fun _ _ => rfl)
    · exact refl s
  · exact refl s

end ringsKept

/-- With no record held nothing is delivered. -/
theorem State.rd_heldOut_of_none {s : State} {q : Nat} (h : noneHeld s q = true) (b : Nat) (g : Fld) :
    (s.heldOut q).rd b g = s.rd b g := by
  unfold State.heldOut
  split
  · next i hi =>
    have hnone : (s.inst i).heldRecords = [] := by simpa [noneHeld, hi] using h
    rw [hnone]
    split <;> rfl
  · rfl

section
variable (s : State) {q : Nat} (hq : q < 256)
include hq

theorem State.ringState_heldOut : (s.heldOut q).ringState q = s.ringState q :=
  ringsKept.heldOut s q q Reg.RING_STATE_STATE hq (by decide) (by decide) (by unfold recordField; decide)

theorem State.hostIdx_heldOut : (s.heldOut q).hostIdx q = s.hostIdx q :=
  ringsKept.heldOut s q q Reg.RING_HOST_IDX_INDEX hq (by decide) (by decide) (by unfold recordField; decide)

end

end Sys2Proof.Machine
end

section
/-! START, STOP, RESUME and DISABLE of a ring (O12, R156). -/
namespace Sys2Proof.Machine

section
variable {s : State} {q fn n : Nat}

/-- A write of a ring's CTRL reaches it while the manager's function answers. -/
theorem State.ringReach_of_answers (ha : s.answers 0 = true) (hw : s.awaiting = false) (ho : s.ringOwner q = some (fn, n))
    (act : State → State) : s.ringReach q act = act s := by
  simp [State.ringReach, ha, hw, ho]

/-! ## START -/

/-- A START that takes effect, before held records go out. -/
def State.startedRing (s : State) (q : Nat) : State :=
  (((s.put (ringBase q) Reg.RING_HOST_IDX_INDEX 0).put (ringBase q) Reg.RING_DEV_IDX_INDEX 0).setRingState q running 0).modRing q
    fun r => { r with pend := 0, oneshotOff := false }

theorem State.ringStart_of_not_armed (harm : s.armed (ringBase q) = false) : s.ringStart q = s.startRing q := by
  simp [State.ringStart, harm]

theorem State.startRing_of_allowed (ho : s.ringOwner q = some (fn, n)) (hst : s.ringState q = disabled)
    (ht : s.ringType q ≠ 0) (ht8 : s.ringType q < 8) (hallow : s.typeAllowed fn (s.ringType q) = true) (hready : s.ringReady q = true) :
    s.startRing q = (s.startedRing q).heldOut q := by
  simp only [State.startRing, ho]
  rw [if_neg (not_not.mpr hst), if_pos ⟨ht, ht8, hallow, hready⟩]
  rfl

theorem State.startRing_of_refused (ho : s.ringOwner q = some (fn, n)) (hst : s.ringState q = disabled)
    (h : s.ringType q = 0 ∨ s.typeAllowed fn (s.ringType q) = false ∨ s.ringReady q = false) :
    s.startRing q = s.raise (ringBase q) Reg.RING_EVENT_START_REFUSED := by
  simp only [State.startRing, ho]
  rw [if_neg (not_not.mpr hst), if_neg]
  rintro ⟨ht, -, hallow, hready⟩
  rcases h with h | h | h
  · exact ht h
  · exact absurd (h ▸ hallow) (by decide)
  · exact absurd (h ▸ hready) (by decide)

section
variable (s) (hq : q < 256)

theorem State.noneHeld_startedRing : noneHeld (s.startedRing q) q = noneHeld s q := by
  rw [State.startedRing, noneHeld_modRing, noneHeld_eq_of_beyond (State.beyond_setRingState _ q running 0)]
  rfl

include hq

theorem State.ringState_startedRing : (s.startedRing q).ringState q = running := State.ringState_setRingState _ hq running 0

theorem State.hostIdx_startedRing : (s.startedRing q).hostIdx q = 0 := by
  refine (State.hostIdx_setRingState _ hq running 0).trans ?_
  rw [State.hostIdx, State.rd_put_apart _ (by decide), State.rd_put_self]
  rfl

theorem State.devIdx_startedRing : (s.startedRing q).devIdx q = 0 :=
  (State.devIdx_setRingState _ hq running 0).trans (State.rd_put_self _ _ _ _)

end

/-! ## STOP -/

theorem State.ringHeldOff_of_ready (h : s.ringReady q = true) : s.ringHeldOff q = false := by
  unfold State.ringReady at h
  unfold State.ringHeldOff
  split
  · next i hi =>
    simp only [hi, decide_eq_true_eq] at h
    rw [h]
    rfl
  · rfl

theorem State.ring_raiseVec (s : State) (fn v q : Nat) : (s.raiseVec fn v).ring q = s.ring q := by
  have hrings : (s.raiseVec fn v).rings = s.rings := (congrArg State.rings (s.inner_raiseVec fn v) :)
  exact congrArg (KMap.get (fun _ => ({} : RingX)) · q) hrings

/-- An interrupt takes no DISABLE that waits. -/
theorem State.disablePending_eventIrq (s : State) (a : Nat) (own mgr : Bool) (q : Nat) :
    ((s.eventIrq a own mgr).ring q).disablePending = (s.ring q).disablePending := by
  have hpend : ∀ k, ((s.modRing k fun r => { r with pend := 0 }).ring q).disablePending = (s.ring q).disablePending := fun k => by
    rw [State.modRing_eq]
    by_cases hk : k = q
    · subst hk
      rw [State.ring_setRing_self]
    · rw [State.ring_setRing_ne _ _ hk]
  unfold State.eventIrq
  split
  · cases own
    · rfl
    · exact congrArg RingX.disablePending (s.ring_raiseVec 0 0 q)
  · cases own <;> cases mgr <;> simp [State.mgrIrq, State.ring_raiseVec]
  · cases own
    · rfl
    · simp only [if_true]
      split
      · rw [State.ring_raiseVec, hpend]
      · rfl

theorem State.disablePending_raise (s : State) (a : Nat) (f : Fld) (q : Nat) :
    ((s.raise a f).ring q).disablePending = (s.ring q).disablePending := by
  unfold State.raise
  split
  · rfl
  · exact State.disablePending_eventIrq _ a _ _ q

/-- A STOPPING ring with nothing fetched is STOPPED while its instance is READY. -/
theorem State.ringDrained_of_idle (hst : s.ringState q = stoppingRing) (hready : s.ringReady q = true)
    (hfetch : (s.ring q).fetching = false) (hdis : (s.ring q).disablePending = false) :
    s.ringDrained q = (s.setRingState q stopped 1).raise (ringBase q) Reg.RING_EVENT_STOPPED := by
  have hdis' : (((s.setRingState q stopped 1).raise (ringBase q) Reg.RING_EVENT_STOPPED).ring q).disablePending = false := by
    rw [State.disablePending_raise, ring_eq_of_beyond (s.beyond_setRingState q stopped 1), hdis]
  rw [State.ringDrained, hfetch]
  simp only [Bool.false_eq_true, if_false, if_pos (And.intro hst hready), hdis']

/-- A RUNNING ring with nothing fetched passes through STOPPING at once. -/
theorem State.ringStop_of_idle (hq : q < 256) (hrun : s.ringState q = running) (hready : s.ringReady q = true)
    (hfetched : (s.ring q).fetched = []) (hfetch : (s.ring q).fetching = false) (hdis : (s.ring q).disablePending = false) :
    s.ringStop q = ((s.setRingState q stoppingRing 0).setRingState q stopped 1).raise (ringBase q) Reg.RING_EVENT_STOPPED := by
  have hring := ring_eq_of_beyond (s.beyond_setRingState q stoppingRing 0) q
  rw [State.ringStop, if_pos ⟨hrun, by rw [State.ringHeldOff_of_ready hready]; rfl⟩]
  dsimp only
  rw [hring, if_pos ⟨hfetched, by rw [hfetch]; rfl⟩]
  refine State.ringDrained_of_idle ?_ ?_ (hring ▸ hfetch) (hring ▸ hdis)
  · exact s.ringState_setRingState hq stoppingRing 0
  · rw [State.ringReady_setRingState, hready]

/-! ## RESUME and DISABLE -/

theorem State.ringResume_of_stopped
    (h : (s.ringState q = stopped ∧ s.rd (ringBase q) Reg.RING_STATE_CAUSE = 1) ∨ s.ringState q = halted)
    (hready : s.ringReady q = true) : s.ringResume q =
      ((s.setRingState q running 0).modRing q fun r => { r with disablePending := false }).heldOut q :=
  if_pos ⟨h, hready⟩

theorem State.ringDisable_of_idle (h : s.ringState q = stopped ∨ s.ringState q = halted)
    (hfetched : (s.ring q).fetched = []) (hfetch : (s.ring q).fetching = false) : s.ringDisable q = s.setRingState q disabled 0 := by
  rw [State.ringDisable, if_pos h, if_pos ⟨hfetched, by rw [hfetch]; rfl⟩]

end

/-! ## The commands -/

section
variable {s : State} {q : Fin 256} {fn n : Nat} (ha : s.answers 0 = true) (hw : s.awaiting = false)
  (ho : s.ringOwner q.val = some (fn, n))
include ha hw ho

theorem completes_ringStart (harm : s.armed (ringBase q.val) = false) (hst : s.ringState q.val = disabled)
    (ht : s.ringType q.val ≠ 0) (ht8 : s.ringType q.val < 8) (hallow : s.typeAllowed fn (s.ringType q.val) = true)
    (hready : s.ringReady q.val = true) : completes (.ringStart q) s fun u =>
      u.ringState q.val = running ∧ u.hostIdx q.val = 0 ∧ (noneHeld s q.val = true → u.devIdx q.val = 0) := by
  refine completes_of_effect rfl ((State.ringReach_of_answers ha hw ho _).trans ((State.ringStart_of_not_armed harm).trans
    (State.startRing_of_allowed ho hst ht ht8 hallow hready))) ⟨?_, ?_, fun hnone => ?_⟩
  · rw [ringState_settle q.isLt, State.ringState_heldOut _ q.isLt, State.ringState_startedRing _ q.isLt]
  · rw [hostIdx_settle q.isLt, State.hostIdx_heldOut _ q.isLt, State.hostIdx_startedRing _ q.isLt]
  · rw [devIdx_settle q.isLt, State.devIdx, State.rd_heldOut_of_none ((s.noneHeld_startedRing).trans hnone)]
    exact s.devIdx_startedRing q.isLt

theorem completes_ringStart_refused (harm : s.armed (ringBase q.val) = false) (hst : s.ringState q.val = disabled)
    (h : s.ringType q.val = 0 ∨ s.typeAllowed fn (s.ringType q.val) = false ∨ s.ringReady q.val = false) :
    completes (.ringStart q) s fun u => u.ringState q.val = disabled ∧ u.rd (ringBase q.val) Reg.RING_EVENT_START_REFUSED = 1 := by
  refine completes_of_effect rfl ((State.ringReach_of_answers ha hw ho _).trans ((State.ringStart_of_not_armed harm).trans
    (State.startRing_of_refused ho hst h))) ⟨?_, ?_⟩
  · rw [ringState_settle q.isLt, State.ringState, State.rd_raise_ring q.isLt _ (by decide) (by decide)]
    exact hst
  · rw [rd_settle_ring q.isLt _ _ (by decide) (by decide), State.rd_raise_ring_self q.isLt _ (by decide) (by decide) (by decide)]

theorem completes_ringStop (hfetched : (s.ring q.val).fetched = []) (hfetch : (s.ring q.val).fetching = false)
    (hdis : (s.ring q.val).disablePending = false) (hrun : s.ringState q.val = running) (hready : s.ringReady q.val = true) :
    completes (.ringStop q) s fun u => u.ringState q.val = stopped ∧ u.rd (ringBase q.val) Reg.RING_STATE_CAUSE = 1 ∧
      u.rd (ringBase q.val) Reg.RING_EVENT_STOPPED = 1 ∧ u.hostIdx q.val = s.hostIdx q.val ∧ u.devIdx q.val = s.devIdx q.val := by
  refine completes_of_effect rfl ((State.ringReach_of_answers ha hw ho _).trans
    (State.ringStop_of_idle q.isLt hrun hready hfetched hfetch hdis)) ⟨?_, ?_, ?_, ?_, ?_⟩
  · rw [ringState_settle q.isLt, State.ringState, State.rd_raise_ring q.isLt _ (by decide) (by decide)]
    exact State.ringState_setRingState _ q.isLt stopped 1
  · rw [rd_settle_ring q.isLt _ _ (by decide) (by decide), State.rd_raise_ring q.isLt _ (by decide) (by decide)]
    exact State.cause_setRingState _ q.isLt stopped 1
  · rw [rd_settle_ring q.isLt _ _ (by decide) (by decide), State.rd_raise_ring_self q.isLt _ (by decide) (by decide) (by decide)]
  · rw [hostIdx_settle q.isLt, State.hostIdx, State.rd_raise_ring q.isLt _ (by decide) (by decide)]
    exact (State.hostIdx_setRingState _ q.isLt stopped 1).trans (s.hostIdx_setRingState q.isLt stoppingRing 0)
  · rw [devIdx_settle q.isLt, State.devIdx, State.rd_raise_ring q.isLt _ (by decide) (by decide)]
    exact (State.devIdx_setRingState _ q.isLt stopped 1).trans (s.devIdx_setRingState q.isLt stoppingRing 0)

theorem completes_ringResume
    (h : (s.ringState q.val = stopped ∧ s.rd (ringBase q.val) Reg.RING_STATE_CAUSE = 1) ∨ s.ringState q.val = halted)
    (hready : s.ringReady q.val = true) : completes (.ringResume q) s fun u =>
      u.ringState q.val = running ∧ u.hostIdx q.val = s.hostIdx q.val ∧
      (noneHeld s q.val = true → u.devIdx q.val = s.devIdx q.val) := by
  refine completes_of_effect rfl ((State.ringReach_of_answers ha hw ho _).trans (State.ringResume_of_stopped h hready))
    ⟨?_, ?_, fun hnone => ?_⟩
  · rw [ringState_settle q.isLt, State.ringState_heldOut _ q.isLt]
    exact s.ringState_setRingState q.isLt running 0
  · rw [hostIdx_settle q.isLt, State.hostIdx_heldOut _ q.isLt]
    exact s.hostIdx_setRingState q.isLt running 0
  · have hheld : noneHeld ((s.setRingState q.val running 0).modRing q.val fun r => { r with disablePending := false }) q.val = true := by
      rw [noneHeld_modRing, noneHeld_eq_of_beyond (s.beyond_setRingState q.val running 0), hnone]
    rw [devIdx_settle q.isLt, State.devIdx, State.rd_heldOut_of_none hheld]
    exact s.devIdx_setRingState q.isLt running 0

theorem completes_ringDisable (hfetched : (s.ring q.val).fetched = []) (hfetch : (s.ring q.val).fetching = false)
    (h : s.ringState q.val = stopped ∨ s.ringState q.val = halted) :
    completes (.ringDisable q) s fun u => u.ringState q.val = disabled ∧ u.rd (ringBase q.val) Reg.RING_STATE_FREE = 0 := by
  refine completes_of_effect rfl ((State.ringReach_of_answers ha hw ho _).trans (State.ringDisable_of_idle h hfetched hfetch)) ⟨?_, ?_⟩
  · rw [ringState_settle q.isLt]
    exact s.ringState_setRingState q.isLt disabled 0
  · rw [rd_settle_ring q.isLt _ _ (by decide) (by decide), State.free_setRingState_disabled _ 0 q.isLt]

end

/-- Settles O12, a trigger each: with nothing fetched STOP and DISABLE take effect at once, and only a record that is held moves DEV_IDX. -/
theorem ringTriggers : Obligations.RingTriggers := by
  unfold Obligations.RingTriggers
  intro s q fn n hquiet ho
  obtain ⟨hw, ha, hfetched, hfetch, hdis⟩ := hquiet
  refine ⟨fun hst harm => ⟨?_, completes_ringStart_refused ha hw ho harm hst⟩, completes_ringStop ha hw ho hfetched hfetch hdis,
    completes_ringResume ha hw ho, completes_ringDisable ha hw ho hfetched hfetch⟩
  rintro ⟨ht, ht8, hallow, hready⟩
  exact completes_ringStart ha hw ho harm hst ht ht8 hallow hready

end Sys2Proof.Machine
end

section
/-! A direct write of HOST_IDX through the manager's window (R90, R153): the model acts on the written word with what the register held
above its 32 bits. -/
namespace Sys2Proof.Machine

theorem frameAt_ringBase {q o : Nat} (hq : q < 256) (ho : o < 0x100) : frameAt (ringBase q + o) = some (FrameKind.ring, q, o) := by
  have hbase : ringBase q = 0x30000 + 0x100 * q := rfl
  have hfind : FrameKind.all.find? (fun k => decide (k.base ≤ ringBase q + o) && decide (ringBase q + o < k.base + k.stride * k.count)) =
      some FrameKind.ring := by
    unfold FrameKind.all
    rw [List.find?_cons_of_neg, List.find?_cons_of_neg, List.find?_cons_of_neg, List.find?_cons_of_neg, List.find?_cons_of_pos] <;>
      simp only [hbase, FrameKind.base, FrameKind.stride, FrameKind.count, Bool.and_eq_true, decide_eq_true_eq] <;> omega
  rw [frameAt, hfind, Option.map_some, hbase]
  simp only [FrameKind.base, FrameKind.stride, Option.some.injEq, Prod.mk.injEq, true_and]
  omega

theorem xor_mod_two_pow_self (x n : Nat) : x ^^^ (x % 2 ^ n) = 2 ^ n * (x / 2 ^ n) := by
  apply Nat.eq_of_testBit_eq
  intro i
  rw [Nat.testBit_xor, Nat.testBit_mod_two_pow, Nat.testBit_two_pow_mul, Nat.testBit_div_two_pow]
  by_cases h : i < n
  · simp [h]
  · simp [h, show n ≤ i by omega]

/-- A full-width write of a word leaves the bits above it. -/
theorem merge_over_high {v : Nat} (hv : v < 2 ^ 32) (old : Nat) : RegWrite.merge { val := v } old = 2 ^ 32 * (old / 2 ^ 32) + v := by
  show (old ^^^ (old &&& (2 ^ 32 - 1))) ||| (v &&& (2 ^ 32 - 1)) = _
  rw [Nat.and_two_pow_sub_one_eq_mod, Nat.and_two_pow_sub_one_eq_mod, xor_mod_two_pow_self, Nat.mod_eq_of_lt hv,
    ← Nat.two_pow_add_eq_or_of_lt hv]

/-- The one field row of HOST_IDX, and where it lies. -/
def hostIdxRow : FRow := { fld := Reg.RING_HOST_IDX_INDEX, ty := .rw, reset := 0, legal := [], stride := 0, count := 1 }
def hostIdxAt (q : Nat) : Nat := ringBase q + Reg.RING_HOST_IDX_INDEX.off
def hostIdxLoc (q : Nat) : RegLoc := { kind := .ring, n := q, off := Reg.RING_HOST_IDX_INDEX.off, a := hostIdxAt q, base := ringBase q }

theorem liveBits_hostIdxLoc (q : Nat) : liveBits (hostIdxLoc q) = 2 ^ 32 - 1 := by
  simp [liveBits, msixWordNo, hostIdxLoc]

section
variable {q : Nat} (hq : q < 256)
include hq

theorem locAt_hostIdxAt : locAt (hostIdxAt q) = some (hostIdxLoc q) := by
  rw [hostIdxAt, locAt, frameAt_ringBase hq (by decide)]
  rfl

theorem regRows_hostIdxAt : regRows (hostIdxAt q) = [hostIdxRow] := by
  rw [hostIdxAt, regRows, frameAt_ringBase hq (by decide)]
  rfl

theorem winWord_hostIdxAt (s : State) : s.winWord .mgr (hostIdxAt q) = .reg (hostIdxAt q) := by
  have hlow : ¬ 0x800000 ≤ hostIdxAt q := by
    simp only [hostIdxAt, ringBase, FrameKind.at, FrameKind.base, FrameKind.stride, Reg.RING_HOST_IDX_INDEX]
    omega
  simp only [State.winWord, if_neg hlow]
  rw [hostIdxAt, frameAt_ringBase hq (by decide)]

/-- The register takes the written word whole, over what it held above 32 bits. -/
theorem State.regLand_hostIdx (s : State) {v : Nat} (hv : v < 2 ^ 32) :
    s.regLand (hostIdxLoc q) { val := v } = s.writeHostIdx q (2 ^ 32 * (s.hostIdx q / 2 ^ 32) + v) := by
  unfold State.regLand
  extract_lets rows plain rest rest' bits acts old new ctrl wrong checked written
  have hrows : rows = [hostIdxRow] := by
    show (regRows (hostIdxAt q)).filter _ = _
    rw [regRows_hostIdxAt hq]
    rfl
  have hplain : plain = [hostIdxRow] := by
    show rows.filter _ = _
    rw [hrows]
    rfl
  have hrest' : rest' = [] := by
    show (rows.filter _).filter _ ++ (rows.filter _).filter _ = _
    rw [hrows, hplain]
    rfl
  have hbits : bits = 2 ^ 32 - 1 := by
    show plain.foldl _ 0 &&& _ = _
    rw [hplain, liveBits_hostIdxLoc]
    rfl
  have hacts : acts ≠ 0 := by
    show (2 ^ 32 - 1) &&& bits ≠ 0
    rw [hbits]
    decide
  have hold : old = s.hostIdx q := by
    show plain.foldl _ 0 = _
    rw [hplain, List.foldl_cons, List.foldl_nil, Nat.zero_add]
    exact Nat.mul_one _
  have hmask : ∀ x : Nat, x &&& bits = x % 2 ^ 32 := fun x => by rw [hbits, Nat.and_two_pow_sub_one_eq_mod]
  have hnew : new = 2 ^ 32 * (s.hostIdx q / 2 ^ 32) + v := by
    show (RegWrite.merge { val := v } old &&& bits) ||| (old ^^^ (old &&& bits)) = _
    rw [hmask, hmask, xor_mod_two_pow_self, merge_over_high hv, Nat.mul_add_mod, Nat.mod_eq_of_lt hv, hold, Nat.or_comm,
      ← Nat.two_pow_add_eq_or_of_lt hv]
  have hchecked : checked = s := by
    show (if (_ && rest'.any _) = true then _ else _) = _
    rw [hrest', List.any_nil, Bool.and_false]
    rfl
  have hwritten : written = s.writeHostIdx q new := (if_neg hacts).trans (by rw [hchecked]; rfl)
  calc _ = rest'.foldl (fun s r => s.fieldAct (hostIdxLoc q) r { val := v }) written := rfl
    _ = _ := by rw [hrest', List.foldl_nil, hwritten, hnew]

/-- A direct write through the manager's window while the ring exists. -/
theorem doRegisterWrite_hostIdx {s : State} (ha : s.answers 0 = true) (hw : s.awaiting = false)
    (ho : (s.ringOwner q).isSome = true) (v : Word) :
    doRegisterWrite s .mgr (hostIdxAt q) (natLE 4 v.toNat) [true, true, true, true] false =
      s.writeHostIdx q (2 ^ 32 * (s.hostIdx q / 2 ^ 32) + v.toNat) := by
  have haligned : hostIdxAt q = 4 * (hostIdxAt q / 4) := by
    simp only [hostIdxAt, ringBase, FrameKind.at, FrameKind.base, FrameKind.stride, Reg.RING_HOST_IDX_INDEX]
    omega
  have hreg : s.winWord .mgr (4 * (hostIdxAt q / 4)) = .reg (hostIdxAt q) := haligned ▸ winWord_hostIdxAt hq s
  have hthere : s.frameThere (hostIdxLoc q) = true := ho
  calc _ = s.write .mgr (wordWrite .normal (4 * (hostIdxAt q / 4)) v.toNat) := by rw [← haligned]; rfl
    _ = s.writeWord (hostIdxAt q) { val := v.toNat } := State.write_word .normal v.isLt (w := .mgr) ha hreg
    _ = s.regLand (hostIdxLoc q) { val := v.toNat } := by
      have hpot : ¬ (hostIdxLoc q).kind = .pot := nofun
      have hsn : ¬ ((hostIdxLoc q).kind = .sn ∧ ((hostIdxLoc q).off = 0x18 ∨ (hostIdxLoc q).off = 0x20)) := nofun
      simp only [State.writeWord, locAt_hostIdxAt hq, hw, hthere, if_neg hpot, if_neg hsn, Bool.false_and, Bool.not_true,
        Bool.false_eq_true, if_false]
    _ = _ := State.regLand_hostIdx hq s v.isLt

end

/-! ## What a write of HOST_IDX does (R153) -/

section
variable {s : State} {q v : Nat}

theorem State.writeHostIdx_of_disabled (h : s.ringState q = disabled) (v : Nat) : s.writeHostIdx q v = s := if_pos h

theorem State.hostIdxOk_iff (h : s.ringState q ≠ disabled) :
    s.hostIdxOk q v = true ↔ fillOf (s.ringType q) v (s.devIdx q) ≤ s.entries q := by
  simp [State.hostIdxOk, h]

theorem State.writeHostIdx_of_fits (h : s.ringState q ≠ disabled) (hfits : fillOf (s.ringType q) v (s.devIdx q) ≤ s.entries q) :
    s.writeHostIdx q v = (s.put (ringBase q) Reg.RING_HOST_IDX_INDEX v).ringLook q := by
  rw [State.writeHostIdx, if_neg h, if_pos ((State.hostIdxOk_iff h).mpr hfits)]

theorem State.writeHostIdx_of_overrun (h : s.ringState q ≠ disabled) (hover : s.entries q < fillOf (s.ringType q) v (s.devIdx q)) :
    s.writeHostIdx q v = if s.ringState q = running then s.haltRing q 3 Reg.RING_EVENT_OVERRUN
      else s.raise (ringBase q) Reg.RING_EVENT_OVERRUN := by
  rw [State.writeHostIdx, if_neg h, if_neg fun hok => absurd ((State.hostIdxOk_iff h).mp hok) (by omega)]

theorem ringFrame_add {o : Nat} (ho : o < 256) (q : Nat) : ringFrame q (ringBase q + o) :=
  ⟨Nat.le_add_right .., Nat.add_lt_add_left ho _⟩

theorem keeps.ringLook {t : State} (h : keeps (ringFrame q) s t) : keeps (ringFrame q) s (t.ringLook q) :=
  (h.put _ (by decide) (ringFrame_add (by decide) q)).put _ (by decide) (ringFrame_add (by decide) q)

section
variable (s) (hq : q < 256)
include hq

/-- RING_HALT of the ring's function lies outside the ring's frame. -/
theorem State.rd_haltRing_ring (cause : Nat) (f : Fld) {g : Fld} (ho : g.off < 0x100) (hg : g.lo < 32) :
    (s.haltRing q cause f).rd (ringBase q) g = ((s.setRingState q halted cause).raise (ringBase q) f).rd (ringBase q) g := by
  unfold State.haltRing
  dsimp only
  split
  · next fn n hown =>
    split
    · rfl
    · refine State.rd_raise_ne _ (offPba_ringBase hq ho) hg ?_
      have hfar := fnInst_below_or_above (State.ringOwner_lt hown)
      simp only [fkey, ringBase, FrameKind.at, FrameKind.base, FrameKind.stride, Reg.INST_EVENT_RING_HALT]
      omega
  · rfl

theorem State.rd_haltRing_overrun (cause : Nat) :
    (s.haltRing q cause Reg.RING_EVENT_OVERRUN).rd (ringBase q) Reg.RING_EVENT_OVERRUN = 1 := by
  rw [State.rd_haltRing_ring s hq _ _ (by decide) (by decide), State.rd_raise_ring_self hq _ (by decide) (by decide) (by decide)]

theorem State.hostIdx_haltRing_overrun (cause : Nat) : (s.haltRing q cause Reg.RING_EVENT_OVERRUN).hostIdx q = s.hostIdx q := by
  rw [State.hostIdx, State.rd_haltRing_ring s hq _ _ (by decide) (by decide), State.rd_raise_ring hq _ (by decide) (by decide)]
  exact s.hostIdx_setRingState hq halted cause

theorem State.ringState_haltRing_overrun (cause : Nat) : (s.haltRing q cause Reg.RING_EVENT_OVERRUN).ringState q = halted := by
  rw [State.ringState, State.rd_haltRing_ring s hq _ _ (by decide) (by decide), State.rd_raise_ring hq _ (by decide) (by decide)]
  exact s.ringState_setRingState hq halted cause

theorem State.cause_haltRing_overrun (cause : Nat) :
    (s.haltRing q cause Reg.RING_EVENT_OVERRUN).rd (ringBase q) Reg.RING_STATE_CAUSE = cause % 16 := by
  rw [State.rd_haltRing_ring s hq _ _ (by decide) (by decide), State.rd_raise_ring hq _ (by decide) (by decide),
    State.cause_setRingState _ hq]

/-- R153, whatever the write came through. -/
theorem r153_settle_writeHostIdx (v : Word) : r153 s q v (settle s (s.writeHostIdx q v.toNat)) := by
  refine ⟨fun hst => ?_, fun hst hfits => ?_, fun hst hover => ?_⟩
  · rw [State.writeHostIdx_of_disabled hst]
    exact (keeps.refl _ s).settle s
  · rw [State.writeHostIdx_of_fits hst hfits]
    refine ⟨?_, ?_, ?_⟩
    · rw [hostIdx_settle hq, State.hostIdx, State.rd_ringLook_apart _ (by decide) (by decide), State.rd_put_self]
      exact Nat.mod_eq_of_lt v.isLt
    · exact ((keeps.refl _ s).put _ (by decide) (ringFrame_add (by decide) q)).ringLook.settle s
    · rw [ringState_settle hq, State.ringState, State.rd_ringLook_apart _ (by decide) (by decide), State.rd_put_apart _ (by decide)]
      rfl
  · rw [State.writeHostIdx_of_overrun hst hover, hostIdx_settle hq, ringState_settle hq, rd_settle_ring hq _ _ (by decide) (by decide),
      rd_settle_ring hq _ _ (by decide) (by decide)]
    split
    case isTrue hrun =>
      exact ⟨s.hostIdx_haltRing_overrun hq 3, s.rd_haltRing_overrun hq 3,
        fun _ => ⟨s.ringState_haltRing_overrun hq 3, s.cause_haltRing_overrun hq 3⟩, fun hne => absurd hrun hne⟩
    case isFalse hne =>
      exact ⟨State.rd_raise_ring hq _ (by decide) (by decide), State.rd_raise_ring_self hq _ (by decide) (by decide) (by decide),
        fun hrun => absurd hrun hne, fun _ =>
          ⟨State.rd_raise_ring hq _ (by decide) (by decide), State.rd_raise_ring hq _ (by decide) (by decide)⟩⟩

end

theorem doDb_of_ring {w : Win} {slot : Nat} (ha : s.answers (winFn w) = true) (hpark : s.parkedTo 1 = false) (hw : s.awaiting = false)
    (hring : s.doorbellRing w slot = some q) (v : Nat) : doDb s w slot v = s.writeHostIdx q v := by
  simp [doDb, ha, hpark, hw, hring]

/-- The doorbell's clause of O10. -/
theorem completes_db {q : Fin 256} {w : Win} {slot : Fin 16} (hw : s.awaiting = false) (ha : s.answers (winFn w) = true)
    (hpark : s.parkedTo 1 = false) (hring : s.doorbellRing w slot.val = some q.val) (v : Word) :
    completes (.db w slot v) s (r153 s q.val v) :=
  completes_of_effect rfl (doDb_of_ring ha hpark hw hring v.toNat) (r153_settle_writeHostIdx s q.isLt v)

/-- The direct write's clause of O10, where HOST_IDX holds no more than its 32 bits. -/
theorem completes_registerWrite_hostIdx {q : Fin 256} (hw : s.awaiting = false) (ha : s.answers 0 = true)
    (ho : (s.ringOwner q.val).isSome = true) (hidx : s.hostIdx q.val < 2 ^ 32) (v : Word) :
    completes (.registerWrite .mgr (hostIdxAt q.val) (natLE 4 v.toNat) [true, true, true, true] false) s (r153 s q.val v) := by
  have hwritten := doRegisterWrite_hostIdx q.isLt ha hw ho v
  rw [Nat.div_eq_of_lt hidx, Nat.mul_zero, Nat.zero_add] at hwritten
  exact completes_of_effect rfl hwritten (r153_settle_writeHostIdx s q.isLt v)

end

/-- Ring 0 is a STOPPED EVENT ring of 16 entries whose HOST_IDX lists a value beyond its 32 bits. -/
def wideHostIdx : State :=
  let s := (State.reset.put rplB Reg.RPL_STATE_STATE 3).setFn 0 { ready := true }
  let s := (s.puta (ringBase 0) Reg.RING_CFG_TYPE 6).puta (ringBase 0) Reg.RING_CFG_LOG2_ENTRIES 4
  let s := s.put (ringBase 0) Reg.RING_STATE_STATE stopped
  { s with regs := KMap.set fieldReset s.regs (fkey (hostIdxAt 0) 0) (2 ^ 32) }

/-- Refutes O10 by a register beyond its width, which no write of the model leaves behind but the statement's states may hold: in
`wideHostIdx` a direct write of 1 would be an overrun, for the fill would be 2^32 - 1. The model acts on 2^32 + 1, whose fill it takes as 0,
and HOST_IDX becomes 1. Where HOST_IDX is within its 32 bits the three clauses hold: `completes_db`, `completes_registerWrite_hostIdx` and
`completes_ringStart`. -/
theorem not_hostIndexWrites : ¬ Obligations.HostIndexWrites := by
  unfold Obligations.HostIndexWrites
  intro h
  have hidx : wideHostIdx.hostIdx 0 = 2 ^ 32 := by decide
  have hwritten : doRegisterWrite wideHostIdx .mgr (hostIdxAt 0) (natLE 4 (1 : Word).toNat) [true, true, true, true] false =
      wideHostIdx.writeHostIdx 0 (2 ^ 32 + 1) := by
    rw [doRegisterWrite_hostIdx (by decide) (by decide) (by decide) (by decide), hidx]
    rfl
  have htaken : (wideHostIdx.writeHostIdx 0 (2 ^ 32 + 1)).hostIdx 0 = 1 := by decide
  obtain ⟨-, hdirect, -⟩ := h wideHostIdx 0 1 (by decide)
  obtain ⟨t, ht, -, -, hover⟩ := hdirect (by decide) (by decide)
  obtain ⟨hkept, -⟩ := hover (by decide) (by decide)
  cases ht
  have hafter : (settle wideHostIdx (doRegisterWrite wideHostIdx .mgr (hostIdxAt 0) (natLE 4 (1 : Word).toNat)
      [true, true, true, true] false)).hostIdx 0 = 1 := by rw [hostIdx_settle (by decide), hwritten, htaken]
  have hclash : (1 : Nat) = 2 ^ 32 := hafter.symm.trans (hkept.trans hidx)
  exact absurd hclash (by decide)

end Sys2Proof.Machine
end

section
/-! The Carousel's operations on an engine: what a charge of its time, a preemption and the status registers leave of it. -/
namespace Sys2Proof.Machine

section
variable (s : State)

theorem State.engine_eq_of_engines {s t : State} (h : t.engines = s.engines) (e : Nat) : t.engine e = s.engine e :=
  congrArg (KMap.get (fun _ => ({} : EngineX)) · e) h

theorem State.engine_modEngine (k e : Nat) (f : EngineX → EngineX) :
    (s.modEngine k f).engine e = if k = e then f (s.engine e) else s.engine e := by
  split
  · next h =>
    subst h
    exact s.engine_setEngine_self k _
  · next h => exact s.engine_setEngine_ne _ h

@[simp] theorem State.engine_modEngine_self (e : Nat) (f : EngineX → EngineX) : (s.modEngine e f).engine e = f (s.engine e) :=
  s.engine_setEngine_self e _

@[simp] theorem State.rd_modEngine (k : Nat) (f : EngineX → EngineX) (b : Nat) (g : Fld) : (s.modEngine k f).rd b g = s.rd b g := rfl
@[simp] theorem State.wideAt_modEngine (k : Nat) (f : EngineX → EngineX) (b : Nat) : (s.modEngine k f).wideAt b = s.wideAt b := rfl

/-! ## Charging (R182) -/

@[simp] theorem State.engines_setAcct (gfx : Bool) (i : Nat) (x : Account) : (s.setAcct gfx i x).engines = s.engines := by
  cases gfx <;> rfl

@[simp] theorem State.now_setAcct (gfx : Bool) (i : Nat) (x : Account) : (s.setAcct gfx i x).now = s.now := by
  cases gfx <;> rfl

theorem State.engines_chargeJob (e q idx dt : Nat) (spare : Bool) : (s.chargeJob e q idx dt spare).engines = s.engines := by
  unfold State.chargeJob
  split
  · rfl
  · dsimp only
    split <;> exact s.engines_setAcct _ _ _

theorem State.now_chargeJob (e q idx dt : Nat) (spare : Bool) : (s.chargeJob e q idx dt spare).now = s.now := by
  unfold State.chargeJob
  split
  · rfl
  · dsimp only
    split <;> exact s.now_setAcct _ _ _

/-- The charge of engine k charges the job it runs, if any, and remembers up to when. -/
theorem State.chargeEngine_eq (k : Nat) : ∃ u : State, u.engines = s.engines ∧ u.now = s.now ∧
    s.chargeEngine k = u.modEngine k fun y => { y with since := max (s.engine k).since s.now } := by
  unfold State.chargeEngine
  dsimp only
  split
  · exact ⟨_, s.engines_chargeJob _ _ _ _ _, s.now_chargeJob _ _ _ _ _, rfl⟩
  · exact ⟨s, rfl, rfl, rfl⟩

theorem State.engine_chargeEngine (k e : Nat) : (s.chargeEngine k).engine e =
    if k = e then { s.engine e with since := max (s.engine e).since s.now } else s.engine e := by
  obtain ⟨u, hengines, -, heq⟩ := s.chargeEngine_eq k
  rw [heq, State.engine_modEngine, State.engine_eq_of_engines hengines]
  split
  · next h => rw [h]
  · rfl

@[simp] theorem State.now_chargeEngine (k : Nat) : (s.chargeEngine k).now = s.now := by
  obtain ⟨u, -, hnow, heq⟩ := s.chargeEngine_eq k
  rw [heq]
  exact hnow

/-! ## The status registers of the engines -/

/-- The bits of CAR_STATUS and GFX_STATUS that follow the groups' holders. -/
def State.groupLook (s : State) (busy sec ok testing group : Nat) : State :=
  (((((s.put carB Reg.CAR_STATUS_GROUPS_BUSY busy).put gfxB Reg.GFX_STATUS_GROUPS_BUSY busy).put gfxB Reg.GFX_STATUS_GROUPS_SECURE sec).put
    gfxB Reg.GFX_STATUS_GROUPS_OK ok).put carB Reg.CAR_STATUS_TESTING testing).put carB Reg.CAR_STATUS_TEST_GROUP group

/-- The status of core n follows its group. -/
def State.coreLook (s : State) (n : Nat) : State :=
  let st := match (s.engine (n / 4)).holder with | .idle => 0 | .job _ _ true => 2 | .job _ _ false => 1 | .test _ => 3
  (s.put (coreB n) Reg.GFX_CORE_STATUS_STATE st).put (coreB n) Reg.GFX_CORE_STATUS_IN_SERVICE (!(s.engine (n / 4)).outOfService).toNat

/-- The status of a copy engine as given. -/
def State.copyPut (s : State) (n busy sec inst : Nat) : State :=
  ((s.put (cpyB n) Reg.CPY_STATUS_BUSY busy).put (cpyB n) Reg.CPY_STATUS_SECURE sec).put (cpyB n) Reg.CPY_STATUS_INSTANCE inst

/-- The status of copy engine n follows its holder. -/
def State.copyLook (s : State) (n : Nat) : State :=
  match (s.engine (4 + n)).holder with
  | .job q _ sec => s.copyPut n 1 sec.toNat (if sec then 0 else (s.ringInst q).getD 0)
  | _ => s.copyPut n 0 0 0

theorem State.engineLook_eq : ∃ busy sec ok testing group, s.engineLook =
    ((s.groupLook busy sec ok testing group).each (List.range 16) State.coreLook).each [0, 1] State.copyLook := ⟨_, _, _, _, _, rfl⟩

theorem State.copyLook_eq (n : Nat) : ∃ busy sec inst, s.copyLook n = s.copyPut n busy sec inst := by
  unfold State.copyLook
  split <;> exact ⟨_, _, _, rfl⟩

@[simp] theorem State.inner_groupLook (busy sec ok testing group : Nat) : (s.groupLook busy sec ok testing group).inner = s.inner := by
  simp only [State.groupLook, State.inner_put]

@[simp] theorem State.inner_coreLook (n : Nat) : (s.coreLook n).inner = s.inner := by
  simp only [State.coreLook, State.inner_put]

@[simp] theorem State.inner_copyLook (n : Nat) : (s.copyLook n).inner = s.inner := by
  obtain ⟨busy, sec, inst, heq⟩ := s.copyLook_eq n
  simp only [heq, State.copyPut, State.inner_put]

@[simp] theorem State.inner_engineLook : s.engineLook.inner = s.inner := by
  obtain ⟨busy, sec, ok, testing, group, heq⟩ := s.engineLook_eq
  rw [heq, State.each_eq_of_keeps State.inner_copyLook, State.each_eq_of_keeps State.inner_coreLook, State.inner_groupLook]

@[simp] theorem State.engine_engineLook (e : Nat) : s.engineLook.engine e = s.engine e :=
  State.engine_eq_of_engines (engines_eq_of_inner s.inner_engineLook) e

@[simp] theorem engine_settle (pre post : State) (e : Nat) : (settle pre post).engine e = post.engine e :=
  State.engine_eq_of_engines (engines_eq_of_inner (inner_settle pre post)) e

/-! ## Preemption (R203) -/

theorem State.engine_preempt (e : Nat) (next : Holder) : (s.preempt e next).engine e =
    { s.engine e with since := max (s.engine e).since s.now, incoming := some next, requestAt := s.now, atPoint := false, fullSave := false,
                      spare := false } := by
  rw [State.preempt, State.engine_modEngine_self, State.engine_chargeEngine, if_pos rfl]

end

end Sys2Proof.Machine
end

section
/-! A quantum's end and the points of a preemption (O22, R192, R194, R203, R204). -/
namespace Sys2Proof.Machine

section
variable {s : State} {er : EngineRef} {t q idx : Nat} {sec : Bool}

/-- At the end of a quantum a forced slice or the best candidate is asked for, or a new quantum begins. -/
theorem doQuantumExpiry_cases (hholder : (s.engine (engNum er)).holder = .job q idx sec) (hnone : (s.engine (engNum er)).incoming = none)
    (hend : (s.engine (engNum er)).quantum + 250000 ≤ (s.reach t).now) :
    (isGfx (engNum er) = true ∧ doQuantumExpiry s er t = ((s.reach t).preempt (engNum er) (.test true)).engineLook) ∨
    (∃ c, ((s.reach t).chargeEngine (engNum er)).best (isGfx (engNum er)) = some c ∧ doQuantumExpiry s er t =
      (((s.reach t).chargeEngine (engNum er)).preempt (engNum er) (.job c.q c.idx c.secure)).engineLook) ∨
    (∃ spare : EngineX → Bool, doQuantumExpiry s er t = ((s.reach t).chargeEngine (engNum er)).modEngine (engNum er) fun y =>
      { y with quantum := ((s.reach t).chargeEngine (engNum er)).now, spare := spare y }) := by
  have hholder' : ((s.reach t).engine (engNum er)).holder = .job q idx sec := hholder
  have hgo : ¬ (((s.reach t).engine (engNum er)).incoming.isSome = true ∨
      (s.reach t).now < ((s.reach t).engine (engNum er)).quantum + 250000) := by
    have hnone' : ((s.reach t).engine (engNum er)).incoming = none := hnone
    have hend' : ((s.reach t).engine (engNum er)).quantum + 250000 ≤ (s.reach t).now := hend
    rw [hnone']
    simpa using hend'
  unfold doQuantumExpiry
  dsimp only
  rw [hholder']
  dsimp only
  rw [if_neg hgo]
  split
  · next hforced => exact .inl ⟨hforced.1, rfl⟩
  right
  generalize State.candOf _ (isGfx (engNum er)) q = own
  cases hbest : ((s.reach t).chargeEngine (engNum er)).best (isGfx (engNum er)) with
  | none => cases own with
    | none => exact .inr ⟨EngineX.spare, rfl⟩
    | some o => exact .inr ⟨fun _ => o.spare, rfl⟩
  | some c => cases own with
    | none => exact .inl ⟨c, rfl, rfl⟩
    | some o =>
      dsimp only
      split
      · exact .inl ⟨c, rfl, rfl⟩
      · exact .inr ⟨fun _ => o.spare, rfl⟩

/-- The end of a quantum keeps the holder (R192). -/
theorem completes_quantumExpiry {t : BitVec 64} (hholder : (s.engine (engNum er)).holder = .job q idx sec)
    (hnone : (s.engine (engNum er)).incoming = none) (hend : (s.engine (engNum er)).quantum + 250000 ≤ max s.now t.toNat) :
    completes (.quantumExpiry er t) s fun u =>
      (u.engine (engNum er)).holder = .job q idx sec ∧
      (((u.engine (engNum er)).incoming = none ∧ (u.engine (engNum er)).quantum = max s.now t.toNat) ∨
       ((u.engine (engNum er)).requestAt = max s.now t.toNat ∧ ((u.engine (engNum er)).incoming = some (.test true) ∧ isGfx (engNum er) = true ∨
          ∃ c : Cand, (((s.reach t.toNat).chargeEngine (engNum er)).best (isGfx (engNum er))) = some c ∧
            (u.engine (engNum er)).incoming = some (.job c.q c.idx c.secure)))) := by
  have hholder' : ((s.reach t.toNat).engine (engNum er)).holder = .job q idx sec := hholder
  have hnone' : ((s.reach t.toNat).engine (engNum er)).incoming = none := hnone
  rcases doQuantumExpiry_cases hholder hnone hend with ⟨hgfx, heq⟩ | ⟨c, hc, heq⟩ | ⟨spare, heq⟩
  · refine completes_of_effect rfl heq ?_
    simp only [engine_settle, State.engine_engineLook, State.engine_preempt]
    exact ⟨hholder', .inr ⟨rfl, .inl ⟨trivial, hgfx⟩⟩⟩
  · refine completes_of_effect rfl heq ?_
    simp only [engine_settle, State.engine_engineLook, State.engine_preempt, State.engine_chargeEngine, if_true, State.now_chargeEngine]
    exact ⟨hholder', .inr ⟨rfl, .inr ⟨c, hc, rfl⟩⟩⟩
  · refine completes_of_effect rfl heq ?_
    simp only [engine_settle, State.engine_modEngine_self, State.engine_chargeEngine, if_true, State.now_chargeEngine]
    exact ⟨hholder', .inl ⟨hnone', rfl⟩⟩

/-- Work that is neither discarded nor over its limit stands at its point from now on (R203). -/
theorem doPreemptPointReached_of_preempted {d : Desc} (hholder : (s.engine (engNum er)).holder = .job q idx sec)
    (hsome : (s.engine (engNum er)).incoming.isSome = true) (hd : s.desc q idx = some d) (hdiscard : d.discard = false)
    (hlimit : d.limitHit = false) :
    doPreemptPointReached s er t = (s.reach t).modEngine (engNum er) fun x => { x with atPoint := true } := by
  have hrun : (s.reach t).runningOn (engNum er) = some (q, d) := by
    have hholder' : ((s.reach t).engine (engNum er)).holder = .job q idx sec := hholder
    have hd' : (s.reach t).desc q idx = some d := hd
    rw [State.runningOn, hholder']
    dsimp only
    rw [hd', Option.map_some]
  have hsome' : ((s.reach t).engine (engNum er)).incoming.isSome = true := hsome
  unfold doPreemptPointReached
  dsimp only
  rw [hrun]
  dsimp only
  rw [if_neg (by rw [hdiscard, hlimit]; decide), if_pos hsome']

/-- After 30 µs without a tile boundary graphics work stops inside the tile (R204). -/
theorem doTileBoundaryTimeout_of_late {g : Nat} (hsome : (s.engine g).incoming.isSome = true) (hpoint : (s.engine g).atPoint = false)
    (hlate : (s.engine g).requestAt + 30000 ≤ max s.now t) :
    doTileBoundaryTimeout s g t = (s.reach t).modEngine g fun x => { x with atPoint := true, fullSave := true } := by
  have hpoint' : (!((s.reach t).engine g).atPoint) = true := congrArg (! ·) hpoint
  exact if_pos ⟨hsome, hpoint', hlate⟩

/-- An engine's own values are no registers. -/
theorem keepsRegs_settle_modEngine (e : Nat) (f : EngineX → EngineX) : keepsRegs s (settle s ((s.reach t).modEngine e f)) :=
  fun _ _ hg ho => rd_settle ho hg

end

/-- Settles O22: what a quantum's end asks for is read off its three cases, and a point reached changes the engine's own values alone. -/
theorem quantumAndPoints : Obligations.QuantumAndPoints := by
  unfold Obligations.QuantumAndPoints
  intro s er t q idx sec e now hholder
  refine ⟨fun hnone hend => completes_quantumExpiry hholder hnone hend, fun d hsome hd hdiscard hlimit => ?_, ?_⟩
  · refine completes_of_effect rfl (doPreemptPointReached_of_preempted hholder hsome hd hdiscard hlimit) ?_
    simp only [e, engine_settle, State.engine_modEngine_self, true_and]
    exact ⟨hholder, keepsRegs_settle_modEngine _ _⟩
  · rintro g rfl hsome hpoint hlate
    refine completes_of_effect rfl (doTileBoundaryTimeout_of_late (g := g.val) hsome hpoint hlate) ?_
    simp only [e, engNum, engine_settle, State.engine_modEngine_self, true_and]
    exact ⟨hholder, keepsRegs_settle_modEngine _ _⟩

end Sys2Proof.Machine
end

section
/-! What work on engines leaves: charging, placing and selection write the status of the engines and CAR_EVENT[TEST_FORCED] and count
graphics time; they begin no preemption and take no engine out of service. -/
namespace Sys2Proof.Machine

/-- The field at address `a` with lowest bit `lo` is one that work on engines may write: CAR_STATUS, CAR_EVENT[TEST_FORCED], GFX_STATUS,
STATE and IN_SERVICE of a core, CPY_STATUS, or a pending bit. -/
def engineField (a lo : Nat) : Prop :=
  a = carB + Reg.CAR_STATUS_TESTING.off ∨ (a = carB + Reg.CAR_EVENT_TEST_FORCED.off ∧ lo = Reg.CAR_EVENT_TEST_FORCED.lo) ∨
  a = gfxB + Reg.GFX_STATUS_GROUPS_BUSY.off ∨ (∃ n, a = coreB n + Reg.GFX_CORE_STATUS_STATE.off ∧ lo ≤ Reg.GFX_CORE_STATUS_IN_SERVICE.lo) ∨
  (∃ n, n < 2 ∧ a = cpyB n + Reg.CPY_STATUS_BUSY.off) ∨ ¬ offPba a

/-- These fields by their numbers. -/
theorem engineField_iff {a lo : Nat} : engineField a lo ↔ a = 0x40000 ∨ (a = 0x4000C ∧ lo = 2) ∨ a = 0x200000 ∨
    (∃ n, a = 0x210000 + 0x4000 * n ∧ lo ≤ 2) ∨ (∃ n, n < 2 ∧ a = 0x2E0000 + 0x4000 * n) ∨
    ¬ (a < 0x10000000 ∧ a ≠ 0x23000) := Iff.rfl

/-- `t` differs from `s` at most by what work on engines may change. -/
structure EngineWork (s t : State) : Prop where
  now : t.now = s.now
  incoming : ∀ e, (s.engine e).incoming = none → (t.engine e).incoming = none
  service : ∀ e, (t.engine e).outOfService = (s.engine e).outOfService
  slices : t.wideAt (carB + Reg.CAR_TEST_SLICES) = s.wideAt (carB + Reg.CAR_TEST_SLICES)
  regs : ∀ (b : Nat) (g : Fld), g.lo < 32 → ¬ engineField (b + g.off) g.lo → t.rd b g = s.rd b g

namespace EngineWork

variable {s t u : State}

theorem refl (s : State) : EngineWork s s := ⟨rfl, fun _ => id, fun _ => rfl, rfl, fun _ _ _ _ => rfl⟩

theorem trans (h : EngineWork s t) (h' : EngineWork t u) : EngineWork s u :=
  ⟨h'.now.trans h.now, fun e hn => h'.incoming e (h.incoming e hn), fun e => (h'.service e).trans (h.service e), h'.slices.trans h.slices,
    fun b g hg hn => (h'.regs b g hg hn).trans (h.regs b g hg hn)⟩

theorem each {α : Type} {f : State → α → State} {l : List α} (hf : ∀ a ∈ l, ∀ x, EngineWork x (f x a)) (s : State) :
    EngineWork s (s.each l f) := by
  induction l generalizing s with
  | nil => exact refl s
  | cons a l ih => exact (hf a (List.mem_cons_self ..) s).trans (ih (fun c hc => hf c (List.mem_cons_of_mem a hc)) (f s a))

/-! ## Single changes -/

/-- A change beside the time, the engines, the registers and the wide values. -/
theorem beside (h : EngineWork s t) (hnow : u.now = t.now) (he : u.engines = t.engines) (hr : u.regs = t.regs) (hw : u.wide = t.wide) :
    EngineWork s u :=
  h.trans ⟨hnow, fun e hn => (State.engine_eq_of_engines he e).symm ▸ hn, fun e => congrArg _ (State.engine_eq_of_engines he e),
    congrArg (KMap.get (fun _ => 0) · _) hw, fun _ _ _ _ => congrArg (KMap.get fieldReset · _) hr⟩

theorem modRing (h : EngineWork s t) (q : Nat) (f : RingX → RingX) : EngineWork s (t.modRing q f) := h.beside rfl rfl rfl rfl
theorem modDesc (h : EngineWork s t) (q idx : Nat) (f : Desc → Desc) : EngineWork s (t.modDesc q idx f) := h.modRing q _
theorem modInst (h : EngineWork s t) (i : Nat) (f : InstX → InstX) : EngineWork s (t.modInst i f) := h.beside rfl rfl rfl rfl

theorem setAcct (h : EngineWork s t) (gfx : Bool) (i : Nat) (x : Account) : EngineWork s (t.setAcct gfx i x) := by
  cases gfx <;> exact h.beside rfl rfl rfl rfl

theorem modEngine (h : EngineWork s t) (k : Nat) {f : EngineX → EngineX} (hin : ∀ x, x.incoming = none → (f x).incoming = none)
    (hserv : ∀ x, (f x).outOfService = x.outOfService) : EngineWork s (t.modEngine k f) := by
  refine h.trans ⟨rfl, fun e hn => ?_, fun e => ?_, rfl, fun _ _ _ _ => rfl⟩
  · rw [State.engine_modEngine]
    split
    · exact hin _ hn
    · exact hn
  · rw [State.engine_modEngine]
    split
    · exact hserv _
    · rfl

theorem put (h : EngineWork s t) (a : Nat) (f : Fld) (v : Nat) (hf : f.lo < 32) (hm : engineField (a + f.off) f.lo) :
    EngineWork s (t.put a f v) := by
  refine h.trans ⟨rfl, fun _ => id, fun _ => rfl, rfl, fun b g hg hn => t.rd_put_ne v fun e => hn ?_⟩
  have ha : a + f.off = b + g.off := by unfold fkey at e; omega
  have hlo : f.lo = g.lo := by unfold fkey at e; omega
  rwa [← ha, ← hlo]

theorem count (h : EngineWork s t) {a : Nat} (n : Nat) (ha : a ≠ carB + Reg.CAR_TEST_SLICES) : EngineWork s (t.count a n) :=
  h.trans ⟨rfl, fun _ => id, fun _ => rfl, t.wideAt_count_ne n ha, fun _ _ _ _ => rfl⟩

theorem raiseForced (h : EngineWork s t) : EngineWork s (t.raise carB Reg.CAR_EVENT_TEST_FORCED) := by
  have hengine := State.engine_eq_of_engines
    (engines_eq_of_inner (t.inner_raise (notRing_of_block (a := carB) (by decide)) Reg.CAR_EVENT_TEST_FORCED))
  refine h.trans ⟨t.now_raise _ _, fun e hn => (hengine e).symm ▸ hn, fun e => congrArg _ (hengine e), t.wideAt_raise _ _ _,
    fun b g hg hn => ?_⟩
  have hpba : offPba (b + g.off) := by
    by_contra hout
    exact hn (.inr (.inr (.inr (.inr (.inr hout)))))
  refine t.rd_raise_ne hpba hg fun e => hn (.inr (.inl ?_))
  have hlo : Reg.CAR_EVENT_TEST_FORCED.lo < 32 := by decide
  unfold fkey at e
  omega

/-! ## Engine time (R182) -/

theorem chargeJob (h : EngineWork s t) (e q idx dt : Nat) (spare : Bool) : EngineWork s (t.chargeJob e q idx dt spare) := by
  unfold State.chargeJob
  split
  · exact h
  · next i _ =>
    have hwide : carB + 64 * i + Reg.CAR_INST_GFX_TIME ≠ carB + Reg.CAR_TEST_SLICES := by
      simp only [Reg.CAR_INST_GFX_TIME, Reg.CAR_TEST_SLICES]
      omega
    dsimp only
    split
    · exact ((h.setAcct _ i _).count _ hwide).modDesc q idx _
    · exact (h.setAcct _ i _).modDesc q idx _

theorem chargeEngine (h : EngineWork s t) (e : Nat) : EngineWork s (t.chargeEngine e) := by
  unfold State.chargeEngine
  dsimp only
  split
  · exact (h.chargeJob _ _ _ _ _).modEngine e (fun _ => id) fun _ => rfl
  · exact h.modEngine e (fun _ => id) fun _ => rfl

/-! ## Status registers -/

theorem groupLook (h : EngineWork s t) (busy sec ok testing group : Nat) : EngineWork s (t.groupLook busy sec ok testing group) := by
  have hcar : ∀ lo, engineField (carB + Reg.CAR_STATUS_TESTING.off) lo := fun _ => .inl rfl
  have hgfx : ∀ lo, engineField (gfxB + Reg.GFX_STATUS_GROUPS_BUSY.off) lo := fun _ => .inr (.inr (.inl rfl))
  unfold State.groupLook
  exact (((((h.put carB Reg.CAR_STATUS_GROUPS_BUSY busy (by decide) (hcar _)).put gfxB Reg.GFX_STATUS_GROUPS_BUSY busy (by decide) (hgfx _)).put
    gfxB Reg.GFX_STATUS_GROUPS_SECURE sec (by decide) (hgfx _)).put gfxB Reg.GFX_STATUS_GROUPS_OK ok (by decide) (hgfx _)).put
    carB Reg.CAR_STATUS_TESTING testing (by decide) (hcar _)).put carB Reg.CAR_STATUS_TEST_GROUP group (by decide) (hcar _)

theorem coreLook (h : EngineWork s t) (n : Nat) : EngineWork s (t.coreLook n) :=
  (h.put _ _ _ (by decide) (.inr (.inr (.inr (.inl ⟨n, rfl, by decide⟩))))).put _ _ _ (by decide)
    (.inr (.inr (.inr (.inl ⟨n, rfl, by decide⟩))))

theorem copyPut (h : EngineWork s t) {n : Nat} (hn : n < 2) (busy sec inst : Nat) : EngineWork s (t.copyPut n busy sec inst) := by
  have hm : engineField (cpyB n + Reg.CPY_STATUS_BUSY.off) 0 ∧ engineField (cpyB n + Reg.CPY_STATUS_BUSY.off) 1 ∧
      engineField (cpyB n + Reg.CPY_STATUS_BUSY.off) 8 := by
    refine ⟨?_, ?_, ?_⟩ <;> exact .inr (.inr (.inr (.inr (.inl ⟨n, hn, rfl⟩))))
  obtain ⟨hbusy, hsec, hinst⟩ := hm
  exact ((h.put _ _ _ (by decide) hbusy).put _ _ _ (by decide) hsec).put _ _ _ (by decide) hinst

theorem copyLook (h : EngineWork s t) {n : Nat} (hn : n < 2) : EngineWork s (t.copyLook n) := by
  obtain ⟨busy, sec, inst, heq⟩ := t.copyLook_eq n
  rw [heq]
  exact h.copyPut hn busy sec inst

theorem engineLook (h : EngineWork s t) : EngineWork s t.engineLook := by
  obtain ⟨busy, sec, ok, testing, group, heq⟩ := t.engineLook_eq
  rw [heq]
  have hcores := (h.groupLook busy sec ok testing group).trans (each (l := List.range 16) (fun n _ x => (refl x).coreLook n) _)
  exact hcores.trans (each (fun n hn x => (refl x).copyLook (by simp at hn; omega)) _)

/-! ## Selection (R192, R193, R184) -/

theorem occupy (h : EngineWork s t) (e : Nat) (x : Holder) (spare : Bool) : EngineWork s (t.occupy e x spare) :=
  h.modEngine e (fun _ _ => rfl) fun _ => rfl

theorem served (h : EngineWork s t) (gfx : Bool) (q : Nat) : EngineWork s (t.served gfx q) := by
  unfold State.served
  split
  · exact h.modInst _ _
  · exact h

theorem selectOne (h : EngineWork s t) (e : Nat) : EngineWork s (t.selectOne e) := by
  unfold State.selectOne
  dsimp only
  split
  · exact h
  split
  · exact (h.occupy e _ _).raiseForced
  split
  · split
    · exact h.occupy e _ _
    · exact (h.occupy e _ _).served _ _
  · split
    · exact h.occupy e _ _
    · exact h

theorem expandOne (h : EngineWork s t) : EngineWork s t.expandOne := by
  unfold State.expandOne
  dsimp only
  split
  · exact h
  · exact h.trans (each (fun g _ x => (refl x).occupy g _ _) _)

theorem select (h : EngineWork s t) : EngineWork s t.select := by
  have hone := h.trans (each (l := groupList ++ copyList) (fun e _ x => (refl x).selectOne e) t)
  unfold State.select
  split
  · dsimp only
    split
    · exact hone.expandOne.engineLook
    · exact hone.engineLook
  · exact h.engineLook

theorem trim (h : EngineWork s t) (q idx : Nat) : EngineWork s (t.trim q idx) := by
  unfold State.trim
  split
  · exact (h.chargeEngine _).modEngine _ (fun _ => id) fun _ => rfl
  · exact h

/-! ## The save area (R341, R342) -/

theorem pinSave (h : EngineWork s t) (q : Nat) (on : Bool) : EngineWork s (t.pinSave q on) := by
  unfold State.pinSave
  dsimp only
  split
  · exact h.beside rfl rfl rfl rfl
  · split <;> exact h.beside rfl rfl rfl rfl

theorem dramWrite (h : EngineWork s t) (a : Nat) (bs : List Byte) : EngineWork s (t.dramWrite a bs) := by
  obtain ⟨x, hx⟩ := t.dramWrite_eq a bs
  rw [hx]
  exact h.beside rfl rfl rfl rfl

theorem dramPut (h : EngineWork s t) {w : Who} {a : Nat} {bs : List Byte} (hw : t.dramPut w a bs = some u) : EngineWork s u := by
  unfold State.dramPut at hw
  split at hw
  · cases hw
    exact h.dramWrite a bs
  · exact absurd hw (by simp)

theorem logRefused (h : EngineWork s t) {i : Nat} (hi : i < 64) : EngineWork s (t.logRefused (Who.fn (fnOfInst i))) := by
  have hwide : instBase i + Reg.INST_REFUSED ≠ carB + Reg.CAR_TEST_SLICES := by
    rw [instBase_of_lt hi]
    simp only [carB, FrameKind.base, Reg.INST_REFUSED, Reg.CAR_TEST_SLICES]
    omega
  exact h.count 1 hwide

end EngineWork

end Sys2Proof.Machine
end

section
/-! The end of a switch (O23, R203 to R206). -/
namespace Sys2Proof.Machine

/-! ## Registers that work on engines leaves -/

theorem not_engineField_of_car {a lo : Nat} (ha : carB < a) (hb : a < carB + 0x1000)
    (hne : a = carB + Reg.CAR_EVENT_TEST_FORCED.off → lo ≠ Reg.CAR_EVENT_TEST_FORCED.lo) : ¬ engineField a lo := by
  simp only [carB, FrameKind.base, Reg.CAR_EVENT_TEST_FORCED] at ha hb hne
  rw [engineField_iff]
  rintro (h | ⟨h, hlo⟩ | h | ⟨n, h, -⟩ | ⟨n, -, h⟩ | h) <;> omega

theorem not_engineField_of_gfx {a : Nat} (lo : Nat) (ha : gfxB < a) (hb : a < gfxB + 0x1000) : ¬ engineField a lo := by
  simp only [gfxB, FrameKind.base] at ha hb
  rw [engineField_iff]
  rintro (h | ⟨h, -⟩ | h | ⟨n, h, -⟩ | ⟨n, -, h⟩ | h) <;> omega

theorem not_engineField_coreB {n o lo : Nat} (hn : n < 16) (ho : o < 0x4000) (hlo : o = 0 → 2 < lo) : ¬ engineField (coreB n + o) lo := by
  simp only [coreB, FrameKind.at, FrameKind.base, FrameKind.stride]
  rw [engineField_iff]
  rintro (h | ⟨h, -⟩ | h | ⟨m, h, hm⟩ | ⟨m, -, h⟩ | h) <;> omega

theorem not_engineField_clock : ¬ engineField (gfxB + Reg.GFX_CLOCK_MHZ.off) Reg.GFX_CLOCK_MHZ.lo :=
  not_engineField_of_gfx _ (by decide) (by decide)

theorem not_engineField_worst : ¬ engineField (carB + Reg.CAR_PREEMPT_WORST_WORST.off) Reg.CAR_PREEMPT_WORST_WORST.lo :=
  not_engineField_of_car (by decide) (by decide) (by decide)

theorem not_engineField_slow : ¬ engineField (carB + Reg.CAR_EVENT_PREEMPT_SLOW.off) Reg.CAR_EVENT_PREEMPT_SLOW.lo :=
  not_engineField_of_car (by decide) (by decide) (by decide)

/-! ## The times of a switch (R206) -/

section
variable (s : State)

/-- The worst time from a request to the end of its switch, in units of 10 ns (R206). -/
def State.worstNoted (s : State) (total : Nat) : State :=
  if s.rd carB Reg.CAR_PREEMPT_WORST_WORST < total / 10 then s.put carB Reg.CAR_PREEMPT_WORST_WORST (min (total / 10) 65535) else s

/-- A switch beyond its limit is counted and reported (R206). -/
def State.slowNoted (s : State) (gfx : Bool) (total : Nat) : State :=
  if s.preemptNs gfx < total then (s.count (carB + Reg.CAR_PREEMPT_SLOW) 1).raise carB Reg.CAR_EVENT_PREEMPT_SLOW else s

/-- The incoming holder takes the engine. -/
def State.switch (s : State) (e : Nat) (next : Holder) : State :=
  s.modEngine e fun y => { y with holder := next, incoming := none, since := s.now, quantum := s.now, atPoint := false, fullSave := false }

theorem State.le_rd_worstNoted (total : Nat) : min (total / 10) 65535 ≤ (s.worstNoted total).rd carB Reg.CAR_PREEMPT_WORST_WORST := by
  unfold State.worstNoted
  split
  · rw [State.rd_put_self]
    have hw : Reg.CAR_PREEMPT_WORST_WORST.w = 16 := rfl
    rw [hw]
    omega
  · omega

theorem State.preemptNs_worstNoted (gfx : Bool) (total : Nat) : (s.worstNoted total).preemptNs gfx = s.preemptNs gfx := by
  have hmhz : (s.worstNoted total).shaderMhz = s.shaderMhz := by
    unfold State.worstNoted State.shaderMhz
    split
    · exact s.rd_put_ne _ (by decide)
    · rfl
  unfold State.preemptNs
  rw [hmhz]

theorem State.rd_slowNoted_worst (gfx : Bool) (total : Nat) :
    (s.slowNoted gfx total).rd carB Reg.CAR_PREEMPT_WORST_WORST = s.rd carB Reg.CAR_PREEMPT_WORST_WORST := by
  unfold State.slowNoted
  split
  · exact State.rd_raise_ne _ (by unfold offPba; decide) (by decide) (by decide)
  · rfl

theorem State.rd_slowNoted_slow {gfx : Bool} {total : Nat} (h : s.preemptNs gfx < total) :
    (s.slowNoted gfx total).rd carB Reg.CAR_EVENT_PREEMPT_SLOW = 1 := by
  unfold State.slowNoted
  rw [if_pos h]
  exact State.rd_raise_self _ (by unfold offPba; decide) (by decide) (by decide)

end

/-! ## What a switch does around these times -/

section
variable (s : State)

/-- The preemption counted by what asked for it: a deadline or the quantum (R206). -/
def State.causeCounted (s : State) (gfx : Bool) (next : Holder) : State :=
  match next with
  | .job q idx _ =>
    match s.desc q idx with
    | some d => if s.urgent gfx q d then s.count (carB + Reg.CAR_PREEMPT_DL) 1 else s.count (carB + Reg.CAR_PREEMPT_QUANTUM) 1
    | none => s.count (carB + Reg.CAR_PREEMPT_QUANTUM) 1
  | _ => s.count (carB + Reg.CAR_PREEMPT_QUANTUM) 1

/-- The incoming holder begins: a forced slice is reported, a saved context restored, and a job that is gone leaves the engine idle. -/
def State.holderBegun (s : State) (e : Nat) (next : Holder) : State :=
  match next with
  | .test true => s.raise carB Reg.CAR_EVENT_TEST_FORCED
  | .job q idx _ =>
    match s.desc q idx with
    | some d => if d.saved then (s.modDesc q idx fun d => { d with saved := false }).pinSave q false else s
    | none => s.modEngine e fun y => { y with holder := .idle }
  | _ => s

/-- A job that lost a group keeps 1, 2 or 4 (R184). -/
def State.holderTrimmed (s : State) (h : Holder) : State :=
  match h with
  | .job q idx _ => s.trim q idx
  | _ => s

/-- The times noted, and the engine given to the incoming holder. -/
def State.switchAt (s : State) (e requestAt : Nat) (next : Holder) : State :=
  ((s.worstNoted (s.now - requestAt)).slowNoted (isGfx e) (s.now - requestAt)).switch e next

end

namespace EngineWork

variable {s t u : State}

theorem preemptNs_eq (h : EngineWork s t) (gfx : Bool) : t.preemptNs gfx = s.preemptNs gfx := by
  have hmhz : t.shaderMhz = s.shaderMhz := h.regs _ _ (by decide) not_engineField_clock
  unfold State.preemptNs
  rw [hmhz]

theorem ite {c : Prop} [Decidable c] (ht : EngineWork s t) (hu : EngineWork s u) : EngineWork s (if c then t else u) := by
  split
  · exact ht
  · exact hu

theorem countPreempted (h : EngineWork s t) (i : Nat) : EngineWork s (t.count (carB + 64 * i + Reg.CAR_INST_PREEMPTED) 1) := by
  refine h.count 1 ?_
  simp only [Reg.CAR_INST_PREEMPTED, Reg.CAR_TEST_SLICES]
  omega

theorem countCar (h : EngineWork s t) {o : Nat} (n : Nat) (ho : o ≠ Reg.CAR_TEST_SLICES) : EngineWork s (t.count (carB + o) n) :=
  h.count n (by omega)

theorem causeCounted (h : EngineWork s t) (gfx : Bool) (next : Holder) : EngineWork s (t.causeCounted gfx next) := by
  have hdl := h.countCar (o := Reg.CAR_PREEMPT_DL) 1 (by decide)
  have hquantum := h.countCar (o := Reg.CAR_PREEMPT_QUANTUM) 1 (by decide)
  unfold State.causeCounted
  split
  · split
    · split
      · exact hdl
      · exact hquantum
    · exact hquantum
  · exact hquantum

theorem holderBegun (h : EngineWork s t) (e : Nat) (next : Holder) : EngineWork s (t.holderBegun e next) := by
  unfold State.holderBegun
  split
  · exact h.raiseForced
  · split
    · split
      · exact (h.modDesc _ _ _).pinSave _ false
      · exact h
    · exact h.modEngine e (fun _ => id) fun _ => rfl
  · exact h

theorem holderTrimmed (h : EngineWork s t) (x : Holder) : EngineWork s (t.holderTrimmed x) := by
  unfold State.holderTrimmed
  split
  · exact h.trim _ _
  · exact h

end EngineWork

section
variable {s : State} {er : EngineRef}

theorem State.rd_switchAt_worst (s : State) (e requestAt : Nat) (next : Holder) :
    min ((s.now - requestAt) / 10) 65535 ≤ (s.switchAt e requestAt next).rd carB Reg.CAR_PREEMPT_WORST_WORST :=
  (s.le_rd_worstNoted _).trans_eq (State.rd_slowNoted_worst _ _ _).symm

theorem State.rd_switchAt_slow (s : State) {e requestAt : Nat} (next : Holder) (h : s.preemptNs (isGfx e) < s.now - requestAt) :
    (s.switchAt e requestAt next).rd carB Reg.CAR_EVENT_PREEMPT_SLOW = 1 :=
  State.rd_slowNoted_slow _ ((s.preemptNs_worstNoted _ _).trans_lt h)

theorem State.incoming_switchAt (s : State) (e requestAt : Nat) (next : Holder) : ((s.switchAt e requestAt next).engine e).incoming = none := by
  rw [State.switchAt, State.switch, State.engine_modEngine_self]

/-- Up to its times a switch is work on engines: it saves and counts the outgoing context. -/
theorem doContextSaveDone_of_saved {next : Holder} (hnext : (s.engine (engNum er)).incoming = some next)
    (hpoint : (s.engine (engNum er)).atPoint = true) (t : Nat) : ∃ u, EngineWork (s.reach t) u ∧ doContextSaveDone s er t true =
    (((u.switchAt (engNum er) (s.engine (engNum er)).requestAt next).holderBegun (engNum er) next).holderTrimmed
      (s.engine (engNum er)).holder).select := by
  have hpoint' : ¬ (!((s.reach t).engine (engNum er)).atPoint) = true := by
    show ¬ (!(s.engine (engNum er)).atPoint) = true
    rw [hpoint]
    decide
  -- under a name of its own the write is not evaluated on the 1664 KiB of a context
  obtain ⟨put, hput⟩ : ∃ put, put = State.dramPut := ⟨_, rfl⟩
  unfold doContextSaveDone
  rw [← hput]
  extract_lets e u x gfx charged saved
  rw [show x.incoming = some next from hnext]
  have hsaved : EngineWork u saved := by
    have hcharged : EngineWork u charged := (EngineWork.refl u).chargeEngine e
    clear_value charged
    dsimp -zeta only [saved]
    cases x.holder with
    | idle => exact hcharged
    | test b => exact hcharged
    | job q idx sec =>
      dsimp -zeta only
      extract_lets counted pinned
      have hcounted : EngineWork u counted := by
        dsimp only [counted]
        split
        · next i _ => exact hcharged.countPreempted i
        · exact hcharged
      clear_value counted
      refine .ite ?_ hcounted
      have hpinned : EngineWork u pinned := (hcounted.modDesc q idx _).pinSave q true
      clear_value pinned
      split
      · next i hi =>
        split
        · next w hw => exact hpinned.dramPut (hput ▸ hw)
        · exact hpinned.logRefused (State.ringInst_lt hi)
      · exact hpinned
  clear_value saved
  refine ⟨_, hsaved.causeCounted gfx next, ?_⟩
  exact if_neg hpoint'

/-- The end of a switch leaves no preemption on the engine, and its time in the registers (R203, R206). -/
theorem completes_contextSaveDone {next : Holder} (hnext : (s.engine (engNum er)).incoming = some next)
    (hpoint : (s.engine (engNum er)).atPoint = true) (t : BitVec 64) : completes (.contextSaveDone er t true) s fun v =>
      (v.engine (engNum er)).incoming = none ∧
      min (((s.reach t.toNat).now - (s.engine (engNum er)).requestAt) / 10) 65535 ≤ v.rd carB Reg.CAR_PREEMPT_WORST_WORST ∧
      ((s.reach t.toNat).preemptNs (isGfx (engNum er)) < (s.reach t.toNat).now - (s.engine (engNum er)).requestAt →
        v.rd carB Reg.CAR_EVENT_PREEMPT_SLOW = 1) := by
  obtain ⟨u, hout, heq⟩ := doContextSaveDone_of_saved hnext hpoint t.toNat
  refine completes_of_effect rfl heq ?_
  have hafter := (((EngineWork.refl (u.switchAt (engNum er) (s.engine (engNum er)).requestAt next)).holderBegun (engNum er)
    next).holderTrimmed (s.engine (engNum er)).holder).select
  rw [← hout.now, ← hout.preemptNs_eq]
  refine ⟨?_, ?_, fun hslow => ?_⟩
  · rw [engine_settle]
    exact hafter.incoming _ (State.incoming_switchAt _ _ _ _)
  · rw [rd_settle (by unfold outputReg; decide) (by decide), hafter.regs _ _ (by decide) not_engineField_worst]
    exact State.rd_switchAt_worst _ _ _ _
  · rw [rd_settle (by unfold outputReg; decide) (by decide), hafter.regs _ _ (by decide) not_engineField_slow]
    exact State.rd_switchAt_slow _ _ hslow

end

end Sys2Proof.Machine
end

section
/-! What a fault leaves of the Carousel: reporting acts on no engine and counts nothing in the Carousel's frame. -/
namespace Sys2Proof.Machine

/-- The engines and the Carousel's wide values stand in `t` as in `s`. -/
structure CarouselKept (s t : State) : Prop where
  engines : t.engines = s.engines
  wide : ∀ b, carB ≤ b → b < blwB → t.wideAt b = s.wideAt b

theorem State.engines_raiseVec (s : State) (fn v : Nat) : (s.raiseVec fn v).engines = s.engines := engines_eq_of_inner (s.inner_raiseVec fn v)

theorem State.engines_eventIrq (s : State) (a : Nat) (own mgr : Bool) : (s.eventIrq a own mgr).engines = s.engines := by
  have hown : ∀ fn v, (if own = true then s.raiseVec fn v else s).engines = s.engines := fun fn v => by
    cases own
    · rfl
    · exact s.engines_raiseVec fn v
  unfold State.eventIrq
  split
  · exact hown 0 0
  · dsimp only
    cases mgr
    · exact hown _ _
    · exact (State.engines_raiseVec _ 0 0).trans (hown _ _)
  · cases own
    · rfl
    · simp only [if_true]
      split
      · exact State.engines_raiseVec _ _ _
      · rfl

@[simp] theorem State.engines_raise (s : State) (a : Nat) (f : Fld) : (s.raise a f).engines = s.engines := by
  unfold State.raise
  split
  · rfl
  · exact State.engines_eventIrq _ _ _ _

namespace CarouselKept

variable {s t u : State}

theorem refl (s : State) : CarouselKept s s := ⟨rfl, fun _ _ _ => rfl⟩

theorem trans (h : CarouselKept s t) (h' : CarouselKept t u) : CarouselKept s u :=
  ⟨h'.engines.trans h.engines, fun b ha hb => (h'.wide b ha hb).trans (h.wide b ha hb)⟩

theorem each {α : Type} {f : State → α → State} (hf : ∀ x a, CarouselKept x (f x a)) (l : List α) (s : State) :
    CarouselKept s (s.each l f) := by
  induction l generalizing s with
  | nil => exact refl s
  | cons a l ih => exact (hf s a).trans (ih (f s a))

/-! ## Single changes -/

/-- A change beside the engines and the wide values. -/
theorem beside (h : CarouselKept s t) (he : u.engines = t.engines) (hw : u.wide = t.wide) : CarouselKept s u :=
  h.trans ⟨he, fun _ _ _ => congrArg (KMap.get (fun _ => 0) · _) hw⟩

theorem put (h : CarouselKept s t) (a : Nat) (f : Fld) (v : Nat) : CarouselKept s (t.put a f v) := h.beside rfl rfl
theorem setLog (h : CarouselKept s t) (x : LogX) : CarouselKept s { t with log := x } := h.beside rfl rfl
theorem modRing (h : CarouselKept s t) (q : Nat) (f : RingX → RingX) : CarouselKept s (t.modRing q f) := h.beside rfl rfl

theorem putWide (h : CarouselKept s t) {a : Nat} (v : Nat) (ha : a < carB ∨ blwB ≤ a) : CarouselKept s (t.putWide a v) :=
  h.trans ⟨rfl, fun b hb hb' => t.wideAt_putWide_ne v (by omega)⟩

theorem count (h : CarouselKept s t) {a : Nat} (n : Nat) (ha : a < carB ∨ blwB ≤ a) : CarouselKept s (t.count a n) := h.putWide _ ha

theorem raise (h : CarouselKept s t) (a : Nat) (f : Fld) : CarouselKept s (t.raise a f) :=
  h.trans ⟨t.engines_raise a f, fun b _ _ => t.wideAt_raise a f b⟩

theorem raiseVec (h : CarouselKept s t) (fn v : Nat) : CarouselKept s (t.raiseVec fn v) :=
  h.trans ⟨t.engines_raiseVec fn v, fun b _ _ => t.wideAt_raiseVec fn v b⟩

/-! ## Staging (R574) -/

theorem logLook (h : CarouselKept s t) : CarouselKept s t.logLook := h.put _ _ _

theorem stageLost (h : CarouselKept s t) : CarouselKept s t.stageLost := by
  unfold State.stageLost
  split
  · exact (h.setLog _).logLook
  · exact h.logLook

theorem logKick (h : CarouselKept s t) : CarouselKept s t.logKick := by
  have hrun : ∀ x : LogX, CarouselKept s (State.put { t with log := x } logB Reg.LOG_STATUS_BUSY 1) := fun x => (h.setLog x).put _ _ _
  unfold State.logKick
  dsimp only
  split
  · exact h
  split
  · exact hrun _
  split
  · exact h
  split
  · exact hrun _
  split
  · exact hrun _
  split
  · exact hrun _
  · exact (hrun _).stageLost
  · exact h

theorem stage (h : CarouselKept s t) (r : LogRec) : CarouselKept s (t.stage r) := by
  unfold State.stage State.stageRec
  dsimp only
  split
  · exact h.beside rfl rfl
  split
  · exact (h.setLog _).logLook.logKick
  · exact ((h.setLog _).count (a := logB + Reg.LOG_DROPPED) 1 (by decide)).raise _ _

/-! ## Delivery of records (R154, R166, R171) -/

theorem locWrite (h : CarouselKept s t) {fn a : Nat} {dram : Bool} {bs : List Byte} (hw : t.locWrite fn dram a bs = some u) :
    CarouselKept s u := by
  unfold State.locWrite State.dramPut at hw
  split at hw
  · split at hw
    · cases hw
      obtain ⟨x, hx⟩ := t.dramWrite_eq a bs
      rw [hx]
      exact h.beside rfl rfl
    · exact absurd hw (by simp)
  · cases hw
    exact h.trans ⟨engines_eq_of_inner (t.inner_hostWrite _ a bs), fun b _ _ => t.wideAt_hostWrite _ a bs b⟩

theorem logRefused (h : CarouselKept s t) {fn : Nat} (hfn : fn < 66) : CarouselKept s (t.logRefused (Who.fn fn)) := by
  unfold State.logRefused Who.fn
  by_cases h0 : fn = 0
  · rw [if_pos h0]
    exact h
  rw [if_neg h0]
  by_cases h1 : fn = 1
  · rw [if_pos h1]
    exact h
  · rw [if_neg h1]
    refine h.count 1 (.inl ?_)
    rw [instBase_of_lt (by omega)]
    simp only [carB, FrameKind.base, Reg.INST_REFUSED]
    omega

theorem itemIrq (h : CarouselKept s t) (q : Nat) : CarouselKept s (t.itemIrq q) := by
  unfold State.itemIrq
  split
  · exact (h.modRing q _).raiseVec _ _
  · exact h

theorem onItem (h : CarouselKept s t) (q : Nat) (irq : Bool) : CarouselKept s (t.onItem q irq) := by
  have hmod := h.modRing q fun r => { r with pend := r.pend + 1, firstPend := if r.pend = 0 then t.now else r.firstPend }
  unfold State.onItem State.checkItems
  dsimp only
  split
  · exact hmod
  split
  · exact hmod.itemIrq q
  · exact hmod

theorem ringLook (h : CarouselKept s t) (q : Nat) : CarouselKept s (t.ringLook q) := (h.put _ _ _).put _ _ _

section
variable {q : Nat} (hq : q < 256)
include hq

theorem countRing (h : CarouselKept s t) {o : Nat} (ho : o < 0x100) (n : Nat) : CarouselKept s (t.count (ringBase q + o) n) := by
  refine h.count n (.inl ?_)
  simp only [ringBase, carB, FrameKind.at, FrameKind.base, FrameKind.stride]
  omega

theorem dropRecord (h : CarouselKept s t) : CarouselKept s (t.dropRecord q) :=
  ((h.countRing hq (o := Reg.RING_DROPS) (by decide) 1).modRing q _).raise _ _

theorem writeRecord (h : CarouselKept s t) {kind : Nat} {payload : List Byte} {stamp : Option Nat}
    (hw : t.writeRecord q kind payload stamp = some u) : CarouselKept s u := by
  unfold State.writeRecord at hw
  split at hw
  · exact absurd hw (by simp)
  dsimp only at hw
  split at hw
  · exact absurd hw (by simp)
  · next hloc =>
    cases hw
    exact (((h.locWrite hloc).put _ _ _).countRing hq (o := Reg.RING_DONE) (by decide) 1).ringLook q

theorem deliver (h : CarouselKept s t) (kind : Nat) (payload : List Byte) (force : Bool) (stamp : Option Nat) :
    CarouselKept s (t.deliver q kind payload force stamp) := by
  have hwho : ∀ o : Option (Nat × Nat), o = t.ringOwner q → (o.map Prod.fst).getD 0 < 66 := by
    rintro (_ | ⟨fn, n⟩) ho
    · decide
    · exact State.ringOwner_lt ho.symm
  unfold State.deliver
  extract_lets who s1
  have hlost : CarouselKept s s1 := by
    dsimp only [s1]
    split
    · split
      · next hrec => exact ((h.writeRecord hq hrec).modRing q _).onItem q false
      · exact h
    · exact h
  split
  · exact h.dropRecord hq
  split
  · exact hlost.dropRecord hq
  split
  · exact (hlost.logRefused (hwho _ rfl)).dropRecord hq
  · next hrec =>
    split
    · exact ((hlost.writeRecord hq hrec).modRing q _).itemIrq q
    · exact (hlost.writeRecord hq hrec).onItem q false

end

theorem eventRecord (h : CarouselKept s t) (i kind : Nat) (payload : List Byte) (force : Bool) (stamp : Option Nat) :
    CarouselKept s (t.eventRecord i kind payload force stamp) := by
  unfold State.eventRecord
  split
  · next q hq => exact h.deliver (State.eventRing_lt hq) kind payload force stamp
  · exact h

/-! ## Faults (R503 to R505) -/

theorem stopOutputs (h : CarouselKept s t) : CarouselKept s t.stopOutputs := by
  unfold State.stopOutputs
  split
  · exact h
  · exact ((h.put _ _ _).count 1 (by decide)).raise _ _

theorem faultNoted (h : CarouselKept s t) (src : Nat) (i : FaultInfo) : CarouselKept s (t.faultNoted src i) := by
  have hcount : blwB ≤ snB + Reg.SN_SOURCE_COUNT + 16 * src := by
    simp only [blwB, snB, FrameKind.base]
    omega
  unfold State.faultNoted
  extract_lets last kept flagged counted
  have hkept : CarouselKept s kept := by
    dsimp only [kept]
    split
    · exact h.beside rfl rfl
    · exact h
  exact (((hkept.put _ _ _).count 1 (by decide)).count 1 (.inr hcount)).putWide _ (by decide)

theorem fault (s : State) (src : Nat) (i : FaultInfo) : CarouselKept s (s.fault src i) := by
  obtain ⟨r, stops, rec_, heq⟩ := s.fault_eq src i
  have hnoted := (((refl s).faultNoted src i).raise snB Reg.SN_EVENT_FAULT).stage r
  have htold : CarouselKept s (s.faultTold src i r stops) := by
    cases stops
    · exact hnoted
    · exact hnoted.stopOutputs
  rw [heq]
  exact htold.trans (each (fun x k => (refl x).eventRecord k 4 rec_ true none) _ _)

end CarouselKept

/-! ## Registers of other frames -/

section
variable (s : State) {b : Nat} {g : Fld}

/-- A register in a frame of the display, graphics or memory: above the Safety Net's and below the log's. -/
def aboveSn (a : Nat) : Prop := snB + 0x10000 ≤ a ∧ a < logB

theorem State.rd_raise_sn {f : Fld} (hf : f.off < 0x1000) (hflo : f.lo < 32) (hg : g.lo < 32) (hb : aboveSn (b + g.off)) :
    (s.raise snB f).rd b g = s.rd b g := by
  obtain ⟨hlow, hhigh⟩ := hb
  refine s.rd_raise_ne ?_ hg ?_
  · simp only [offPba, pbaBase, if_true, pciB, logB, snB, FrameKind.base] at hlow hhigh ⊢
    omega
  · unfold fkey
    omega

theorem State.rd_put_sn {f : Fld} (v : Nat) (hf : f.off < 0x1000) (hflo : f.lo < 32) (hg : g.lo < 32) (hb : aboveSn (b + g.off)) :
    (s.put snB f v).rd b g = s.rd b g := by
  obtain ⟨hlow, -⟩ := hb
  exact s.rd_put_addr v hflo hg (by omega)

theorem not_reportField_of_aboveSn {a : Nat} (lo : Nat) (ha : aboveSn a) : ¬ reportField a lo := by
  obtain ⟨hlow, hhigh⟩ := ha
  simp only [reportField, carB, snB, logB, FrameKind.base, Reg.LOG_EVENT_LOST, Reg.LOG_STATUS_BUSY] at hlow hhigh ⊢
  omega

theorem State.rd_faultNoted_above (src : Nat) (i : FaultInfo) (hg : g.lo < 32) (hb : aboveSn (b + g.off)) :
    (s.faultNoted src i).rd b g = s.rd b g := by
  unfold State.faultNoted
  extract_lets last kept flagged counted
  have hkept : kept.rd b g = s.rd b g := by
    dsimp only [kept]
    split
    · exact State.rd_put_sn _ _ (by decide) (by decide) hg hb
    · rfl
  exact (State.rd_put_sn kept _ (by decide) (by decide) hg hb).trans hkept

theorem State.rd_stopOutputs_above (hg : g.lo < 32) (hb : aboveSn (b + g.off)) : s.stopOutputs.rd b g = s.rd b g := by
  unfold State.stopOutputs
  split
  · rfl
  · rw [State.rd_raise_sn _ (by decide) (by decide) hg hb, State.rd_count, State.rd_put_sn _ _ (by decide) (by decide) hg hb]

/-- A fault is recorded in the Safety Net, in the log and in rings. -/
theorem State.rd_fault_above (src : Nat) (i : FaultInfo) (hg : g.lo < 32) (hb : aboveSn (b + g.off)) : (s.fault src i).rd b g = s.rd b g := by
  have hreport := not_reportField_of_aboveSn g.lo hb
  obtain ⟨r, stops, hreports⟩ := s.reports_faultTold_fault src i
  have hnoted : (((s.faultNoted src i).raise snB Reg.SN_EVENT_FAULT).stage r).rd b g = s.rd b g := by
    rw [((Reports.refl _).stage r).regs b g hg hreport, State.rd_raise_sn _ (by decide) (by decide) hg hb,
      State.rd_faultNoted_above _ _ _ hg hb]
  have htold : (s.faultTold src i r stops).rd b g = s.rd b g := by
    cases stops
    · exact hnoted
    · exact (State.rd_stopOutputs_above _ hg hb).trans hnoted
  exact (hreports.regs b g hg hreport).trans htold

end

end Sys2Proof.Machine
end

section
/-! The end of a test slice (R208, R210, R350), and O23. -/
namespace Sys2Proof.Machine

section
variable (s : State)

/-- Core k of group g has run its segment of the test (R208). -/
def State.coreTested (s : State) (g k : Nat) : State :=
  ((s.put (coreB (4 * g + k)) Reg.GFX_CORE_STATUS_TEST_SEG (s.rd (coreB (4 * g + k)) Reg.GFX_CORE_STATUS_TEST_SEG + 1)).count
    (coreB (4 * g + k) + Reg.GFX_CORE_TEST_RUNS) 1).putWide (coreB (4 * g + k) + Reg.GFX_CORE_LAST_TEST) s.now

/-- A slice that ends counts, and each core records it. -/
def State.sliceCounted (s : State) (g : Nat) : State :=
  (s.count (carB + Reg.CAR_TEST_SLICES) 1).each (List.range 4) fun u k => u.coreTested g k

/-- Core n of group g fails its test (R210, R350). -/
def State.testFailed (s : State) (g n : Nat) : State :=
  (((s.put (coreB n) Reg.GFX_CORE_STATUS_TEST_FAILED 1).raise (coreB n) Reg.GFX_CORE_EVENT_TEST_FAIL).raise gfxB
    Reg.GFX_EVENT_TEST_FAIL).modEngine g fun x => { x with outOfService := true }

/-- The group is free again. -/
def State.sliceOver (s : State) (g : Nat) : State := s.modEngine g fun x => { x with holder := .idle, sliceRounds := 0, spare := false }

/-- The state of the Safety Net as given. -/
def State.setSn (s : State) (x : SnX) : State := { s with sn := x }

/-- A slice that ends counts; a core that failed, as reported or by an injection (R508), is recorded before the group is free. -/
theorem doTestSliceEnd_of_test {g : Nat} {b : Bool} (h : (s.engine g).holder = .test b) (t : Nat) (failed : Option (Fin 4)) :
    ∃ x : SnX, (failed = none ∧ doTestSliceEnd s g t failed = ((((s.reach t).sliceCounted g).setSn x).sliceOver g).select) ∨
      ∃ n i, (∀ k, failed = some k → n = 4 * g + k.val) ∧ doTestSliceEnd s g t failed =
        (((((((s.reach t).sliceCounted g).setSn x).testFailed g n).fault srcShader i).sliceOver g).select) := by
  unfold doTestSliceEnd
  extract_lets u counted tested inj sn disarmed core reported freed
  rw [show (u.engine g).holder = .test b from h]
  refine ⟨disarmed.sn, ?_⟩
  cases failed with
  | some k => exact .inr ⟨4 * g + k.val, _, fun _ hk => by cases hk; rfl, rfl⟩
  | none =>
    clear_value inj
    cases inj with
    | none => exact .inl ⟨rfl, rfl⟩
    | some a => exact .inr ⟨a.2.1, _, nofun, rfl⟩

/-! ## The count of slices -/

theorem CarouselKept.coreTested (s : State) (g k : Nat) : CarouselKept s (s.coreTested g k) := by
  have hcore : ∀ o, blwB ≤ coreB (4 * g + k) + o := fun o => by
    simp only [blwB, coreB, FrameKind.at, FrameKind.base, FrameKind.stride]
    omega
  exact (((CarouselKept.refl s).put _ _ _).count 1 (.inr (hcore _))).putWide _ (.inr (hcore _))

theorem State.wideAt_sliceCounted (g : Nat) : (s.sliceCounted g).wideAt (carB + Reg.CAR_TEST_SLICES) =
    (s.wideAt (carB + Reg.CAR_TEST_SLICES) + 1) % 2 ^ 48 := by
  rw [State.sliceCounted, (CarouselKept.each (fun u k => .coreTested u g k) _ _).wide _ (by decide) (by decide), State.wideAt_count_self]

theorem State.wideAt_setSn (x : SnX) (b : Nat) : (s.setSn x).wideAt b = s.wideAt b := rfl

theorem State.wideAt_testFailed (g n b : Nat) : (s.testFailed g n).wideAt b = s.wideAt b := by
  rw [State.testFailed, State.wideAt_modEngine, State.wideAt_raise, State.wideAt_raise, State.wideAt_put]

theorem wideAt_settle_select_sliceOver (pre : State) (g : Nat) :
    (settle pre (s.sliceOver g).select).wideAt (carB + Reg.CAR_TEST_SLICES) = s.wideAt (carB + Reg.CAR_TEST_SLICES) := by
  rw [wideAt_settle (by decide), (EngineWork.refl (s.sliceOver g)).select.slices, State.sliceOver, State.wideAt_modEngine]

/-! ## A failed core -/

theorem aboveSn_coreB {n o : Nat} (hn : n < 16) (ho : o < 0x4000) : aboveSn (coreB n + o) := by
  simp only [aboveSn, snB, logB, coreB, FrameKind.at, FrameKind.base, FrameKind.stride]
  omega

theorem not_outputReg_of_aboveSn {a : Nat} (h : aboveSn a) : ¬ outputReg a := by
  simp only [aboveSn, outputReg, snB, logB, devB, pbaBase, if_true, pciB, FrameKind.base, Reg.SN_STATUS_STOPPED, Reg.SN_EVENT_FAULT,
    Reg.DEV_BOOT_STATUS_STEP] at h ⊢
  omega

theorem offPba_of_aboveSn {a : Nat} (h : aboveSn a) : offPba a := by
  simp only [aboveSn, offPba, snB, logB, pbaBase, if_true, pciB, FrameKind.base] at h ⊢
  omega

/-- From the failure of a core to the end of the command its registers stand. -/
theorem State.rd_settle_testFailed (pre : State) (g n src : Nat) (i : FaultInfo) {b : Nat} {f : Fld} (hf : f.lo < 32)
    (habove : aboveSn (b + f.off)) (hengine : ¬ engineField (b + f.off) f.lo) :
    (settle pre ((((s.testFailed g n).fault src i).sliceOver g).select)).rd b f = (s.testFailed g n).rd b f := by
  rw [rd_settle (not_outputReg_of_aboveSn habove) hf, (EngineWork.refl (((s.testFailed g n).fault src i).sliceOver g)).select.regs b f hf hengine,
    State.sliceOver, State.rd_modEngine, State.rd_fault_above _ _ _ hf habove]

theorem State.rd_testFailed_status {n : Nat} (hn : n < 16) (g : Nat) : (s.testFailed g n).rd (coreB n) Reg.GFX_CORE_STATUS_TEST_FAILED = 1 := by
  have hoff := offPba_of_aboveSn (aboveSn_coreB hn (o := Reg.GFX_CORE_STATUS_TEST_FAILED.off) (by decide))
  have hgfx : fkey (gfxB + Reg.GFX_EVENT_TEST_FAIL.off) Reg.GFX_EVENT_TEST_FAIL.lo ≠
      fkey (coreB n + Reg.GFX_CORE_STATUS_TEST_FAILED.off) Reg.GFX_CORE_STATUS_TEST_FAILED.lo := by
    simp only [fkey, gfxB, coreB, FrameKind.at, FrameKind.base, FrameKind.stride, Reg.GFX_EVENT_TEST_FAIL, Reg.GFX_CORE_STATUS_TEST_FAILED]
    omega
  have hcore : fkey (coreB n + Reg.GFX_CORE_EVENT_TEST_FAIL.off) Reg.GFX_CORE_EVENT_TEST_FAIL.lo ≠
      fkey (coreB n + Reg.GFX_CORE_STATUS_TEST_FAILED.off) Reg.GFX_CORE_STATUS_TEST_FAILED.lo := by
    simp only [fkey, Reg.GFX_CORE_EVENT_TEST_FAIL, Reg.GFX_CORE_STATUS_TEST_FAILED]
    omega
  rw [State.testFailed, State.rd_modEngine, State.rd_raise_ne _ hoff (by decide) hgfx, State.rd_raise_ne _ hoff (by decide) hcore,
    State.rd_put_self]
  rfl

theorem State.rd_testFailed_event {n : Nat} (hn : n < 16) (g : Nat) : (s.testFailed g n).rd (coreB n) Reg.GFX_CORE_EVENT_TEST_FAIL = 1 := by
  have hoff := offPba_of_aboveSn (aboveSn_coreB hn (o := Reg.GFX_CORE_EVENT_TEST_FAIL.off) (by decide))
  rw [State.testFailed, State.rd_modEngine]
  refine State.rd_raise_mono _ hoff (by decide) (by decide) ?_
  exact State.rd_raise_self _ hoff (by decide) (by decide)

theorem State.rd_testFailed_gfx (g n : Nat) : (s.testFailed g n).rd gfxB Reg.GFX_EVENT_TEST_FAIL = 1 := by
  rw [State.testFailed, State.rd_modEngine]
  exact State.rd_raise_self _ (by unfold offPba; decide) (by decide) (by decide)

theorem State.outOfService_testFailed (g n src : Nat) (i : FaultInfo) (pre : State) :
    ((settle pre ((((s.testFailed g n).fault src i).sliceOver g).select)).engine g).outOfService = true := by
  rw [engine_settle, (EngineWork.refl (((s.testFailed g n).fault src i).sliceOver g)).select.service, State.sliceOver,
    State.engine_modEngine_self, State.engine_eq_of_engines (CarouselKept.fault (s.testFailed g n) src i).engines, State.testFailed,
    State.engine_modEngine_self]

/-- The end of a test slice counts it, and records a failed core (R208, R210, R350). -/
theorem completes_testSliceEnd {g : Fin 4} {b : Bool} (h : (s.engine g.val).holder = .test b) (t : BitVec 64) (bad : Option (Fin 4)) :
    completes (.testSliceEnd g t bad) s fun v =>
      v.wideAt (carB + Reg.CAR_TEST_SLICES) = (s.wideAt (carB + Reg.CAR_TEST_SLICES) + 1) % 2 ^ 48 ∧
      (∀ k : Fin 4, bad = some k → v.rd (coreB (4 * g.val + k.val)) Reg.GFX_CORE_STATUS_TEST_FAILED = 1 ∧
        v.rd (coreB (4 * g.val + k.val)) Reg.GFX_CORE_EVENT_TEST_FAIL = 1 ∧ v.rd gfxB Reg.GFX_EVENT_TEST_FAIL = 1 ∧
        (v.engine g.val).outOfService = true) := by
  obtain ⟨x, ⟨hnone, heq⟩ | ⟨n, i, hn, heq⟩⟩ := doTestSliceEnd_of_test s h t.toNat bad
  · refine completes_of_effect rfl heq ?_
    refine ⟨?_, fun k hk => absurd (hk.symm.trans hnone) nofun⟩
    rw [wideAt_settle_select_sliceOver, State.wideAt_setSn, State.wideAt_sliceCounted, State.wideAt_reach]
  · refine completes_of_effect rfl heq ?_
    refine ⟨?_, fun k hk => ?_⟩
    · rw [wideAt_settle_select_sliceOver, (CarouselKept.fault _ srcShader i).wide _ (by decide) (by decide), State.wideAt_testFailed,
        State.wideAt_setSn, State.wideAt_sliceCounted, State.wideAt_reach]
    · obtain rfl := hn k hk
      have hlt : 4 * g.val + k.val < 16 := by omega
      refine ⟨?_, ?_, ?_, State.outOfService_testFailed _ _ _ _ _ _⟩
      · rw [State.rd_settle_testFailed _ _ _ _ _ _ (by decide) (aboveSn_coreB hlt (by decide))
          (not_engineField_coreB hlt (by decide) (by decide))]
        exact State.rd_testFailed_status _ hlt _
      · rw [State.rd_settle_testFailed _ _ _ _ _ _ (by decide) (aboveSn_coreB hlt (by decide))
          (not_engineField_coreB hlt (by decide) (by decide))]
        exact State.rd_testFailed_event _ hlt _
      · rw [State.rd_settle_testFailed _ _ _ _ _ _ (by decide) (by unfold aboveSn; decide) (not_engineField_of_gfx _ (by decide) (by decide))]
        exact State.rd_testFailed_gfx _ _ _

end

/-! ## Urgent points, the time limit and shader faults (R197, R337, R320) -/

section
variable {s : State} {q : Nat} {d : Desc}

theorem doUrgentPoint_of_urgent {t : Nat} (hd : (s.reach t).jobOf (decide ((s.reach t).ringType q = 1)) q = some d)
    (hu : (s.reach t).urgent (decide ((s.reach t).ringType q = 1)) q d = true) : doUrgentPoint s q t =
      let gfx := decide ((s.reach t).ringType q = 1)
      let c := (s.reach t).chargeAll
      let l := c.claimOrder (c.openEngines gfx q)
      ((c.each (l.take (claimCount gfx l.length)) fun x k => x.claim k (c.ringClass q) (.job q d.idx d.secure)).served gfx q).engineLook := by
  unfold doUrgentPoint
  extract_lets u gfx c l
  rw [show u.jobOf gfx q = some d from hd]
  exact if_pos hu

theorem doJobTimeout_of_late (hd : (s.chargeAll.ring q).fetched.find? (fun d => decide (d.phase = .running)) = some d)
    (htype : s.chargeAll.ringType q = 1) (hlim : s.rd gfxB Reg.GFX_CFG_JOB_LIMIT_MS ≠ 0)
    (hlate : s.rd gfxB Reg.GFX_CFG_JOB_LIMIT_MS * 16000000 < d.charged) :
    doJobTimeout s q = s.chargeAll.modDesc q d.idx fun d => { d with limitHit := true } := by
  have hcfg : s.chargeAll.rd gfxB Reg.GFX_CFG_JOB_LIMIT_MS = s.rd gfxB Reg.GFX_CFG_JOB_LIMIT_MS :=
    (Reports.chargeAll s).regs _ _ (by decide) (by unfold reportField; decide)
  unfold doJobTimeout
  dsimp only
  rw [hd, hcfg]
  exact if_pos ⟨htype, hlim, hlate⟩

theorem doShaderFault_of_running {off : Nat} (hd : (s.ring q).fetched.find? (fun d => decide (d.phase = .running)) = some d)
    (htype : s.ringType q = 1) :
    doShaderFault s q off = ((s.jobPerf q d).shaderWrites q d).endWith q d.idx 0x84 off := by
  unfold doShaderFault
  rw [hd]
  exact if_pos htype

end

/-- Settles O23: a switch and a test slice end as composed of work on engines, their notes and the fault; the other commands take one
branch each. -/
theorem switchesAndSlices : Obligations.SwitchesAndSlices := by
  unfold Obligations.SwitchesAndSlices
  intro s er g qr t e u
  refine ⟨fun next hnext hpoint => completes_contextSaveDone hnext hpoint t, fun d hd hu => ?_,
    fun b bad h => completes_testSliceEnd s h t bad, fun d hd htype hlim hlate => ?_, fun d off hd htype => ?_⟩
  · exact completes_of_effect rfl (doUrgentPoint_of_urgent hd hu) rfl
  · exact completes_of_effect rfl (doJobTimeout_of_late hd htype hlim hlate) rfl
  · exact completes_of_effect rfl (doShaderFault_of_running hd htype) rfl

end Sys2Proof.Machine
end

section
/-! The first frame of a head (O29, R264): what the lock of its pixel PLL does to the frame counter. The compositor counts a refused fetch
for the layer's owner (R19, R20), so the counter is left where every owner is within the bits of its register. -/
namespace Sys2Proof.Machine

/-! ## The start of a port, references and fault modes write no wide value -/

section
variable (s : State) (h b : Nat)

theorem State.wideAt_each {α : Type} {f : State → α → State} (hf : ∀ x a, (f x a).wideAt b = x.wideAt b) (l : List α) :
    (s.each l f).wideAt b = s.wideAt b := by
  induction l generalizing s with
  | nil => rfl
  | cons a l ih => exact (ih (f s a)).trans (hf s a)

@[simp] theorem State.wideAt_modHead (k : Nat) (f : HeadX → HeadX) : (s.modHead k f).wideAt b = s.wideAt b := rfl
@[simp] theorem State.wideAt_modOut (k : Nat) (f : OutX → OutX) : (s.modOut k f).wideAt b = s.wideAt b := rfl

@[simp] theorem State.wideAt_suspendLook : (s.suspendLook h).wideAt b = s.wideAt b := by
  refine s.wideAt_each b (fun x u => ?_) _
  dsimp only
  split
  · rfl
  split
  · rfl
  split <;> rfl

@[simp] theorem State.wideAt_setHdcp (v : Nat) : (s.setHdcp h v).wideAt b = s.wideAt b := by
  unfold State.setHdcp State.putChange
  split
  · rfl
  · rw [State.wideAt_raise, State.wideAt_put]

@[simp] theorem State.wideAt_setLink (l cause : Nat) : (s.setLink h l cause).wideAt b = s.wideAt b := by
  unfold State.setLink State.audioLook
  dsimp only
  split
  · rfl
  · rw [State.wideAt_suspendLook, State.wideAt_put]
    split <;> split <;> simp

@[simp] theorem State.wideAt_auxRelease : (s.auxRelease h).wideAt b = s.wideAt b := by
  unfold State.auxRelease State.auxStart State.auxEnd
  split
  · split
    · rfl
    · simp
  · rfl

@[simp] theorem State.wideAt_startSearch : (s.startSearch h).wideAt b = s.wideAt b := by
  unfold State.startSearch
  dsimp only
  split <;> simp

@[simp] theorem State.wideAt_dsiStart : (s.dsiStart h).wideAt b = s.wideAt b := by
  unfold State.dsiStart
  dsimp only
  split
  · simp
  split <;> simp

@[simp] theorem State.wideAt_startPort : (s.startPort h).wideAt b = s.wideAt b := by
  unfold State.startPort
  split
  · exact s.wideAt_dsiStart h b
  split
  · exact s.wideAt_startSearch h b
  · exact s.wideAt_setLink h b _ _

@[simp] theorem State.wideAt_refEvent (t : Nat) : (s.refEvent h t).wideAt b = s.wideAt b := by
  unfold State.refEvent
  dsimp only
  split <;> rfl

@[simp] theorem State.wideAt_lineZero : (s.lineZero h).wideAt b = s.wideAt b := by
  have hrefs : ∀ u : State, (u.each (u.followers 2 h) fun x g => x.refEvent g x.now).wideAt b = u.wideAt b := fun u =>
    u.wideAt_each b (fun x g => x.wideAt_refEvent g b x.now) _
  unfold State.lineZero
  dsimp only
  split
  case isTrue => split <;> exact hrefs s
  case isFalse => split <;> rfl

@[simp] theorem State.wideAt_enterFault : (s.enterFault h).wideAt b = s.wideAt b := by
  unfold State.enterFault State.contentLook State.setContent
  dsimp only
  split
  · split <;> simp
  · rfl

end

/-! ## A fault leaves the frames below the Safety Net's -/

section
variable (s : State) (src : Nat) (i : FaultInfo) {b : Nat}

theorem State.rd_raise_snB {f g : Fld} (hf : f.lo < 32) (hg : g.lo < 32) (hb : b + g.off < snB) (hpba : b + g.off ≠ pbaBase 0) :
    (s.raise snB f).rd b g = s.rd b g := by
  have hsn : snB < 0x10000000 := by decide
  exact s.rd_raise_ne ⟨by omega, hpba⟩ hg (by unfold fkey; omega)

theorem State.rd_put_snB {f g : Fld} (v : Nat) (hf : f.lo < 32) (hg : g.lo < 32) (hb : b + g.off < snB) :
    (s.put snB f v).rd b g = s.rd b g := s.rd_put_addr v hf hg (by omega)

/-- A fault is recorded in the Safety Net, in the log and in rings: the registers between these frames are left. -/
theorem State.rd_fault_belowSn {g : Fld} (hg : g.lo < 32) (hlow : carB ≤ b + g.off) (hhigh : b + g.off < snB) :
    (s.fault src i).rd b g = s.rd b g := by
  have hreport : ¬ reportField (b + g.off) g.lo := by
    simp only [reportField, carB, snB, logB, FrameKind.base, Reg.LOG_EVENT_LOST, Reg.LOG_STATUS_BUSY] at hlow hhigh ⊢
    omega
  have hpba := (offPba_of_not_reportField hreport).2
  obtain ⟨r, stops, hreports⟩ := s.reports_faultTold_fault src i
  have hwritten : (s.faultNoted src i).rd b g = s.rd b g := by
    unfold State.faultNoted
    dsimp only
    rw [State.rd_putWide, State.rd_count, State.rd_count, State.rd_put_snB _ _ (by decide) hg hhigh]
    split
    · exact State.rd_put_snB _ _ (by decide) hg hhigh
    · rfl
  have hnoted : (((s.faultNoted src i).raise snB Reg.SN_EVENT_FAULT).stage r).rd b g = s.rd b g := by
    rw [((Reports.refl _).stage r).regs b g hg hreport, State.rd_raise_snB _ (by decide) hg hhigh hpba, hwritten]
  have htold : (s.faultTold src i r stops).rd b g = s.rd b g := by
    cases stops
    · exact hnoted
    · refine Eq.trans ?_ hnoted
      show State.rd (State.stopOutputs _) b g = _
      unfold State.stopOutputs
      split
      · rfl
      · rw [State.rd_raise_snB _ (by decide) hg hhigh hpba, State.rd_count, State.rd_put_snB _ _ (by decide) hg hhigh]
  exact (hreports.regs b g hg hreport).trans htold

/-- A fault counts nothing between the Bellows' frame and the Safety Net's. -/
theorem State.wideAt_fault_belowSn (hlow : blwB ≤ b) (hhigh : b < snB) (hsrc : src < 32) : (s.fault src i).wideAt b = s.wideAt b := by
  have hreport : ¬ reportWide b := by
    simp only [reportWide, blwB, snB, logB, FrameKind.base, Reg.LOG_DROPPED] at hlow hhigh ⊢
    omega
  obtain ⟨r, stops, hreports⟩ := s.reports_faultTold_fault src i
  have hnoted : (((s.faultNoted src i).raise snB Reg.SN_EVENT_FAULT).stage r).wideAt b = s.wideAt b := by
    rw [((Reports.refl _).stage r).wide _ hreport, State.wideAt_raise, State.wideAt_faultNoted_ne _ _ _ (.inl hhigh) hsrc]
  rw [hreports.wide b hreport]
  cases stops
  · exact hnoted
  · exact (State.wideAt_stopOutputs_ne _ (by omega)).trans hnoted

end

/-! ## Addresses -/

/-- INST_REFUSED of an instance that eight bits name is no head's frame counter. -/
theorem instRefused_ne_headFrame {o h : Nat} (ho : o < 256) (hh : h < 8) : instBase o + Reg.INST_REFUSED ≠ headBase h + Reg.HEAD_FRAME := by
  have hinst : instBase o = 0x10400000 ∨ instBase o = 0x24000 + 0x100 * o := by
    unfold instBase
    split
    · exact .inl rfl
    · exact .inr rfl
  have hhead : headBase h = 0x80000 + 0x10000 * h := rfl
  simp only [Reg.INST_REFUSED, Reg.HEAD_FRAME]
  omega

theorem headFrame_ne_readyTime (h : Nat) : headBase h + Reg.HEAD_FRAME ≠ devB + Reg.DEV_READY_TIME := by
  simp only [headBase, devB, FrameKind.at, FrameKind.base, FrameKind.stride, Reg.HEAD_FRAME, Reg.DEV_READY_TIME]
  omega

theorem layerBase_add_ne_headFrame {h : Nat} (hh : h < 8) (k o : Nat) : layerBase k + o ≠ headBase h + Reg.HEAD_FRAME := by
  simp only [layerBase, headBase, FrameKind.at, FrameKind.base, FrameKind.stride, Reg.HEAD_FRAME]
  omega

/-- LAYER_ID is the register at the base of a layer's frame. -/
theorem layerBase_add_ne_layerId {o : Nat} (ho : 0 < o) (hlt : o < 0x1000) (j : Nat) : ∀ k < 64, layerBase j + o ≠ layerBase k :=
  fun k _ => by
    simp only [layerBase, FrameKind.at, FrameKind.base, FrameKind.stride]
    omega

theorem headBase_add_ne_layerId {h o : Nat} (hh : h < 8) (ho : o < 0x10000) : ∀ k < 64, headBase h + o ≠ layerBase k := fun k _ => by
  simp only [layerBase, headBase, FrameKind.at, FrameKind.base, FrameKind.stride]
  omega

theorem outB_add_ne_layerId (h o : Nat) : ∀ k < 64, outB h + o ≠ layerBase k := fun k hk => by
  simp only [layerBase, outB, FrameKind.at, FrameKind.base, FrameKind.stride]
  omega

/-! ## A composed line -/

/-- `t` has the frame counter of head h and the owners of the layers as `s` has them. -/
structure FrameNoKept (h : Nat) (s t : State) : Prop where
  frameNo : t.frameNo h = s.frameNo h
  owners : ∀ k < 64, t.layerOwner k = s.layerOwner k

namespace FrameNoKept

variable {h : Nat} {s t : State}

theorem refl (h : Nat) (s : State) : FrameNoKept h s s := ⟨rfl, fun _ _ => rfl⟩

theorem trans {u : State} (hst : FrameNoKept h s t) (htu : FrameNoKept h t u) : FrameNoKept h s u :=
  ⟨htu.frameNo.trans hst.frameNo, fun k hk => (htu.owners k hk).trans (hst.owners k hk)⟩

theorem count (hst : FrameNoKept h s t) {a : Nat} (n : Nat) (ha : a ≠ headBase h + Reg.HEAD_FRAME) : FrameNoKept h s (t.count a n) :=
  hst.trans ⟨t.wideAt_count_ne n ha, fun _ _ => rfl⟩

theorem modHead (hst : FrameNoKept h s t) (k : Nat) (f : HeadX → HeadX) : FrameNoKept h s (t.modHead k f) := hst.trans ⟨rfl, fun _ _ => rfl⟩

theorem setPins (hst : FrameNoKept h s t) (n : Nat) (l : List (Nat × Nat)) : FrameNoKept h s (t.setPins n l) := hst.trans ⟨rfl, fun _ _ => rfl⟩

theorem put (hst : FrameNoKept h s t) {a : Nat} {f : Fld} (v : Nat) (hf : f.lo < 32) (ha : ∀ k < 64, a + f.off ≠ layerBase k) :
    FrameNoKept h s (t.put a f v) :=
  hst.trans ⟨rfl, fun k hk => t.rd_put_addr v hf (by decide) (ha k hk)⟩

/-- An event flag of a register that is no layer's LAYER_ID. -/
theorem raise (hst : FrameNoKept h s t) {a : Nat} {f : Fld} (hf : f.lo < 32) (ha : ∀ k < 64, a + f.off ≠ layerBase k) :
    FrameNoKept h s (t.raise a f) := by
  refine hst.trans ⟨t.wideAt_raise a f _, fun k hk => t.rd_raise_ne ?_ (by decide) fun e => ha k hk ?_⟩
  · simp only [offPba, layerBase, FrameKind.at, pbaBase, if_true, pciB, FrameKind.base, FrameKind.stride, Reg.LAYER_ID_OWNER]
    omega
  · simp only [fkey, Reg.LAYER_ID_OWNER] at e
    omega

theorem fault (hst : FrameNoKept h s t) (hh : h < 8) {src : Nat} (hsrc : src < 32) (i : FaultInfo) : FrameNoKept h s (t.fault src i) := by
  refine hst.trans ⟨t.wideAt_fault_belowSn src i ?_ ?_ hsrc, fun k hk => t.rd_fault_belowSn src i (by decide) ?_ ?_⟩ <;>
    simp only [headBase, layerBase, blwB, carB, snB, FrameKind.at, FrameKind.base, FrameKind.stride, Reg.HEAD_FRAME, Reg.LAYER_ID_OWNER] <;>
    omega

theorem each {α : Type} {f : State → α → State} {l : List α} (hst : FrameNoKept h s t)
    (hf : ∀ x, FrameNoKept h s x → ∀ a ∈ l, FrameNoKept h s (f x a)) : FrameNoKept h s (t.each l f) := by
  induction l generalizing t with
  | nil => exact hst
  | cons a l ih =>
    exact ih (hf t hst a List.mem_cons_self) fun x hx c hc => hf x hx c (List.mem_cons_of_mem a hc)

end FrameNoKept

section
variable {h : Nat} {s t : State} (hh : h < 8) (howners : ∀ k < 64, s.layerOwner k < 256)
include hh

theorem FrameNoKept.refuse (hst : FrameNoKept h s t) {o : Nat} (ho : o < 256) (a n : Nat) : FrameNoKept h s (t.refuse (ownerWho o) a n) := by
  have hlogged : FrameNoKept h s (t.logRefused (ownerWho o)) := by
    unfold State.logRefused ownerWho
    split_ifs
    · exact hst
    · exact hst.count 1 (instRefused_ne_headFrame ho hh)
  unfold State.refuse
  dsimp only
  split
  · exact hlogged.fault hh (by decide) _
  · exact hlogged

include howners

/-- A confirmed line counts for the layers whose fetches were refused or skipped, for their owners and in the head's exclusions. -/
theorem FrameNoKept.confirmed (hst : FrameNoKept h s t) {r : LineRec} (hlayers : ∀ e ∈ r.refusedBy, e.1 < 64) :
    FrameNoKept h s (t.confirmed h r) := by
  unfold State.confirmed
  extract_lets refused skipped
  have hrefused : FrameNoKept h s refused := hst.each fun x hx e he => by
    have hraised := (hx.count (a := layerBase e.1 + Reg.LAYER_FETCH_ERR) 1 (layerBase_add_ne_headFrame hh e.1 _)).raise
      (f := Reg.LAYER_EVENT_FETCH_REFUSED) (by decide) (layerBase_add_ne_layerId (by decide) (by decide) e.1)
    exact hraised.refuse hh (hraised.owners e.1 (hlayers e he) ▸ howners e.1 (hlayers e he)) e.2 64
  have hskipped : FrameNoKept h s skipped := hrefused.each fun x hx e _ => by
    split
    · exact hx
    · exact hx.count _ (layerBase_add_ne_headFrame hh e.1 _)
  split
  · refine (hskipped.count 1 ?_).raise (by decide) (headBase_add_ne_layerId hh (by decide))
    simp only [Reg.HEAD_GUARD_EXCL, Reg.HEAD_FRAME]
    omega
  · exact hskipped

end

/-- What a line is composed from names the layers of the frame's state. -/
theorem State.refusedBy_composeFrom_mem {s : State} {h y : Nat} {n : Snap} {used : List Nat} {spec : Bool} {e : Nat × Nat}
    (he : e ∈ (s.composeFrom h y n used spec).refusedBy) : ∃ x ∈ n.layers, x.layer = e.1 := by
  unfold State.composeFrom at he
  simp only [List.mem_map, List.mem_filter, List.mem_filterMap] at he
  obtain ⟨f, ⟨⟨i, -, hi⟩, -⟩, rfl⟩ := he
  obtain ⟨v, hv, rfl⟩ := Option.map_eq_some_iff.mp hi
  have hmem := List.mem_of_getElem? hv
  simp only [State.stack, List.mem_filter, List.mem_flatMap, List.mem_map] at hmem
  obtain ⟨⟨z, -, ⟨⟨x, hx, rfl⟩, -⟩, -⟩, -⟩ := hmem
  exact ⟨x, hx, rfl⟩

theorem State.layer_snap_lt {s : State} {h : Nat} {shadows : List Nat} {newest : Bool} {x : SnapLayer}
    (hx : x ∈ (s.snap h shadows newest).layers) : x.layer < 64 := by
  obtain ⟨k, hk, rfl⟩ := List.mem_map.mp hx
  exact List.mem_range.mp (List.mem_of_mem_filter hk)

theorem State.layerOwner_each {α : Type} {f : State → α → State} (hf : ∀ x a, (f x a).regs = x.regs) (s : State) (l : List α) (k : Nat) :
    (s.each l f).layerOwner k = s.layerOwner k := by
  induction l generalizing s with
  | nil => rfl
  | cons a l ih => exact (ih (f s a)).trans (congrArg (KMap.get fieldReset · _) (hf s a))

theorem State.regs_protect (s : State) (h k : Nat) : (s.protect h k).regs = s.regs := by
  unfold State.protect
  dsimp only
  split
  · split
    · split <;> rfl
    · rfl
  · split <;> rfl

theorem State.layerOwner_latchCaptures (s : State) (h k : Nat) : (s.latchCaptures h).layerOwner k = s.layerOwner k := by
  refine State.layerOwner_each (fun x j => ?_) s _ k
  dsimp only
  split <;> rfl

section
variable {h : Nat} {s t : State} (hh : h < 8) (howners : ∀ k < 64, s.layerOwner k < 256)

theorem FrameNoKept.glassLook (hst : FrameNoKept h s t) (g : Nat) (old new : Snap) : FrameNoKept h s (t.glassLook g old new) := by
  have hstatus : ∀ j, ∀ k < 64, layerBase j + 4 ≠ layerBase k := layerBase_add_ne_layerId (by decide) (by decide)
  unfold State.glassLook
  extract_lets f recs on left
  have hleft : FrameNoKept h s left := hst.each fun x hx j _ => (hx.put _ (by decide) (hstatus j)).put _ (by decide) (hstatus j)
  exact hleft.each fun x hx j _ => hx.put _ (by decide) (hstatus j)

include hh howners

theorem FrameNoKept.composeLatched (hst : FrameNoKept h s t) {n : Snap} (hn : ∀ x ∈ n.layers, x.layer < 64) (frame y : Nat) :
    FrameNoKept h s (t.composeLatched h frame y n) :=
  (hst.modHead h _).confirmed hh howners fun _ he => by
    obtain ⟨x, hx, heq⟩ := State.refusedBy_composeFrom_mem he
    exact heq ▸ hn x hx

end

/-! ## The lock of the pixel PLL -/

section
variable {s : State} {h : Nat} (howners : ∀ k < 64, s.layerOwner k < 256)
include howners

theorem State.frameNo_doPllLock (hh : h < 8) (hlocking : (s.head h).locking = true) (hused : s.p.headUsed h = true) :
    (doPllLock s h).frameNo h = 0 := by
  unfold doPllLock
  rw [hlocking, hused]
  extract_lets a b c n d e f g
  have hzero : b.frameNo h = 0 := State.wideAt_putWide_self a _ 0
  have hb : ∀ k < 64, b.layerOwner k < 256 := fun k hk => by
    have hput : b.layerOwner k = a.layerOwner k :=
      (State.rd_put_addr _ _ (by decide) (by decide) (headBase_add_ne_layerId hh (by decide) k hk)).trans
        (State.rd_put_addr _ _ (by decide) (by decide) (headBase_add_ne_layerId hh (by decide) k hk))
    rw [hput, State.layerOwner_each fun x j => x.regs_protect h j, State.layerOwner_latchCaptures]
    exact howners k hk
  have hc : FrameNoKept h b c := (FrameNoKept.refl h b).put _ (by decide) (headBase_add_ne_layerId hh (by decide))
  have he : FrameNoKept h b e := ((hc.modHead h _).setPins _ _).glassLook h _ _
  have hf : FrameNoKept h b f := by
    dsimp only [f]
    split
    · exact he
    · exact (he.put _ (by decide) (outB_add_ne_layerId h _)).put _ (by decide) (outB_add_ne_layerId h _)
  have hg : FrameNoKept h b g := hf.each fun x hx y _ => hx.composeLatched hh hb (fun _ => State.layer_snap_lt) 0 y
  calc (((g.startPort h).lineZero h).enterFault h).frameNo h = g.frameNo h := by
        simp only [State.frameNo, State.wideAt_enterFault, State.wideAt_lineZero, State.wideAt_startPort]
    _ = 0 := hg.frameNo.trans hzero

/-- The frame number of O29's clause on HEAD_PLL_LOCK, where the owner registers of the layers hold no more than their eight bits. -/
theorem completes_headPllLock_frameNo {h : Fin 8} (hlocking : (s.head h.val).locking = true) (hused : s.p.headUsed h.val = true) :
    completes (.headPllLock h) s fun v => v.wideAt (headBase h.val + Reg.HEAD_FRAME) = 0 :=
  completes_of_effect rfl rfl ((wideAt_settle (headFrame_ne_readyTime h.val)).trans
    (State.frameNo_doPllLock howners h.isLt hlocking hused))

end

/-! ## An owner beyond the register's bits -/

/-- Head 0 waits for its pixel PLL with one line of one pixel. Graphic layer 16 covers it, and no usable DRAM serves its fetch. The layer's
owner register lists a value beyond its eight bits. -/
def strayOwner : State :=
  let s := { State.reset with plan := some { heads := [{ head := 0, portType := 1 }] } }.modHead 0 fun x => { x with locking := true }
  let s := ((s.put (headBase 0) Reg.HEAD_V_V_ACTIVE 1).put (headBase 0) Reg.HEAD_H_H_ACTIVE 1).put (headBase 0) Reg.HEAD_COMP_STATUS_LEAD 1
  let s := (s.puta (layerBase 16) Reg.LAYER_CFG_ENABLE 1).puta (layerBase 16) Reg.LAYER_CFG_FORMAT 1
  let s := (s.puta (layerBase 16) Reg.LAYER_DST_SIZE_W 1).puta (layerBase 16) Reg.LAYER_DST_SIZE_H 1
  { s with regs := KMap.set fieldReset s.regs (fkey (layerBase 16 + Reg.LAYER_ID_OWNER.off) Reg.LAYER_ID_OWNER.lo) 1472 }

/-- The refused fetch of line 0 is counted for the layer's owner. -/
theorem wideAt_instRefused_strayOwner :
    (doPllLock strayOwner 0).wideAt (instBase (strayOwner.layerOwner 16) + Reg.INST_REFUSED) = 1 := by decide +kernel

theorem instRefused_strayOwner : instBase (strayOwner.layerOwner 16) + Reg.INST_REFUSED = headBase 0 + Reg.HEAD_FRAME := by decide

/-- Refutes O29 by a register beyond its width, which no write of the model leaves behind but the statement's states may hold: in
`strayOwner` the lock of the pixel PLL composes line 0, whose fetch is refused and counted in INST_REFUSED of an owner 1472. No function has
that number, and the address so computed is HEAD_FRAME of head 0: timing starts at frame 1. Where the owners are within their eight bits it
starts at frame 0 (`completes_headPllLock_frameNo`). -/
theorem not_framesAdvance : ¬ Obligations.FramesAdvance := by
  unfold Obligations.FramesAdvance
  intro h
  obtain ⟨-, -, -, -, hlock, -⟩ := h strayOwner 0 0 0
  obtain ⟨t, ht, -, hframe, -⟩ := hlock (by decide) (by decide)
  cases ht
  have hcounted : (settle strayOwner (doPllLock strayOwner 0)).wideAt (headBase 0 + Reg.HEAD_FRAME) = 1 := by
    rw [wideAt_settle (by decide), ← instRefused_strayOwner, wideAt_instRefused_strayOwner]
  exact absurd (hcounted.symm.trans hframe) (by decide)

end Sys2Proof.Machine
end

section
/-! The frames of heads, capture ports and output ports (R306, R312): no register of theirs follows the state, so after a command each
reads as the command left it. -/
namespace Sys2Proof.Machine

/-- The first 16 KiB from `b` lie in the frames of the heads, or in those of the capture and output ports. -/
def displayFrame (b : Nat) : Prop := (headBase 0 ≤ b ∧ b + 0x4000 ≤ layerBase 0) ∨ (capB 0 ≤ b ∧ b + 0x4000 ≤ gfxB)

theorem displayFrame_iff {b : Nat} : displayFrame b ↔
    (0x80000 ≤ b ∧ b + 0x4000 ≤ 0x100000) ∨ (0x180000 ≤ b ∧ b + 0x4000 ≤ 0x200000) := Iff.rfl

theorem displayFrame_headBase (h : Fin 8) : displayFrame (headBase h.val) := by
  simp only [displayFrame_iff, headBase, FrameKind.at, FrameKind.base, FrameKind.stride]
  omega

theorem displayFrame_outB (h : Fin 8) : displayFrame (outB h.val) := by
  simp only [displayFrame_iff, outB, FrameKind.at, FrameKind.base, FrameKind.stride]
  omega

theorem displayFrame_capB (c : Fin 4) : displayFrame (capB c.val) := by
  simp only [displayFrame_iff, capB, FrameKind.at, FrameKind.base, FrameKind.stride]
  omega

section
variable {b : Nat} (hb : displayFrame b)
include hb

theorem not_outputReg_display {o : Nat} (ho : o < 0x4000) : ¬ outputReg (b + o) := by
  rw [displayFrame_iff] at hb
  simp only [outputReg, snB, devB, pbaBase, pciB, FrameKind.base, if_true, Reg.SN_STATUS_STOPPED, Reg.SN_EVENT_FAULT,
    Reg.DEV_BOOT_STATUS_STEP]
  omega

theorem offPba_display {o : Nat} (ho : o < 0x4000) : offPba (b + o) := by
  rw [displayFrame_iff] at hb
  simp only [offPba, pbaBase, pciB, FrameKind.base, if_true]
  omega

theorem rd_settle_display (pre post : State) {g : Fld} (ho : g.off < 0x4000) (hg : g.lo < 32) :
    (settle pre post).rd b g = post.rd b g := rd_settle (not_outputReg_display hb ho) hg

theorem wideAt_settle_display (pre post : State) (o : Nat) : (settle pre post).wideAt (b + o) = post.wideAt (b + o) := by
  refine wideAt_settle ?_
  rw [displayFrame_iff] at hb
  simp only [devB, FrameKind.base, Reg.DEV_READY_TIME]
  omega

/-- A flag raised leaves the other fields of the frame. -/
theorem State.rd_raise_display (s : State) {f g : Fld} (ho : g.off < 0x4000) (h : apart f g) : (s.raise b f).rd b g = s.rd b g :=
  s.rd_raise_ne (offPba_display hb ho) h.2.1 (fkey_ne_of_apart h b)

theorem State.rd_raise_display_self (s : State) {f : Fld} (ho : f.off < 0x4000) (hlo : f.lo < 32) (hw : 0 < f.w) :
    (s.raise b f).rd b f = 1 := s.rd_raise_self (offPba_display hb ho) hlo hw

end

section
variable (pre post : State) (k : Nat)

@[simp] theorem head_settle : (settle pre post).head k = post.head k :=
  congrArg (KMap.get (fun _ => ({} : HeadX)) · k) (heads_eq_of_inner (inner_settle pre post))

@[simp] theorem out_settle : (settle pre post).out k = post.out k :=
  congrArg (KMap.get (fun _ => ({} : OutX)) · k) (congrArg State.outs (inner_settle pre post) :)

@[simp] theorem cap_settle : (settle pre post).cap k = post.cap k :=
  congrArg (KMap.get (fun _ => ({} : CapX)) · k) (congrArg State.caps (inner_settle pre post) :)

end

/-- An effect that writes no register keeps them all. -/
theorem keepsRegs_settle {s post : State} (h : post.regs = s.regs) : keepsRegs s (settle s post) := fun _ _ hg ho =>
  (rd_settle ho hg).trans (congrArg (KMap.get fieldReset · _) h)

end Sys2Proof.Machine
end

section
/-! Genlock (O30, R271, R272): the first edge of VSYNC_IN, and a missing reference. -/
namespace Sys2Proof.Machine

section
variable {s : State} {h : Nat}

/-- The first reference event only records its time. -/
theorem State.refEvent_of_none (t : Nat) (hnone : (s.head h).refTime = none) :
    s.refEvent h t = s.modHead h fun x => { x with refTime := some t } := by
  simp only [State.refEvent, hnone]

/-- An edge of VSYNC_IN while head h alone follows it, and for the first time. -/
theorem doVsyncIn_of_first (t : Nat) (hfollow : s.followers 1 0 = [h]) (hnone : (s.head h).refTime = none) :
    doVsyncIn s t = (s.reach t).modHead h fun x => { x with refTime := some t } := by
  have hfollow' : (s.reach t).followers 1 0 = [h] := hfollow
  have hnone' : ((s.reach t).head h).refTime = none := hnone
  rw [doVsyncIn, hfollow']
  exact State.refEvent_of_none t hnone'

theorem State.loseLock_of_locked (hlocked : s.rd (headBase h) Reg.HEAD_STATE_LOCKED = 1) :
    s.loseLock h = (((s.modHead h fun x => { x with lockFrames := 0 }).put (headBase h) Reg.HEAD_STATE_LOCKED 0).count
      (headBase h + Reg.HEAD_LOCK_LOSS) 1).raise (headBase h) Reg.HEAD_EVENT_LOCK_LOST := if_pos hlocked

/-- Without a reference the head loses what lock it had, and forgets the last reference event. -/
theorem doRefMissing_of_following (hsrc : bitsOf (s.head h).sync 0 2 ≠ 0) :
    doRefMissing s h = (s.loseLock h).modHead h fun x => { x with refTime := none, refPeriod := 0 } := if_neg hsrc

theorem doRefMissing_of_free (hsrc : bitsOf (s.head h).sync 0 2 = 0) : doRefMissing s h = s := if_pos hsrc

end

section
variable {s : State} {h : Fin 8}

theorem completes_vsyncInEdge_first {t : BitVec 64} (hfollow : s.followers 1 0 = [h.val]) (hnone : (s.head h.val).refTime = none) :
    completes (.vsyncInEdge t) s fun v => (v.head h.val).refTime = some t.toNat ∧ v.now = max s.now t.toNat ∧ keepsRegs s v := by
  refine completes_of_effect rfl (doVsyncIn_of_first t.toNat hfollow hnone) ⟨?_, ?_, keepsRegs_settle rfl⟩
  · rw [head_settle, State.modHead_eq, State.head_setHead_self]
  · rw [now_settle]
    exact max_eq_right (le_max_left _ _)

theorem completes_genlockRefMissing_locked (hsrc : bitsOf (s.head h.val).sync 0 2 ≠ 0)
    (hlocked : s.rd (headBase h.val) Reg.HEAD_STATE_LOCKED = 1) : completes (.genlockRefMissing h) s fun v =>
      v.rd (headBase h.val) Reg.HEAD_STATE_LOCKED = 0 ∧ v.rd (headBase h.val) Reg.HEAD_EVENT_LOCK_LOST = 1 ∧
      v.wideAt (headBase h.val + Reg.HEAD_LOCK_LOSS) = (s.wideAt (headBase h.val + Reg.HEAD_LOCK_LOSS) + 1) % 2 ^ 48 ∧
      (v.head h.val).refTime = none := by
  have hb := displayFrame_headBase h
  refine completes_of_effect rfl (doRefMissing_of_following hsrc) ?_
  rw [State.loseLock_of_locked hlocked, State.modHead_eq]
  refine ⟨?_, ?_, ?_, ?_⟩
  · rw [rd_settle_display hb _ _ (by decide) (by decide), State.rd_setHead, State.rd_raise_display hb _ (by decide) (by decide),
      State.rd_count, State.rd_put_self, Nat.zero_mod]
  · rw [rd_settle_display hb _ _ (by decide) (by decide), State.rd_setHead,
      State.rd_raise_display_self hb _ (by decide) (by decide) (by decide)]
  · rw [wideAt_settle_display hb, State.wideAt_setHead, State.wideAt_raise, State.wideAt_count_self,
      State.wideAt_put, State.wideAt_modHead]
  · rw [head_settle, State.head_setHead_self]

theorem completes_genlockRefMissing_free (hsrc : bitsOf (s.head h.val).sync 0 2 = 0) :
    completes (.genlockRefMissing h) s fun v => keeps noRegs s v ∧ keepsWide noRegs s v :=
  completes_of_effect rfl (doRefMissing_of_free hsrc) ⟨(keeps.refl _ s).settle s, (keepsWide.refl _ s).settle s⟩

end

/-- Settles O30, clause by clause; that the reference's time is kept is log entry 74, that a head without a reference is left as it was is
log entry 3. -/
theorem genlock : Obligations.Genlock := by
  unfold Obligations.Genlock
  intro s h t
  exact ⟨completes_vsyncInEdge_first, completes_genlockRefMissing_locked, completes_genlockRefMissing_free⟩

end Sys2Proof.Machine
end

section
/-! Requests over AUX (R289), the end of a DSI panel's wait (R296) and HDCP (R298), and O32. -/
namespace Sys2Proof.Machine

section
variable {s : State} {h : Fin 8}

/-! ## The end of a request -/

theorem auxEnds_settle_auxEnd (pre s : State) (h : Fin 8) {result : Nat} (hresult : result < 4) (count : Nat) :
    auxEnds (outB h.val) result count (settle pre (s.auxEnd h.val result count)) := by
  have hb := displayFrame_outB h
  have hrd : ∀ g : Fld, g.off < 0x4000 → apart Reg.OUT_EVENT_AUX_DONE g →
      (settle pre (s.auxEnd h.val result count)).rd (outB h.val) g =
        (((s.put (outB h.val) Reg.OUT_AUX_STATUS_BUSY 0).put (outB h.val) Reg.OUT_AUX_STATUS_RESULT result).put (outB h.val)
          Reg.OUT_AUX_STATUS_COUNT count).rd (outB h.val) g := fun g ho hg => by
    rw [rd_settle_display hb _ _ ho hg.2.1, State.auxEnd, State.rd_raise_display hb _ ho hg, State.modOut_eq, State.rd_setOut]
  refine ⟨?_, ?_, ?_, ?_⟩
  · rw [hrd _ (by decide) (by decide), State.rd_put_apart _ (by decide), State.rd_put_apart _ (by decide), State.rd_put_self, Nat.zero_mod]
  · rw [hrd _ (by decide) (by decide), State.rd_put_apart _ (by decide), State.rd_put_self]
    exact Nat.mod_eq_of_lt hresult
  · rw [hrd _ (by decide) (by decide), State.rd_put_self]
  · rw [rd_settle_display hb _ _ (by decide) (by decide), State.auxEnd,
      State.rd_raise_display_self hb _ (by decide) (by decide) (by decide)]

/-- A command that ends the request. -/
theorem completes_auxEnds {c : Instr} {post u : State} {result count : Nat} (he : exec c s = .next (settle s post))
    (hu : post = u.auxEnd h.val result count) (hresult : result < 4) : completes c s (auxEnds (outB h.val) result count) :=
  completes_of_effect he hu (auxEnds_settle_auxEnd s u h hresult count)

/-! ## GO -/

theorem State.auxCommand_of_training {h : Nat} (hidle : s.rd (outB h) Reg.OUT_AUX_STATUS_BUSY = 0) (htrain : s.link h = linkTraining) :
    s.auxCommand h = (s.put (outB h) Reg.OUT_AUX_STATUS_BUSY 1).modOut h fun x => { x with auxWaiting := true } := by
  have hlink : (s.put (outB h) Reg.OUT_AUX_STATUS_BUSY 1).link h = linkTraining := by
    refine (s.rd_put_addr 1 (by decide) (by decide) ?_).trans htrain
    simp only [outB, headBase, FrameKind.at, FrameKind.base, FrameKind.stride, Reg.OUT_AUX_STATUS_BUSY, Reg.HEAD_STATE_LINK]
    omega
  unfold State.auxCommand
  dsimp only
  rw [if_neg (by rw [hidle]; decide), if_pos hlink]

theorem State.auxCommand_of_busy {h : Nat} (hbusy : s.rd (outB h) Reg.OUT_AUX_STATUS_BUSY = 1) : s.auxCommand h = s := if_pos hbusy

section
variable (ha : s.answers 0 = true) (hw : s.awaiting = false)
include ha hw

theorem completes_auxGo_training (hidle : s.rd (outB h.val) Reg.OUT_AUX_STATUS_BUSY = 0) (htrain : s.link h.val = linkTraining) :
    completes (.auxGo h) s fun t => t.rd (outB h.val) Reg.OUT_AUX_STATUS_BUSY = 1 ∧ (t.out h.val).auxWaiting = true := by
  refine completes_of_effect rfl ((State.mgrReach_of_answers ha hw _ _).trans (State.auxCommand_of_training hidle htrain)) ⟨?_, ?_⟩
  · rw [rd_settle_display (displayFrame_outB h) _ _ (by decide) (by decide), State.modOut_eq, State.rd_setOut, State.rd_put_self]
    rfl
  · rw [out_settle, State.modOut_eq, State.out_setOut_self]

theorem completes_auxGo_busy (hbusy : s.rd (outB h.val) Reg.OUT_AUX_STATUS_BUSY = 1) :
    completes (.auxGo h) s fun t => keeps noRegs s t :=
  completes_of_effect rfl ((State.mgrReach_of_answers ha hw _ _).trans (State.auxCommand_of_busy hbusy)) ((keeps.refl _ s).settle s)

end

/-! ## Replies -/

section
variable {h : Nat} (hbusy : s.rd (outB h) Reg.OUT_AUX_STATUS_BUSY = 1) (hgone : (s.out h).auxWaiting = false)
include hbusy hgone

theorem not_auxIdle : ¬ (s.rd (outB h) Reg.OUT_AUX_STATUS_BUSY = 0 ∨ (s.out h).auxWaiting = true) := by
  rw [hbusy, hgone]
  decide

theorem doAuxReply_ack_write (data : List Byte) (hop : s.rd (outB h) Reg.OUT_AUX_REQ_OP = 1) :
    doAuxReply s h .ack data = s.auxEnd h 0 (s.rd (outB h) Reg.OUT_AUX_REQ_LEN + 1) := by
  unfold doAuxReply
  dsimp only
  rw [if_neg (not_auxIdle hbusy hgone), if_neg (by rw [hop]; decide)]

theorem doAuxReply_ack_read (data : List Byte) (hop : s.rd (outB h) Reg.OUT_AUX_REQ_OP = 0) :
    doAuxReply s h .ack data = (s.putAuxData h (data.take (s.rd (outB h) Reg.OUT_AUX_REQ_LEN + 1))).auxEnd h 0
      (data.take (s.rd (outB h) Reg.OUT_AUX_REQ_LEN + 1)).length := by
  unfold doAuxReply
  dsimp only
  rw [if_neg (not_auxIdle hbusy hgone), if_pos (.inl hop)]

theorem doAuxReply_nack (data : List Byte) : doAuxReply s h .nack data = s.auxEnd h 1 0 := by
  unfold doAuxReply
  dsimp only
  rw [if_neg (not_auxIdle hbusy hgone)]

theorem doAuxReply_deferred (data : List Byte) (hretry : (s.out h).auxRetries < 7) :
    doAuxReply s h .deferred data = s.modOut h fun x => { x with auxRetries := x.auxRetries + 1 } := by
  unfold doAuxReply
  dsimp only
  rw [if_neg (not_auxIdle hbusy hgone), if_pos hretry]

theorem doAuxTimeout_of_busy : doAuxTimeout s h = s.auxEnd h 2 0 := if_neg (not_auxIdle hbusy hgone)

end

theorem completes_auxReply_deferred (hbusy : s.rd (outB h.val) Reg.OUT_AUX_STATUS_BUSY = 1) (hgone : (s.out h.val).auxWaiting = false)
    (data : List Byte) (hretry : (s.out h.val).auxRetries < 7) : completes (.auxReply h .deferred data) s fun t =>
      (t.out h.val).auxRetries = (s.out h.val).auxRetries + 1 ∧ keepsRegs s t := by
  refine completes_of_effect rfl (doAuxReply_deferred hbusy hgone data hretry) ⟨?_, keepsRegs_settle rfl⟩
  rw [out_settle, State.modOut_eq, State.out_setOut_self]

/-! ## The wait of a DSI panel -/

theorem completes_dsiSleepExitWaitEnd (hwait : (s.out h.val).dsiWait = true) : completes (.dsiSleepExitWaitEnd h) s fun t =>
    (t.out h.val).dsiWait = false ∧ (t.out h.val).dsiFrame = true ∧ keepsRegs s t := by
  refine completes_of_effect (u := s.modOut h.val fun x => { x with dsiWait := false, dsiFrame := true }) rfl (if_pos hwait)
    ⟨?_, ?_, keepsRegs_settle rfl⟩ <;>
  rw [out_settle, State.modOut_eq, State.out_setOut_self]

/-! ## HDCP -/

/-- A change of the HDCP state sets its event. -/
theorem State.setHdcp_of_ne {h v : Nat} (hne : s.rd (outB h) Reg.OUT_STATUS_HDCP ≠ v) :
    s.setHdcp h v = (s.put (outB h) Reg.OUT_STATUS_HDCP v).raise (outB h) Reg.OUT_EVENT_HDCP_CHANGE := if_neg hne

theorem rd_settle_setHdcp (pre : State) {v : Nat} (hv : v < 8) (hne : s.rd (outB h.val) Reg.OUT_STATUS_HDCP ≠ v) :
    (settle pre (s.setHdcp h.val v)).rd (outB h.val) Reg.OUT_STATUS_HDCP = v ∧
    (settle pre (s.setHdcp h.val v)).rd (outB h.val) Reg.OUT_EVENT_HDCP_CHANGE = 1 := by
  have hb := displayFrame_outB h
  rw [State.setHdcp_of_ne hne]
  constructor
  · rw [rd_settle_display hb _ _ (by decide) (by decide), State.rd_raise_display hb _ (by decide) (by decide), State.rd_put_self]
    exact Nat.mod_eq_of_lt hv
  · rw [rd_settle_display hb _ _ (by decide) (by decide), State.rd_raise_display_self hb _ (by decide) (by decide) (by decide)]

/-- What an authentication reaches: Type 1 where it was asked for and the sink has it. -/
def State.hdcpReached (s : State) (h : Nat) (one : Bool) : Nat := if one = true ∧ s.rd (outB h) Reg.OUT_HDCP_REQUEST = 2 then 3 else 2

theorem State.hdcpReached_lt (s : State) (h : Nat) (one : Bool) : s.hdcpReached h one < 8 ∧ s.hdcpReached h one ≠ 1 := by
  unfold State.hdcpReached
  split <;> decide

theorem doHdcpAuth_ok {h : Nat} (hst : s.rd (outB h) Reg.OUT_STATUS_HDCP = 1) (one : Bool) :
    doHdcpAuth s h true one = s.setHdcp h (s.hdcpReached h one) := by
  unfold doHdcpAuth
  dsimp only
  rw [if_neg (by rw [hst]; decide), if_pos rfl, if_pos hst]
  rfl

theorem doHdcpAuth_failed {h : Nat} (hst : s.rd (outB h) Reg.OUT_STATUS_HDCP = 1) (one : Bool) :
    doHdcpAuth s h false one = s.setHdcp h 4 := by
  unfold doHdcpAuth
  dsimp only
  rw [if_neg (by rw [hst]; decide), if_neg (by decide)]

theorem doHdcpReauth_of_failed {h : Nat} (hst : s.rd (outB h) Reg.OUT_STATUS_HDCP = 4) (htype : s.portType h = 1)
    (hlink : s.link h = linkActive) (hreq : s.rd (outB h) Reg.OUT_HDCP_REQUEST ≠ 0) (hsec : s.rd secB Reg.SEC_STATE_STATE = 1)
    (hdebug : s.rd secB Reg.SEC_STATE_DEBUG_SECURE = 0) : doHdcpReauth s h = s.setHdcp h 1 := by
  unfold doHdcpReauth State.hdcpBegin
  dsimp only
  rw [if_pos (.inr hst), if_pos (by simp [htype, hlink, hreq, hsec, hdebug])]

end

/-- Settles O32, clause by clause. The wait is that of R296, after which the next frame is the panel's first; which requests a port carries
and how they end is log entry 77. -/
theorem auxAndPanels : Obligations.AuxAndPanels := by
  unfold Obligations.AuxAndPanels
  intro s h
  refine ⟨fun ha hw => ⟨completes_auxGo_training ha hw, completes_auxGo_busy ha hw⟩, fun hbusy hgone => ?_,
    completes_dsiSleepExitWaitEnd, fun hst => ⟨fun one => ?_, fun one => ?_⟩, fun hst htype hlink hreq hsec hdebug => ?_⟩
  · refine ⟨fun data hop => ?_, fun data hop => ?_, fun data => ?_, completes_auxReply_deferred hbusy hgone, ?_⟩
    · exact completes_auxEnds rfl (doAuxReply_ack_write hbusy hgone data hop) (by decide)
    · exact completes_auxEnds rfl (doAuxReply_ack_read hbusy hgone data hop) (by decide)
    · exact completes_auxEnds rfl (doAuxReply_nack hbusy hgone data) (by decide)
    · exact completes_auxEnds rfl (doAuxTimeout_of_busy hbusy hgone) (by decide)
  · obtain ⟨hlt, hne⟩ := s.hdcpReached_lt h.val one
    exact completes_of_effect rfl (doHdcpAuth_ok hst one) (rd_settle_setHdcp s hlt (hst ▸ hne.symm))
  · exact completes_of_effect rfl (doHdcpAuth_failed hst one) (rd_settle_setHdcp s (by decide) (by rw [hst]; decide))
  · exact completes_of_effect rfl (doHdcpReauth_of_failed hst htype hlink hreq hsec hdebug)
      (rd_settle_setHdcp s (by decide) (by rw [hst]; decide)).1

end Sys2Proof.Machine
end

section
/-! What checking and reporting leave of the capture ports: comparisons, the faults they raise, the completions of the EXPECTs they use and
the records of these write no register above the Safety Net's frame. -/
namespace Sys2Proof.Machine

/-! ## Addresses -/

theorem aboveSn_iff {a : Nat} : aboveSn a ↔ 0x160000 ≤ a ∧ a < 0x5C0000 := Iff.rfl

theorem aboveSn_capB (c : Fin 4) {o : Nat} (ho : o < 0x4000) : aboveSn (capB c.val + o) := by
  simp only [aboveSn_iff, capB, FrameKind.at, FrameKind.base, FrameKind.stride]
  omega

theorem not_reportWide_of_aboveSn {a : Nat} (ha : aboveSn a) : ¬ reportWide a := by
  rw [aboveSn_iff] at ha
  simp only [reportWide, blwB, logB, FrameKind.base, Reg.LOG_DROPPED]
  omega

theorem not_aboveSn_of_lt {a : Nat} (ha : a < 0x160000) : ¬ aboveSn a := fun h => absurd (aboveSn_iff.mp h).1 (by omega)

theorem not_aboveSn_ringBase {q o : Nat} (hq : q < 256) (ho : o < 0x100) : ¬ aboveSn (ringBase q + o) := by
  refine not_aboveSn_of_lt ?_
  simp only [ringBase, FrameKind.at, FrameKind.base, FrameKind.stride]
  omega

theorem not_aboveSn_instBase {i o : Nat} (hi : i < 64) (ho : o < 0x100) : ¬ aboveSn (instBase i + o) := by
  refine not_aboveSn_of_lt ?_
  rw [instBase_of_lt hi]
  omega

theorem not_aboveSn_fnInst {fn o : Nat} (hfn : fn < 66) (ho : o < 0x100) : ¬ aboveSn (fnInst fn + o) := by
  have hfar := fnInst_below_or_above hfn
  rw [aboveSn_iff]
  omega

theorem not_aboveSn_cvuB {u o : Nat} (hu : u < 64) (ho : o < 0x100) : ¬ aboveSn (cvuB u + o) := by
  refine not_aboveSn_of_lt ?_
  simp only [cvuB, FrameKind.at, FrameKind.base, FrameKind.stride]
  omega

/-! ## The relation -/

/-- The capture ports, and the registers and wide values above the Safety Net's frame, stand in `t` as in `s`. -/
structure CapturesKept (s t : State) : Prop where
  caps : t.caps = s.caps
  regs : ∀ (b : Nat) (g : Fld), g.lo < 32 → aboveSn (b + g.off) → t.rd b g = s.rd b g
  wide : ∀ b, aboveSn b → t.wideAt b = s.wideAt b

theorem caps_eq_of_inner {s t : State} (h : t.inner = s.inner) : t.caps = s.caps := (congrArg State.caps h :)

section
variable (s : State)

@[simp] theorem State.caps_raiseVec (fn v : Nat) : (s.raiseVec fn v).caps = s.caps := caps_eq_of_inner (s.inner_raiseVec fn v)

@[simp] theorem State.caps_mgrIrq : s.mgrIrq.caps = s.caps := s.caps_raiseVec 0 0

theorem State.caps_eventIrq (a : Nat) (own mgr : Bool) : (s.eventIrq a own mgr).caps = s.caps := by
  unfold State.eventIrq
  split
  · cases own <;> simp
  · cases own <;> cases mgr <;> simp
  · cases own
    · rfl
    · simp only [if_true]
      split <;> simp

@[simp] theorem State.caps_raise (a : Nat) (f : Fld) : (s.raise a f).caps = s.caps := by
  unfold State.raise
  split
  · rfl
  · exact State.caps_eventIrq _ _ _ _

@[simp] theorem State.cap_raise (a : Nat) (f : Fld) (c : Nat) : (s.raise a f).cap c = s.cap c :=
  congrArg (KMap.get (fun _ => ({} : CapX)) · c) (s.caps_raise a f)

/-! ## Records are delivered beside the capture ports (R154, R166, R171) -/

theorem State.caps_stage (r : LogRec) : (s.stage r).caps = s.caps := (congrArg State.caps (StagesOnly.stage s r).unlogged :)

theorem State.caps_logRefused (w : Who) : (s.logRefused w).caps = s.caps := by
  unfold State.logRefused
  split <;> rfl

theorem State.caps_locWrite {t : State} {fn a : Nat} {dram : Bool} {bs : List Byte} (hw : s.locWrite fn dram a bs = some t) :
    t.caps = s.caps := by
  unfold State.locWrite State.dramPut at hw
  split at hw
  · split at hw
    · cases hw
      obtain ⟨x, hx⟩ := s.dramWrite_eq a bs
      rw [hx]
    · exact absurd hw (by simp)
  · cases hw
    exact caps_eq_of_inner (s.inner_hostWrite _ a bs)

theorem State.caps_itemIrq (q : Nat) : (s.itemIrq q).caps = s.caps := by
  unfold State.itemIrq
  split <;> simp

theorem State.caps_onItem (q : Nat) (irq : Bool) : (s.onItem q irq).caps = s.caps := by
  unfold State.onItem State.checkItems
  dsimp only
  split
  · rfl
  split
  · exact State.caps_itemIrq _ q
  · rfl

theorem State.caps_dropRecord (q : Nat) : (s.dropRecord q).caps = s.caps := State.caps_raise _ _ _

theorem State.caps_writeRecord {t : State} {q kind : Nat} {payload : List Byte} {stamp : Option Nat}
    (hw : s.writeRecord q kind payload stamp = some t) : t.caps = s.caps := by
  unfold State.writeRecord at hw
  split at hw
  · exact absurd hw (by simp)
  dsimp only at hw
  split at hw
  · exact absurd hw (by simp)
  · next hloc =>
    cases hw
    exact (s.caps_locWrite hloc :)

theorem State.caps_deliver (q kind : Nat) (payload : List Byte) (force : Bool) (stamp : Option Nat) :
    (s.deliver q kind payload force stamp).caps = s.caps := by
  unfold State.deliver
  extract_lets who told
  have htold : told.caps = s.caps := by
    dsimp only [told]
    split
    · split
      · next hrec => exact (State.caps_onItem _ q false).trans (s.caps_writeRecord hrec :)
      · rfl
    · rfl
  split
  · exact s.caps_dropRecord q
  split
  · exact (told.caps_dropRecord q).trans htold
  split
  · exact (State.caps_dropRecord _ q).trans ((told.caps_logRefused who).trans htold)
  · next hrec =>
    split
    · exact (State.caps_itemIrq _ q).trans ((told.caps_writeRecord hrec :).trans htold)
    · exact (State.caps_onItem _ q false).trans ((told.caps_writeRecord hrec :).trans htold)

theorem State.caps_eventRecord (i kind : Nat) (payload : List Byte) (force : Bool) (stamp : Option Nat) :
    (s.eventRecord i kind payload force stamp).caps = s.caps := by
  unfold State.eventRecord
  split
  · exact s.caps_deliver _ kind payload force stamp
  · rfl

end

namespace CapturesKept

variable {s t u : State}

theorem refl (s : State) : CapturesKept s s := ⟨rfl, fun _ _ _ _ => rfl, fun _ _ => rfl⟩

theorem trans (h : CapturesKept s t) (h' : CapturesKept t u) : CapturesKept s u :=
  ⟨h'.caps.trans h.caps, fun b g hg hb => (h'.regs b g hg hb).trans (h.regs b g hg hb), fun b hb => (h'.wide b hb).trans (h.wide b hb)⟩

theorem each {α : Type} {f : State → α → State} {l : List α} (h : CapturesKept s t)
    (hf : ∀ a ∈ l, ∀ x, CapturesKept x (f x a)) : CapturesKept s (t.each l f) := by
  induction l generalizing t with
  | nil => exact h
  | cons a l ih => exact ih (h.trans (hf a List.mem_cons_self t)) fun c hc => hf c (List.mem_cons_of_mem a hc)

theorem cap_eq (h : CapturesKept s t) (c : Nat) : t.cap c = s.cap c := congrArg (KMap.get (fun _ => ({} : CapX)) · c) h.caps

/-! ## Single changes -/

/-- A change beside the capture ports, the registers and the wide values. -/
theorem beside (h : CapturesKept s t) (hc : u.caps = t.caps) (hr : u.regs = t.regs) (hw : u.wide = t.wide) : CapturesKept s u :=
  h.trans ⟨hc, fun _ _ _ _ => congrArg (KMap.get fieldReset · _) hr, fun _ _ => congrArg (KMap.get (fun _ => 0) · _) hw⟩

theorem modRing (h : CapturesKept s t) (q : Nat) (f : RingX → RingX) : CapturesKept s (t.modRing q f) := h.beside rfl rfl rfl
theorem modDesc (h : CapturesKept s t) (q idx : Nat) (f : Desc → Desc) : CapturesKept s (t.modDesc q idx f) := h.modRing q _
theorem modUnit (h : CapturesKept s t) (n : Nat) (f : CvuX → CvuX) : CapturesKept s (t.modUnit n f) := h.beside rfl rfl rfl
theorem modHead (h : CapturesKept s t) (n : Nat) (f : HeadX → HeadX) : CapturesKept s (t.modHead n f) := h.beside rfl rfl rfl

theorem put (h : CapturesKept s t) {a : Nat} {f : Fld} (v : Nat) (hf : f.lo < 32) (ha : ¬ aboveSn (a + f.off)) :
    CapturesKept s (t.put a f v) :=
  h.trans ⟨rfl, fun _ _ hg hb => t.rd_put_addr v hf hg fun e => ha (e ▸ hb), fun _ _ => rfl⟩

theorem putWide (h : CapturesKept s t) {a : Nat} (v : Nat) (ha : ¬ aboveSn a) : CapturesKept s (t.putWide a v) :=
  h.trans ⟨rfl, fun _ _ _ _ => rfl, fun b hb => t.wideAt_putWide_ne v fun e : a = b => ha (e ▸ hb)⟩

theorem count (h : CapturesKept s t) {a : Nat} (n : Nat) (ha : ¬ aboveSn a) : CapturesKept s (t.count a n) := h.putWide _ ha

theorem raise (h : CapturesKept s t) {a : Nat} {f : Fld} (hf : f.lo < 32) (ha : ¬ aboveSn (a + f.off)) : CapturesKept s (t.raise a f) := by
  refine h.trans ⟨t.caps_raise a f, fun b g hg hb => t.rd_raise_ne (offPba_of_aboveSn hb) hg ?_, fun b _ => t.wideAt_raise a f b⟩
  have hne : a + f.off ≠ b + g.off := fun e => ha (e ▸ hb)
  unfold fkey
  omega

/-! ## Reports -/

/-- What reporting does beside the capture ports. -/
theorem reports (h : CapturesKept s t) (hr : Reports t u) (hc : u.caps = t.caps) : CapturesKept s u :=
  h.trans ⟨hc, fun b g hg hb => hr.regs b g hg (not_reportField_of_aboveSn _ hb), fun b hb => hr.wide b (not_reportWide_of_aboveSn hb)⟩

theorem stage (h : CapturesKept s t) (r : LogRec) : CapturesKept s (t.stage r) := h.reports ((Reports.refl t).stage r) (t.caps_stage r)

theorem locWrite (h : CapturesKept s t) {fn a : Nat} {dram : Bool} {bs : List Byte} (hw : t.locWrite fn dram a bs = some u) :
    CapturesKept s u := h.reports ((Reports.refl t).locWrite hw) (t.caps_locWrite hw)

theorem logRefused (h : CapturesKept s t) {fn : Nat} (hfn : fn < 66) : CapturesKept s (t.logRefused (Who.fn fn)) :=
  h.reports ((Reports.refl t).logRefused hfn) (t.caps_logRefused _)

theorem onItem (h : CapturesKept s t) (q : Nat) (irq : Bool) : CapturesKept s (t.onItem q irq) :=
  h.reports ((Reports.refl t).onItem q irq) (t.caps_onItem q irq)

theorem eventRecord (h : CapturesKept s t) (i kind : Nat) (payload : List Byte) (force : Bool) (stamp : Option Nat) :
    CapturesKept s (t.eventRecord i kind payload force stamp) :=
  h.reports ((Reports.refl t).eventRecord i kind payload force stamp) (t.caps_eventRecord i kind payload force stamp)

/-! ## Faults (R503 to R505) -/

theorem putSn (h : CapturesKept s t) {f : Fld} (v : Nat) (hf : f.lo < 32) (ho : f.off < 0x1000) : CapturesKept s (t.put snB f v) :=
  h.put v hf (not_aboveSn_of_lt (by simp only [snB, FrameKind.base]; omega))

theorem countSn (h : CapturesKept s t) {o : Nat} (n : Nat) (ho : o < 0x1000) : CapturesKept s (t.count (snB + o) n) :=
  h.count n (not_aboveSn_of_lt (by simp only [snB, FrameKind.base]; omega))

theorem raiseSn (h : CapturesKept s t) {f : Fld} (hf : f.lo < 32) (ho : f.off < 0x1000) : CapturesKept s (t.raise snB f) :=
  h.raise hf (not_aboveSn_of_lt (by simp only [snB, FrameKind.base]; omega))

theorem setPersist (h : CapturesKept s t) (src idx : Nat) : CapturesKept s (t.setPersist src idx) :=
  (h.beside (u := { t with sn := { t.sn with
    persist := if t.sn.persist.contains (src, idx) then t.sn.persist else t.sn.persist ++ [(src, idx)] } }) rfl rfl rfl).putSn
    (f := Reg.SN_PERSIST_PERSIST) _ (by decide) (by decide)

theorem clearPersist (h : CapturesKept s t) (src idx : Nat) : CapturesKept s (t.clearPersist src idx) :=
  (h.beside (u := { t with sn := { t.sn with persist := t.sn.persist.filter fun e => decide (e ≠ (src, idx)) } }) rfl rfl rfl).putSn
    (f := Reg.SN_PERSIST_PERSIST) _ (by decide) (by decide)

theorem stopOutputs (h : CapturesKept s t) : CapturesKept s t.stopOutputs := by
  unfold State.stopOutputs
  split
  · exact h
  · exact ((h.putSn _ (by decide) (by decide)).countSn 1 (by decide)).raiseSn (by decide) (by decide)

theorem faultNoted (h : CapturesKept s t) {src : Nat} (hsrc : src < 32) (i : FaultInfo) : CapturesKept s (t.faultNoted src i) := by
  unfold State.faultNoted
  extract_lets last kept flagged counted
  have hkept : CapturesKept s kept := by
    dsimp only [kept]
    split
    · exact h.setPersist src _
    · exact h
  have hcounted : CapturesKept s counted := ((hkept.putSn _ (by decide) (by decide)).countSn 1 (by decide)).count 1
    (not_aboveSn_of_lt (by simp only [snB, FrameKind.base, Reg.SN_SOURCE_COUNT]; omega))
  exact hcounted.putWide _ (by rw [aboveSn_iff]; decide)

theorem fault (h : CapturesKept s t) {src : Nat} (hsrc : src < 32) (i : FaultInfo) : CapturesKept s (t.fault src i) := by
  obtain ⟨r, stops, rec_, heq⟩ := t.fault_eq src i
  have hnoted := ((h.faultNoted hsrc i).raiseSn (f := Reg.SN_EVENT_FAULT) (by decide) (by decide)).stage r
  have htold : CapturesKept s (t.faultTold src i r stops) := by
    cases stops
    · exact hnoted
    · exact hnoted.stopOutputs
  rw [heq]
  exact htold.each fun k _ x => (refl x).eventRecord k 4 rec_ true none

/-! ## Completions (R159 to R165, R169) -/

theorem mirrorFence (h : CapturesKept s t) {i : Nat} (hi : i < 64) (n : Nat) : CapturesKept s (t.mirrorFence i n) := by
  unfold State.mirrorFence
  dsimp only
  split
  · exact h
  split
  · next hw => exact h.locWrite hw
  · exact h.logRefused (by simp only [fnOfInst]; omega)

theorem signalFence (h : CapturesKept s t) {i : Nat} (hi : i < 64) (n value status detail : Nat) :
    CapturesKept s (t.signalFence i n value status detail) :=
  (h.beside (u := t.setFence i n _) rfl rfl rfl).mirrorFence hi n

theorem missDeadline (h : CapturesKept s t) (q : Nat) (d : Desc) : CapturesKept s (t.missDeadline q d) := by
  have hhead : d.dlHead < 8 := Nat.mod_lt _ (by decide)
  unfold State.missDeadline
  split
  · exact h
  · next fn slot ho =>
    have hi : fn - 2 < 64 := by
      have := State.ringOwner_lt ho
      omega
    split
    · exact h
    have hinst := (h.count (a := instBase (fn - 2) + Reg.INST_DL_MISS) 1 (not_aboveSn_instBase hi (by decide))).raise
      (a := instBase (fn - 2)) (f := Reg.INST_EVENT_DL_MISS) (by decide) (not_aboveSn_instBase hi (by decide))
    have hcar := (hinst.count (a := carB + Reg.CAR_HEAD_MISS + 16 * d.dlHead) 1
      (not_aboveSn_of_lt (by simp only [carB, FrameKind.base, Reg.CAR_HEAD_MISS]; omega))).raise
      (a := carB) (f := Reg.CAR_EVENT_DL_MISS) (by decide) (by rw [aboveSn_iff]; decide)
    exact hcar.eventRecord _ 3 _ _ _

theorem completionRecord (h : CapturesKept s t) {fn : Nat} (hfn : fn < 66) (q : Nat) (d : Desc) (status detail : Nat) :
    CapturesKept s (t.completionRecord q fn d status detail) := by
  unfold State.completionRecord
  dsimp only
  split
  · split
    · next hw => exact h.locWrite hw
    · exact h.logRefused hfn
  · exact h

section
variable {q : Nat} (hq : q < 256)
include hq

theorem putRing (h : CapturesKept s t) {f : Fld} (v : Nat) (hf : f.lo < 32) (ho : f.off < 0x100) :
    CapturesKept s (t.put (ringBase q) f v) := h.put v hf (not_aboveSn_ringBase hq ho)

theorem countRing (h : CapturesKept s t) {o : Nat} (n : Nat) (ho : o < 0x100) : CapturesKept s (t.count (ringBase q + o) n) :=
  h.count n (not_aboveSn_ringBase hq ho)

theorem raiseRing (h : CapturesKept s t) {f : Fld} (hf : f.lo < 32) (ho : f.off < 0x100) : CapturesKept s (t.raise (ringBase q) f) :=
  h.raise hf (not_aboveSn_ringBase hq ho)

theorem ringLook (h : CapturesKept s t) : CapturesKept s (t.ringLook q) :=
  (h.putRing hq _ (by decide) (by decide)).putRing hq _ (by decide) (by decide)

theorem completeDesc (h : CapturesKept s t) (d : Desc) (status detail : Nat) : CapturesKept s (t.completeDesc q d status detail) := by
  unfold State.completeDesc
  split
  · exact h
  · next fn n ho =>
    have hfn := State.ringOwner_lt ho
    have hi : fn - 2 < 64 := by omega
    extract_lets i late st dt recorded done aborted signalled item bad
    have hdone : CapturesKept s done := (h.completionRecord hfn q d st dt).countRing hq 1 (by decide)
    have haborted : CapturesKept s aborted := by
      dsimp only [aborted]
      split
      · exact (hdone.countRing hq 1 (by decide)).count 1 (not_aboveSn_instBase hi (by decide))
      · exact hdone
    have hsignalled : CapturesKept s signalled := by
      dsimp only [signalled]
      split
      · exact haborted.signalFence hi _ _ _ _
      · exact haborted
    have hbad : CapturesKept s bad := by
      dsimp only [bad]
      split
      · exact (hsignalled.onItem q _).raiseRing hq (by decide) (by decide)
      · exact hsignalled.onItem q _
    split
    · exact hbad.missDeadline q d
    · exact hbad

theorem setRingState (h : CapturesKept s t) (st cause : Nat) : CapturesKept s (t.setRingState q st cause) := by
  have hown : CapturesKept s (State.activeLook ((t.put (ringBase q) Reg.RING_STATE_STATE st).put (ringBase q) Reg.RING_STATE_CAUSE cause)
      q st) := by
    have hput := (h.putRing hq (f := Reg.RING_STATE_STATE) st (by decide) (by decide)).putRing hq (f := Reg.RING_STATE_CAUSE) cause
      (by decide) (by decide)
    unfold State.activeLook
    split
    · next fn n ho =>
      split
      · exact hput
      · exact hput.put _ (by decide) (not_aboveSn_fnInst (State.ringOwner_lt ho) (by decide))
    · exact hput
  have hset : CapturesKept s (t.stateSet q st cause) := by
    unfold State.stateSet
    dsimp only
    split
    · refine hown.each fun k hk x => ?_
      have hk : k < 8 := List.mem_range.mp hk
      split
      · refine (refl x).put _ (by decide) (not_aboveSn_of_lt ?_)
        simp only [headBase, FrameKind.at, FrameKind.base, FrameKind.stride, Reg.HEAD_CRING_RING]
        omega
      · exact refl x
    · exact hown
  rw [State.setRingState_eq]
  exact (hset.ringLook hq).each fun p _ x => by cases p <;> exact (refl x).beside rfl rfl rfl

theorem ringDrained (h : CapturesKept s t) : CapturesKept s (t.ringDrained q) := by
  unfold State.ringDrained
  split
  · exact h
  extract_lets stoppedOne
  have hstopped : CapturesKept s stoppedOne := by
    dsimp only [stoppedOne]
    split
    · exact (h.setRingState hq _ _).raiseRing hq (by decide) (by decide)
    · exact h
  split
  · exact (hstopped.modRing q _).setRingState hq _ _
  · exact hstopped

theorem flushList (h : CapturesKept s t) (l : List Desc) : CapturesKept s (t.flushList q l) := by
  induction l generalizing t with
  | nil => exact (h.ringLook hq).ringDrained hq
  | cons d l ih =>
    unfold State.flushList
    split
    · exact ih ((h.modRing q _).completeDesc hq d _ _)
    · exact h.ringLook hq

end

theorem finish (h : CapturesKept s t) (q idx status detail : Nat) : CapturesKept s (t.finish q idx status detail) := by
  unfold State.finish State.flushRing
  split
  · next hq => exact (h.modDesc q idx _).flushList hq _
  · exact h.modDesc q idx _

/-! ## Comparisons (R495 to R500) -/

section
variable {n : Nat} (hn : n < 64)
include hn

theorem putUnit (h : CapturesKept s t) {f : Fld} (v : Nat) (hf : f.lo < 32) (ho : f.off < 0x100) : CapturesKept s (t.put (cvuB n) f v) :=
  h.put v hf (not_aboveSn_cvuB hn ho)

theorem queueLook (h : CapturesKept s t) : CapturesKept s (t.queueLook n) := h.putUnit hn _ (by decide) (by decide)

theorem takeExpects (h : CapturesKept s t) (seq : Nat) : CapturesKept s (t.takeExpects n seq).1 := (h.modUnit n _).queueLook hn

theorem cvuCompare (h : CapturesKept s t) (found expected : Nat) (agree : Bool) :
    CapturesKept s (t.cvuCompare n found expected agree).1 :=
  (h.modUnit n _).count 1 (not_aboveSn_cvuB hn (by decide))

end

end CapturesKept

/-- A flag of a unit for a failed comparison. -/
theorem cvuEvent_mem (src : Nat) : cvuEvent src ∈ [Reg.CVU_EVENT_MISMATCH, Reg.CVU_EVENT_NO_EXPECT, Reg.CVU_EVENT_MISSING,
    Reg.CVU_EVENT_SEQUENCE, Reg.CVU_EVENT_COMPARATOR] := by
  unfold cvuEvent
  split_ifs <;> decide

theorem cvuEvent_place (src : Nat) : (cvuEvent src).lo < 32 ∧ (cvuEvent src).off < 0x100 := by
  have hall : ∀ f ∈ [Reg.CVU_EVENT_MISMATCH, Reg.CVU_EVENT_NO_EXPECT, Reg.CVU_EVENT_MISSING, Reg.CVU_EVENT_SEQUENCE,
      Reg.CVU_EVENT_COMPARATOR], f.lo < 32 ∧ f.off < 0x100 := by decide
  exact hall _ (cvuEvent_mem src)

/-- The failures of a comparison have sources of R489. -/
theorem State.src_cvuCompare_lt {s : State} {n found expected : Nat} {agree : Bool} :
    ∀ f ∈ (s.cvuCompare n found expected agree).2.2, f.src < 32 := by
  have hone : ∀ (g : CvuFail), g.src < 32 → ∀ f ∈ [g], f.src < 32 := fun g hg f hf => List.mem_singleton.mp hf ▸ hg
  unfold State.cvuCompare
  extract_lets x e counted fails
  show ∀ f ∈ fails, f.src < 32
  dsimp only [fails]
  split
  · exact hone _ (show srcComparator < 32 by decide)
  split
  · exact hone _ (show srcComparator < 32 by decide)
  split
  · exact fun f hf => absurd hf List.not_mem_nil
  · exact hone _ (show srcMismatch < 32 by decide)

namespace CapturesKept

variable {s t u : State}

section
variable {n : Nat} (hn : n < 64)
include hn

theorem cvuOutcome (h : CapturesKept s t) (seq value expected : Nat) {fails : List CvuFail} (hfails : ∀ f ∈ fails, f.src < 32) :
    CapturesKept s (t.cvuOutcome n seq value expected fails) := by
  have hlast := h.modUnit n fun x => { x with lastAt := t.now }
  unfold State.cvuOutcome
  extract_lets b looked failed counted limit stop
  split
  · exact (hlast.putUnit hn _ (by decide) (by decide)).putUnit hn _ (by decide) (by decide)
  have hfailed : CapturesKept s failed := (hlast.putUnit hn _ (by decide) (by decide)).putUnit hn _ (by decide) (by decide)
  have hcounted : CapturesKept s counted := by
    dsimp only [counted]
    split
    · exact hfailed.count 1 (not_aboveSn_cvuB hn (by decide))
    · exact hfailed
  refine hcounted.each fun f hf x => ?_
  obtain ⟨hlo, hoff⟩ := cvuEvent_place f.src
  exact ((refl x).raise hlo (not_aboveSn_cvuB hn hoff)).fault (hfails f hf) _

theorem takeExpect (h : CapturesKept s t) (q : Nat) (d : Desc) {g : GuardRec} (hg : g.cvu = n) : CapturesKept s (t.takeExpect q d g) := by
  subst hg
  unfold State.takeExpect
  dsimp only
  split
  · exact h.finish q _ _ _
  split
  · exact (((h.modUnit _ _).queueLook hn).modDesc q _ _).finish _ _ _ _
  split
  · exact h.modDesc q _ _
  · exact ((h.modUnit _ _).queueLook hn).modDesc q _ _

theorem retryExpects (h : CapturesKept s t) : CapturesKept s (t.retryExpects n) := by
  refine h.each fun q _ x => ?_
  split
  · exact refl x
  split
  · split
    · split
      · split
        · next hg => exact (refl x).takeExpect hn q _ hg
        · exact refl x
      · exact refl x
    · exact refl x
  · exact refl x

theorem expectEnd (h : CapturesKept s t) (seq v : Nat) (agree : Bool) : CapturesKept s (t.expectEnd n seq v agree) := by
  have htaken := h.takeExpects hn seq
  unfold State.expectEnd
  generalize t.takeExpects n seq = taken at htaken ⊢
  obtain ⟨s1, early, now⟩ := taken
  dsimp only
  have hearly : CapturesKept s (s1.each early fun s e => s.finish e.q e.idx stTooLate 0) := htaken.each fun e _ x => (refl x).finish _ _ _ _
  split
  · split
    · exact hearly
    · exact hearly.cvuOutcome hn seq v 0 fun f hf => List.mem_singleton.mp hf ▸ by decide
  · next e rest =>
    have hcompared := (hearly.putUnit hn (f := Reg.CVU_STATUS_STATE) cvuActive (by decide) (by decide)).cvuCompare hn v
      (e.value % 2 ^ (t.cvuOf n).width) agree
    exact (hcompared.cvuOutcome hn seq v _ State.src_cvuCompare_lt).finish _ _ _ _

theorem refEnd (h : CapturesKept s t) (seq p : Nat) (tag agree : Bool) : CapturesKept s (t.refEnd n seq p tag agree) := by
  have htaken := h.takeExpects hn seq
  unfold State.refEnd
  generalize t.takeExpects n seq = taken at htaken ⊢
  obtain ⟨s1, early, now⟩ := taken
  dsimp -zeta only
  extract_lets w ref ended gap all compared
  have hended : CapturesKept s ended :=
    (htaken.each fun e _ x => (refl x).putWide _ (not_aboveSn_cvuB hn (by decide))).each fun e _ x => (refl x).finish _ _ _ _
  have hall : ∀ f ∈ all, f.src < 32 := fun f hf => by
    rcases List.mem_append.mp hf with hf | hf
    · rcases List.mem_append.mp hf with hf | hf
      · exact State.src_cvuCompare_lt f (List.mem_of_mem_filter hf)
      · split at hf
        · exact List.mem_singleton.mp hf ▸ by decide
        · exact absurd hf List.not_mem_nil
    · exact State.src_cvuCompare_lt f (List.mem_of_mem_filter hf)
  have hcompared : CapturesKept s compared := ((hended.cvuCompare hn _ _ _).modUnit n _).cvuOutcome hn seq p _ hall
  exact hcompared.each fun e _ x => (refl x).finish _ _ _ _

/-- The end of a check interval. -/
theorem cvuEnd (h : CapturesKept s t) (seq : Nat) : CapturesKept s (t.cvuEnd n seq) := by
  unfold State.cvuEnd State.cvuEndAs
  extract_lets r x b v p ended done
  split
  · exact h
  have hdone : CapturesKept s done :=
    (((h.modUnit n _).putWide _ (not_aboveSn_cvuB hn (by decide))).putWide _ (not_aboveSn_cvuB hn (by decide))).raise (by decide)
      (not_aboveSn_cvuB hn (by decide))
  split
  · exact (hdone.expectEnd hn seq v true).retryExpects hn
  split
  · exact (hdone.refEnd hn seq p true true).retryExpects hn
  · exact hdone

end

end CapturesKept

end Sys2Proof.Machine
end

section
/-! Frames of a capture port (O33, R301 to R304): lines collected, frames completed and discarded, and a stall. -/
namespace Sys2Proof.Machine

section
variable {s : State} {c : Nat}

/-! ## The units that snoop a port -/

theorem State.mem_capUnits_lt {u : Nat} (hu : u ∈ s.capUnits c) : u < 64 :=
  of_decide_eq_true (List.mem_filter.mp (List.mem_of_mem_filter hu)).2

/-- A loop over units that acts on units alone. -/
theorem State.each_units {f : State → Nat → State} (hf : ∀ u n, ∃ x, f u n = { u with cvu := x }) (l : List Nat) (s : State) :
    ∃ x, s.each l f = { s with cvu := x } := by
  induction l generalizing s with
  | nil => exact ⟨s.cvu, rfl⟩
  | cons n l ih =>
    obtain ⟨x, hx⟩ := hf s n
    obtain ⟨y, hy⟩ := ih (f s n)
    exact ⟨y, hy.trans (by rw [hx])⟩

theorem State.cvuBegin_eq (s : State) (u seq : Nat) : ∃ x, s.cvuBegin u seq = { s with cvu := x } := ⟨_, rfl⟩

theorem State.cvuBytes_eq (s : State) (u : Nat) (bs : List Byte) : ∃ x, s.cvuBytes u bs = { s with cvu := x } := by
  unfold State.cvuBytes
  dsimp only
  split
  · exact ⟨_, rfl⟩
  · exact ⟨s.cvu, rfl⟩

/-! ## Frames discarded (R303) -/

theorem State.discardFrame_of_idle (hidle : (s.cap c).inFrame = false) : s.discardFrame c = s := if_neg (by rw [hidle]; decide)

theorem State.discardFrame_of_inFrame (hin : (s.cap c).inFrame = true) :
    s.discardFrame c = ((s.modCap c fun x => { x with inFrame := false, lines := 0 }).count (capB c + Reg.CAP_BAD_FRAMES) 1).raise
      (capB c) Reg.CAP_EVENT_FRAME_BAD := if_pos hin

theorem State.wideAt_discardFrame (hin : (s.cap c).inFrame = true) : (s.discardFrame c).wideAt (capB c + Reg.CAP_BAD_FRAMES) =
    (s.wideAt (capB c + Reg.CAP_BAD_FRAMES) + 1) % 2 ^ 48 := by
  rw [State.discardFrame_of_inFrame hin, State.wideAt_raise, State.wideAt_count_self, State.modCap_eq, State.wideAt_setCap]

theorem State.inFrame_discardFrame : ((s.discardFrame c).cap c).inFrame = false := by
  by_cases hin : (s.cap c).inFrame = true
  · have hcap : (s.discardFrame c).cap c = { s.cap c with inFrame := false, lines := 0 } := by
      rw [State.discardFrame_of_inFrame hin]
      exact (congrArg (KMap.get (fun _ => ({} : CapX)) · c) (State.caps_raise _ _ _)).trans (s.cap_setCap_self c _)
    rw [hcap]
  · rw [State.discardFrame_of_idle (eq_false_of_ne_true hin)]
    exact eq_false_of_ne_true hin

end

section
variable {s : State} {c : Fin 4}

/-- A frame discarded leaves the port's registers but FRAME_BAD. -/
theorem State.rd_discardFrame {g : Fld} (ho : g.off < 0x4000) (h : apart Reg.CAP_EVENT_FRAME_BAD g) :
    (s.discardFrame c.val).rd (capB c.val) g = s.rd (capB c.val) g := by
  unfold State.discardFrame
  split
  · exact State.rd_raise_display (displayFrame_capB c) _ ho h
  · rfl

theorem frameBad_settle_discardFrame (pre : State) (hin : (s.cap c.val).inFrame = true) :
    frameBad c.val s (settle pre (s.discardFrame c.val)) := by
  have hb := displayFrame_capB c
  refine ⟨?_, ?_, ?_⟩
  · rw [cap_settle, State.inFrame_discardFrame]
  · rw [wideAt_settle_display hb, State.wideAt_discardFrame hin]
  · rw [rd_settle_display hb _ _ (by decide) (by decide), State.discardFrame_of_inFrame hin,
      State.rd_raise_display_self hb _ (by decide) (by decide) (by decide)]

/-- A flag raised, and a counter other than that of bad frames counted, before the frame is discarded. -/
theorem frameBad_settle_discardFrame_raised {u : State} {f : Fld} (pre : State) (hin : (s.cap c.val).inFrame = true)
    (hcap : u.cap c.val = s.cap c.val) (hwide : u.wideAt (capB c.val + Reg.CAP_BAD_FRAMES) = s.wideAt (capB c.val + Reg.CAP_BAD_FRAMES))
    (ho : f.off < 0x4000) (hw : 0 < f.w) (hf : apart Reg.CAP_EVENT_FRAME_BAD f) :
    frameBad c.val s (settle pre ((u.raise (capB c.val) f).discardFrame c.val)) ∧
    (settle pre ((u.raise (capB c.val) f).discardFrame c.val)).rd (capB c.val) f = 1 := by
  have hb := displayFrame_capB c
  have hin' : ((u.raise (capB c.val) f).cap c.val).inFrame = true := by rw [State.cap_raise, hcap, hin]
  obtain ⟨hnone, hcount, hevent⟩ := frameBad_settle_discardFrame pre hin'
  refine ⟨⟨hnone, ?_, hevent⟩, ?_⟩
  · rw [hcount, State.wideAt_raise, hwide]
  · rw [rd_settle_display hb _ _ ho hf.2.1, State.rd_discardFrame ho hf, State.rd_raise_display_self hb _ ho hf.2.1 hw]

/-! ## The start of a frame -/

/-- An empty frame begins; one that was not finished is discarded. -/
def State.frameBegun (s : State) (c n : Nat) : State :=
  (s.discardFrame c).modCap c fun x =>
    { x with inFrame := true, lines := 0, frameNo := n, bufs := x.bufs.filter fun e => decide (e.1 / 8192 ≠ x.writing) }

theorem doCsiStart_eq {c : Nat} (hon : s.capState c ≠ capOff) (n : Nat) :
    ∃ x, doCsiStart s c n = { s.frameBegun c n with cvu := x } := by
  unfold doCsiStart
  rw [if_neg hon]
  exact State.each_units (fun u k => u.cvuBegin_eq k _) _ _

theorem completes_csiFrameStart (hon : s.capState c.val ≠ capOff) (n : BitVec 16) : completes (.csiFrameStart c n) s fun u =>
    (u.cap c.val).inFrame = true ∧ (u.cap c.val).lines = 0 ∧ ((s.cap c.val).inFrame = false → keepsRegs s u) ∧
    ((s.cap c.val).inFrame = true →
      u.wideAt (capB c.val + Reg.CAP_BAD_FRAMES) = (s.wideAt (capB c.val + Reg.CAP_BAD_FRAMES) + 1) % 2 ^ 48) := by
  obtain ⟨x, hx⟩ := doCsiStart_eq hon n.toNat
  refine completes_of_effect rfl hx ?_
  have hcap : State.cap { s.frameBegun c.val n.toNat with cvu := x } c.val = _ := State.cap_setCap_self _ c.val _
  refine ⟨?_, ?_, fun hidle => keepsRegs_settle ?_, fun hin => ?_⟩
  · rw [cap_settle, hcap]
  · rw [cap_settle, hcap]
  · show (s.discardFrame c.val).regs = s.regs
    rw [State.discardFrame_of_idle hidle]
  · rw [wideAt_settle_display (displayFrame_capB c)]
    exact State.wideAt_discardFrame hin

/-! ## Lines (R300, R301) -/

/-- A line is stored in the buffer that the port writes. -/
def State.lineStored (s : State) (c dt : Nat) (data : List Byte) : State :=
  s.modCap c fun x =>
    { x with lines := x.lines + 1, bufs := KMap.set (fun _ => []) x.bufs (8192 * x.writing + x.lines) (storedLine dt data) }

section
variable {c dt vc : Nat} (hon : s.capState c ≠ capOff) (hdt : dt = (s.capRec c).dataType) (hvc : vc = (s.capRec c).vc)
  (hin : (s.cap c).inFrame = true)
include hon hdt hvc

theorem not_droppedPacket : ¬ (s.capState c = capOff ∨ dt ≠ (s.capRec c).dataType ∨ vc ≠ (s.capRec c).vc) := by
  simp only [not_or, not_not]
  exact ⟨hon, hdt, hvc⟩

include hin

theorem doCsiLine_of_good {data : List Byte} (hlen : data.length = lineBytes (s.capRec c).dataType (s.capRec c).width)
    (hroom : (s.cap c).lines < (s.capRec c).height) :
    ∃ x, doCsiLine s c dt vc data false = { s.lineStored c dt data with cvu := x } := by
  have hgood : ¬ ((false || decide (data.length ≠ lineBytes dt (s.capRec c).width) ||
      decide ((s.capRec c).height ≤ (s.cap c).lines)) = true) := by
    simp only [hlen, hdt, Bool.false_or, Bool.or_eq_true, decide_eq_true_eq]
    omega
  unfold doCsiLine
  dsimp only
  rw [if_neg (not_droppedPacket hon hdt hvc), if_neg Bool.false_ne_true, if_neg (by rw [hin]; decide), if_neg hgood]
  exact State.each_units (fun u k => u.cvuBytes_eq k data) _ _

theorem doCsiLine_of_length {data : List Byte} (hlen : data.length ≠ lineBytes (s.capRec c).dataType (s.capRec c).width) :
    doCsiLine s c dt vc data false = s.discardFrame c := by
  unfold doCsiLine
  dsimp only
  rw [if_neg (not_droppedPacket hon hdt hvc), if_neg Bool.false_ne_true, if_neg (by rw [hin]; decide), if_pos (by simp [hdt, hlen])]

theorem doCsiLine_of_bad (data : List Byte) : doCsiLine s c dt vc data true =
    ((s.count (capB c + Reg.CAP_PKT_ERR) 1).raise (capB c) Reg.CAP_EVENT_PKT_ERR).discardFrame c := by
  have hin' : (((s.count (capB c + Reg.CAP_PKT_ERR) 1).raise (capB c) Reg.CAP_EVENT_PKT_ERR).cap c).inFrame = true := by
    rw [State.cap_raise]
    exact hin
  unfold doCsiLine
  dsimp only
  rw [if_neg (not_droppedPacket hon hdt hvc), if_pos rfl, if_neg (by rw [hin']; decide), if_pos (by rfl)]

end

section
variable {dt : BitVec 6} {vc : Fin 16} {data : List Byte} (hon : s.capState c.val ≠ capOff) (hdt : dt.toNat = (s.capRec c.val).dataType)
  (hvc : vc.val = (s.capRec c.val).vc) (hin : (s.cap c.val).inFrame = true)
include hon hdt hvc hin

theorem completes_csiLinePacket_good (hlen : data.length = lineBytes (s.capRec c.val).dataType (s.capRec c.val).width)
    (hroom : (s.cap c.val).lines < (s.capRec c.val).height) : completes (.csiLinePacket c dt vc data false) s fun u =>
      (u.cap c.val).lines = (s.cap c.val).lines + 1 ∧ keepsRegs s u := by
  obtain ⟨x, hx⟩ := doCsiLine_of_good hon hdt hvc hin hlen hroom
  refine completes_of_effect rfl hx ⟨?_, keepsRegs_settle rfl⟩
  have hcap : State.cap { s.lineStored c.val dt.toNat data with cvu := x } c.val = _ := State.cap_setCap_self _ c.val _
  rw [cap_settle, hcap]

theorem completes_csiLinePacket_bad : completes (.csiLinePacket c dt vc data true) s fun u =>
    frameBad c.val s u ∧ u.rd (capB c.val) Reg.CAP_EVENT_PKT_ERR = 1 :=
  completes_of_effect rfl (doCsiLine_of_bad hon hdt hvc hin data) (frameBad_settle_discardFrame_raised s hin rfl
    (s.wideAt_count_ne 1 (by simp only [Reg.CAP_PKT_ERR, Reg.CAP_BAD_FRAMES]; omega)) (by decide) (by decide) (by decide))

end

theorem completes_overflow (hon : s.capState c.val ≠ capOff) (hin : (s.cap c.val).inFrame = true) :
    completes (.overflow c) s fun u => frameBad c.val s u ∧ u.rd (capB c.val) Reg.CAP_EVENT_OVERFLOW = 1 :=
  completes_of_effect (u := (s.raise (capB c.val) Reg.CAP_EVENT_OVERFLOW).discardFrame c.val) rfl (if_neg hon)
    (frameBad_settle_discardFrame_raised s hin rfl rfl (by decide) (by decide) (by decide))

/-! ## The end of a frame (R302 to R304) -/

/-- The part of `State.frameDone` before the units that snoop the port end their intervals. -/
def State.frameNewest (s : State) (c : Nat) : State :=
  let b := capB c
  let x := s.cap c
  let s := s.count (b + Reg.CAP_FRAMES) 1
  let s := s.putWide (b + Reg.CAP_LAST_FRAME) (s.now % 2 ^ 64 + 2 ^ 64 * x.frameNo)
  let s := if x.fresh then s.count (b + Reg.CAP_UNSHOWN) 1 else s
  let s := s.put b Reg.CAP_STATUS_NEWEST x.writing
  let s := if s.capState c = capStalled then (s.raise b Reg.CAP_EVENT_RESUMED).clearPersist srcCapture c else s
  let s := s.put b Reg.CAP_STATUS_STATE capRunning
  let next := s.freeBuf c x.writing
  s.modCap c fun x => { x with inFrame := false, lines := 0, fresh := true, lastDone := s.now, writing := next }

/-- Marking the lines that show an old frame, and the ends of the units' intervals, leave the port. -/
theorem State.capturesKept_frameDone (s : State) (c : Nat) : CapturesKept (s.frameNewest c) (s.frameDone c) := by
  have hstale : CapturesKept (s.frameNewest c) ((s.frameNewest c).staleLines c) :=
    (CapturesKept.refl _).each fun k _ x => (CapturesKept.refl x).modHead _ _
  exact hstale.each fun u hu x => (CapturesKept.refl x).cvuEnd (State.mem_capUnits_lt hu) _

theorem State.inFrame_frameNewest (s : State) (c : Nat) : ((s.frameNewest c).cap c).inFrame = false := by
  unfold State.frameNewest
  extract_lets b x counted noted shown named resumed ran next
  rw [State.modCap_eq, State.cap_setCap_self]

theorem State.wideAt_frameNewest (s : State) (c : Nat) : (s.frameNewest c).wideAt (capB c + Reg.CAP_FRAMES) =
    (s.wideAt (capB c + Reg.CAP_FRAMES) + 1) % 2 ^ 48 := by
  unfold State.frameNewest
  extract_lets b x counted noted shown named resumed ran next
  have hnoted : noted.wideAt (capB c + Reg.CAP_FRAMES) = (s.wideAt (capB c + Reg.CAP_FRAMES) + 1) % 2 ^ 48 :=
    (counted.wideAt_putWide_ne _ (by simp only [b, Reg.CAP_LAST_FRAME, Reg.CAP_FRAMES]; omega)).trans (s.wideAt_count_self _ 1)
  have hshown : shown.wideAt (capB c + Reg.CAP_FRAMES) = noted.wideAt (capB c + Reg.CAP_FRAMES) := by
    dsimp only [shown]
    split
    · exact noted.wideAt_count_ne 1 (by simp only [b, Reg.CAP_UNSHOWN, Reg.CAP_FRAMES]; omega)
    · rfl
  have hresumed : resumed.wideAt (capB c + Reg.CAP_FRAMES) = named.wideAt (capB c + Reg.CAP_FRAMES) := by
    dsimp only [resumed]
    split
    · exact named.wideAt_raise _ _ _
    · rfl
  exact hresumed.trans (hshown.trans hnoted)

theorem State.capState_frameNewest (s : State) (c : Nat) : (s.frameNewest c).capState c = capRunning := State.rd_put_self _ _ _ _

theorem State.rd_frameNewest_newest (s : State) (c : Fin 4) : (s.frameNewest c.val).rd (capB c.val) Reg.CAP_STATUS_NEWEST =
    (s.cap c.val).writing % 2 ^ Reg.CAP_STATUS_NEWEST.w := by
  unfold State.frameNewest
  extract_lets b x counted noted shown named resumed ran next
  have hresumed : resumed.rd (capB c.val) Reg.CAP_STATUS_NEWEST = named.rd (capB c.val) Reg.CAP_STATUS_NEWEST := by
    dsimp only [resumed]
    split
    · exact (((CapturesKept.refl _).clearPersist srcCapture c.val).regs _ _ (by decide) (aboveSn_capB c (by decide))).trans
        (State.rd_raise_display (displayFrame_capB c) _ (by decide) (by decide))
    · rfl
  calc ran.rd (capB c.val) Reg.CAP_STATUS_NEWEST = resumed.rd (capB c.val) Reg.CAP_STATUS_NEWEST := State.rd_put_apart _ (by decide) _ _
    _ = named.rd (capB c.val) Reg.CAP_STATUS_NEWEST := hresumed
    _ = x.writing % 2 ^ Reg.CAP_STATUS_NEWEST.w := State.rd_put_self _ _ _ _

/-- A frame with every line completes. -/
theorem completes_csiFrameEnd_complete (hin : (s.cap c.val).inFrame = true) (hfull : (s.cap c.val).lines = (s.capRec c.val).height)
    (t : BitVec 64) : completes (.csiFrameEnd c t) s fun u =>
      u.wideAt (capB c.val + Reg.CAP_FRAMES) = (s.wideAt (capB c.val + Reg.CAP_FRAMES) + 1) % 2 ^ 48 ∧ u.capState c.val = capRunning ∧
      u.rd (capB c.val) Reg.CAP_STATUS_NEWEST = (s.cap c.val).writing % 2 ^ Reg.CAP_STATUS_NEWEST.w ∧ (u.cap c.val).inFrame = false := by
  have hb := displayFrame_capB c
  have hkept := State.capturesKept_frameDone (s.reach t.toNat) c.val
  have heffect : doCsiEnd s c.val t.toNat = (s.reach t.toNat).frameDone c.val :=
    (if_neg (show ¬ (!(s.cap c.val).inFrame) = true by rw [hin]; decide)).trans (if_neg (not_not.mpr hfull))
  refine completes_of_effect rfl heffect ⟨?_, ?_, ?_, ?_⟩
  · rw [wideAt_settle_display hb, hkept.wide _ (aboveSn_capB c (by decide)), State.wideAt_frameNewest, State.wideAt_reach]
  · rw [State.capState, rd_settle_display hb _ _ (by decide) (by decide), hkept.regs _ _ (by decide) (aboveSn_capB c (by decide))]
    exact State.capState_frameNewest _ _
  · rw [rd_settle_display hb _ _ (by decide) (by decide), hkept.regs _ _ (by decide) (aboveSn_capB c (by decide)),
      State.rd_frameNewest_newest]
    rfl
  · rw [cap_settle, hkept.cap_eq, State.inFrame_frameNewest]

/-- A frame without every line is discarded. -/
theorem completes_csiFrameEnd_short (hin : (s.cap c.val).inFrame = true) (hshort : (s.cap c.val).lines ≠ (s.capRec c.val).height)
    (t : BitVec 64) : completes (.csiFrameEnd c t) s (frameBad c.val s) :=
  completes_of_effect (u := (s.reach t.toNat).discardFrame c.val) rfl
    ((if_neg (show ¬ (!(s.cap c.val).inFrame) = true by rw [hin]; decide)).trans (if_pos hshort))
    (frameBad_settle_discardFrame (s := s.reach t.toNat) s hin)

/-! ## A stall (R304) -/

theorem completes_stall (hrun : s.capState c.val = capWaiting ∨ s.capState c.val = capRunning) : completes (.stall c) s fun u =>
    u.capState c.val = capStalled ∧ u.rd (capB c.val) Reg.CAP_EVENT_STALL = 1 ∧
    bitSet (u.rd snB Reg.SN_FAULT_FLAGS_FLAGS) srcCapture = true := by
  have hb := displayFrame_capB c
  refine completes_of_effect rfl (if_pos hrun) ?_
  generalize s.reach _ = r
  have hfault := CapturesKept.fault (.refl ((r.put (capB c.val) Reg.CAP_STATUS_STATE capStalled).raise (capB c.val) Reg.CAP_EVENT_STALL))
    (src := srcCapture) (by decide) { index := c.val }
  refine ⟨?_, ?_, ?_⟩
  · rw [State.capState, rd_settle_display hb _ _ (by decide) (by decide), hfault.regs _ _ (by decide) (aboveSn_capB c (by decide)),
      State.rd_raise_display hb _ (by decide) (by decide), State.rd_put_self]
    rfl
  · rw [rd_settle_display hb _ _ (by decide) (by decide), hfault.regs _ _ (by decide) (aboveSn_capB c (by decide)),
      State.rd_raise_display_self hb _ (by decide) (by decide) (by decide)]
  · obtain ⟨hflag, -⟩ := faulted_fault ((r.put (capB c.val) Reg.CAP_STATUS_STATE capStalled).raise (capB c.val) Reg.CAP_EVENT_STALL)
      (src := srcCapture) (i := { index := c.val }) (by decide) rfl
    rw [(FaultKept.settle s _).flags]
    exact hflag

end

/-- Settles O33, clause by clause; that a stall may follow WAITING and that a frame found bad is discarded at once is log entry 80. -/
theorem captureRoute : Obligations.CaptureRoute := by
  unfold Obligations.CaptureRoute
  intro s c n t
  refine ⟨fun hon => ⟨completes_csiFrameStart hon n, fun dt vc data hdt hvc hin => ?_, completes_overflow hon⟩, fun hin => ?_,
    completes_stall⟩
  · refine ⟨completes_csiLinePacket_good hon hdt hvc hin, fun hlen => ?_, completes_csiLinePacket_bad hon hdt hvc hin⟩
    exact completes_of_effect rfl (doCsiLine_of_length hon hdt hvc hin hlen) (frameBad_settle_discardFrame s hin)
  · exact ⟨fun hfull => completes_csiFrameEnd_complete hin hfull t, fun hshort => completes_csiFrameEnd_short hin hshort t⟩

end Sys2Proof.Machine
end

section
/-! What a fault leaves beside the registers: reporting acts on the rings, the log, the host's memory, the records written to DRAM and the
list of lasting conditions alone, so the memory channels stand. -/
namespace Sys2Proof.Machine

/-- The state beside what reporting may change: registers, the log and the records held for it, rings, records written to DRAM and the
lasting conditions. -/
def State.unreported (s : State) : State :=
  { s.unlogged with rings := [], dram := [], dramx := {}, sn := { s.sn with persist := [] } }

theorem unreported_eq_of_unlogged {s t : State} (h : t.unlogged = s.unlogged) : t.unreported = s.unreported :=
  (congrArg (fun u : State => ({ u with rings := [], dram := [], dramx := {}, sn := { u.sn with persist := [] } } : State)) h :)

theorem unreported_eq_of_inner {s t : State} (h : t.inner = s.inner) : t.unreported = s.unreported :=
  unreported_eq_of_unlogged (State.unlogged_eq_of_inner h)

theorem chans_eq_of_unreported {s t : State} (h : t.unreported = s.unreported) : t.chans = s.chans := (congrArg State.chans h :)

section
variable (s : State)

/-! ## Interrupts and staging -/

@[simp] theorem State.unreported_put (a : Nat) (f : Fld) (v : Nat) : (s.put a f v).unreported = s.unreported := rfl
@[simp] theorem State.unreported_putWide (a v : Nat) : (s.putWide a v).unreported = s.unreported := rfl
@[simp] theorem State.unreported_count (a n : Nat) : (s.count a n).unreported = s.unreported := rfl
@[simp] theorem State.unreported_setRing (q : Nat) (x : RingX) : (s.setRing q x).unreported = s.unreported := rfl

@[simp] theorem State.unreported_raiseVec (fn v : Nat) : (s.raiseVec fn v).unreported = s.unreported :=
  unreported_eq_of_inner (s.inner_raiseVec fn v)

@[simp] theorem State.unreported_mgrIrq : s.mgrIrq.unreported = s.unreported := s.unreported_raiseVec 0 0

@[simp] theorem State.unreported_eventIrq (a : Nat) (own mgr : Bool) : (s.eventIrq a own mgr).unreported = s.unreported := by
  unfold State.eventIrq
  split
  · cases own <;> simp
  · cases own <;> cases mgr <;> simp
  · cases own
    · rfl
    · simp only [if_true]
      split <;> simp

@[simp] theorem State.unreported_raise (a : Nat) (f : Fld) : (s.raise a f).unreported = s.unreported := by
  unfold State.raise
  split
  · rfl
  · exact State.unreported_eventIrq _ _ _ _

@[simp] theorem State.unreported_stage (r : LogRec) : (s.stage r).unreported = s.unreported :=
  unreported_eq_of_unlogged (StagesOnly.stage s r).unlogged

/-! ## Records (R154, R166, R171) -/

@[simp] theorem State.unreported_logRefused (w : Who) : (s.logRefused w).unreported = s.unreported := by
  unfold State.logRefused
  split <;> rfl

theorem State.unreported_locWrite {t : State} {fn a : Nat} {dram : Bool} {bs : List Byte} (hw : s.locWrite fn dram a bs = some t) :
    t.unreported = s.unreported := by
  unfold State.locWrite State.dramPut at hw
  split at hw
  · split at hw
    · cases hw
      obtain ⟨x, hx⟩ := s.dramWrite_eq a bs
      rw [hx]
      rfl
    · exact absurd hw (by simp)
  · cases hw
    exact unreported_eq_of_inner (s.inner_hostWrite _ a bs)

@[simp] theorem State.unreported_itemIrq (q : Nat) : (s.itemIrq q).unreported = s.unreported := by
  unfold State.itemIrq
  split <;> simp

@[simp] theorem State.unreported_onItem (q : Nat) (irq : Bool) : (s.onItem q irq).unreported = s.unreported := by
  unfold State.onItem State.checkItems
  dsimp only
  split
  · rfl
  split <;> simp

@[simp] theorem State.unreported_dropRecord (q : Nat) : (s.dropRecord q).unreported = s.unreported := State.unreported_raise _ _ _

theorem State.unreported_writeRecord {t : State} {q kind : Nat} {payload : List Byte} {stamp : Option Nat}
    (hw : s.writeRecord q kind payload stamp = some t) : t.unreported = s.unreported := by
  unfold State.writeRecord at hw
  split at hw
  · exact absurd hw (by simp)
  dsimp only at hw
  split at hw
  · exact absurd hw (by simp)
  · next hloc =>
    cases hw
    simp [State.ringLook, s.unreported_locWrite hloc]

@[simp] theorem State.unreported_deliver (q kind : Nat) (payload : List Byte) (force : Bool) (stamp : Option Nat) :
    (s.deliver q kind payload force stamp).unreported = s.unreported := by
  unfold State.deliver
  extract_lets who told
  have htold : told.unreported = s.unreported := by
    dsimp only [told]
    split
    · split
      · next hrec => simp [s.unreported_writeRecord hrec]
      · rfl
    · rfl
  split
  · simp
  split
  · simp [htold]
  split
  · simp [htold]
  · next hrec =>
    have hwritten := (told.unreported_writeRecord hrec).trans htold
    split <;> simp [hwritten]

theorem State.unreported_eventRecord (i kind : Nat) (payload : List Byte) (force : Bool) (stamp : Option Nat) :
    (s.eventRecord i kind payload force stamp).unreported = s.unreported := by
  unfold State.eventRecord
  split
  · simp
  · rfl

/-! ## Faults (R503 to R505) -/

theorem State.unreported_faultNoted (src : Nat) (i : FaultInfo) : (s.faultNoted src i).unreported = s.unreported := by
  unfold State.faultNoted
  extract_lets last kept flagged counted
  have hkept : kept.unreported = s.unreported := by
    dsimp only [kept]
    split <;> rfl
  simp [counted, flagged, hkept]

theorem State.unreported_stopOutputs : s.stopOutputs.unreported = s.unreported := by
  unfold State.stopOutputs
  split
  · rfl
  · exact State.unreported_raise _ _ _

theorem State.unreported_fault (src : Nat) (i : FaultInfo) : (s.fault src i).unreported = s.unreported := by
  obtain ⟨r, stops, rec_, heq⟩ := s.fault_eq src i
  have htold : (s.faultTold src i r stops).unreported = s.unreported := by
    have hnoted : (((s.faultNoted src i).raise snB Reg.SN_EVENT_FAULT).stage r).unreported = s.unreported := by
      rw [State.unreported_stage, State.unreported_raise, State.unreported_faultNoted]
    cases stops
    · exact hnoted
    · exact (State.unreported_stopOutputs _).trans hnoted
  rw [heq, State.each_eq_of_keeps (F := State.unreported) (fun u k => u.unreported_eventRecord k 4 rec_ true none), htold]

@[simp] theorem State.chans_raise (a : Nat) (f : Fld) : (s.raise a f).chans = s.chans := chans_eq_of_unreported (s.unreported_raise a f)
@[simp] theorem State.chans_fault (src : Nat) (i : FaultInfo) : (s.fault src i).chans = s.chans :=
  chans_eq_of_unreported (s.unreported_fault src i)

end

end Sys2Proof.Machine
end

section
/-! The frames of the memory controller and of its channels (R353): no register of theirs follows the state, so after a command each reads
as the command left it. -/
namespace Sys2Proof.Machine

/-! ## Addresses -/

theorem aboveSn_chB (c : Fin 16) {o : Nat} (ho : o < 0x4000) : aboveSn (chB c.val + o) := by
  simp only [aboveSn_iff, chB, FrameKind.at, FrameKind.base, FrameKind.stride]
  omega

theorem aboveSn_dmcB {o : Nat} (ho : o < 0x10000) : aboveSn (dmcB + o) := by
  simp only [aboveSn_iff, dmcB, FrameKind.base]
  omega

/-- The offset of a register tells the channels' frames and the controller's apart: they lie 16 KiB apart. -/
theorem chB_add_ne_dmcB {o o' : Nat} (ho : o < 0x4000) (ho' : o' < 0x4000) (hne : o ≠ o') (c : Nat) : chB c + o ≠ dmcB + o' := by
  simp only [chB, dmcB, FrameKind.at, FrameKind.base, FrameKind.stride]
  omega

/-! ## What ends a command -/

section
variable (pre post : State)

theorem rd_settle_ch (c : Fin 16) {g : Fld} (ho : g.off < 0x4000) (hg : g.lo < 32) :
    (settle pre post).rd (chB c.val) g = post.rd (chB c.val) g := rd_settle (not_outputReg_of_aboveSn (aboveSn_chB c ho)) hg

theorem rd_settle_dmc {g : Fld} (ho : g.off < 0x10000) (hg : g.lo < 32) : (settle pre post).rd dmcB g = post.rd dmcB g :=
  rd_settle (not_outputReg_of_aboveSn (aboveSn_dmcB ho)) hg

theorem owed_settle (c : Fin 16) (rank : Nat) : (settle pre post).owed c.val rank = post.owed c.val rank := by
  unfold State.owed owedFld
  split <;> exact rd_settle_ch pre post c (by decide) (by decide)

@[simp] theorem chan_settle (k : Nat) : (settle pre post).chan k = post.chan k :=
  congrArg (KMap.get (fun _ => ({} : ChanX)) · k) (congrArg State.chans (inner_settle pre post) :)

@[simp] theorem dramx_settle : (settle pre post).dramx = post.dramx := (congrArg State.dramx (inner_settle pre post) :)

end

/-! ## Flags -/

section
variable (s : State) (f : Fld)

@[simp] theorem State.chan_raise (a k : Nat) : (s.raise a f).chan k = s.chan k :=
  congrArg (KMap.get (fun _ => ({} : ChanX)) · k) (s.chans_raise a f)

@[simp] theorem State.chan_fault (src : Nat) (i : FaultInfo) (k : Nat) : (s.fault src i).chan k = s.chan k :=
  congrArg (KMap.get (fun _ => ({} : ChanX)) · k) (s.chans_fault src i)

@[simp] theorem State.chan_count (a n k : Nat) : (s.count a n).chan k = s.chan k := rfl
@[simp] theorem State.chan_clearPersist (src idx k : Nat) : (s.clearPersist src idx).chan k = s.chan k := rfl

theorem State.dram_raise {a : Nat} (h : frameOf a = .block) : (s.raise a f).dram = s.dram :=
  (congrArg State.dram (s.inner_raise (notRing_of_block h) f) :)

end

/-! ## Loops -/

section
variable {α : Type} {f : State → α → State} {I P : State → Prop} {l : List α}

/-- What every step of a loop keeps holds after it. -/
theorem State.each_of_keeps (hI : ∀ u x, I u → I (f u x)) {s : State} (hs : I s) : I (s.each l f) := by
  induction l generalizing s with
  | nil => exact hs
  | cons x l ih => exact ih (hI s x hs)

/-- What one step of a loop brings about and every later step keeps, while an invariant holds, holds after it. -/
theorem State.each_of_mem {a : α} (ha : a ∈ l) (hI : ∀ u x, I u → I (f u x)) (hset : ∀ u, I u → P (f u a))
    (hP : ∀ u x, I u → P u → P (f u x)) {s : State} (hs : I s) : P (s.each l f) := by
  induction l generalizing s with
  | nil => exact absurd ha List.not_mem_nil
  | cons x l ih =>
    rcases List.mem_cons.mp ha with rfl | ha
    · exact (State.each_of_keeps (I := fun u => I u ∧ P u) (fun u y hu => ⟨hI u y hu.1, hP u y hu.1 hu.2⟩)
        ⟨hI s a hs, hset s hs⟩).2
    · exact ih ha (hI s x hs)

end

/-! ## Ranks -/

/-- The state of a rank in DMC_c_STATUS. -/
def rankFld (rank : Nat) : Fld := if rank = 0 then Reg.DMCCH_STATUS_RANK0 else Reg.DMCCH_STATUS_RANK1

theorem rankFld_place (rank : Nat) : (rankFld rank).off = 0 ∧ (rankFld rank).lo < 32 ∧ (rankFld rank).w = 2 := by
  unfold rankFld
  split <;> decide

theorem owedFld_place (rank : Nat) : (owedFld rank).off = 0 ∧ (owedFld rank).lo < 32 ∧ (owedFld rank).w = 6 := by
  unfold owedFld
  split <;> decide

theorem rankFld_apart_owedFld (r k : Nat) : apart (rankFld r) (owedFld k) := by
  unfold rankFld owedFld
  split <;> split <;> decide

/-- Rank 0 is there always, rank 1 where the fit has two. -/
theorem State.ranks_eq (s : State) : s.ranks = [0] ∨ s.ranks = [0, 1] := by
  unfold State.ranks
  split
  · exact .inr rfl
  · exact .inl rfl

theorem State.zero_mem_ranks (s : State) : 0 ∈ s.ranks := by
  rcases s.ranks_eq with h | h <;> simp [h]

@[simp] theorem ChanX.forced_setForced_self (x : ChanX) (r : Nat) (b : Bool) : (x.setForced r b).forced r = b := by
  unfold ChanX.setForced ChanX.forced
  split <;> rfl

/-- A rank that is forced stays so while another is marked; ranks above 1 share the mark of rank 1. -/
theorem ChanX.forced_setForced_true {x : ChanX} {k : Nat} (h : x.forced k = true) (r : Nat) : (x.setForced r true).forced k = true := by
  unfold ChanX.setForced
  unfold ChanX.forced at h ⊢
  by_cases hr : r = 0 <;> by_cases hk : k = 0 <;> simp_all

@[simp] theorem ChanX.factor_setForced (x : ChanX) (r k : Nat) (b : Bool) : (x.setForced r b).factor k = x.factor k := by
  unfold ChanX.setForced ChanX.factor
  split_ifs <;> rfl

/-! ## A rank that wakes (R381, R382) -/

section
variable (s : State) (c rank : Nat)

/-- A wake from self-refresh asks for an MR4 poll; nothing else of a channel's state changes. -/
theorem State.chan_wakeRank (k : Nat) : ∃ due, (s.wakeRank c rank).chan k = { s.chan k with pollDue := due } := by
  unfold State.wakeRank
  extract_lets f st
  split_ifs
  · exact ⟨_, rfl⟩
  · by_cases hk : c = k
    · subst hk
      exact ⟨true, State.chan_setChan_self _ _ _⟩
    · exact ⟨_, State.chan_setChan_ne _ _ hk⟩
  · exact ⟨_, rfl⟩

@[simp] theorem State.dram_wakeRank : (s.wakeRank c rank).dram = s.dram := by
  unfold State.wakeRank
  extract_lets f st
  split_ifs <;> rfl

variable {s c rank}

/-- An awake rank leaves power-down at most. -/
theorem State.wakeRank_of_awake (h : s.rankAsleep c rank = false) :
    s.wakeRank c rank = s ∨ s.wakeRank c rank = s.put (chB c) (rankFld rank) 0 := by
  have hst : ¬ 2 ≤ s.rd (chB c) (rankFld rank) := of_decide_eq_false h
  by_cases hpd : s.rd (chB c) (rankFld rank) = 1
  · exact .inr (if_pos hpd)
  · exact .inl ((if_neg hpd).trans (if_neg hst))

theorem State.chan_wakeRank_of_awake (h : s.rankAsleep c rank = false) (k : Nat) : (s.wakeRank c rank).chan k = s.chan k := by
  rcases State.wakeRank_of_awake h with h | h <;> rw [h]
  rfl

end

end Sys2Proof.Machine
end

section
/-! Maintenance of a channel (O34): refresh intervals, the age of requests, MR4 polls and results, row disturbance, and low power. -/
namespace Sys2Proof.Machine

section
variable {s : State} {c : Fin 16}

/-! ## Refresh intervals (R367, R370) -/

/-- A tick on an awake rank raises its owed count, held by the field's width at 63, and may count a postponed refresh. -/
theorem doRefreshTick_of_awake {rank : Nat} (hrun : s.rd dmcB Reg.DMC_STATUS_STATE = 3) (hrank : s.ranks.contains rank = true)
    (hawake : s.rankAsleep c.val rank = false) :
    let t := (s.wakeRank c.val rank).put (chB c.val) (owedFld rank) (min (s.owed c.val rank + 1) 63)
    doRefreshTick s c.val rank = t ∨ doRefreshTick s c.val rank = t.count (chB c.val + Reg.DMCCH_POSTPONED) 1 := by
  have hgo : ¬ (s.rd dmcB Reg.DMC_STATUS_STATE ≠ 3 ∨ (!s.ranks.contains rank) = true ∨ s.rankAsleep c.val rank = true) := by
    simp [hrun, List.contains_iff_mem.mp hrank, hawake]
  intro t
  unfold doRefreshTick
  rw [if_neg hgo]
  dsimp only
  split
  · exact .inr rfl
  · exact .inl rfl

theorem completes_refreshTick_awake {rank : Fin 2} (hrun : s.rd dmcB Reg.DMC_STATUS_STATE = 3)
    (hrank : s.ranks.contains rank.val = true) (hawake : s.rankAsleep c.val rank.val = false) :
    completes (.refreshTick c rank) s fun t =>
      t.owed c.val rank.val = min (s.owed c.val rank.val + 1) 63 ∧ t.dram = s.dram ∧ t.chan c.val = s.chan c.val := by
  have howed : min (s.owed c.val rank.val + 1) 63 % 2 ^ (owedFld rank.val).w = min (s.owed c.val rank.val + 1) 63 := by
    rw [(owedFld_place _).2.2]
    omega
  rcases doRefreshTick_of_awake hrun hrank hawake with h | h <;> refine completes_of_effect rfl h ⟨?_, ?_, ?_⟩
  · rw [owed_settle, State.owed, State.rd_put_self, howed]
  · rw [dram_settle, State.put_dram, State.dram_wakeRank]
  · rw [chan_settle, State.chan_put, State.chan_wakeRank_of_awake hawake]
  · rw [owed_settle, State.owed, State.rd_count, State.rd_put_self, howed]
  · rw [dram_settle]
    exact s.dram_wakeRank _ _
  · rw [chan_settle, State.chan_count, State.chan_put, State.chan_wakeRank_of_awake hawake]

/-- A rank in self-refresh refreshes itself: the interval is no event for it (log entry 3). -/
theorem doRefreshTick_of_asleep {rank : Nat} (hasleep : s.rankAsleep c.val rank = true) : doRefreshTick s c.val rank = s :=
  if_pos (.inr (.inr hasleep))

/-! ## Age and polls (R364, R369) -/

theorem completes_requestAgePromote : completes (.requestAgePromote c) s fun t => (t.chan c.val).queue = (s.chan c.val).queue.map fun r =>
    if r.urg = 0 ∧ r.arrived + s.rd dmcB Reg.DMC_POLICY_AGE_US * 1000 ≤ s.now then { r with urg := 1 } else r := by
  refine completes_of_effect rfl rfl ?_
  rw [chan_settle, doPromote, State.chanLook, State.chan_put, State.chan_put, State.modChan_eq, State.chan_setChan_self]

theorem completes_mr4Poll (hrun : s.rd dmcB Reg.DMC_STATUS_STATE = 3) (hawake : s.rankAsleep c.val 0 = false)
    (hprobe : (s.chan c.val).probeEnd + 2000 ≤ s.now) :
    completes (.mr4Poll c) s fun t => (t.chan c.val).pollDue = true ∧ keepsRegs s t := by
  have hgo : ¬ (s.rd dmcB Reg.DMC_STATUS_STATE ≠ 3 ∨ s.rankAsleep c.val 0 = true ∨ s.now < (s.chan c.val).probeEnd + 2000) := by
    simp [hrun, hawake, hprobe]
  refine completes_of_effect rfl (if_neg hgo) ⟨?_, keepsRegs_settle rfl⟩
  rw [chan_settle, State.modChan_eq, State.chan_setChan_self]

/-! ## The rate factor of a rank (R369, R370) -/

theorem State.factor_wakeRank (u : State) (k rank r : Nat) : ((u.wakeRank k rank).chan k).factor r = (u.chan k).factor r := by
  obtain ⟨due, h⟩ := u.chan_wakeRank k rank k
  rw [h]
  rfl

theorem State.factor_force (u : State) (k rank r : Nat) : ((u.force k rank).chan k).factor r = (u.chan k).factor r := by
  rw [State.force, State.chan_raise, State.modChan_eq, State.chan_setChan_self, ChanX.factor_setForced]

/-- The owed count follows the new factor, events are raised and TEMP faults recorded; the factor of the result stands. -/
theorem State.factor_doMr4Result {rank : Nat} (band : Nat) (hrun : s.rd dmcB Reg.DMC_STATUS_STATE = 3)
    (hrank : s.ranks.contains rank = true) : ((doMr4Result s c.val rank band).chan c.val).factor rank = 2 ^ band := by
  have hgo : ¬ (s.rd dmcB Reg.DMC_STATUS_STATE ≠ 3 ∨ (!s.ranks.contains rank) = true) := by
    simp [hrun, List.contains_iff_mem.mp hrank]
  unfold doMr4Result
  rw [if_neg hgo]
  extract_lets x old new n rated woken owed told
  have hrated : (rated.chan c.val).factor rank = new := by
    show (State.chan (State.setChan s c.val _) c.val).factor rank = new
    rw [State.chan_setChan_self]
    unfold ChanX.factor
    split <;> rfl
  have howed : (owed.chan c.val).factor rank = new := by
    dsimp only [owed]
    split_ifs
    · exact hrated
    · rw [State.factor_force, State.chan_put, State.factor_wakeRank, hrated]
    · rw [State.chan_put, State.factor_wakeRank, hrated]
    · exact hrated
    · exact hrated
  have htold : (told.chan c.val).factor rank = new := by
    dsimp only [told]
    split
    · rw [State.chan_raise, howed]
    · exact howed
  split_ifs
  · rw [State.chan_fault, State.chan_raise, htold]
  · rw [State.chan_clearPersist, htold]
  · exact htold

theorem completes_mr4Result {rank : Fin 2} (band : Fin 3) (hrun : s.rd dmcB Reg.DMC_STATUS_STATE = 3)
    (hrank : s.ranks.contains rank.val = true) :
    completes (.mr4Result c rank band) s fun t => (t.chan c.val).factor rank.val = 2 ^ band.val := by
  refine completes_of_effect rfl rfl ?_
  rw [chan_settle, State.factor_doMr4Result _ hrun hrank]

/-! ## Row disturbance (R373) -/

theorem completes_disturbWindowEnd : completes (.disturbWindowEnd c) s fun t => (t.chan c.val).banks = (s.chan c.val).banks.map
    (fun e => (e.1, { e.2 with table := e.2.table.map fun r => (r.1, r.2 / 2) })) ∧ keepsRegs s t := by
  refine completes_of_effect rfl rfl ⟨?_, keepsRegs_settle rfl⟩
  rw [chan_settle, doDisturbWindow, State.modChan_eq, State.chan_setChan_self]

/-! ## Low power (R381, R382) -/

theorem completes_rankPowerDown {rank : Fin 2} (hrun : s.rd dmcB Reg.DMC_STATUS_STATE = 3) (hrank : s.ranks.contains rank.val = true)
    (howed : s.owed c.val rank.val = 0) (hpower : s.rd (chB c.val) (rankFld rank.val) = 0)
    (hidle : ((s.chan c.val).queue.any fun r => decide ((r.place s).rank = rank.val)) = false) :
    completes (.rankPowerDown c rank) s fun t =>
      t.rd (chB c.val) (rankFld rank.val) = 1 ∧ keeps (· = chB c.val + (rankFld rank.val).off) s t := by
  obtain ⟨hoff, hlo, hw⟩ := rankFld_place rank.val
  have hgo : ¬ (s.rd dmcB Reg.DMC_STATUS_STATE ≠ 3 ∨ (!s.ranks.contains rank.val) = true ∨
      ((s.chan c.val).queue.any fun r => decide ((r.place s).rank = rank.val)) = true ∨ s.owed c.val rank.val ≠ 0 ∨
      s.rd (chB c.val) (rankFld rank.val) ≠ 0) := by
    simp only [hrun, hrank, howed, hpower, hidle]
    decide
  refine completes_of_effect (u := s.put (chB c.val) (rankFld rank.val) 1) rfl (if_neg hgo)
    ⟨?_, ((keeps.refl (· = chB c.val + (rankFld rank.val).off) s).put 1 hlo rfl).settle s⟩
  rw [rd_settle_ch _ _ _ (by rw [hoff]; decide) hlo, State.rd_put_self, hw]
  rfl

/-- One rank's step of `State.selfRefresh`. -/
def State.rankSelfRefresh (s : State) (c st r : Nat) : State :=
  let s := ((s.count (chB c + Reg.DMCCH_REFRESHES) (s.owed c r)).put (chB c) (owedFld r) 0)
  let s := s.modChan c fun x => { (List.range 16).foldl (fun (x : ChanX) b => x.closeBank (16 * r + b)) x with ecc := [] }
  (s.modChan c fun x => x.setForced r false).put (chB c) (rankFld r) st

theorem State.selfRefresh_eq (s : State) (c st : Nat) : s.selfRefresh c st = s.each s.ranks fun u r => u.rankSelfRefresh c st r := rfl

theorem State.rd_rankSelfRefresh (u : State) (k st r : Nat) (g : Fld) : (u.rankSelfRefresh k st r).rd (chB k) g =
    ((u.put (chB k) (owedFld r) 0).put (chB k) (rankFld r) st).rd (chB k) g := by
  simp only [State.rankSelfRefresh, State.rd_put, State.modChan_eq, State.rd_setChan, State.rd_count]

/-- What a rank in self-refresh reads as: its state, and no refresh owed. -/
theorem State.rankSelfRefresh_self (u : State) (k st r : Nat) :
    (u.rankSelfRefresh k st r).rd (chB k) (rankFld r) = st % 4 ∧ (u.rankSelfRefresh k st r).owed k r = 0 := by
  constructor
  · rw [State.rd_rankSelfRefresh, State.rd_put_self, (rankFld_place r).2.2]
    rfl
  · rw [State.owed, State.rd_rankSelfRefresh, State.rd_put_apart _ (rankFld_apart_owedFld r r), State.rd_put_self, Nat.zero_mod]

theorem State.dram_rankSelfRefresh (u : State) (k st r : Nat) : (u.rankSelfRefresh k st r).dram = u.dram := by
  simp [State.rankSelfRefresh, State.count]

/-- The step of rank 1 leaves the state and the owed count of rank 0. -/
theorem State.rankSelfRefresh_zero_of_ne {r : Nat} (hr : r ≠ 0) (u : State) (k st : Nat) :
    (u.rankSelfRefresh k st r).rd (chB k) Reg.DMCCH_STATUS_RANK0 = u.rd (chB k) Reg.DMCCH_STATUS_RANK0 ∧
    (u.rankSelfRefresh k st r).owed k 0 = u.owed k 0 := by
  have hfld : rankFld r = Reg.DMCCH_STATUS_RANK1 ∧ owedFld r = Reg.DMCCH_STATUS_OWED_1 := ⟨if_neg hr, if_neg hr⟩
  have hrd : ∀ g : Fld, apart Reg.DMCCH_STATUS_RANK1 g → apart Reg.DMCCH_STATUS_OWED_1 g →
      (u.rankSelfRefresh k st r).rd (chB k) g = u.rd (chB k) g := fun g hrank howed => by
    rw [State.rd_rankSelfRefresh, hfld.1, hfld.2, State.rd_put_apart _ hrank, State.rd_put_apart _ howed]
  exact ⟨hrd _ (by decide) (by decide), hrd _ (by decide) (by decide)⟩

/-- Every rank enters self-refresh with its owed refreshes issued; what memory holds stays. -/
theorem State.selfRefresh_zero (s : State) (k : Nat) {st : Nat} (hst : st < 4) :
    (s.selfRefresh k st).rd (chB k) Reg.DMCCH_STATUS_RANK0 = st ∧ (s.selfRefresh k st).owed k 0 = 0 ∧
    (s.selfRefresh k st).dram = s.dram := by
  have hzero : ∀ u : State, (u.rankSelfRefresh k st 0).rd (chB k) Reg.DMCCH_STATUS_RANK0 = st ∧
      (u.rankSelfRefresh k st 0).owed k 0 = 0 := fun u => by
    obtain ⟨hrank, howed⟩ := u.rankSelfRefresh_self k st 0
    exact ⟨hrank.trans (Nat.mod_eq_of_lt hst), howed⟩
  rw [State.selfRefresh_eq]
  refine and_assoc.mp ⟨?_, State.each_of_keeps (I := fun u => u.dram = s.dram)
    (fun u r hu => (u.dram_rankSelfRefresh k st r).trans hu) rfl⟩
  refine State.each_of_mem (I := fun _ => True) (P := fun u => u.rd (chB k) Reg.DMCCH_STATUS_RANK0 = st ∧ u.owed k 0 = 0)
    s.zero_mem_ranks (fun _ _ h => h) (fun u _ => hzero u) (fun u r _ hu => ?_) trivial
  by_cases hr : r = 0
  · subst hr
    exact hzero u
  · obtain ⟨hrank, howed⟩ := u.rankSelfRefresh_zero_of_ne hr k st
    exact ⟨hrank.trans hu.1, howed.trans hu.2⟩

theorem completes_channelSelfRefresh (hrun : s.rd dmcB Reg.DMC_STATUS_STATE = 3) (hpower : s.rd picB Reg.PIC_STATE_STATE ≤ 1)
    (hscans : ∀ h : Fin 8, s.scans h.val = false) (hcaps : ∀ p : Fin 4, s.rd (capB p.val) Reg.CAP_STATUS_STATE = 0)
    (henabled : s.rd dmcB Reg.DMC_LP_SR_IDLE_US ≠ 0) (hqueue : (s.chan c.val).queue = []) (hheld : (s.chan c.val).held = [])
    (hawake : s.rankAsleep c.val 0 = false) : completes (.channelSelfRefresh c) s fun t =>
      t.rd (chB c.val) Reg.DMCCH_STATUS_RANK0 = 2 ∧ t.owed c.val 0 = 0 ∧ t.dram = s.dram := by
  have hnoScan : (List.range 8).any s.scans = false := by
    simpa using fun h hh => hscans ⟨h, hh⟩
  have hnoCap : ((List.range 4).any fun p => decide (s.rd (capB p) Reg.CAP_STATUS_STATE ≠ 0)) = false := by
    simpa using fun p hp => hcaps ⟨p, hp⟩
  have heffect : doChannelSr s c.val = s.selfRefresh c.val 2 := by
    refine if_pos ⟨hrun, ?_, by rw [hawake]; rfl⟩
    simp only [hnoScan, hnoCap, hqueue, hheld, decide_eq_true hpower, decide_eq_true henabled]
    rfl
  obtain ⟨hrank, howed, hdram⟩ := s.selfRefresh_zero c.val (st := 2) (by decide)
  refine completes_of_effect rfl heffect ⟨?_, ?_, ?_⟩
  · rw [rd_settle_ch _ _ _ (by decide) (by decide), hrank]
  · rw [owed_settle, howed]
  · rw [dram_settle, hdram]

end

/-- Settles O34, a command each; that a tick on a rank in self-refresh has no effect is log entry 3. -/
theorem dramMaintenance : Obligations.DramMaintenance := by
  unfold Obligations.DramMaintenance
  intro s c rank hrun hrank f
  refine ⟨completes_refreshTick_awake hrun hrank, fun hasleep => ?_, completes_requestAgePromote, completes_mr4Poll hrun,
    fun band => completes_mr4Result band hrun hrank, completes_disturbWindowEnd, completes_rankPowerDown hrun hrank,
    completes_channelSelfRefresh hrun⟩
  exact completes_of_effect rfl (doRefreshTick_of_asleep hasleep) ⟨(keeps.refl _ s).settle s, (keepsWide.refl _ s).settle s⟩

end Sys2Proof.Machine
end

section
/-! Writes of DMC_REFRESH (O35, R368, R371): the ranks that a lower LIMIT forces at once, and a LIMIT with a reserved value (R5). -/
namespace Sys2Proof.Machine

/-! ## An ignored value recorded (R82, R83) -/

section
variable (s : State) {a : Nat} {f g : Fld}

/-- A block's error flag is set, and its message leaves the block's registers. -/
theorem State.rd_raiseErr_block {b : Nat} (hb : frameOf a = .block) (hpba : b + g.off ≠ pbaBase 0) (hg : g.lo < 32)
    (hclear : s.rd a f ≠ 1) : (s.raiseErr a f).rd b g = (s.put a f 1).rd b g := by
  unfold State.raiseErr
  rw [if_neg hclear]
  dsimp only
  split
  · rw [State.errIrq, hb]
    exact State.rd_mgrIrq _ hpba hg
  · rfl

/-- The first ignored write since ACCESS_ERR was 0 sets it, with the kind and the word's number; the block's other registers are left. -/
theorem State.accessErr_block {off kind : Nat} (hb : frameOf a = .block) (hpba : ∀ o < 0x40, a + o ≠ pbaBase 0)
    (hclear : s.rd a Reg.ERR_ACCESS_ERR = 0) :
    (s.accessErr a off kind).rd a Reg.ERR_ACCESS_ERR = 1 ∧ (s.accessErr a off kind).rd a Reg.ERR_ACCESS_KIND = kind % 2 ^ 8 ∧
    (s.accessErr a off kind).rd a Reg.ERR_ACCESS_OFFSET = off / 4 % 2 ^ 20 ∧
    ∀ g : Fld, g.lo < 32 → g.off < Reg.ERR_ACCESS_ERR.off → (s.accessErr a off kind).rd a g = s.rd a g := by
  have hne : s.rd a Reg.ERR_ACCESS_ERR ≠ 1 := by omega
  have hput : ∀ g : Fld, g.lo < 32 → g.off < 0x40 → (s.accessErr a off kind).rd a g =
      (((s.put a Reg.ERR_ACCESS_KIND kind).put a Reg.ERR_ACCESS_OFFSET (off / 4)).put a Reg.ERR_ACCESS_ERR 1).rd a g := fun g hg ho => by
    rw [State.accessErr, if_neg hne, State.rd_raiseErr_block _ hb (hpba _ ho) hg]
    rwa [State.rd_put_apart _ (by decide), State.rd_put_apart _ (by decide)]
  refine ⟨?_, ?_, ?_, fun g hg ho => ?_⟩
  · rw [hput _ (by decide) (by decide), State.rd_put_self]
    rfl
  · rw [hput _ (by decide) (by decide), State.rd_put_apart _ (by decide), State.rd_put_apart _ (by decide), State.rd_put_self]
    rfl
  · rw [hput _ (by decide) (by decide), State.rd_put_apart _ (by decide), State.rd_put_self]
    rfl
  · have hapart : ∀ e : Fld, e.lo < 32 → e.off = Reg.ERR_ACCESS_ERR.off → apart e g := fun e he heo => ⟨he, hg, .inl (by omega)⟩
    rw [hput g hg (lt_trans ho (by decide)), State.rd_put_apart _ (hapart Reg.ERR_ACCESS_ERR (by decide) rfl),
      State.rd_put_apart _ (hapart Reg.ERR_ACCESS_OFFSET (by decide) rfl),
      State.rd_put_apart _ (hapart Reg.ERR_ACCESS_KIND (by decide) rfl)]

end

/-! ## Ranks forced (R370, R371) -/

/-- `t` differs from `s` at most by ranks marked as forced, their FORCED events and the messages that these send. -/
structure ForcesOnly (s t : State) : Prop where
  regs : ∀ (b : Nat) (g : Fld), g.lo < 32 → offPba (b + g.off) → (b + g.off) % 0x4000 ≠ Reg.DMCCH_EVENT_FORCED.off →
    t.rd b g = s.rd b g
  forced : ∀ k r, (s.chan k).forced r = true → (t.chan k).forced r = true

namespace ForcesOnly

variable {s t : State}

theorem refl (s : State) : ForcesOnly s s := ⟨fun _ _ _ _ _ => rfl, fun _ _ => id⟩

theorem trans {u : State} (h : ForcesOnly s t) (h' : ForcesOnly t u) : ForcesOnly s u :=
  ⟨fun b g hg hb hn => (h'.regs b g hg hb hn).trans (h.regs b g hg hb hn), fun k r hk => h'.forced k r (h.forced k r hk)⟩

theorem force (s : State) (k r : Nat) : ForcesOnly s (s.force k r) := by
  refine ⟨fun b g hg hb hn => ?_, fun j i hj => ?_⟩
  · refine (State.rd_raise_ne _ hb hg ?_).trans rfl
    simp only [fkey, chB, FrameKind.at, FrameKind.base, FrameKind.stride, Reg.DMCCH_EVENT_FORCED] at hn ⊢
    omega
  · rw [State.force, State.chan_raise, State.modChan_eq]
    by_cases hkj : k = j
    · subst hkj
      rw [State.chan_setChan_self]
      exact ChanX.forced_setForced_true hj r
    · rwa [State.chan_setChan_ne _ _ hkj]

theorem rd_dmc (h : ForcesOnly s t) {g : Fld} (hg : g.lo < 32) (ho : g.off < 0x4000) (hn : g.off ≠ Reg.DMCCH_EVENT_FORCED.off) :
    t.rd dmcB g = s.rd dmcB g := by
  refine h.regs _ _ hg (offPba_of_aboveSn (aboveSn_dmcB (lt_trans ho (by decide)))) ?_
  simp only [dmcB, FrameKind.base]
  omega

theorem owed (h : ForcesOnly s t) (c : Fin 16) (r : Nat) : t.owed c.val r = s.owed c.val r := by
  obtain ⟨hoff, hlo, -⟩ := owedFld_place r
  have ho : (owedFld r).off < 0x4000 := by
    rw [hoff]
    decide
  refine h.regs _ _ hlo (offPba_of_aboveSn (aboveSn_chB c ho)) ?_
  simp only [hoff, chB, FrameKind.at, FrameKind.base, FrameKind.stride, Reg.DMCCH_EVENT_FORCED]
  omega

theorem ranks (h : ForcesOnly s t) : t.ranks = s.ranks := by
  rw [State.ranks, State.ranks, h.rd_dmc (by decide) (by decide) (by decide)]

end ForcesOnly

/-- The part of `State.refreshWrite` for one rank, and for the ranks of one channel. -/
def State.forceAbove (s : State) (limit k r : Nat) : State := if limit < s.owed k r then s.force k r else s
def State.forceRanks (s : State) (limit k : Nat) : State := s.each s.ranks fun u r => u.forceAbove limit k r

/-- The three fields of DMC_REFRESH written. -/
def State.putRefresh (s : State) (limit allBank pollUs : Nat) : State :=
  ((s.put dmcB Reg.DMC_REFRESH_LIMIT limit).put dmcB Reg.DMC_REFRESH_ALL_BANK allBank).put dmcB Reg.DMC_REFRESH_POLL_US pollUs

section
variable (s : State) (limit : Nat)

theorem State.forcesOnly_forceAbove (k r : Nat) : ForcesOnly s (s.forceAbove limit k r) := by
  unfold State.forceAbove
  split
  · exact .force s k r
  · exact .refl s

theorem State.forcesOnly_forceRanks (k : Nat) : ForcesOnly s (s.forceRanks limit k) :=
  State.each_of_keeps (I := ForcesOnly s) (fun u r hu => hu.trans (u.forcesOnly_forceAbove limit k r)) (.refl s)

theorem State.forced_forceAbove {k r : Nat} (h : limit < s.owed k r) : ((s.forceAbove limit k r).chan k).forced r = true := by
  rw [State.forceAbove, if_pos h, State.force, State.chan_raise, State.modChan_eq, State.chan_setChan_self, ChanX.forced_setForced_self]

theorem State.forced_forceRanks {c : Fin 16} {r : Nat} (hr : r ∈ s.ranks) (h : limit < s.owed c.val r) :
    ((s.forceRanks limit c.val).chan c.val).forced r = true :=
  State.each_of_mem (I := ForcesOnly s) (P := fun u => (u.chan c.val).forced r = true) hr
    (fun u i hu => hu.trans (u.forcesOnly_forceAbove limit c.val i))
    (fun u hu => u.forced_forceAbove limit (by rwa [hu.owed]))
    (fun u i _ hf => (u.forcesOnly_forceAbove limit c.val i).forced _ _ hf) (.refl s)

/-- After a write of DMC_REFRESH every rank above the limit is forced, and nothing else than the three fields is written. -/
theorem State.forcesOnly_refreshWrite (allBank pollUs : Nat) :
    ForcesOnly (s.putRefresh limit allBank pollUs) (s.refreshWrite limit allBank pollUs) :=
  State.each_of_keeps (I := ForcesOnly (s.putRefresh limit allBank pollUs))
    (fun u k hu => hu.trans (u.forcesOnly_forceRanks limit k)) (.refl _)

theorem State.owed_putRefresh (allBank pollUs : Nat) (c : Fin 16) (r : Nat) :
    (s.putRefresh limit allBank pollUs).owed c.val r = s.owed c.val r := by
  obtain ⟨hoff, hlo, -⟩ := owedFld_place r
  have hput : ∀ (u : State) (f : Fld) (v : Nat), f.off = Reg.DMC_REFRESH_LIMIT.off → f.lo < 32 →
      (u.put dmcB f v).owed c.val r = u.owed c.val r := fun u f v ho hf => u.rd_put_addr v hf hlo
      (by rw [ho, hoff]; exact (chB_add_ne_dmcB (by decide) (by decide) (by decide) c.val).symm)
  rw [State.putRefresh, hput _ Reg.DMC_REFRESH_POLL_US _ rfl (by decide), hput _ Reg.DMC_REFRESH_ALL_BANK _ rfl (by decide),
    hput _ Reg.DMC_REFRESH_LIMIT _ rfl (by decide)]

theorem State.ranks_putRefresh (allBank pollUs : Nat) : (s.putRefresh limit allBank pollUs).ranks = s.ranks := by
  rw [State.ranks, State.putRefresh, State.rd_put_apart _ (by decide), State.rd_put_apart _ (by decide), State.rd_put_apart _ (by decide),
    State.ranks]

theorem State.forced_refreshWrite {allBank pollUs : Nat} {c : Fin 16} {r : Nat} (hr : r ∈ s.ranks) (h : limit < s.owed c.val r) :
    ((s.refreshWrite limit allBank pollUs).chan c.val).forced r = true :=
  State.each_of_mem (I := ForcesOnly (s.putRefresh limit allBank pollUs)) (P := fun u => (u.chan c.val).forced r = true)
    (List.mem_range.mpr c.isLt) (fun u k hu => hu.trans (u.forcesOnly_forceRanks limit k))
    (fun u hu => u.forced_forceRanks limit (by rwa [hu.ranks, State.ranks_putRefresh]) (by rwa [hu.owed, State.owed_putRefresh]))
    (fun u k _ hf => (u.forcesOnly_forceRanks limit k).forced _ _ hf) (.refl _)

/-- What the three fields read as. -/
theorem State.rd_putRefresh (allBank pollUs : Nat) :
    (s.putRefresh limit allBank pollUs).rd dmcB Reg.DMC_REFRESH_LIMIT = limit % 2 ^ Reg.DMC_REFRESH_LIMIT.w ∧
    (s.putRefresh limit allBank pollUs).rd dmcB Reg.DMC_REFRESH_ALL_BANK = allBank % 2 ^ 1 ∧
    (s.putRefresh limit allBank pollUs).rd dmcB Reg.DMC_REFRESH_POLL_US = pollUs % 2 ^ 14 := by
  refine ⟨?_, ?_, ?_⟩
  · rw [State.putRefresh, State.rd_put_apart _ (by decide), State.rd_put_apart _ (by decide), State.rd_put_self]
  · rw [State.putRefresh, State.rd_put_apart _ (by decide), State.rd_put_self]
    rfl
  · rw [State.putRefresh, State.rd_put_self]
    rfl

theorem State.rd_putRefresh_of_ne (allBank pollUs : Nat) {g : Fld} (hg : g.lo < 32) (ho : g.off ≠ Reg.DMC_REFRESH_LIMIT.off) :
    (s.putRefresh limit allBank pollUs).rd dmcB g = s.rd dmcB g := by
  have hapart : ∀ f : Fld, f.lo < 32 → f.off = Reg.DMC_REFRESH_LIMIT.off → apart f g := fun f hf hoff => ⟨hf, hg, .inl (by omega)⟩
  rw [State.putRefresh, State.rd_put_apart _ (hapart Reg.DMC_REFRESH_POLL_US (by decide) rfl),
    State.rd_put_apart _ (hapart Reg.DMC_REFRESH_ALL_BANK (by decide) rfl),
    State.rd_put_apart _ (hapart Reg.DMC_REFRESH_LIMIT (by decide) rfl)]

/-- A register of the controller after a command that wrote DMC_REFRESH. -/
theorem State.rd_settle_refreshWrite (pre : State) (allBank pollUs : Nat) {g : Fld} (hg : g.lo < 32) (ho : g.off < 0x4000)
    (hn : g.off ≠ Reg.DMCCH_EVENT_FORCED.off) :
    (settle pre (s.refreshWrite limit allBank pollUs)).rd dmcB g = (s.putRefresh limit allBank pollUs).rd dmcB g := by
  rw [rd_settle_dmc _ _ (lt_trans ho (by decide)) hg, (s.forcesOnly_refreshWrite limit allBank pollUs).rd_dmc hg ho hn]

end

/-! ## The command -/

section
variable {s : State} {v : Nat}

theorem bitsOf_lt (v lo w : Nat) : bitsOf v lo w < 2 ^ w := Nat.mod_lt _ (Nat.two_pow_pos w)

theorem State.limitNow_of_legal (hlo : 1 ≤ bitsOf v 0 4) (hhi : bitsOf v 0 4 ≤ 8) (hplo : 100 ≤ bitsOf v 16 14)
    (hphi : bitsOf v 16 14 ≤ 16000) : s.limitNow v = s.refreshWrite (bitsOf v 0 4) (bitsOf v 4 1) (bitsOf v 16 14) := by
  have hlimit : (decide (bitsOf v 0 4 = 0) || decide (8 < bitsOf v 0 4)) = false := by
    simp only [Bool.or_eq_false_iff, decide_eq_false_iff_not]
    omega
  have hpoll : (decide (bitsOf v 16 14 < 100) || decide (16000 < bitsOf v 16 14)) = false := by
    simp only [Bool.or_eq_false_iff, decide_eq_false_iff_not]
    omega
  simp only [State.limitNow, hlimit, hpoll]
  rfl

theorem State.limitNow_of_badLimit (hbad : bitsOf v 0 4 = 0 ∨ 8 < bitsOf v 0 4) (hplo : 100 ≤ bitsOf v 16 14)
    (hphi : bitsOf v 16 14 ≤ 16000) : s.limitNow v = (s.accessErr dmcB 0x10 0x05).refreshWrite
      ((s.accessErr dmcB 0x10 0x05).rd dmcB Reg.DMC_REFRESH_LIMIT) (bitsOf v 4 1) (bitsOf v 16 14) := by
  have hlimit : (decide (bitsOf v 0 4 = 0) || decide (8 < bitsOf v 0 4)) = true := by
    simpa only [Bool.or_eq_true, decide_eq_true_eq] using hbad
  have hpoll : (decide (bitsOf v 16 14 < 100) || decide (16000 < bitsOf v 16 14)) = false := by
    simp only [Bool.or_eq_false_iff, decide_eq_false_iff_not]
    omega
  simp only [State.limitNow, hlimit, hpoll]
  rfl

/-- The fields of DMC_REFRESH after a command that wrote the low bits of a word to them. -/
theorem rd_settle_refreshFields (pre u : State) (limit : Nat) :
    let t := settle pre (u.refreshWrite limit (bitsOf v 4 1) (bitsOf v 16 14))
    t.rd dmcB Reg.DMC_REFRESH_LIMIT = limit % 2 ^ Reg.DMC_REFRESH_LIMIT.w ∧ t.rd dmcB Reg.DMC_REFRESH_POLL_US = bitsOf v 16 14 ∧
    t.rd dmcB Reg.DMC_REFRESH_ALL_BANK = bitsOf v 4 1 := by
  obtain ⟨hlimit, hbank, hpoll⟩ := u.rd_putRefresh limit (bitsOf v 4 1) (bitsOf v 16 14)
  refine ⟨?_, ?_, ?_⟩
  · rw [u.rd_settle_refreshWrite limit pre _ _ (by decide) (by decide) (by decide), hlimit]
  · rw [u.rd_settle_refreshWrite limit pre _ _ (by decide) (by decide) (by decide), hpoll, Nat.mod_eq_of_lt (bitsOf_lt v 16 14)]
  · rw [u.rd_settle_refreshWrite limit pre _ _ (by decide) (by decide) (by decide), hbank]
    exact Nat.mod_eq_of_lt (bitsOf_lt v 4 1)

end

section
variable {s : State} {v : Word} (ha : s.answers 0 = true) (hw : s.awaiting = false) (hplo : 100 ≤ bitsOf v.toNat 16 14)
  (hphi : bitsOf v.toNat 16 14 ≤ 16000)
include ha hw hplo hphi

theorem completes_limitWrite_legal (hlo : 1 ≤ bitsOf v.toNat 0 4) (hhi : bitsOf v.toNat 0 4 ≤ 8) : completes (.limitWrite v) s fun t =>
    t.rd dmcB Reg.DMC_REFRESH_LIMIT = bitsOf v.toNat 0 4 ∧ t.rd dmcB Reg.DMC_REFRESH_POLL_US = bitsOf v.toNat 16 14 ∧
    t.rd dmcB Reg.DMC_REFRESH_ALL_BANK = bitsOf v.toNat 4 1 ∧
    ∀ (c : Fin 16) (r : Nat), r ∈ s.ranks → bitsOf v.toNat 0 4 < s.owed c.val r → (t.chan c.val).forced r = true := by
  obtain ⟨hlimit, hpoll, hbank⟩ := rd_settle_refreshFields (v := v.toNat) s s (bitsOf v.toNat 0 4)
  refine completes_of_effect rfl ((State.mgrReach_of_answers ha hw _ _).trans (State.limitNow_of_legal hlo hhi hplo hphi))
    ⟨hlimit.trans (Nat.mod_eq_of_lt (bitsOf_lt _ 0 4)), hpoll, hbank, fun c r hr howed => ?_⟩
  rw [chan_settle, s.forced_refreshWrite _ hr howed]

theorem completes_limitWrite_badLimit (hbad : bitsOf v.toNat 0 4 = 0 ∨ 8 < bitsOf v.toNat 0 4)
    (hclear : s.rd dmcB Reg.ERR_ACCESS_ERR = 0) : completes (.limitWrite v) s fun t =>
    t.rd dmcB Reg.DMC_REFRESH_LIMIT = s.rd dmcB Reg.DMC_REFRESH_LIMIT % 2 ^ Reg.DMC_REFRESH_LIMIT.w ∧
    t.rd dmcB Reg.DMC_REFRESH_POLL_US = bitsOf v.toNat 16 14 ∧ t.rd dmcB Reg.DMC_REFRESH_ALL_BANK = bitsOf v.toNat 4 1 ∧
    t.rd dmcB Reg.ERR_ACCESS_ERR = 1 ∧ t.rd dmcB Reg.ERR_ACCESS_KIND = 5 ∧ t.rd dmcB Reg.ERR_ACCESS_OFFSET = 4 := by
  obtain ⟨herr, hkind, hoffset, hothers⟩ := s.accessErr_block (off := 0x10) (kind := 0x05) (by decide : frameOf dmcB = .block)
    (fun o ho => (offPba_of_aboveSn (aboveSn_dmcB (lt_trans ho (by decide)))).2) hclear
  have hkept : ∀ g : Fld, g.lo < 32 → g.off = Reg.ERR_ACCESS_ERR.off → ∀ limit,
      (settle s ((s.accessErr dmcB 0x10 0x05).refreshWrite limit (bitsOf v.toNat 4 1) (bitsOf v.toNat 16 14))).rd dmcB g =
      (s.accessErr dmcB 0x10 0x05).rd dmcB g := fun g hg ho limit => by
    rw [State.rd_settle_refreshWrite _ _ _ _ _ hg (by rw [ho]; decide) (by rw [ho]; decide),
      State.rd_putRefresh_of_ne _ _ _ _ hg (by rw [ho]; decide)]
  obtain ⟨hlimit, hpoll, hbank⟩ := rd_settle_refreshFields (v := v.toNat) s (s.accessErr dmcB 0x10 0x05)
    ((s.accessErr dmcB 0x10 0x05).rd dmcB Reg.DMC_REFRESH_LIMIT)
  refine completes_of_effect rfl ((State.mgrReach_of_answers ha hw _ _).trans (State.limitNow_of_badLimit hbad hplo hphi))
    ⟨?_, hpoll, hbank, ?_, ?_, ?_⟩
  · rw [hlimit, hothers _ (by decide) (by decide)]
  · rw [hkept Reg.ERR_ACCESS_ERR (by decide) rfl, herr]
  · rw [hkept Reg.ERR_ACCESS_KIND (by decide) rfl, hkind]
    rfl
  · rw [hkept Reg.ERR_ACCESS_OFFSET (by decide) rfl, hoffset]
    rfl

end

/-- Settles O35: a legal LIMIT, and a reserved one (R5, R82, R83). -/
theorem dramLimits : Obligations.DramLimits := by
  unfold Obligations.DramLimits
  intro s v ha hw l p
  exact ⟨fun hlo hhi hplo hphi => completes_limitWrite_legal ha hw hplo hphi hlo hhi,
    fun hbad hclear hplo hphi => completes_limitWrite_badLimit ha hw hplo hphi hbad hclear⟩

end Sys2Proof.Machine
end

section
/-! Requests, command slots and reads of the memory (O36, R362, R363, R384, R386, R399). -/
namespace Sys2Proof.Machine

/-! ## The queue of a channel (R359, R362) -/

/-- Requests that enter from Midway leave it: none is lost or made. -/
theorem length_admitList (q l : List QReq) (blocked : List Nat) :
    ((admitList q l blocked).1 ++ (admitList q l blocked).2).length = (q ++ l).length := by
  induction l generalizing q blocked with
  | nil => rfl
  | cons r rs ih =>
    unfold admitList
    split
    · rw [ih]
      simp
    · have := ih q (r.port :: blocked)
      simp only [List.length_append, List.length_cons] at this ⊢
      omega

section
variable (s : State) (k : Nat)

@[simp] theorem State.chan_chanLook (j : Nat) : (s.chanLook k).chan j = s.chan j := rfl

theorem State.dram_chanLook : (s.chanLook k).dram = s.dram := rfl

theorem State.length_admitHeld : (((s.admitHeld k).chan k).queue ++ ((s.admitHeld k).chan k).held).length =
    ((s.chan k).queue ++ (s.chan k).held).length := by
  rw [State.admitHeld, State.chan_chanLook, State.chan_setChan_self]
  exact length_admitList _ _ _

theorem State.dram_admitHeld : (s.admitHeld k).dram = s.dram := by
  rw [State.admitHeld, State.dram_chanLook, State.setChan_dram]

/-- The urgency of a request charges a budget at most (R361). -/
theorem State.urgencyOf_eq (r : DramReq) : ∃ x, (s.urgencyOf r).1 = { s with dramx := x } := by
  unfold State.urgencyOf
  extract_lets p i charged
  split_ifs <;> exact ⟨_, rfl⟩

end

/-! ## A request arrives (R359, R399) -/

section
variable {s : State} {r : DramReq}

/-- The block that a read asks for. -/
abbrev readBlock (r : DramReq) : Nat := r.addr.toNat / 64 * 64

theorem not_badRead (hrun : s.rd dmcB Reg.DMC_STATUS_STATE = 3) :
    ¬ (s.rd dmcB Reg.DMC_STATUS_STATE ≠ 3 ∨ 64 = 0 ∨ 64 < readBlock r % 64 + 64) := by
  unfold readBlock
  omega

theorem doDramArrive_of_refused (hrun : s.rd dmcB Reg.DMC_STATUS_STATE = 3) (hchecked : unchecked r.port.val = false)
    (hread : r.write = false) (hno : s.mayAccess (reqWho r) false (readBlock r) 64 = false) :
    doDramArrive s r = s.refuse (reqWho r) (readBlock r) 64 := by
  unfold doDramArrive
  simp only [hread, hchecked, Bool.false_eq_true, if_false]
  rw [if_neg (not_badRead hrun)]
  exact if_pos (by rw [hno]; rfl)

/-- A read that is permitted wakes its rank and joins the requests of its channel; those of its port and bank may rise in urgency. -/
theorem doDramArrive_of_permitted (hrun : s.rd dmcB Reg.DMC_STATUS_STATE = 3) (hchecked : unchecked r.port.val = false)
    (hread : r.write = false) (hyes : s.mayAccess (reqWho r) false (readBlock r) 64 = true) :
    ∃ (x : DramX) (raised : QReq → QReq) (q : QReq), doDramArrive s r =
      (((State.wakeRank { s with dramx := x } (s.place (readBlock r)).channel (s.place (readBlock r)).rank).modChan
        (s.place (readBlock r)).channel fun y => { y with queue := y.queue.map raised, held := y.held ++ [q] }).admitHeld
        (s.place (readBlock r)).channel) := by
  obtain ⟨x, hx⟩ := s.urgencyOf_eq r
  unfold doDramArrive
  simp only [hread, hchecked, Bool.false_eq_true, if_false]
  rw [if_neg (not_badRead hrun), if_neg (by rw [hyes]; decide), hx]
  exact ⟨x, _, _, rfl⟩

theorem completes_dramRequestArrive_permitted (hrun : s.rd dmcB Reg.DMC_STATUS_STATE = 3) (hchecked : unchecked r.port.val = false)
    (hread : r.write = false) (hyes : s.mayAccess (reqWho r) false (readBlock r) 64 = true) :
    completes (.dramRequestArrive r) s fun t => t.dram = s.dram ∧
      ((t.chan (s.place (readBlock r)).channel).queue ++ (t.chan (s.place (readBlock r)).channel).held).length =
        ((s.chan (s.place (readBlock r)).channel).queue ++ (s.chan (s.place (readBlock r)).channel).held).length + 1 := by
  obtain ⟨x, raised, q, heffect⟩ := doDramArrive_of_permitted hrun hchecked hread hyes
  generalize (s.place (readBlock r)).channel = k at heffect ⊢
  generalize (s.place (readBlock r)).rank = rank at heffect
  obtain ⟨due, hwoken⟩ := State.chan_wakeRank { s with dramx := x } k rank k
  refine completes_of_effect rfl heffect ⟨?_, ?_⟩
  · rw [dram_settle, State.dram_admitHeld, State.modChan_eq, State.setChan_dram, State.dram_wakeRank]
  · rw [chan_settle, State.length_admitHeld, State.modChan_eq, State.chan_setChan_self, hwoken]
    simp only [List.length_append, List.length_map, List.length_singleton]
    rfl

end

/-! ## A command slot (R363 to R366) -/

section
variable {s : State} {k : Nat}

theorem State.chan_batchLook : ∃ on, (s.batchLook k).chan k = { s.chan k with draining := on } := ⟨_, State.chan_setChan_self _ _ _⟩

/-- The first awake rank that is forced, or owes LIMIT refreshes, comes before every request (R363, R370). -/
theorem doCommandSlot_of_forced (hrun : s.rd dmcB Reg.DMC_STATUS_STATE = 3) (hawake : s.rankAsleep k 0 = false)
    (hforced : (s.chan k).forced 0 = true) : doCommandSlot s k = (s.batchLook k).refreshRank k 0 := by
  obtain ⟨on, hchan⟩ := s.chan_batchLook (k := k)
  have hforced' : ((s.batchLook k).chan k).forced 0 = true := by
    rw [hchan]
    exact hforced
  have hawake' : (s.batchLook k).rankAsleep k 0 = false := hawake
  obtain ⟨l, hranks⟩ : ∃ l, (s.batchLook k).ranks = 0 :: l := by
    rcases (s.batchLook k).ranks_eq with h | h <;> exact ⟨_, h⟩
  unfold doCommandSlot
  rw [if_neg (by rw [hrun]; decide)]
  simp [hranks, hawake', hforced']

/-- A channel with nothing queued, owed or to be mitigated only looks at its write batches. -/
theorem doCommandSlot_of_idle (hrun : s.rd dmcB Reg.DMC_STATUS_STATE = 3) (hqueue : (s.chan k).queue = []) (hmitig : (s.chan k).mitig = [])
    (hranks : ∀ r ∈ s.ranks, s.owed k r = 0 ∧ (s.chan k).forced r = false) (hlimit : 0 < s.refreshLimit) :
    doCommandSlot s k = s.batchLook k := by
  obtain ⟨on, hchan⟩ := s.chan_batchLook (k := k)
  have hmust : ((s.batchLook k).ranks.filter fun r => !(s.batchLook k).rankAsleep k r).find? (fun r =>
      ((s.batchLook k).chan k).forced r || decide ((s.batchLook k).refreshLimit ≤ (s.batchLook k).owed k r)) = none := by
    rw [List.find?_eq_none]
    intro r hr
    obtain ⟨howed, hforced⟩ := hranks r (List.mem_of_mem_filter hr)
    have howed' : (s.batchLook k).owed k r = 0 := howed
    have hlimit' : 0 < (s.batchLook k).refreshLimit := hlimit
    have hforced' : ((s.batchLook k).chan k).forced r = false := by
      rw [hchan]
      exact hforced
    simp only [howed', hforced', Bool.false_or, decide_eq_true_eq]
    omega
  have hmay : ((s.batchLook k).ranks.filter fun r => !(s.batchLook k).rankAsleep k r).find? (fun r =>
      decide (0 < (s.batchLook k).owed k r)) = none := by
    rw [List.find?_eq_none]
    intro r hr
    have howed' : (s.batchLook k).owed k r = 0 := (hranks r (List.mem_of_mem_filter hr)).1
    simp [howed']
  have helig : (s.batchLook k).eligible k = [] := by
    unfold State.eligible
    rw [hchan]
    dsimp only
    rw [hqueue, List.filter_nil]
  have hmitig' : ¬ ((s.batchLook k).chan k).mitig ≠ [] := by
    rw [hchan]
    exact not_not.mpr hmitig
  have hurgent : (s.batchLook k).urgentQueued k = false := by
    rw [State.urgentQueued, hchan]
    dsimp only
    rw [hqueue, List.any_nil]
  unfold doCommandSlot
  rw [if_neg (by rw [hrun]; decide)]
  simp only [hmust, hmay, helig, hurgent, if_neg hmitig', List.any_nil, Bool.false_eq_true, if_false]
  rfl

end

/-! ## Reads (R384, R386) -/

section
variable {s : State}

/-- With no error injected and no poison in the block, a clean check word finds nothing. -/
theorem State.findOn_clean {a : Nat} (harmed : s.sn.armed = []) (hpoison : s.poisoned (a / 64) = false) :
    s.findOn a .clean = (.clean, none) := by
  unfold State.findOn
  rw [harmed]
  simp only [List.find?_nil, hpoison]
  cases s.eccOn <;> rfl

theorem State.eccCheck_clean {a : Nat} (harmed : s.sn.armed = []) (hpoison : s.poisoned (a / 64) = false) (port inst : Nat) :
    s.eccCheck a port inst .clean = (s, true) := by
  unfold State.eccCheck
  rw [State.findOn_clean harmed hpoison]
  rfl

theorem doReadReturn_of_clean {addr : Nat} (hrun : s.rd dmcB Reg.DMC_STATUS_STATE = 3) (harmed : s.sn.armed = [])
    (hin : addr / 64 * 64 + 64 ≤ s.usable) (hpoison : s.poisoned (addr / 64) = false) (port inst : Nat) :
    doReadReturn s port inst addr .clean = { s with readData := s.dramBytes (addr / 64 * 64) 64 } := by
  have hblock : addr / 64 * 64 / 64 = addr / 64 := Nat.mul_div_cancel _ (by decide)
  unfold doReadReturn
  dsimp only
  rw [if_neg (by omega), State.eccCheck_clean harmed (by rw [hblock, hpoison])]
  rfl

/-- The charge of a patrol read. -/
def State.patrolCharged (s : State) : State := (s.charge classBKey 64).1

/-- A patrol read that finds nothing moves on by a block, and at the end of the usable capacity begins again. -/
theorem doPatrol_of_clean (hrun : s.rd dmcB Reg.DMC_STATUS_STATE = 3) (harmed : s.sn.armed = [])
    (hon : s.rd dmcB Reg.DMC_PATROL_ENABLE = 1) (hin : s.wideAt (dmcB + Reg.DMC_PATROL_POS) < s.usable)
    (hpoison : s.poisoned (s.wideAt (dmcB + Reg.DMC_PATROL_POS) / 64) = false) : doPatrol s .clean =
      if s.wideAt (dmcB + Reg.DMC_PATROL_POS) + 64 < s.usable then
        s.patrolCharged.putWide (dmcB + Reg.DMC_PATROL_POS) (s.wideAt (dmcB + Reg.DMC_PATROL_POS) + 64)
      else ((s.patrolCharged.putWide (dmcB + Reg.DMC_PATROL_POS) 0).count (dmcB + Reg.DMC_PATROL_PASSES) 1).raise
        dmcB Reg.DMC_EVENT_PATROL_PASS := by
  unfold doPatrol
  rw [if_neg (by omega), Nat.mod_eq_of_lt hin]
  dsimp only
  rw [State.eccCheck_clean (s := (s.charge classBKey 64).1) harmed hpoison]
  rfl

theorem completes_patrolRead_clean (hrun : s.rd dmcB Reg.DMC_STATUS_STATE = 3) (harmed : s.sn.armed = [])
    (hon : s.rd dmcB Reg.DMC_PATROL_ENABLE = 1) (hin : s.wideAt (dmcB + Reg.DMC_PATROL_POS) < s.usable)
    (hpoison : s.poisoned (s.wideAt (dmcB + Reg.DMC_PATROL_POS) / 64) = false) : completes (.patrolRead .clean) s fun t =>
      let a := s.wideAt (dmcB + Reg.DMC_PATROL_POS)
      t.dram = s.dram ∧
      (a + 64 < s.usable → t.wideAt (dmcB + Reg.DMC_PATROL_POS) = a + 64) ∧
      (s.usable ≤ a + 64 → t.wideAt (dmcB + Reg.DMC_PATROL_POS) = 0 ∧ t.rd dmcB Reg.DMC_EVENT_PATROL_PASS = 1 ∧
        t.wideAt (dmcB + Reg.DMC_PATROL_PASSES) = (s.wideAt (dmcB + Reg.DMC_PATROL_PASSES) + 1) % 2 ^ 48) := by
  have heffect := doPatrol_of_clean hrun harmed hon hin hpoison
  by_cases hmore : s.wideAt (dmcB + Reg.DMC_PATROL_POS) + 64 < s.usable
  · rw [if_pos hmore] at heffect
    refine completes_of_effect rfl heffect ⟨?_, fun _ => ?_, fun hend => absurd hmore (Nat.not_lt.mpr hend)⟩
    · rw [dram_settle]
      rfl
    · rw [wideAt_settle (by decide), State.wideAt_putWide_self]
  · rw [if_neg hmore] at heffect
    refine completes_of_effect rfl heffect ⟨?_, fun h => absurd h hmore, fun _ => ⟨?_, ?_, ?_⟩⟩
    · rw [dram_settle, State.dram_raise _ _ (by decide)]
      rfl
    · rw [wideAt_settle (by decide), State.wideAt_raise, State.wideAt_count_ne _ _ (by decide), State.wideAt_putWide_self]
    · rw [rd_settle_dmc _ _ (by decide) (by decide),
        State.rd_raise_self _ (offPba_of_aboveSn (aboveSn_dmcB (by decide))) (by decide) (by decide)]
    · rw [wideAt_settle (by decide), State.wideAt_raise, State.wideAt_count_self, State.wideAt_putWide_ne _ _ (by decide)]
      rfl

end

/-- Settles O36, a command each; that a write batch begins and ends at the slot is log entry 85, and that the patrol reads through the
background port log entry 88. -/
theorem dramRequests : Obligations.DramRequests := by
  unfold Obligations.DramRequests
  intro s c hrun
  refine ⟨fun r hchecked hread => ?_, fun hawake hforced => ?_,
    fun hqueue hmitig hranks hlimit => ?_,
    fun harmed => ⟨fun port inst addr hin hpoison => ?_, completes_patrolRead_clean hrun harmed⟩⟩
  · intro a
    exact ⟨fun hno => completes_of_effect rfl (doDramArrive_of_refused hrun hchecked hread hno) rfl,
      completes_dramRequestArrive_permitted hrun hchecked hread⟩
  · exact completes_of_effect rfl (doCommandSlot_of_forced hrun hawake hforced) rfl
  · refine completes_of_effect rfl (doCommandSlot_of_idle hrun hqueue hmitig hranks hlimit) ⟨?_, keepsRegs_settle rfl⟩
    rw [dram_settle]
    rfl
  · refine completes_of_effect rfl (doReadReturn_of_clean hrun harmed hin hpoison _ _) ⟨?_, ?_, keepsRegs_settle rfl⟩
    · rw [readData_settle]
    · rw [dram_settle]

end Sys2Proof.Machine
end

section
/-! Training, initialisation and re-centring of the memory (O37, R376 to R380). -/
namespace Sys2Proof.Machine

/-! ## Start-up stops (R556) -/

namespace CapturesKept

variable {s t : State}

theorem putDev (h : CapturesKept s t) {f : Fld} (v : Nat) (hf : f.lo < 32) (ho : f.off < 0x1000) : CapturesKept s (t.put devB f v) :=
  h.put v hf (not_aboveSn_of_lt (by simp only [devB, FrameKind.base]; omega))

theorem putPci (h : CapturesKept s t) {f : Fld} (v : Nat) (hf : f.lo < 32) (ho : f.off < 0x1000) : CapturesKept s (t.put pciB f v) :=
  h.put v hf (not_aboveSn_of_lt (by simp only [pciB, FrameKind.base]; omega))

theorem putBootFail (h : CapturesKept s t) (step reason detail detail2 : Nat) :
    CapturesKept s (t.putBootFail step reason detail detail2) := by
  unfold State.putBootFail
  extract_lets failed w
  have hfailed : CapturesKept s failed := by
    dsimp only [failed]
    split
    · exact h
    · exact (((h.putDev (f := Reg.DEV_BOOT_FAIL_STEP) _ (by decide) (by decide)).putDev (f := Reg.DEV_BOOT_FAIL_REASON) _ (by decide)
        (by decide)).putDev (f := Reg.DEV_BOOT_FAIL_DETAIL) _ (by decide) (by decide)).putDev (f := Reg.DEV_BOOT_FAIL_DETAIL2) _
        (by decide) (by decide)
  exact hfailed.stage _

theorem portRoles (h : CapturesKept s t) : CapturesKept s t.portRoles := by
  have hroles := (h.putPci (f := Reg.PCI_PORT_A_STATUS_MANAGER) (decide (t.mgrPort = .a)).toNat (by decide) (by decide)).putPci
    (f := Reg.PCI_PORT_B_STATUS_MANAGER) (decide (t.mgrPort = .b)).toNat (by decide) (by decide)
  unfold State.portRoles
  dsimp only
  split
  · exact ((hroles.putPci _ (by decide) (by decide)).putPci _ (by decide) (by decide)).putPci _ (by decide) (by decide)
  split
  · exact hroles.putPci _ (by decide) (by decide)
  · exact hroles

theorem readyFns (h : CapturesKept s t) : CapturesKept s t.readyFns := by
  unfold State.readyFns
  split
  · exact h
  · refine h.portRoles.each fun fn _ x => ?_
    split
    · exact (refl x).beside rfl rfl rfl
    · exact refl x

theorem modPwr (h : CapturesKept s t) (f : PwrX → PwrX) : CapturesKept s (t.modPwr f) := h.beside rfl rfl rfl

theorem setPower (h : CapturesKept s t) (st : Nat) : CapturesKept s (t.setPower st) :=
  CapturesKept.put (t := { t with pwr := { t.pwr with since := t.now } }) (a := picB) (f := Reg.PIC_STATE_STATE) (h.beside rfl rfl rfl)
    st (by decide) (not_aboveSn_of_lt (by decide))

/-- What stops start-up is recorded below the memory's frames. -/
theorem bootStop (h : CapturesKept s t) (st step reason detail detail2 : Nat) :
    CapturesKept s (t.bootStop st step reason detail detail2) :=
  (((h.putDev _ (by decide) (by decide)).fault (by decide) _).putBootFail _ _ _ _).readyFns

end CapturesKept

/-! ## Training (R376, R377) -/

/-- Training fails on the listed channels: FAILED, and TRAIN_FAIL on the controller and on each of them. -/
def State.trainFailed (s : State) (l : List Nat) : State :=
  ((s.put dmcB Reg.DMC_STATUS_STATE 5).raise dmcB Reg.DMC_EVENT_TRAIN_FAIL).each l fun u k => u.raise (chB k) Reg.DMCCH_EVENT_TRAIN_FAIL

/-- What a failure has set on the controller stays while channels report theirs. -/
def trainingFailed (s : State) : Prop := s.rd dmcB Reg.DMC_STATUS_STATE = 5 ∧ s.rd dmcB Reg.DMC_EVENT_TRAIN_FAIL = 1

theorem trainingFailed_raise_ch {s : State} (h : trainingFailed s) (k : Nat) :
    trainingFailed (s.raise (chB k) Reg.DMCCH_EVENT_TRAIN_FAIL) := by
  obtain ⟨hstate, hevent⟩ := h
  have hdmc : ∀ o < 0x10000, offPba (dmcB + o) := fun o ho => offPba_of_aboveSn (aboveSn_dmcB ho)
  have hkey : fkey (chB k + Reg.DMCCH_EVENT_TRAIN_FAIL.off) Reg.DMCCH_EVENT_TRAIN_FAIL.lo ≠
      fkey (dmcB + Reg.DMC_STATUS_STATE.off) Reg.DMC_STATUS_STATE.lo := by
    have := chB_add_ne_dmcB (o := Reg.DMCCH_EVENT_TRAIN_FAIL.off) (o' := Reg.DMC_STATUS_STATE.off) (by decide) (by decide) (by decide) k
    simp only [fkey, Reg.DMCCH_EVENT_TRAIN_FAIL, Reg.DMC_STATUS_STATE] at this ⊢
    omega
  exact ⟨(s.rd_raise_ne (hdmc _ (by decide)) (by decide) hkey).trans hstate,
    s.rd_raise_mono (hdmc _ (by decide)) (by decide) rfl hevent⟩

section
variable (s : State) (l : List Nat)

theorem State.trainingFailed_trainFailed : trainingFailed (s.trainFailed l) := by
  refine State.each_of_keeps (I := trainingFailed) (fun u k hu => trainingFailed_raise_ch hu k) ⟨?_, ?_⟩
  · rw [State.rd_raise_ne _ (offPba_of_aboveSn (aboveSn_dmcB (by decide))) (by decide) (by decide), State.rd_put_self]
    rfl
  · exact State.rd_raise_self _ (offPba_of_aboveSn (aboveSn_dmcB (by decide))) (by decide) (by decide)

theorem State.rd_trainFailed_ch {c : Fin 16} (hc : c.val ∈ l) : (s.trainFailed l).rd (chB c.val) Reg.DMCCH_EVENT_TRAIN_FAIL = 1 := by
  have hoff : offPba (chB c.val + Reg.DMCCH_EVENT_TRAIN_FAIL.off) := offPba_of_aboveSn (aboveSn_chB c (by decide))
  exact State.each_of_mem (I := fun _ => True) (P := fun u => u.rd (chB c.val) Reg.DMCCH_EVENT_TRAIN_FAIL = 1) hc (fun _ _ h => h)
    (fun u _ => u.rd_raise_self hoff (by decide) (by decide)) (fun u k _ hu => u.rd_raise_mono hoff (by decide) rfl hu) trivial

end

section
variable {s : State}

theorem doTrainingDone_of_fail (htrain : s.rd dmcB Reg.DMC_STATUS_STATE = 1) (m : BitVec 16) :
    doTrainingDone s (.fail m) = s.trainFailed ((List.range 16).filter fun k => m.getLsbD k) :=
  if_neg (not_not.mpr htrain)

/-- The fit found is written to the controller's registers. -/
def State.fitFound (s : State) (gib ranks rate rows : Nat) : State :=
  State.each { s with dramx := { s.dramx with rows := rows } } [(Reg.DMC_STATUS_STATE, 2), (Reg.DMC_STATUS_TWO_RANKS, ranks - 1),
    (Reg.DMC_STATUS_INSTALLED_GIB, gib), (Reg.DMC_STATUS_RATE_MTS, rate), (Reg.DMC_USABLE_MIB, gib * 992)] fun u e => u.put dmcB e.1 e.2

theorem doTrainingDone_of_ok (htrain : s.rd dmcB Reg.DMC_STATUS_STATE = 1) {gib ranks rows : Nat} (rate : BitVec 16)
    (hfit : rowsOfFit gib ranks = some rows) : doTrainingDone s (.ok gib ranks rate []) = s.fitFound gib ranks rate.toNat rows := by
  unfold doTrainingDone
  dsimp only
  rw [if_neg (not_not.mpr htrain), hfit]
  dsimp only
  rw [List.zip_nil_right]
  rfl

theorem State.rd_fitFound (s : State) (gib ranks rate rows : Nat) : (s.fitFound gib ranks rate rows).rd dmcB Reg.DMC_STATUS_STATE = 2 ∧
    (s.fitFound gib ranks rate rows).rd dmcB Reg.DMC_STATUS_RATE_MTS = rate % 2 ^ Reg.DMC_STATUS_RATE_MTS.w := by
  simp only [State.fitFound, State.each, List.foldl_cons, List.foldl_nil]
  constructor
  · rw [State.rd_put_apart _ (by decide), State.rd_put_apart _ (by decide), State.rd_put_apart _ (by decide),
      State.rd_put_apart _ (by decide), State.rd_put_self]
    rfl
  · rw [State.rd_put_apart _ (by decide), State.rd_put_self]

theorem completes_trainingDone_fail (htrain : s.rd dmcB Reg.DMC_STATUS_STATE = 1) (c : Fin 16) (m : BitVec 16) :
    completes (.trainingDone (.fail m)) s fun t => t.rd dmcB Reg.DMC_STATUS_STATE = 5 ∧ t.rd dmcB Reg.DMC_EVENT_TRAIN_FAIL = 1 ∧
      (m.getLsbD c.val = true → t.rd (chB c.val) Reg.DMCCH_EVENT_TRAIN_FAIL = 1) := by
  obtain ⟨hstate, hevent⟩ := s.trainingFailed_trainFailed ((List.range 16).filter fun k => m.getLsbD k)
  have hch : m.getLsbD c.val = true → c.val ∈ (List.range 16).filter fun k => m.getLsbD k := fun hm =>
    List.mem_filter.mpr ⟨List.mem_range.mpr c.isLt, hm⟩
  have hflag := fun hm => s.rd_trainFailed_ch _ (hch hm)
  have hdone := doTrainingDone_of_fail htrain m
  generalize s.trainFailed ((List.range 16).filter fun k => m.getLsbD k) = u at hstate hevent hflag hdone
  obtain ⟨v, hv, hkept⟩ : ∃ v, doTrainingStep s (.fail m) = v ∧ CapturesKept u v := by
    refine ⟨_, rfl, ?_⟩
    unfold doTrainingStep
    rw [if_neg (not_not.mpr htrain), hdone]
    dsimp only
    rw [if_pos hstate]
    refine CapturesKept.bootStop ?_ _ _ _ _ _
    exact (CapturesKept.setPower ((CapturesKept.refl u).modPwr _) 0).put (a := rplB) (f := Reg.RPL_STATE_STATE) 0
      (by decide) (not_aboveSn_of_lt (by decide))
  refine completes_of_effect rfl hv ⟨?_, ?_, fun hm => ?_⟩
  · rw [rd_settle_dmc _ _ (by decide) (by decide), hkept.regs _ _ (by decide) (aboveSn_dmcB (by decide)), hstate]
  · rw [rd_settle_dmc _ _ (by decide) (by decide), hkept.regs _ _ (by decide) (aboveSn_dmcB (by decide)), hevent]
  · rw [rd_settle_ch _ _ _ (by decide) (by decide), hkept.regs _ _ (by decide) (aboveSn_chB c (by decide)), hflag hm]

theorem completes_trainingDone_ok (htrain : s.rd dmcB Reg.DMC_STATUS_STATE = 1) {gib ranks rows : Nat} (rate : BitVec 16)
    (hfit : rowsOfFit gib ranks = some rows) : completes (.trainingDone (.ok gib ranks rate [])) s fun t =>
      t.rd dmcB Reg.DMC_STATUS_STATE = 2 ∧ t.dramx.rows = rows ∧
      t.rd dmcB Reg.DMC_STATUS_RATE_MTS = rate.toNat % 2 ^ Reg.DMC_STATUS_RATE_MTS.w := by
  obtain ⟨hstate, hrate⟩ := s.rd_fitFound gib ranks rate.toNat rows
  have hrows : (s.fitFound gib ranks rate.toNat rows).dramx.rows = rows := rfl
  have hdone := doTrainingDone_of_ok htrain rate hfit
  generalize s.fitFound gib ranks rate.toNat rows = u at hstate hrate hrows hdone
  obtain ⟨x, hstep⟩ : ∃ x, doTrainingStep s (.ok gib ranks rate []) = { u with pwr := x } := by
    unfold doTrainingStep
    rw [if_neg (not_not.mpr htrain), hdone]
    dsimp only
    rw [if_neg (by rw [hstate]; decide)]
    split
    · exact ⟨_, rfl⟩
    · exact ⟨u.pwr, rfl⟩
  refine completes_of_effect rfl hstep ⟨?_, ?_, ?_⟩
  · rw [rd_settle_dmc _ _ (by decide) (by decide)]
    exact hstate
  · rw [dramx_settle, hrows]
  · rw [rd_settle_dmc _ _ (by decide) (by decide)]
    exact hrate

/-! ## Initialisation (R378) -/

/-- Every rank of every channel is awake. -/
def State.ranksWoken (s : State) : State :=
  s.each (List.range 16) fun u k => (u.put (chB k) Reg.DMCCH_STATUS_RANK0 0).put (chB k) Reg.DMCCH_STATUS_RANK1 0

theorem State.ranksWoken_keeps (s : State) : s.ranksWoken.dram = s.dram ∧ s.ranksWoken.pwr = s.pwr := by
  unfold State.ranksWoken
  exact State.each_of_keeps (I := fun u => u.dram = s.dram ∧ u.pwr = s.pwr) (s := s)
    (fun u k hu => by simpa only [State.put_dram, State.put_pwr] using hu) ⟨rfl, rfl⟩

theorem State.rd_ranksWoken (s : State) (c : Fin 16) : s.ranksWoken.rd (chB c.val) Reg.DMCCH_STATUS_RANK0 = 0 := by
  have hput : ∀ (u : State) (k : Nat), u.rd (chB c.val) Reg.DMCCH_STATUS_RANK0 = 0 ∨ k = c.val →
      ((u.put (chB k) Reg.DMCCH_STATUS_RANK0 0).put (chB k) Reg.DMCCH_STATUS_RANK1 0).rd (chB c.val) Reg.DMCCH_STATUS_RANK0 = 0 := by
    intro u k h
    have hkey : fkey (chB k + Reg.DMCCH_STATUS_RANK1.off) Reg.DMCCH_STATUS_RANK1.lo ≠
        fkey (chB c.val + Reg.DMCCH_STATUS_RANK0.off) Reg.DMCCH_STATUS_RANK0.lo := by
      simp only [fkey, Reg.DMCCH_STATUS_RANK0, Reg.DMCCH_STATUS_RANK1]
      omega
    rw [State.rd_put_ne _ _ hkey, State.rd_put]
    rcases h with h | rfl
    · rw [h, Nat.zero_mod, ite_self]
    · rw [if_pos rfl, Nat.zero_mod]
  exact State.each_of_mem (I := fun _ => True) (P := fun u => u.rd (chB c.val) Reg.DMCCH_STATUS_RANK0 = 0)
    (List.mem_range.mpr c.isLt) (fun _ _ h => h) (fun u _ => hput u c.val (.inr rfl)) (fun u k _ hu => hput u k (.inl hu)) trivial

theorem doDramInit_of_cold (hinit : s.rd dmcB Reg.DMC_STATUS_STATE = 2) (hcold : s.pwr.wakeFrom ≠ 3) :
    doDramInit s = ({ s with dram := [], dramx := { s.dramx with poison := [] } } : State).ranksWoken.put dmcB Reg.DMC_STATUS_STATE 3 := by
  unfold doDramInit
  rw [if_neg (not_not.mpr hinit)]
  dsimp only
  rw [decide_eq_false hcold]
  simp only [Bool.false_and, List.filter_false]
  rfl

/-- With nothing retained no byte of memory is listed, and every channel's ranks are awake. -/
theorem doDramInit_effect (hinit : s.rd dmcB Reg.DMC_STATUS_STATE = 2) (hcold : s.pwr.wakeFrom ≠ 3) (c : Fin 16) :
    (doDramInit s).dram = [] ∧ (doDramInit s).pwr = s.pwr ∧ (doDramInit s).rd dmcB Reg.DMC_STATUS_STATE = 3 ∧
    (doDramInit s).rd (chB c.val) Reg.DMCCH_STATUS_RANK0 = 0 := by
  rw [doDramInit_of_cold hinit hcold]
  obtain ⟨hdram, hpwr⟩ := State.ranksWoken_keeps { s with dram := [], dramx := { s.dramx with poison := [] } }
  have hrank := State.rd_ranksWoken { s with dram := [], dramx := { s.dramx with poison := [] } } c
  generalize State.ranksWoken { s with dram := [], dramx := { s.dramx with poison := [] } } = u at hdram hpwr hrank ⊢
  have hdmc : dmcB + Reg.DMC_STATUS_STATE.off ≠ chB c.val + Reg.DMCCH_STATUS_RANK0.off := by
    simp only [chB, dmcB, FrameKind.at, FrameKind.base, FrameKind.stride, Reg.DMC_STATUS_STATE, Reg.DMCCH_STATUS_RANK0]
    omega
  exact ⟨hdram, hpwr, u.rd_put_self _ _ _, (u.rd_put_addr _ (by decide) (by decide) hdmc).trans hrank⟩

theorem completes_dramInitDone (hinit : s.rd dmcB Reg.DMC_STATUS_STATE = 2) (hcold : s.pwr.wakeFrom ≠ 3) (hwake : s.pwr.waking ≠ 6)
    (c : Fin 16) : completes .dramInitDone s fun t =>
      t.rd dmcB Reg.DMC_STATUS_STATE = 3 ∧ t.dram = [] ∧ t.rd (chB c.val) Reg.DMCCH_STATUS_RANK0 = 0 := by
  obtain ⟨hdram, hpwr, hstate, hrank⟩ := doDramInit_effect hinit hcold c
  generalize hu : doDramInit s = u at hdram hpwr hstate hrank
  have hstep : doInitStep s = u ∨ doInitStep s = u.setBootStep 6 := by
    unfold doInitStep
    rw [if_neg (not_not.mpr hinit), hu]
    dsimp only
    rw [if_neg (by rw [hpwr]; exact hwake)]
    split
    · exact .inr rfl
    · exact .inl rfl
  have hboot : ∀ (b : Nat) (g : Fld), g.lo < 32 → aboveSn (b + g.off) → (u.setBootStep 6).rd b g = u.rd b g :=
    ((CapturesKept.refl u).putDev (f := Reg.DEV_BOOT_STATUS_STEP) 6 (by decide) (by decide)).regs
  rcases hstep with h | h <;> refine completes_of_effect rfl h ⟨?_, ?_, ?_⟩
  · rw [rd_settle_dmc _ _ (by decide) (by decide), hstate]
  · rw [dram_settle, hdram]
  · rw [rd_settle_ch _ _ _ (by decide) (by decide), hrank]
  · rw [rd_settle_dmc _ _ (by decide) (by decide), hboot _ _ (by decide) (aboveSn_dmcB (by decide)), hstate]
  · rw [dram_settle]
    exact hdram
  · rw [rd_settle_ch _ _ _ (by decide) (by decide), hboot _ _ (by decide) (aboveSn_chB c (by decide)), hrank]

/-! ## Re-centring (R379) -/

theorem State.recentre_of_none (hrun : s.rd dmcB Reg.DMC_STATUS_STATE = 3) (hnone : s.dramx.recentring = []) :
    s.recentre = { s with dramx := { s.dramx with recentring := s.eyeList } } :=
  (if_neg (not_not.mpr hrun)).trans (if_neg (not_not.mpr hnone))

theorem recentreBegins_settle (pre : State) : (settle pre { s with dramx := { s.dramx with recentring := s.eyeList } }).dramx.recentring =
    s.eyeList := by rw [dramx_settle]

theorem completes_recentreDue_starved (hrun : s.rd dmcB Reg.DMC_STATUS_STATE = 3) (hsome : s.dramx.recentring ≠ []) :
    completes .recentreDue s fun t => t.rd dmcB Reg.DMC_EVENT_RECENTRE_STARVED = 1 ∧
      keeps (· = dmcB + Reg.DMC_EVENT_RECENTRE_STARVED.off) s t := by
  refine completes_of_effect (u := s.raise dmcB Reg.DMC_EVENT_RECENTRE_STARVED) rfl
    ((if_neg (not_not.mpr hrun)).trans (if_pos hsome)) ⟨?_, ?_⟩
  · rw [rd_settle_dmc _ _ (by decide) (by decide),
      State.rd_raise_self _ (offPba_of_aboveSn (aboveSn_dmcB (by decide))) (by decide) (by decide)]
  · exact ((keeps.refl (· = dmcB + Reg.DMC_EVENT_RECENTRE_STARVED.off) s).raise (by decide) (by decide) rfl).settle s

/-! ## Probes (R379, R380) -/

/-- The centre and the width of an eye lie apart, above the channel's events. -/
theorem eyeFlds_place (reads : Bool) (lane : Nat) : apart (eyeFlds reads lane).2 (eyeFlds reads lane).1 ∧
    0x10 ≤ (eyeFlds reads lane).1.off ∧ (eyeFlds reads lane).1.off < 0x18 := by
  unfold eyeFlds
  split_ifs <;> decide

/-- A measured width and what a narrow eye raises leave the eye's centre. -/
theorem State.rd_eyeWidth_centre (u : State) (c : Fin 16) (rank : Fin 2) (lane width : Nat) (wr : Bool) :
    (u.eyeWidth c.val rank.val lane width wr).rd (chB c.val + 8 * rank.val) (eyeFlds (!wr) lane).1 =
      u.rd (chB c.val + 8 * rank.val) (eyeFlds (!wr) lane).1 := by
  obtain ⟨hwidth, hlow, hhigh⟩ := eyeFlds_place (!wr) lane
  have hlo := hwidth.2.1
  generalize (eyeFlds (!wr) lane).1 = g at hwidth hlow hhigh hlo ⊢
  have habove : aboveSn (chB c.val + 8 * rank.val + g.off) := by
    rw [Nat.add_assoc]
    exact aboveSn_chB c (by omega)
  have hlowEye : ∀ (v : State) (b : Nat) (f : Fld), f.lo < 32 → b + f.off ≠ chB c.val + 8 * rank.val + g.off →
      (v.raise b f).rd (chB c.val + 8 * rank.val) g = v.rd (chB c.val + 8 * rank.val) g := fun v b f hf hne =>
    v.rd_raise_ne (offPba_of_aboveSn habove) hlo (by unfold fkey; omega)
  have hch : chB c.val + Reg.DMCCH_EVENT_EYE_LOW.off ≠ chB c.val + 8 * rank.val + g.off := by
    simp only [Reg.DMCCH_EVENT_EYE_LOW]
    omega
  have hdmc : dmcB + Reg.DMC_EVENT_EYE_LOW.off ≠ chB c.val + 8 * rank.val + g.off := by
    simp only [chB, dmcB, FrameKind.at, FrameKind.base, FrameKind.stride, Reg.DMC_EVENT_EYE_LOW]
    omega
  unfold State.eyeWidth
  extract_lets measured raised
  have hmeasured : measured.rd (chB c.val + 8 * rank.val) g = u.rd (chB c.val + 8 * rank.val) g := u.rd_put_apart hwidth _ _
  have hraised : raised.rd (chB c.val + 8 * rank.val) g = u.rd (chB c.val + 8 * rank.val) g := by
    dsimp only [raised]
    split
    · rw [hlowEye _ _ _ (by decide) hdmc, hlowEye _ _ _ (by decide) hch, hmeasured]
    · exact hmeasured
  split
  · rw [State.rd_fault_above _ _ _ hlo habove, hraised]
  · exact hraised

/-- A probe moves the centre of its eye, and its eye is done. -/
theorem doRecentreProbe_of_idle {c : Nat} {rank lane : Nat} {wr : Bool} (hlisted : s.dramx.recentring.contains (c, rank, lane, wr) = true)
    (hqueue : (s.chan c).queue = []) (hheld : (s.chan c).held = []) (hidle : (s.chan c).idleSince + 1000 ≤ s.now)
    (hpoll : (s.chan c).pollDue = false) (howed : ∀ r ∈ s.ranks, s.owed c r + 1 < s.refreshLimit) (hawake : s.rankAsleep c rank = false)
    (centre width : Nat) : ∃ (x : ChanX) (d : DramX), doRecentreProbe s c rank lane wr centre width =
      { ((s.put (chB c + 8 * rank) (eyeFlds (!wr) lane).1 (moveTap (s.rd (chB c + 8 * rank) (eyeFlds (!wr) lane).1) centre)).eyeWidth
          c rank lane width wr).setChan c x with
        dramx := { d with recentring := d.recentring.filter fun e => decide (e ≠ (c, rank, lane, wr)) } } := by
  have howed' : (s.ranks.all fun r => decide (s.owed c r + 1 < s.refreshLimit)) = true := by simpa using howed
  unfold doRecentreProbe
  simp only [hlisted, hqueue, hheld, decide_eq_true hidle, howed', hpoll, hawake]
  exact ⟨_, _, rfl⟩

theorem completes_recentreProbe {c : Fin 16} {rank lane : Fin 2} {wr : Bool}
    (hlisted : s.dramx.recentring.contains (c.val, rank.val, lane.val, wr) = true)
    (hqueue : (s.chan c.val).queue = []) (hheld : (s.chan c.val).held = []) (hidle : (s.chan c.val).idleSince + 1000 ≤ s.now)
    (hpoll : (s.chan c.val).pollDue = false) (howed : ∀ r ∈ s.ranks, s.owed c.val r + 1 < s.refreshLimit)
    (hawake : s.rankAsleep c.val rank.val = false) (centre width : Fin 128) :
    completes (.recentreProbe c rank lane wr centre width) s fun t =>
      let f := (eyeFlds (!wr) lane.val).1
      t.rd (chB c.val + 8 * rank.val) f = moveTap (s.rd (chB c.val + 8 * rank.val) f) centre.val % 2 ^ f.w ∧
      t.dramx.recentring.contains (c.val, rank.val, lane.val, wr) = false := by
  obtain ⟨x, d, heffect⟩ := doRecentreProbe_of_idle hlisted hqueue hheld hidle hpoll howed hawake centre.val width.val
  obtain ⟨⟨-, hlo, -⟩, -, hhigh⟩ := eyeFlds_place (!wr) lane.val
  refine completes_of_effect rfl heffect ⟨?_, ?_⟩
  · have habove : aboveSn (chB c.val + 8 * rank.val + (eyeFlds (!wr) lane.val).1.off) := by
      rw [Nat.add_assoc]
      exact aboveSn_chB c (by omega)
    rw [rd_settle (not_outputReg_of_aboveSn habove) hlo]
    refine Eq.trans ?_ (s.rd_put_self (chB c.val + 8 * rank.val) (eyeFlds (!wr) lane.val).1 _)
    exact State.rd_eyeWidth_centre _ c rank lane.val width.val wr
  · rw [dramx_settle]
    simp

end

/-- Settles O37, a command each; when a re-centring pass begins or goes on, and when a probe takes effect, is log entry 87. -/
theorem dramTraining : Obligations.DramTraining := by
  unfold Obligations.DramTraining
  intro s c
  refine ⟨fun htrain => ⟨completes_trainingDone_fail htrain c, fun gib ranks rows rate => completes_trainingDone_ok htrain rate⟩,
    fun hinit hcold hwake => completes_dramInitDone hinit hcold hwake c,
    fun hrun => ⟨fun hnone => ?_, completes_recentreDue_starved hrun, fun ha hw hnone => ?_⟩,
    fun rank lane wr centre width hlisted hqueue hheld hidle hpoll howed hawake =>
      completes_recentreProbe hlisted hqueue hheld hidle hpoll howed hawake centre width⟩
  · exact completes_of_effect rfl (State.recentre_of_none hrun hnone) ⟨recentreBegins_settle s, keepsRegs_settle rfl⟩
  · exact completes_of_effect rfl ((State.mgrReach_of_answers ha hw _ _).trans (State.recentre_of_none hrun hnone))
      ⟨recentreBegins_settle s, keepsRegs_settle rfl⟩

end Sys2Proof.Machine
end

section
/-! Call blocks (R408, R409): where they lie, what the end of a call leaves, and a call that has started. -/
namespace Sys2Proof.Machine

/-! ## Where they lie -/

theorem not_outputReg_of_secB_le {a : Nat} (h : secB ≤ a) : ¬ outputReg a := by
  simp only [outputReg, secB, snB, devB, pbaBase, pciB, if_true, FrameKind.base, Reg.SN_STATUS_STOPPED, Reg.SN_EVENT_FAULT,
    Reg.DEV_BOOT_STATUS_STEP] at h ⊢
  omega

theorem callBase_mgr : callBase .mgr = secB + 0x100 := rfl
theorem callBase_sub : callBase .sub = winBase 64 + 0x3100 := rfl
theorem callBase_vf (i : Fin 64) : callBase (.vf i) = winBase i.val + 0x3100 := rfl

theorem secB_le_callBase (c : FnId) : secB + 0x100 ≤ callBase c := by
  cases c with
  | mgr => exact Nat.le_of_eq callBase_mgr.symm
  | sub =>
    simp only [callBase_sub, winBase, FrameKind.at, FrameKind.base, FrameKind.stride, secB]
    omega
  | vf i =>
    simp only [callBase_vf, winBase, FrameKind.at, FrameKind.base, FrameKind.stride, secB]
    omega

/-- The registers from the SEC_ frame on follow no state. -/
theorem rd_settle_of_secB_le (pre post : State) {b : Nat} {g : Fld} (hb : secB ≤ b) (hg : g.lo < 32) :
    (settle pre post).rd b g = post.rd b g := rd_settle (not_outputReg_of_secB_le (Nat.le_add_right_of_le hb)) hg

theorem rd_settle_callBase (pre post : State) (c : FnId) {g : Fld} (hg : g.lo < 32) :
    (settle pre post).rd (callBase c) g = post.rd (callBase c) g :=
  rd_settle_of_secB_le pre post (Nat.le_of_add_right_le (secB_le_callBase c)) hg

/-- Where no message of the caller's function leaves a pending bit: below the windows but for the manager's own pending bits, and in the
caller's own window up to the end of its call block. -/
def offCallVec (c : FnId) (a : Nat) : Prop := a ≠ pbaBase 0 ∧ (a < 0x10000000 ∨ a < callBase c + 0x100)

theorem offCallVec_callBase (c : FnId) {o : Nat} (ho : o < 0x100) : offCallVec c (callBase c + o) := by
  have h := secB_le_callBase c
  refine ⟨?_, .inr (by omega)⟩
  simp only [secB, FrameKind.base, pbaBase, if_true, pciB] at h ⊢
  omega

theorem offCallVec_of_secFrame (c : FnId) {o : Nat} (ho : o < 0x10000) : offCallVec c (secB + o) := by
  simp only [offCallVec, secB, FrameKind.base, pbaBase, if_true, pciB]
  omega

theorem callBase_lt_pbaBase {c : FnId} (hc : c ≠ .mgr) : callBase c + 0x100 ≤ pbaBase (fnNum c) := by
  cases c with
  | mgr => exact absurd rfl hc
  | sub =>
    have hpba : pbaBase (fnNum .sub) = winBase 64 + 0x3C00 := rfl
    rw [hpba, callBase_sub]
    omega
  | vf i =>
    simp only [callBase_vf, pbaBase, fnNum, winBase, FrameKind.at, FrameKind.base, FrameKind.stride,
      if_neg (show i.val + 2 ≠ 0 by omega), if_neg (show i.val + 2 ≠ 1 by omega), Nat.add_sub_cancel]
    omega

section
variable (s : State) (c : FnId)

/-- A message to the caller leaves its call block. -/
theorem State.rd_raiseVec_caller (v : Nat) {b : Nat} {g : Fld} (h : offCallVec c (b + g.off)) (hg : g.lo < 32) :
    (s.raiseVec (fnNum c) v).rd b g = s.rd b g := by
  by_cases hlow : b + g.off < 0x10000000
  · exact s.rd_raiseVec _ v ⟨hlow, h.1⟩ hg
  have hblock : b + g.off < callBase c + 0x100 := h.2.resolve_left hlow
  have hc : c ≠ .mgr := by
    rintro rfl
    simp only [callBase_mgr, secB, FrameKind.base] at hblock
    omega
  have hpba := callBase_lt_pbaBase hc
  have hword : Reg.MSIX_PBA_WORD.off = 0 := rfl
  unfold State.raiseVec
  split
  · split
    · exact s.rd_put_addr _ (by decide) hg (by omega)
    · exact s.rd_sendMessage _ _ _ _
  · rfl

/-! ## The end of a call -/

theorem State.inner_setCallX (x : CallX) : (s.setCallX c x).inner = s.inner.setCallX c x := rfl

@[simp] theorem State.callX_setCallX_self (x : CallX) : (s.setCallX c x).callX c = x := by simp [State.callX, State.setCallX]

/-- Beside the registers, the end of a call clears what is kept of the call. -/
theorem State.inner_endCall (r : Nat) : (s.endCall c r).inner = (s.setCallX c {}).inner := by
  unfold State.endCall
  dsimp only
  split <;> simp only [State.inner_raiseVec, State.inner_setCallX, State.inner_put]

theorem State.rd_endCall (r : Nat) {b : Nat} {g : Fld} (h : offCallVec c (b + g.off)) (hg : g.lo < 32) :
    (s.endCall c r).rd b g = (((s.put (callBase c) Reg.CALL_STATUS_BUSY 0).put (callBase c) Reg.CALL_STATUS_DONE 1).put
      (callBase c) Reg.CALL_STATUS_RESULT r).rd b g := by
  unfold State.endCall
  dsimp only
  split
  · exact State.rd_raiseVec_caller _ c _ h hg
  · rfl

/-- Of the registers, the end of a call changes CALL_STATUS and pending bits. -/
theorem State.rd_endCall_ne (r : Nat) {b : Nat} {g : Fld} (h : offCallVec c (b + g.off)) (hg : g.lo < 32)
    (hne : callBase c + Reg.CALL_STATUS_BUSY.off ≠ b + g.off) : (s.endCall c r).rd b g = s.rd b g := by
  rw [s.rd_endCall c r h hg]
  calc
    _ = ((s.put (callBase c) Reg.CALL_STATUS_BUSY 0).put (callBase c) Reg.CALL_STATUS_DONE 1).rd b g :=
      State.rd_put_addr _ (f := Reg.CALL_STATUS_RESULT) r (by decide) hg hne
    _ = (s.put (callBase c) Reg.CALL_STATUS_BUSY 0).rd b g := State.rd_put_addr _ (f := Reg.CALL_STATUS_DONE) 1 (by decide) hg hne
    _ = s.rd b g := s.rd_put_addr 0 (by decide) hg hne

theorem callEnds_endCall {r : Nat} (hr : r < 256) : callEnds c r (s.endCall c r) := by
  refine ⟨?_, ?_, ?_⟩
  · rw [s.rd_endCall c r (offCallVec_callBase c (by decide)) (by decide), State.rd_put_apart _ (by decide),
      State.rd_put_apart _ (by decide), State.rd_put_self]
    rfl
  · rw [s.rd_endCall c r (offCallVec_callBase c (by decide)) (by decide), State.rd_put_apart _ (by decide), State.rd_put_self]
    rfl
  · rw [s.rd_endCall c r (offCallVec_callBase c (by decide)) (by decide), State.rd_put_self]
    exact Nat.mod_eq_of_lt hr

end

section
variable {s : State} {c : FnId}

theorem callEnds_settle {r : Nat} (h : callEnds c r s) (pre : State) : callEnds c r (settle pre s) := by
  obtain ⟨hbusy, hdone, hresult⟩ := h
  exact ⟨(rd_settle_callBase pre s c (by decide)).trans hbusy, (rd_settle_callBase pre s c (by decide)).trans hdone,
    (rd_settle_callBase pre s c (by decide)).trans hresult⟩

@[simp] theorem callX_settle (pre post : State) (c : FnId) : (settle pre post).callX c = post.callX c :=
  (congrArg (State.callX · c) (inner_settle pre post) :)

/-- A page call that fails names the page at fault in CALL_RET_0. -/
theorem callEnds_failCall (s : State) (c : FnId) {r : Nat} (hr : r < 256) (idx : Nat) :
    callEnds c r (s.failCall c r idx) ∧ (s.failCall c r idx).rd (callBase c) Reg.CALL_RET_RET = idx % 2 ^ 32 :=
  ⟨callEnds_endCall _ c hr, ((s.putRet c 0 idx).rd_endCall_ne c r (offCallVec_callBase c (by decide)) (by decide)
    (by simp [Reg.CALL_STATUS_BUSY, Reg.CALL_RET_RET])).trans (s.rd_put_self (callBase c) Reg.CALL_RET_RET idx)⟩

end

/-! ## A call that has started -/

/-- The call of a service is in progress, with nothing done for it yet. -/
def State.called (s : State) (c : FnId) (svc : Nat) : State :=
  ((s.put (callBase c) Reg.CALL_CMD_SERVICE svc).put (callBase c) Reg.CALL_STATUS_BUSY 1).setCallX c { service := svc, since := s.now }

section
variable (s : State) (c : FnId) (svc : Nat)

theorem State.rd_called {b : Nat} {g : Fld} (hg : g.lo < 32) (h : b + g.off < callBase c ∨ callBase c + Reg.CALL_STATUS_BUSY.off < b + g.off) :
    (s.called c svc).rd b g = s.rd b g := by
  have hcmd : callBase c + Reg.CALL_CMD_SERVICE.off ≠ b + g.off := by
    simp only [Reg.CALL_CMD_SERVICE, Reg.CALL_STATUS_BUSY] at h ⊢
    omega
  have hstatus : callBase c + Reg.CALL_STATUS_BUSY.off ≠ b + g.off := by omega
  exact (State.rd_put_addr _ 1 (by decide) hg hstatus).trans (s.rd_put_addr svc (by decide) hg hcmd)

theorem State.rd_called_low {b : Nat} {g : Fld} (hg : g.lo < 32) (h : b + g.off < secB + 0x100) : (s.called c svc).rd b g = s.rd b g :=
  s.rd_called c svc hg (.inl (Nat.lt_of_lt_of_le h (secB_le_callBase c)))

theorem State.rd_called_busy : (s.called c svc).rd (callBase c) Reg.CALL_STATUS_BUSY = 1 := State.rd_put_self _ _ _ _

@[simp] theorem State.arg_called (k : Nat) : (s.called c svc).arg c k = s.arg c k :=
  s.rd_called c svc (by decide) (.inr (by simp only [Reg.CALL_STATUS_BUSY, Reg.CALL_ARG_ARG]; omega))

@[simp] theorem State.usable_called : (s.called c svc).usable = s.usable :=
  congrArg (· * 2 ^ 20) (s.rd_called_low c svc (b := dmcB) (g := Reg.DMC_USABLE_MIB) (by decide) (by decide))

@[simp] theorem State.potBase_called : (s.called c svc).potBase = s.potBase := by simp only [State.potBase, State.usable_called]

@[simp] theorem State.entry_called (p : Nat) : (s.called c svc).entry p = s.entry p := by
  simp only [State.entry, State.potBase_called]
  rfl

@[simp] theorem State.shownEntry_called (p : Nat) : (s.called c svc).shownEntry p = s.shownEntry p := by
  simp only [State.shownEntry, State.potBase_called]
  rfl

@[simp] theorem State.mgrPort_called : (s.called c svc).mgrPort = s.mgrPort := by
  unfold State.mgrPort
  rw [s.rd_called_low c svc (by decide) (by decide)]

@[simp] theorem State.fnPort_called (fn : Nat) : (s.called c svc).fnPort fn = s.fnPort fn := by
  unfold State.fnPort
  rw [s.mgrPort_called c svc]
  rfl

@[simp] theorem State.mayName_called (d : FnId) (o : Nat) : (s.called c svc).mayName d o = s.mayName d o := by
  cases d with
  | mgr | vf => rfl
  | sub =>
    unfold State.mayName
    dsimp only
    rw [s.fnPort_called c svc, s.mgrPort_called c svc]
    rfl

@[simp] theorem State.pageArgs_called : (s.called c svc).pageArgs c = s.pageArgs c := by
  simp only [State.pageArgs, State.arg_called, State.usable_called]

end

section
variable {s : State} {c : FnId} {svc : Nat} {run : State → State}

theorem State.startCall_of_running (hc : s.caller c = true) (hb : s.rd (callBase c) Reg.CALL_STATUS_BUSY = 0)
    (hrun : s.rd secB Reg.SEC_STATE_STATE = 1) : s.startCall c svc run = run (s.called c svc) := by
  have hrun' : (s.called c svc).rd secB Reg.SEC_STATE_STATE = 1 := (s.rd_called_low c svc (by decide) (by decide)).trans hrun
  unfold State.startCall
  dsimp only
  rw [hc, hb]
  exact if_pos hrun'

theorem State.startCall_of_not_running (hc : s.caller c = true) (hb : s.rd (callBase c) Reg.CALL_STATUS_BUSY = 0)
    (hrun : s.rd secB Reg.SEC_STATE_STATE ≠ 1) : s.startCall c svc run = (s.called c svc).endCall c callUnavailable := by
  have hrun' : ¬ (s.called c svc).rd secB Reg.SEC_STATE_STATE = 1 := by rwa [s.rd_called_low c svc (by decide) (by decide)]
  unfold State.startCall
  dsimp only
  rw [hc, hb]
  exact if_neg hrun'

theorem State.startCall_of_busy (hc : s.caller c = true) (hb : s.rd (callBase c) Reg.CALL_STATUS_BUSY = 1) :
    s.startCall c svc run = s.put (callBase c) Reg.CALL_STATUS_RESULT callBusy := by
  unfold State.startCall
  dsimp only
  rw [hc, hb]
  rfl

theorem State.callReach_of_answers (ha : s.answers (fnNum c) = true) (hw : s.awaiting = false) (act : State → State) :
    s.callReach c act = act s := by
  rw [State.callReach, ha, hw]
  rfl

/-- A service that is called while the secure world runs is carried out at once. -/
theorem State.callReach_startCall (hready : callReady s c) (hrun : s.rd secB Reg.SEC_STATE_STATE = 1) :
    (s.callReach c fun u => u.startCall c svc run) = run (s.called c svc) := by
  obtain ⟨ha, hw, hc, hb⟩ := hready
  exact (State.callReach_of_answers ha hw _).trans (State.startCall_of_running hc hb hrun)

end

end Sys2Proof.Machine
end

section
/-! The page calls (R401, R409, R410): none of them changes the table or memory; they answer, or leave a batch to commit. -/
namespace Sys2Proof.Machine

/-! ## What a call leaves -/

/-- The state beside the register file, without what is kept of the calls in progress. -/
def State.uncalled (s : State) : State := { s.inner with sec := { s.sec with calls := [] } }

/-- From `s` to `t` only registers and what is kept of the calls have changed, and the usable capacity is the same. -/
structure CallOnly (s t : State) : Prop where
  uncalled : t.uncalled = s.uncalled
  usable : t.usable = s.usable

theorem State.uncalled_eq_of_inner {s t : State} (h : t.inner = s.inner) : t.uncalled = s.uncalled :=
  (congrArg (fun u : State => ({ u with sec := { u.sec with calls := [] } } : State)) h :)

namespace CallOnly

variable {s t u : State} {c : FnId}

theorem refl (s : State) : CallOnly s s := ⟨rfl, rfl⟩

theorem trans (h : CallOnly s t) (h' : CallOnly t u) : CallOnly s u := ⟨h'.uncalled.trans h.uncalled, h'.usable.trans h.usable⟩

theorem of_keeps {mine : Nat → Prop} (h : keeps mine s t) (hm : ¬ mine (dmcB + Reg.DMC_USABLE_MIB.off)) : CallOnly s t :=
  ⟨State.uncalled_eq_of_inner h.inner, congrArg (· * 2 ^ 20) (h.regs dmcB Reg.DMC_USABLE_MIB (by decide) (by unfold outputReg; decide) hm)⟩

theorem settle (h : CallOnly s t) (pre : State) : CallOnly s (settle pre t) :=
  h.trans (of_keeps ((keeps.refl noRegs t).settle pre) not_false)

theorem put (h : CallOnly s t) {a : Nat} {f : Fld} (v : Nat) (hf : f.lo < 32) (ha : secB ≤ a) : CallOnly s (t.put a f v) :=
  h.trans (of_keeps (mine := fun b => secB ≤ b) ((keeps.refl _ t).put v hf (Nat.le_trans ha (Nat.le_add_right a f.off)))
    (Nat.not_le_of_lt (by decide)))

theorem setCallX (h : CallOnly s t) (x : CallX) : CallOnly s (t.setCallX c x) := ⟨h.uncalled, h.usable⟩

theorem called (h : CallOnly s t) (c : FnId) (svc : Nat) : CallOnly s (t.called c svc) := ⟨h.uncalled, (t.usable_called c svc).trans h.usable⟩

theorem endCall (h : CallOnly s t) (c : FnId) (r : Nat) : CallOnly s (t.endCall c r) := by
  have hne : callBase c + Reg.CALL_STATUS_BUSY.off ≠ dmcB + Reg.DMC_USABLE_MIB.off := by
    have hlow : dmcB + Reg.DMC_USABLE_MIB.off < secB := by decide
    have := secB_le_callBase c
    omega
  exact h.trans ⟨(State.uncalled_eq_of_inner (t.inner_endCall c r)).trans rfl,
    congrArg (· * 2 ^ 20) (t.rd_endCall_ne c r (b := dmcB) (g := Reg.DMC_USABLE_MIB) ⟨by decide, .inl (by decide)⟩ (by decide) hne)⟩

theorem putRet (h : CallOnly s t) (c : FnId) (k v : Nat) : CallOnly s (t.putRet c k v) :=
  h.put v (by decide) ((Nat.le_of_add_right_le (secB_le_callBase c)).trans (Nat.le_add_right _ _))

theorem failCall (h : CallOnly s t) (c : FnId) (r idx : Nat) : CallOnly s (t.failCall c r idx) := (h.putRet c 0 idx).endCall c r

theorem batchCall (h : CallOnly s t) (c : FnId) (l : List (Nat × Nat)) (pins : Bool) : CallOnly s ((t.putRet c 0 0).batchCall c l pins) :=
  (h.putRet c 0 0).setCallX _

theorem startCall (c : FnId) (svc : Nat) {run : State → State} (hrun : ∀ u, CallOnly u (run u)) : CallOnly s (s.startCall c svc run) := by
  unfold State.startCall
  dsimp only
  split
  · exact refl s
  split
  · exact (refl s).put _ (by decide) (Nat.le_of_add_right_le (secB_le_callBase c))
  split
  · exact ((refl s).called c svc).trans (hrun _)
  · exact ((refl s).called c svc).endCall c _

/-- A write to a call block that comes before a Ringplan is recorded in the DEV_ frame. -/
theorem earlyWrite (off : Nat) : CallOnly s (s.earlyWrite off) := by
  have herr : ∀ t : State, keeps (inFrame devB 0x10000) t (t.raiseErr devB Reg.ERR_ACCESS_ERR) := fun t => by
    unfold State.raiseErr
    split
    · exact keeps.refl _ t
    · have hput := (keeps.refl (inFrame devB 0x10000) t).put (a := devB) (f := Reg.ERR_ACCESS_ERR) 1 (by decide) (by unfold inFrame; decide)
      have hirq : ∀ u : State, u.errIrq devB = u.mgrIrq := fun u => rfl
      dsimp only
      split
      · rw [hirq]
        exact hput.trans ⟨State.inner_mgrIrq _, fun b g hg ho _ => State.rd_mgrIrq _ (fun e => ho (.inr (.inr (.inr e)))) hg⟩
      · exact hput
  refine of_keeps (mine := inFrame devB 0x10000) ?_ (by unfold inFrame; decide)
  unfold State.earlyWrite State.accessErr
  split
  · exact keeps.refl _ s
  · exact (((keeps.refl _ s).put _ (by decide) (by unfold inFrame; decide)).put _ (by decide) (by unfold inFrame; decide)).trans (herr _)

theorem callReach (c : FnId) {act : State → State} (hact : CallOnly s (act s)) : CallOnly s (s.callReach c act) := by
  unfold State.callReach
  split
  · exact refl s
  split
  · exact earlyWrite _
  · exact hact

theorem pageAssign (s : State) (c : FnId) : CallOnly s (s.pageAssign c) := startCall c 1 fun u => by
  extract_lets p n o f
  split
  · exact (refl u).failCall c _ _
  split
  · exact (refl u).failCall c _ _
  split
  · exact (refl u).failCall c _ _
  split
  · exact (refl u).failCall c _ _
  split
  · exact (refl u).failCall c _ _
  · exact (refl u).batchCall c _ _

theorem pageRelease (s : State) (c : FnId) : CallOnly s (s.pageRelease c) := startCall c 2 fun u => by
  dsimp only
  split
  · exact (refl u).failCall c _ _
  split
  · exact (refl u).failCall c _ _
  · exact (refl u).batchCall c _ _

theorem pageFlags (s : State) (c : FnId) : CallOnly s (s.pageFlags c) := startCall c 3 fun u => by
  dsimp only
  split
  · exact (refl u).failCall c _ _
  split
  · exact (refl u).failCall c _ _
  split
  · exact (refl u).failCall c _ _
  · exact (refl u).batchCall c _ _

theorem pageQuery (s : State) (c : FnId) : CallOnly s (s.pageQuery c) := startCall c 4 fun u => by
  dsimp only
  split
  · exact (refl u).failCall c _ _
  · exact ((refl u).putRet c 0 _).endCall c _

theorem pot (h : CallOnly s t) : t.pot = s.pot := (congrArg State.pot h.uncalled :)
theorem dram (h : CallOnly s t) : t.dram = s.dram := (congrArg State.dram h.uncalled :)

theorem entry (h : CallOnly s t) (p : Nat) : t.entry p = s.entry p := by
  unfold State.entry State.potBase State.page
  rw [h.usable, h.pot]

end CallOnly

/-! ## The page calls -/

/-- One of the four commands that call a page service, and the number of its service. -/
inductive PageCall (c : FnId) : Instr → Nat → Prop
  | assign : PageCall c (.pageAssign c) 1
  | release : PageCall c (.pageRelease c) 2
  | flags : PageCall c (.pageFlags c) 3
  | query : PageCall c (.pageQuery c) 4

section
variable {s : State} {c : FnId} {i : Instr} {svc : Nat}

/-- A page call starts its service at the caller's block, and carries it out without a change of the table. -/
theorem PageCall.exec_eq (h : PageCall c i svc) (s : State) : ∃ run : State → State, (∀ u, CallOnly u (u.startCall c svc run)) ∧
    exec i s = .next (settle s (s.callReach c fun u => u.startCall c svc run)) := by
  cases h with
  | assign => exact ⟨_, fun u => CallOnly.pageAssign u c, rfl⟩
  | release => exact ⟨_, fun u => CallOnly.pageRelease u c, rfl⟩
  | flags => exact ⟨_, fun u => CallOnly.pageFlags u c, rfl⟩
  | query => exact ⟨_, fun u => CallOnly.pageQuery u c, rfl⟩

theorem completes_pageCall (h : PageCall c i svc) : completes i s fun t => t.pot = s.pot ∧ t.dram = s.dram ∧ ∀ p, t.entry p = s.entry p := by
  obtain ⟨run, honly, he⟩ := h.exec_eq s
  have hkept := (CallOnly.callReach c (act := fun u => u.startCall c svc run) (honly s)).settle s
  exact completes_of_effect he rfl ⟨hkept.pot, hkept.dram, hkept.entry⟩

theorem completes_pageCall_unavailable (h : PageCall c i svc) (hready : callReady s c) (hrun : s.rd secB Reg.SEC_STATE_STATE ≠ 1) :
    completes i s (callEnds c callUnavailable) := by
  obtain ⟨ha, hw, hc, hb⟩ := hready
  obtain ⟨run, -, he⟩ := h.exec_eq s
  exact completes_of_effect he ((State.callReach_of_answers ha hw _).trans (State.startCall_of_not_running hc hb hrun))
    (callEnds_settle (callEnds_endCall _ c (by decide)) s)

theorem completes_pageCall_busy (h : PageCall c i svc) (ha : s.answers (fnNum c) = true) (hw : s.awaiting = false)
    (hc : s.caller c = true) (hb : s.rd (callBase c) Reg.CALL_STATUS_BUSY = 1) :
    completes i s fun t => t.rd (callBase c) Reg.CALL_STATUS_RESULT = callBusy ∧ t.rd (callBase c) Reg.CALL_STATUS_BUSY = 1 ∧
      keeps (· = callBase c + Reg.CALL_STATUS_RESULT.off) s t := by
  obtain ⟨run, -, he⟩ := h.exec_eq s
  refine completes_of_effect he ((State.callReach_of_answers ha hw _).trans (State.startCall_of_busy hc hb))
    ⟨?_, ?_, ((keeps.refl (· = callBase c + Reg.CALL_STATUS_RESULT.off) s).put _ (by decide) rfl).settle s⟩
  · rw [rd_settle_callBase _ _ _ (by decide), State.rd_put_self]
    rfl
  · rw [rd_settle_callBase _ _ _ (by decide), State.rd_put_apart _ (by decide), hb]

/-! ## What a query answers, and what the other services check -/

theorem doPageQuery_of_named (hready : callReady s c) (hrun : s.rd secB Reg.SEC_STATE_STATE = 1)
    (hin : s.arg c 0 % 2 ^ 24 * 4096 < s.usable) (hname : s.mayName c (ownerOf (s.entry (s.arg c 0 % 2 ^ 24))) = true) :
    doPageQuery s c = ((s.called c 4).putRet c 0 (s.shownEntry (s.arg c 0 % 2 ^ 24))).endCall c callOk := by
  refine (State.callReach_startCall hready hrun).trans ?_
  simp only [State.arg_called, State.usable_called, State.mayName_called, State.entry_called, State.shownEntry_called]
  rw [if_neg (Nat.not_le_of_lt hin), if_pos hname]

theorem completes_pageQuery_of_named (hready : callReady s c) (hrun : s.rd secB Reg.SEC_STATE_STATE = 1)
    (hin : s.arg c 0 % 2 ^ 24 * 4096 < s.usable) (hname : s.mayName c (ownerOf (s.entry (s.arg c 0 % 2 ^ 24))) = true) :
    completes (.pageQuery c) s fun t => callEnds c callOk t ∧
      t.rd (callBase c) Reg.CALL_RET_RET = s.shownEntry (s.arg c 0 % 2 ^ 24) % 2 ^ 32 := by
  obtain ⟨hends, hret⟩ := callEnds_failCall (s.called c 4) c (r := callOk) (by decide) (s.shownEntry (s.arg c 0 % 2 ^ 24))
  exact completes_of_effect rfl (doPageQuery_of_named hready hrun hin hname)
    ⟨callEnds_settle hends s, (rd_settle_callBase _ _ _ (by decide)).trans hret⟩

theorem doPageFlags_of_badFlags (hready : callReady s c) (hrun : s.rd secB Reg.SEC_STATE_STATE = 1) (hflags : 8 ≤ s.arg c 3) :
    doPageFlags s c = (s.called c 3).failCall c callBadArgs 0 := by
  refine (State.callReach_startCall hready hrun).trans ?_
  dsimp only
  rw [State.arg_called _ _ _ 3, if_pos hflags]

theorem doPageAssign_of_badFlags (hready : callReady s c) (hrun : s.rd secB Reg.SEC_STATE_STATE = 1) (hflags : 8 ≤ s.arg c 3) :
    doPageAssign s c = (s.called c 1).failCall c callBadArgs 0 := by
  refine (State.callReach_startCall hready hrun).trans ?_
  dsimp only
  rw [State.arg_called _ _ _ 3, if_pos (.inl hflags)]

theorem completes_badArgs {post : State} (he : exec i s = .next (settle s post)) (hpost : post = (s.called c svc).failCall c callBadArgs 0) :
    completes i s (callEnds c callBadArgs) :=
  completes_of_effect he hpost (callEnds_settle (callEnds_failCall _ c (by decide) 0).1 s)

/-- No index fails a test that every index of the range passes. -/
theorem firstIdx_eq_none {n : Nat} {f : Nat → Bool} (h : ∀ k, k < n → f k = false) : firstIdx n f = none := by
  simpa [firstIdx] using h

theorem doPageFlags_of_named (hready : callReady s c) (hrun : s.rd secB Reg.SEC_STATE_STATE = 1) (hargs : s.pageArgs c = none)
    (hflags : s.arg c 3 < 8) (hname : ∀ k, k < s.arg c 1 → s.mayName c (ownerOf (s.entry (s.arg c 0 % 2 ^ 24 + k))) = true) :
    doPageFlags s c = ((s.called c 3).putRet c 0 0).batchCall c ((List.range (s.arg c 1)).map fun k =>
      (s.arg c 0 % 2 ^ 24 + k, ownerOf (s.entry (s.arg c 0 % 2 ^ 24 + k)) + 1024 * s.arg c 3)) false := by
  have hall : firstIdx (s.arg c 1) (fun k => !s.mayName c (ownerOf (s.entry (s.arg c 0 % 2 ^ 24 + k)))) = none :=
    firstIdx_eq_none fun k hk => by rw [hname k hk]; rfl
  refine (State.callReach_startCall hready hrun).trans ?_
  simp only [State.arg_called, State.pageArgs_called, State.mayName_called, State.entry_called]
  rw [if_neg (Nat.not_le_of_lt hflags), hargs, hall]

theorem completes_pageFlags_of_named (hready : callReady s c) (hrun : s.rd secB Reg.SEC_STATE_STATE = 1) (hargs : s.pageArgs c = none)
    (hflags : s.arg c 3 < 8) (hname : ∀ k, k < s.arg c 1 → s.mayName c (ownerOf (s.entry (s.arg c 0 % 2 ^ 24 + k))) = true) :
    completes (.pageFlags c) s fun t => t.rd (callBase c) Reg.CALL_STATUS_BUSY = 1 ∧
      (t.callX c).batch = (List.range (s.arg c 1)).map fun k =>
        (s.arg c 0 % 2 ^ 24 + k, ownerOf (s.entry (s.arg c 0 % 2 ^ 24 + k)) + 1024 * s.arg c 3) := by
  refine completes_of_effect rfl (doPageFlags_of_named hready hrun hargs hflags hname) ⟨?_, ?_⟩
  · have hret : ((s.called c 3).putRet c 0 0).rd (callBase c) Reg.CALL_STATUS_BUSY = (s.called c 3).rd (callBase c) Reg.CALL_STATUS_BUSY :=
      State.rd_put_apart (f := Reg.CALL_RET_RET) _ (by decide) (callBase c) 0
    exact (rd_settle_callBase _ _ _ (by decide)).trans (hret.trans (s.rd_called_busy c 3))
  · rw [callX_settle, State.batchCall, State.callX_setCallX_self]

end

/-- Settles O38, a service at a time. Which check of a call comes first is log entry 89 (DESIGN CHOICE): reserved flags end BAD_ARGS whatever
else fails. -/
theorem pageCallsChecked : Obligations.PageCallsChecked := by
  unfold Obligations.PageCallsChecked
  intro s c i hi
  obtain ⟨svc, hcall⟩ : ∃ svc, PageCall c i svc := by
    obtain rfl | rfl | rfl | rfl := hi
    · exact ⟨_, .assign⟩
    · exact ⟨_, .release⟩
    · exact ⟨_, .flags⟩
    · exact ⟨_, .query⟩
  refine ⟨completes_pageCall hcall, completes_pageCall_unavailable hcall, completes_pageCall_busy hcall, fun hready hrun =>
    ⟨completes_pageQuery_of_named hready hrun, fun hflags => ⟨?_, ?_⟩, completes_pageFlags_of_named hready hrun⟩⟩
  · exact completes_badArgs rfl (doPageFlags_of_badFlags hready hrun hflags)
  · exact completes_badArgs rfl (doPageAssign_of_badFlags hready hrun hflags)

end Sys2Proof.Machine
end

section
/-! The commit of a batch (R401, R410) and the end of a release (R402). -/
namespace Sys2Proof.Machine

@[simp] theorem page_settle (pre post : State) (p : Nat) : (settle pre post).page p = post.page p :=
  (congrArg (State.page · p) (inner_settle pre post) :)

@[simp] theorem State.page_setPage_self (s : State) (p e : Nat) : (s.setPage p e).page p = e := KMap.get_set_self _ _ _ _

theorem State.page_setPage_ne (s : State) {p b : Nat} (e : Nat) (h : b ≠ p) : (s.setPage p e).page b = s.page b :=
  KMap.get_set_ne _ _ _ h.symm

/-! ## Batches -/

/-- The index of the first entry of a batch that is no longer as the call found it. -/
def State.batchFault (s : State) (x : CallX) : Option Nat :=
  firstIdx x.batch.length fun k => match x.batch[k]? with | some e => !s.batchOk x.service e | none => false

/-- The entries of a batch take effect together. -/
def State.batchTaken (s : State) (x : CallX) : State :=
  s.each x.batch fun s e =>
    if x.service = 2 then
      s.releasePage e.1 (pScrub (s.entry e.1) || (decide (16 ≤ ownerOf (s.entry e.1)) &&
        decide (s.rd (instBase (ownerOf (s.entry e.1) - 16)) Reg.INST_STATUS_RESET_UNCLEAN = 1))) 0
    else s.setPage e.1 e.2

section
variable {s : State} {c : FnId}

theorem doPotBatchCommit_of_changed {k : Nat} (hbatch : (s.callX c).batch ≠ []) (hbusy : s.rd (callBase c) Reg.CALL_STATUS_BUSY = 1)
    (hk : s.batchFault (s.callX c) = some k) : doPotBatchCommit s c = s.failCall c callNotFree k := by
  have hgo : ¬ ((s.callX c).batch = [] ∨ s.rd (callBase c) Reg.CALL_STATUS_BUSY = 0) := by simp [hbatch, hbusy]
  refine (if_neg hgo).trans ?_
  change (match s.batchFault (s.callX c) with | some k => s.failCall c callNotFree k | none => _) = _
  rw [hk]

theorem doPotBatchCommit_of_unchanged (hbatch : (s.callX c).batch ≠ []) (hbusy : s.rd (callBase c) Reg.CALL_STATUS_BUSY = 1)
    (hok : s.batchFault (s.callX c) = none) : doPotBatchCommit s c =
      (s.batchTaken (s.callX c)).endCall c (if (s.callX c).pins then callPendingPin else callOk) := by
  have hgo : ¬ ((s.callX c).batch = [] ∨ s.rd (callBase c) Reg.CALL_STATUS_BUSY = 0) := by simp [hbatch, hbusy]
  refine (if_neg hgo).trans ?_
  change (match s.batchFault (s.callX c) with
    | some k => s.failCall c callNotFree k
    | none => (s.batchTaken (s.callX c)).endCall c (if (s.callX c).pins then callPendingPin else callOk)) = _
  rw [hok]

theorem completes_potBatchCommit_changed {k : Nat} (hbatch : (s.callX c).batch ≠ []) (hbusy : s.rd (callBase c) Reg.CALL_STATUS_BUSY = 1)
    (hk : s.batchFault (s.callX c) = some k) : completes (.potBatchCommit c) s fun t =>
      callEnds c callNotFree t ∧ t.pot = s.pot ∧ t.rd (callBase c) Reg.CALL_RET_RET = k % 2 ^ 32 := by
  obtain ⟨hends, hret⟩ := callEnds_failCall s c (r := callNotFree) (by decide) k
  exact completes_of_effect rfl (doPotBatchCommit_of_changed hbatch hbusy hk) ⟨callEnds_settle hends s,
    (((CallOnly.refl s).failCall c callNotFree k).settle s).pot, (rd_settle_callBase _ _ _ (by decide)).trans hret⟩

/-- An assignment of one page, free as before, makes it the new owner's. -/
theorem doPotBatchCommit_of_assigned {a e : Nat} (hbatch : (s.callX c).batch = [(a, e)]) (hsvc : (s.callX c).service = 1)
    (hpins : (s.callX c).pins = false) (hbusy : s.rd (callBase c) Reg.CALL_STATUS_BUSY = 1) (hfree : ownerOf (s.entry a) = 0) :
    doPotBatchCommit s c = (s.setPage a e).endCall c callOk := by
  have hok : s.batchFault (s.callX c) = none := firstIdx_eq_none fun k hk => by
    obtain rfl : k = 0 := by simpa [hbatch] using hk
    simp [hbatch, State.batchOk, hsvc, hfree]
  have htaken : s.batchTaken (s.callX c) = s.setPage a e := by simp [State.batchTaken, State.each, hbatch, hsvc]
  rw [doPotBatchCommit_of_unchanged (by simp [hbatch]) hbusy hok, htaken, hpins]
  rfl

theorem completes_potBatchCommit_assigned {a e : Nat} (hbatch : (s.callX c).batch = [(a, e)]) (hsvc : (s.callX c).service = 1)
    (hpins : (s.callX c).pins = false) (hbusy : s.rd (callBase c) Reg.CALL_STATUS_BUSY = 1) (hfree : ownerOf (s.entry a) = 0) :
    completes (.potBatchCommit c) s fun t => callEnds c callOk t ∧ t.page a = e ∧ ∀ b, b ≠ a → t.page b = s.page b := by
  have hpage : ∀ b, (settle s ((s.setPage a e).endCall c callOk)).page b = (s.setPage a e).page b := fun b =>
    congrArg (KMap.get (fun _ => 0) · b) (((CallOnly.refl (s.setPage a e)).endCall c callOk).settle s).pot
  exact completes_of_effect rfl (doPotBatchCommit_of_assigned hbatch hsvc hpins hbusy hfree)
    ⟨callEnds_settle (callEnds_endCall _ c (by decide)) s, (hpage a).trans (s.page_setPage_self a e),
      fun b hb => (hpage b).trans (s.page_setPage_ne e hb)⟩

end

/-! ## Releases -/

section
variable {s : State} {p : Nat} {r : Release}

theorem doPinRelease_of_unpinned (hr : (s.sec.releases.find? fun r => decide (r.page = p)) = some r) (hpin : s.pinned p = false)
    (hscrub : r.scrub = false) : doPinRelease s p = s.endRelease p := by
  simp [doPinRelease, hr, hpin, hscrub]

theorem doPageScrubDone_of_unpinned (hr : (s.sec.releases.find? fun r => decide (r.page = p)) = some r) (hpin : s.pinned p = false)
    (hscrub : r.scrub = true) : doPageScrubDone s p = (s.zeroPage p).endRelease p := by
  simp [doPageScrubDone, hr, hpin, hscrub]

theorem doPinRelease_of_pinned (hpin : s.pinned p = true) : doPinRelease s p = s := by
  unfold doPinRelease
  split
  · exact if_pos (by simp [hpin])
  · rfl

theorem doPageScrubDone_of_pinned (hpin : s.pinned p = true) : doPageScrubDone s p = s := by
  unfold doPageScrubDone
  split
  · exact if_pos (by simp [hpin])
  · rfl

/-- The end of a release frees its page and no other. -/
theorem page_settle_endRelease (pre s : State) (p : Nat) : (settle pre (s.endRelease p)).page p = 0 ∧
    ∀ b, b ≠ p → (settle pre (s.endRelease p)).page b = s.page b :=
  ⟨(page_settle _ _ _).trans (State.page_setPage_self _ p 0), fun _ hb => (page_settle _ _ _).trans (State.page_setPage_ne _ 0 hb)⟩

@[simp] theorem State.regs_endRelease (s : State) (p : Nat) : (s.endRelease p).regs = s.regs := rfl

@[simp] theorem State.regs_zeroPage (s : State) (p : Nat) : (s.zeroPage p).regs = s.regs := by
  obtain ⟨x, hx⟩ := s.dramWrite_eq (p * 4096) (List.replicate 4096 0)
  rw [State.zeroPage, hx]

@[simp] theorem State.page_zeroPage (s : State) (p b : Nat) : (s.zeroPage p).page b = s.page b := by
  obtain ⟨x, hx⟩ := s.dramWrite_eq (p * 4096) (List.replicate 4096 0)
  rw [State.zeroPage, hx]
  rfl

theorem State.dramBytes_dramWrite (s : State) (a : Nat) (bs : List Byte) {n : Nat} (hn : bs.length = n) : (s.dramWrite a bs).dramBytes a n = bs := by
  rw [← hn, State.dramBytes, State.dram_dramWrite, KMap.readBytes_writeBytes]

theorem State.dramBytes_zeroPage (s : State) (p : Nat) : (s.zeroPage p).dramBytes (p * 4096) 4096 = List.replicate 4096 0 :=
  s.dramBytes_dramWrite (p * 4096) (List.replicate 4096 0) List.length_replicate

end

section
variable {s : State} {p : BitVec 24} {r : Release}

theorem completes_pinRelease_unpinned (hr : (s.sec.releases.find? fun r => decide (r.page = p.toNat)) = some r)
    (hpin : s.pinned p.toNat = false) (hscrub : r.scrub = false) : completes (.pinRelease p) s fun t => t.page p.toNat = 0 ∧
      t.dram = s.dram ∧ keepsRegs s t ∧ ∀ b, b ≠ p.toNat → t.page b = s.page b := by
  obtain ⟨hfreed, hother⟩ := page_settle_endRelease s s p.toNat
  exact completes_of_effect rfl (doPinRelease_of_unpinned hr hpin hscrub) ⟨hfreed, dram_settle _ _, keepsRegs_settle rfl, hother⟩

theorem completes_pageScrubDone_unpinned (hr : (s.sec.releases.find? fun r => decide (r.page = p.toNat)) = some r)
    (hpin : s.pinned p.toNat = false) (hscrub : r.scrub = true) : completes (.pageScrubDone p) s fun t => t.page p.toNat = 0 ∧
      t.dramBytes (p.toNat * 4096) 4096 = List.replicate 4096 0 ∧ keepsRegs s t ∧ ∀ b, b ≠ p.toNat → t.page b = s.page b := by
  obtain ⟨hfreed, hother⟩ := page_settle_endRelease s (s.zeroPage p.toNat) p.toNat
  have hdram : (settle s ((s.zeroPage p.toNat).endRelease p.toNat)).dram = (s.zeroPage p.toNat).dram := dram_settle _ _
  refine completes_of_effect rfl (doPageScrubDone_of_unpinned hr hpin hscrub)
    ⟨hfreed, ?_, keepsRegs_settle (by simp), fun b hb => (hother b hb).trans (s.page_zeroPage p.toNat b)⟩
  rw [State.dramBytes, hdram]
  exact s.dramBytes_zeroPage p.toNat

end

/-- Settles O39. That a batch with a changed page fails whole, with NOT_FREE and the first such index, is log entry 90 (DESIGN CHOICE). -/
theorem pageBatches : Obligations.PageBatches := by
  unfold Obligations.PageBatches
  intro s c p
  refine ⟨fun k hbatch hbusy hk => completes_potBatchCommit_changed hbatch hbusy hk,
    fun a e hbatch hsvc hpins hbusy hfree => completes_potBatchCommit_assigned hbatch hsvc hpins hbusy hfree,
    fun r hr hpin => ⟨completes_pinRelease_unpinned hr hpin, completes_pageScrubDone_unpinned hr hpin⟩, fun hpin => ⟨?_, ?_⟩⟩
  · exact completes_of_effect rfl (doPinRelease_of_pinned hpin) ((keeps.refl noRegs s).settle s)
  · exact completes_of_effect rfl (doPageScrubDone_of_pinned hpin) ((keeps.refl noRegs s).settle s)

end Sys2Proof.Machine
end

section
/-! Debug certificates (R417 to R419) and the requests held for the secure world (R412). -/
namespace Sys2Proof.Machine

theorem CallOnly.fuses {s t : State} (h : CallOnly s t) : t.fuses = s.fuses := (congrArg State.fuses h.uncalled :)
theorem CallOnly.certOpens {s t : State} (h : CallOnly s t) : t.sec.certOpens = s.sec.certOpens :=
  (congrArg (fun u : State => u.sec.certOpens) h.uncalled :)

/-! ## The end of a certificate -/

section
variable (s : State)

/-- Barker's level is set, and a rise of it is flagged. -/
theorem State.levelLook_cases : ∃ l, s.levelLook = s.put brkB Reg.BRK_STATUS_LEVEL l ∨
    s.levelLook = (s.put brkB Reg.BRK_STATUS_LEVEL l).raise brkB Reg.BRK_EVENT_UNLOCKED := by
  unfold State.levelLook
  extract_lets opened l was
  refine ⟨l, ?_⟩
  split
  · exact .inr rfl
  · exact .inl rfl

@[simp] theorem State.unreported_debugChange : s.debugChange.unreported = s.unreported := by
  have hlevel : ∀ u : State, u.levelLook.unreported = u.unreported := fun u => by
    obtain ⟨l, h | h⟩ := u.levelLook_cases <;> simp [h]
  rw [State.debugChange, hlevel, State.unreported_stage, State.unreported_raise]

/-- A change of a certificate is reported outside SEC_STATE. -/
theorem State.rd_debugChange_secState {g : Fld} (hoff : g.off = Reg.SEC_STATE_STATE.off) (hg : g.lo < 32) :
    s.debugChange.rd secB g = s.rd secB g := by
  have haddr : secB + g.off = secB := by rw [hoff]; rfl
  have hpba : secB + g.off ≠ pbaBase 0 := by rw [haddr]; decide
  have hstage : ¬ stagingReg (secB + g.off) := by rw [haddr]; unfold stagingReg; decide
  have hlevel : ∀ u : State, u.levelLook.rd secB g = u.rd secB g := fun u => by
    have hput : ∀ l, (u.put brkB Reg.BRK_STATUS_LEVEL l).rd secB g = u.rd secB g := fun l =>
      u.rd_put_addr l (by decide) hg (by rw [haddr]; decide)
    have hkey : fkey (brkB + Reg.BRK_EVENT_UNLOCKED.off) Reg.BRK_EVENT_UNLOCKED.lo ≠ fkey (secB + g.off) g.lo := by
      have : brkB + Reg.BRK_EVENT_UNLOCKED.off < secB := by decide
      have : Reg.BRK_EVENT_UNLOCKED.lo < 32 := by decide
      rw [haddr, fkey, fkey]
      omega
    obtain ⟨l, h | h⟩ := u.levelLook_cases
    · rw [h, hput]
    · rw [h, State.rd_raise_block _ (by decide) hpba hg hkey, hput]
  have hraise : (s.raise secB Reg.SEC_EVENT_DEBUG_CHANGE).rd secB g = s.rd secB g :=
    s.rd_raise_block (by decide) hpba hg (fkey_ne_of_apart ⟨by decide, hg, .inl (by rw [hoff]; decide)⟩ secB)
  rw [State.debugChange, hlevel, (StagesOnly.stage _ _).regs _ _ hg hstage, hraise]

/-- The certificate in force is dropped, with its lasting condition, before the change is reported. -/
def State.certDropped : State :=
  State.clearPersist { (s.put secB Reg.SEC_STATE_DEBUG_NORMAL 0).put secB Reg.SEC_STATE_DEBUG_SECURE 0 with sec := { s.sec with certOpens := 0 } }
    srcDebugOpen 0xFFFF

theorem State.endCert_of_none (h : s.rd secB Reg.SEC_STATE_DEBUG_NORMAL = 0 ∧ s.rd secB Reg.SEC_STATE_DEBUG_SECURE = 0) : s.endCert = s := if_pos h

theorem State.endCert_of_some (h : ¬ (s.rd secB Reg.SEC_STATE_DEBUG_NORMAL = 0 ∧ s.rd secB Reg.SEC_STATE_DEBUG_SECURE = 0)) :
    s.endCert = s.certDropped.debugChange := if_neg h

theorem State.rd_certDropped {g : Fld} (hoff : g.off = Reg.SEC_STATE_STATE.off) (hg : g.lo < 32) :
    s.certDropped.rd secB g = ((s.put secB Reg.SEC_STATE_DEBUG_NORMAL 0).put secB Reg.SEC_STATE_DEBUG_SECURE 0).rd secB g := by
  refine State.rd_clearPersist_of_ne _ _ _ ?_
  have : Reg.SN_PERSIST_PERSIST.lo < 32 := by decide
  have : snB + Reg.SN_PERSIST_PERSIST.off < secB := by decide
  unfold fkey
  omega

@[simp] theorem State.fuses_endCert : s.endCert.fuses = s.fuses := by
  by_cases h : s.rd secB Reg.SEC_STATE_DEBUG_NORMAL = 0 ∧ s.rd secB Reg.SEC_STATE_DEBUG_SECURE = 0
  · rw [s.endCert_of_none h]
  · rw [s.endCert_of_some h]
    have hkept : s.certDropped.debugChange.fuses = s.certDropped.fuses := (congrArg State.fuses s.certDropped.unreported_debugChange :)
    exact hkept

/-- After the end of a certificate none is in force. -/
theorem State.rd_endCert_debug : s.endCert.rd secB Reg.SEC_STATE_DEBUG_SECURE = 0 ∧ s.endCert.rd secB Reg.SEC_STATE_DEBUG_NORMAL = 0 := by
  by_cases h : s.rd secB Reg.SEC_STATE_DEBUG_NORMAL = 0 ∧ s.rd secB Reg.SEC_STATE_DEBUG_SECURE = 0
  · rw [s.endCert_of_none h]
    exact h.symm
  · have hrd : ∀ g : Fld, g.off = Reg.SEC_STATE_STATE.off → g.lo < 32 → s.endCert.rd secB g =
        ((s.put secB Reg.SEC_STATE_DEBUG_NORMAL 0).put secB Reg.SEC_STATE_DEBUG_SECURE 0).rd secB g := fun g hoff hg => by
      rw [s.endCert_of_some h, State.rd_debugChange_secState _ hoff hg, s.rd_certDropped hoff hg]
    rw [hrd Reg.SEC_STATE_DEBUG_SECURE rfl (by decide), hrd Reg.SEC_STATE_DEBUG_NORMAL rfl (by decide), State.rd_put_self,
      State.rd_put_apart _ (by decide), State.rd_put_self]
    decide

end

/-! ## The debug calls -/

section
variable {s : State} {c : FnId}

@[simp] theorem State.dramGet_called (svc : Nat) (w : Who) (a n : Nat) : (s.called c svc).dramGet w a n = s.dramGet w a n := by
  have hpage : ∀ p, (s.called c svc).pageOk w false p = s.pageOk w false p := fun p => by
    unfold State.pageOk
    rw [State.entry_called]
    rfl
  have hmay : (s.called c svc).mayAccess w false a n = s.mayAccess w false a n := by
    unfold State.mayAccess
    rw [State.usable_called, funext hpage]
  unfold State.dramGet
  rw [hmay]
  rfl

theorem doDebugUnlock_of_not_mgr (hready : callReady s c) (hrun : s.rd secB Reg.SEC_STATE_STATE = 1) (hc : c ≠ .mgr) :
    doDebugUnlock s c = (s.called c 5).endCall c callNotPermitted :=
  (State.callReach_startCall hready hrun).trans (if_pos hc)

theorem doDebugRevoke_of_not_mgr (hready : callReady s c) (hrun : s.rd secB Reg.SEC_STATE_STATE = 1) (hc : c ≠ .mgr) :
    doDebugRevoke s c = (s.called c 6).endCall c callNotPermitted :=
  (State.callReach_startCall hready hrun).trans (if_pos (.inl hc))

/-- What a call that is answered at once leaves: its result, and all but the call. -/
theorem answered_settle (s : State) (c : FnId) (svc : Nat) {r : Nat} (hr : r < 256) :
    callEnds c r (settle s ((s.called c svc).endCall c r)) ∧ CallOnly s (settle s ((s.called c svc).endCall c r)) :=
  ⟨callEnds_settle (callEnds_endCall _ c hr) s, (((CallOnly.refl s).called c svc).endCall c r).settle s⟩

theorem completes_debugCall_of_not_mgr (hready : callReady s c) (hrun : s.rd secB Reg.SEC_STATE_STATE = 1) (hc : c ≠ .mgr) :
    completes (.debugUnlock c) s (fun t => callEnds c callNotPermitted t ∧ t.sec.certOpens = s.sec.certOpens) ∧
      completes (.debugRevoke c) s (fun t => callEnds c callNotPermitted t ∧ t.fuses = s.fuses) := by
  obtain ⟨hunlock, hopens⟩ := answered_settle s c 5 (r := callNotPermitted) (by decide)
  obtain ⟨hrevoke, hfuses⟩ := answered_settle s c 6 (r := callNotPermitted) (by decide)
  exact ⟨completes_of_effect rfl (doDebugUnlock_of_not_mgr hready hrun hc) ⟨hunlock, hopens.certOpens⟩,
    completes_of_effect rfl (doDebugRevoke_of_not_mgr hready hrun hc) ⟨hrevoke, hfuses.fuses⟩⟩

/-- The debug counter is burnt one higher, and SEC_STATE shows it. -/
def State.counterRaised (s : State) : State :=
  State.put { s with fuses := { s.fuses with debugCounter := s.fuses.debugCounter + 1 } } secB Reg.SEC_STATE_DEBUG_COUNTER
    (s.fuses.debugCounter + 1)

theorem State.inhibit_called (svc : Nat) : (s.called c svc).rd picB Reg.PIC_STATE_INHIBIT = s.rd picB Reg.PIC_STATE_INHIBIT :=
  s.rd_called_low c svc (by decide) (by decide)

theorem doDebugRevoke_of_inhibited (hready : callReady s .mgr) (hrun : s.rd secB Reg.SEC_STATE_STATE = 1) (hlow : s.fuses.debugCounter < 63)
    (hinh : s.rd picB Reg.PIC_STATE_INHIBIT = 1) : doDebugRevoke s .mgr = (s.called .mgr 6).endCall .mgr callInhibited := by
  have hgo : ¬ (FnId.mgr ≠ FnId.mgr ∨ 63 ≤ (s.called .mgr 6).fuses.debugCounter) := by
    rintro (h | h)
    · exact h rfl
    · exact Nat.not_le_of_lt hlow h
  refine (State.callReach_startCall hready hrun).trans ((if_neg hgo).trans ?_)
  exact if_pos ((State.inhibit_called 6).trans hinh)

theorem doDebugRevoke_of_raised (hready : callReady s .mgr) (hrun : s.rd secB Reg.SEC_STATE_STATE = 1) (hlow : s.fuses.debugCounter < 63)
    (hinh : s.rd picB Reg.PIC_STATE_INHIBIT = 0) : doDebugRevoke s .mgr = (s.called .mgr 6).counterRaised.endCert.endCall .mgr callOk := by
  have hgo : ¬ (FnId.mgr ≠ FnId.mgr ∨ 63 ≤ (s.called .mgr 6).fuses.debugCounter) := by
    rintro (h | h)
    · exact h rfl
    · exact Nat.not_le_of_lt hlow h
  have hinh' : ¬ (s.called .mgr 6).rd picB Reg.PIC_STATE_INHIBIT = 1 := by
    rw [State.inhibit_called, hinh]
    decide
  refine (State.callReach_startCall hready hrun).trans ((if_neg hgo).trans ?_)
  exact if_neg hinh'

/-- The end of a call shows in no field of SEC_STATE. -/
theorem rd_settle_endCall_secState (pre u : State) (c : FnId) (r : Nat) (g : Fld) (hoff : g.off = Reg.SEC_STATE_STATE.off) (hg : g.lo < 32) :
    (settle pre (u.endCall c r)).rd secB g = u.rd secB g := by
  have haddr : secB + g.off = secB := by rw [hoff]; rfl
  refine (rd_settle_of_secB_le _ _ (Nat.le_refl _) hg).trans (u.rd_endCall_ne c r ?_ hg ?_)
  · rw [haddr]
    exact offCallVec_of_secFrame c (o := 0) (by decide)
  · have := secB_le_callBase c
    rw [haddr]
    omega

theorem completes_debugRevoke_inhibited (hready : callReady s .mgr) (hrun : s.rd secB Reg.SEC_STATE_STATE = 1)
    (hlow : s.fuses.debugCounter < 63) (hinh : s.rd picB Reg.PIC_STATE_INHIBIT = 1) :
    completes (.debugRevoke .mgr) s fun t => callEnds .mgr callInhibited t ∧ t.fuses = s.fuses := by
  obtain ⟨hends, hkept⟩ := answered_settle s .mgr 6 (r := callInhibited) (by decide)
  exact completes_of_effect rfl (doDebugRevoke_of_inhibited hready hrun hlow hinh) ⟨hends, hkept.fuses⟩

theorem completes_debugRevoke_raised (hready : callReady s .mgr) (hrun : s.rd secB Reg.SEC_STATE_STATE = 1)
    (hlow : s.fuses.debugCounter < 63) (hinh : s.rd picB Reg.PIC_STATE_INHIBIT = 0) :
    completes (.debugRevoke .mgr) s fun t => callEnds .mgr callOk t ∧ t.fuses.debugCounter = s.fuses.debugCounter + 1 ∧
      t.rd secB Reg.SEC_STATE_DEBUG_SECURE = 0 ∧ t.rd secB Reg.SEC_STATE_DEBUG_NORMAL = 0 := by
  obtain ⟨hsecure, hnormal⟩ := State.rd_endCert_debug (s.called .mgr 6).counterRaised
  have hkept := ((CallOnly.refl (s.called .mgr 6).counterRaised.endCert).endCall .mgr callOk).settle s
  have hfuses : (s.called .mgr 6).counterRaised.endCert.fuses.debugCounter = s.fuses.debugCounter + 1 :=
    congrArg Fuses.debugCounter ((State.fuses_endCert _).trans rfl)
  exact completes_of_effect rfl (doDebugRevoke_of_raised hready hrun hlow hinh)
    ⟨callEnds_settle (callEnds_endCall _ _ (by decide)) s, (congrArg Fuses.debugCounter hkept.fuses).trans hfuses,
      (rd_settle_endCall_secState _ _ _ _ Reg.SEC_STATE_DEBUG_SECURE rfl (by decide)).trans hsecure,
      (rd_settle_endCall_secState _ _ _ _ Reg.SEC_STATE_DEBUG_NORMAL rfl (by decide)).trans hnormal⟩

theorem doDebugUnlock_of_refused {b : List Byte} {r : Nat} (hready : callReady s .mgr) (hrun : s.rd secB Reg.SEC_STATE_STATE = 1)
    (hget : s.dramGet Who.mgr (s.arg .mgr 0 + 2 ^ 32 * s.arg .mgr 1) 160 = .ok b) (hcheck : s.certCheck b = some r) :
    doDebugUnlock s .mgr = (s.called .mgr 5).failCall .mgr callCertRefused r := by
  have hcheck' : (s.called .mgr 5).certCheck b = some r := hcheck
  refine (State.callReach_startCall hready hrun).trans ((if_neg (not_not.mpr rfl)).trans ?_)
  rw [State.arg_called, State.arg_called, State.dramGet_called, hget]
  dsimp only
  rw [hcheck']
  rfl

theorem completes_debugUnlock_refused {b : List Byte} {r : Nat} (hready : callReady s .mgr) (hrun : s.rd secB Reg.SEC_STATE_STATE = 1)
    (hget : s.dramGet Who.mgr (s.arg .mgr 0 + 2 ^ 32 * s.arg .mgr 1) 160 = .ok b) (hcheck : s.certCheck b = some r) :
    completes (.debugUnlock .mgr) s fun t => callEnds .mgr callCertRefused t ∧ t.rd (callBase .mgr) Reg.CALL_RET_RET = r % 2 ^ 32 ∧
      t.sec.certOpens = s.sec.certOpens := by
  obtain ⟨hends, hret⟩ := callEnds_failCall (s.called .mgr 5) .mgr (r := callCertRefused) (by decide) r
  exact completes_of_effect rfl (doDebugUnlock_of_refused hready hrun hget hcheck) ⟨callEnds_settle hends s,
    (rd_settle_callBase _ _ _ (by decide)).trans hret, ((((CallOnly.refl s).called .mgr 5).failCall .mgr callCertRefused r).settle s).certOpens⟩

theorem completes_debugLock (ha : s.answers 0 = true) (hw : s.awaiting = false) : completes .debugLock s fun t =>
    t.rd secB Reg.SEC_STATE_DEBUG_SECURE = 0 ∧ t.rd secB Reg.SEC_STATE_DEBUG_NORMAL = 0 := by
  obtain ⟨hsecure, hnormal⟩ := s.rd_endCert_debug
  exact completes_of_effect rfl (State.mgrReach_of_answers ha hw _ _)
    ⟨(rd_settle_of_secB_le _ _ (Nat.le_refl _) (by decide)).trans hsecure, (rd_settle_of_secB_le _ _ (Nat.le_refl _) (by decide)).trans hnormal⟩

end

/-! ## Held requests -/

section
variable (s : State)

/-- A refused apply is shown in CTRL, APPLY and ERR of the frame. -/
theorem State.rd_refuseApply_block {a : Nat} (hb : frameOf a = .block) (reason off : Nat) {g : Fld} (hg : g.lo < 32)
    (hlow : g.off < Reg.CTRL_ARM.off) (hpba : a + g.off ≠ pbaBase 0) : (s.refuseApply a reason off).rd a g = s.rd a g := by
  have hput : ∀ (u : State) (f : Fld) (v : Nat), f.lo < 32 → Reg.CTRL_ARM.off ≤ f.off → (u.put a f v).rd a g = u.rd a g :=
    fun u f v hf hoff => u.rd_put_addr v hf hg (by omega)
  have herr : ∀ u : State, (u.raiseErr a Reg.ERR_APPLY_REFUSED).rd a g = u.rd a g := fun u => by
    by_cases hset : u.rd a Reg.ERR_APPLY_REFUSED = 1
    · rw [State.raiseErr, if_pos hset]
    · rw [State.rd_raiseErr_block u hb hpba hg hset, hput _ _ _ (by decide) (by decide)]
  unfold State.refuseApply
  dsimp only
  rw [herr, hput _ _ _ (by decide) (by decide), hput _ _ _ (by decide) (by decide), hput _ _ _ (by decide) (by decide)]

theorem State.rd_applyFrame_low (a : Nat) {g : Fld} (hg : g.lo < 32) (hlow : g.off < Reg.CTRL_ARM.off) :
    (s.applyFrame a).rd a g = s.rd a g := by
  have happlied : a + Reg.APPLY_APPLIED.off ≠ a + g.off := by
    simp only [Reg.APPLY_APPLIED, Reg.CTRL_ARM] at hlow ⊢
    omega
  rw [State.applyFrame, State.inc, State.rd_put_addr _ _ (by decide) hg happlied, State.rd_put_addr _ _ (by decide) hg (by omega)]
  rfl

/-- An apply of the BLW_ frame leaves BLW_STATUS. -/
theorem State.rd_blwNow_held : s.blwNow.rd blwB Reg.BLW_STATUS_HELD_SECURE = s.rd blwB Reg.BLW_STATUS_HELD_SECURE := by
  unfold State.blwNow
  split
  · rfl
  split
  · exact s.rd_refuseApply_block (by decide) _ _ (by decide) (by decide) (by decide)
  · exact s.rd_applyFrame_low blwB (by decide) (by decide)

/-- An apply of the BLW_ frame acts on the registers alone. -/
theorem State.sec_blwNow : s.blwNow.sec = s.sec := by
  have hirq : ∀ u : State, (u.errIrq blwB).sec = u.sec := fun u => (congrArg State.sec u.inner_mgrIrq :)
  have herr : ∀ u : State, (u.raiseErr blwB Reg.ERR_APPLY_REFUSED).sec = u.sec := fun u => by
    unfold State.raiseErr
    split
    · rfl
    dsimp only
    split
    · exact hirq _
    · rfl
  unfold State.blwNow
  split
  · rfl
  split
  · exact herr _
  · rfl

theorem completes_heldRequestRelease (hheld : s.sec.heldReqs ≠ []) (hfree : s.clockHeld = false) : completes .heldRequestRelease s fun t =>
    t.sec.heldReqs = [] ∧ t.rd blwB Reg.BLW_STATUS_HELD_SECURE = 0 := by
  have hgo : ¬ (s.clockHeld = true ∨ s.sec.heldReqs = []) := by simp [hheld, hfree]
  have hsec : ∀ u : State, (settle s u).sec = u.sec := fun u => (congrArg State.sec (inner_settle s u) :)
  refine completes_of_effect rfl (if_neg hgo) ⟨?_, ?_⟩
  · rw [hsec, State.sec_blwNow]
    rfl
  · rw [rd_settle_blw _ _ (by decide) (by decide), State.rd_blwNow_held, State.rd_put_self]
    rfl

end

/-- Settles O41, a command each. That a certificate out of the manager's reach ends NOT_PERMITTED is log entry 89 (DESIGN CHOICE). -/
theorem debugAccess : Obligations.DebugAccess := by
  unfold Obligations.DebugAccess
  intro s c hrun
  exact ⟨fun hready hc => completes_debugCall_of_not_mgr hready hrun hc,
    fun hready hlow => ⟨completes_debugRevoke_inhibited hready hrun hlow, completes_debugRevoke_raised hready hrun hlow⟩,
    fun b r hready hget hcheck => completes_debugUnlock_refused hready hrun hget hcheck, completes_debugLock,
    completes_heldRequestRelease s⟩

end Sys2Proof.Machine
end

section
/-! A hang that leaves a call BUSY (R408, R413, R414): a vector beyond the register's bits. -/
namespace Sys2Proof.Machine

/-- Instances 0 and 1 have calls in progress while the secure world runs. Instance 0 asks for a message at DONE, with MSI-X disabled. Its
VECTOR lists a value beyond its five bits, below the number of vectors that its record of the plan lists. -/
def strayVector : State :=
  let s := { State.reset with plan := some { insts := [{ inst := 0, vectors := 501794 }] } }
  let s := ((s.put secB Reg.SEC_STATE_STATE 1).put (callBase (.vf 0)) Reg.CALL_STATUS_BUSY 1).put (callBase (.vf 1)) Reg.CALL_STATUS_BUSY 1
  let s := s.put (callBase (.vf 0)) Reg.CALL_CMD_IRQ 1
  { s with regs := KMap.set fieldReset s.regs (fkey (callBase (.vf 0) + Reg.CALL_CMD_VECTOR.off) Reg.CALL_CMD_VECTOR.lo) 501793 }

/-- The word that would hold the pending bit of instance 0's vector is CALL_STATUS of instance 1. -/
theorem pendingWord_strayVector : pbaBase (fnNum (.vf 0)) + 4 * (strayVector.rd (callBase (.vf 0)) Reg.CALL_CMD_VECTOR / 32) =
    callBase (.vf 1) + Reg.CALL_STATUS_BUSY.off := by decide +kernel

/-- When the hang comes to instance 1's call, BUSY no longer reads 1: the call is passed over. -/
theorem busy_hang_strayVector : (doSecureCallTimeout strayVector (.vf 1)).rd (callBase (.vf 1)) Reg.CALL_STATUS_BUSY = 3 := by
  decide +kernel

/-- Refutes O40 by a register beyond its width, which no write of the model leaves behind but the statement's states may hold: in
`strayVector` the call of instance 1 times out. The hang ends the call of instance 0 first (log entry 91, DEDUCED: BUSY calls end with the
hang), and the message of that end goes to vector 501793 of instance 0. The vector is masked, and its pending bit falls into CALL_STATUS of
instance 1 (`pendingWord_strayVector`), so that the call which timed out is not ended. A vector of at most five bits has its pending bit in
the first word of its own function's array. -/
theorem not_secureWorldFails : ¬ Obligations.SecureWorldFails := by
  unfold Obligations.SecureWorldFails
  intro h
  obtain ⟨-, hruns, -⟩ := h strayVector (.vf 1)
  obtain ⟨-, htimeout, -⟩ := hruns (by decide +kernel)
  obtain ⟨t, ht, -, hended, -⟩ := htimeout (by decide +kernel)
  cases ht
  have hbusy : (settle strayVector (doSecureCallTimeout strayVector (.vf 1))).rd (callBase (.vf 1)) Reg.CALL_STATUS_BUSY = 3 := by
    rw [rd_settle_callBase _ _ _ (by decide), busy_hang_strayVector]
  exact absurd (hbusy.symm.trans hended) (by decide)

end Sys2Proof.Machine
end
